-- ==== Sys2Proof/Word.lean ====
section
/-! DEFINITION. The word types of the part: registers are 32 bits wide and little-endian, table entries are multiples
of 64 bits (R10), frames and buffers are sequences of bytes. -/

namespace Sys2Proof

/-- A register (R10). -/
abbrev Word := BitVec 32
/-- A table word or a Pawn register (R10, chapter 10). -/
abbrev Word64 := BitVec 64
/-- A byte of a frame, a record or a buffer. -/
abbrev Byte := BitVec 8

end Sys2Proof
end

