-- ==== Sys2Proof/Types.lean ====
section
/-! DEFINITION. The data that commands and state share: CAN frames, and copies on their way through the fabric. -/

/-
MARKS of the model choices coded here; the log rows say each in full.
DESIGN CHOICE (log 8, safe): the two planes are modelled once.
DESIGN CHOICE (log 10, safe): what the part cannot decide itself is an operand.
DESIGN CHOICE (log 14, unsafe): a start-up and a wake are one atomic step.
DESIGN CHOICE (log 24, unsafe): gPTP: who chooses the roles, and the receipt timeout.
PRESUMED (log 123, unsafe): gPTP: the comparison of masters.
-/

namespace Sys2Proof

/-- A CAN frame as the frame record of R94 gives it: formats 0 Classical, 1 FD, 2 XL. -/
structure CanFrame where
  ide : Bool := false
  rtr : Bool := false
  id : Nat := 0
  fmt : Nat := 0
  brs : Bool := false
  esi : Bool := false
  sec : Bool := false
  dlc : Nat := 0
  af : Nat := 0
  sdt : Nat := 0
  vcid : Nat := 0
  data : List Byte := []
  deriving DecidableEq, Repr

/-- What a CAN controller can offer to the bus (R101). -/
inductive CanSrc where
  | sync
  | followUp
  | cls (c : Nat)
  | mailbox (n : Nat)
  deriving DecidableEq, Repr

/-- What a copy carries: a CAN or an Ethernet frame record, a snapshot record, or a mirror copy. -/
inductive RecKind where
  | can | eth | snap | mirror
  deriving DecidableEq, Repr

/-- What a start or a wake finds, none of it decided by the part's own state: whether the helper data's hash and the
extractor's check value hold (R420), whether the Arbiter firmware of slots A and B verifies (R543), the failing words of
memory instances that BIST finds (R481), and a tamper sensor that fires before the root is READY (R440). -/
structure StartEnv where
  rootGood : Bool := true
  fwA : Bool := true
  fwB : Bool := true
  bist : List (Nat × Nat) := []
  tamper : Option Nat := none
  deriving DecidableEq, Repr

/-- A BAR0 read as its requester sent it (R57): the byte enables, and the endpoint it came from, none for a Benolsia
peer's. -/
structure WideRead where
  be : Nat := 15
  part : Option Nat := none
  deriving DecidableEq, Repr

/-- How an Ethernet frame came in: `how` 0 an express or unmerged frame, 1 one that the preemptable MAC reassembled, 2 fragments
that failed reassembly, 3 a verify and 4 a respond frame of the merge sublayer (R147); 5 the part of a frame that has come in so
far (R185); 6 a frame whose controller faults and hands over no bytes (R181). `lag` is the time in femtoseconds since its first
bit after the SFD crossed the balls (R79). -/
structure EthIn where
  how : Nat := 0
  lag : Nat := 0
  deriving DecidableEq, Repr

/-- What a cell's way through the pools meets (R345, R355): `bad` 0 nothing, 1 an uncorrectable word in the middle, 2 one in the ingress pool,
3 one in the egress pool of the copy that heads queue (out, cls); in White's and Black's memory, at a word address. -/
structure CellRead where
  bad : Nat := 0
  white : Bool := true
  black : Bool := true
  addr : Nat := 0
  out : Nat := 0
  cls : Nat := 0
  deriving DecidableEq, Repr

/-- What a comparison of the planes' items finds (R372, R374): whether White's and Black's item agree, and the self-check flags that each
plane raises with it: bit 1 PARITY, for a pipeline register or control path of the plane, bit 2 BUDGET, for an invocation that stopped
on that plane alone. -/
structure ItemCheck where
  same : Bool := true
  white : Nat := 0
  black : Nat := 0
  deriving DecidableEq, Repr

/-- How a CAN frame came in: its time from SOF to the end of EOF (R240), and whether the controller faults and hands over no
bytes of its record (R181). -/
structure CanIn where
  wire : Nat := 0
  fault : Bool := false
  deriving DecidableEq, Repr

/-- What a plane does at a staging FIFO (R177, R185-R191). `ptr` is R191's case of the planes' pointers: 1 White's, 2
Black's copy fails parity, 3 neither, 4 both; 0 they agree. `step` 0 passes the oldest packet
whole: MARK, read, REWIND, read again, RELEASE; 1 is a MARK, 2 a read of one word, 3 a REWIND and 4 a RELEASE of packet `pkt`,
counted from the oldest in the FIFO, each by plane `plane` alone (0 White, 1 Black). -/
structure StgRead where
  ptr : Nat := 0
  step : Nat := 0
  plane : Nat := 0
  pkt : Nat := 0
  deriving DecidableEq, Repr

/-- Where an error stood on the bus (R119): the field, whether it stood in the data phase of an XL frame (R86), and the loop
delay in clock cycles that the controller had measured in its own frame by then (R90). -/
structure CanErr where
  field : Nat := 0
  xl : Bool := false
  delay : Option Nat := none
  deriving DecidableEq, Repr

/-- How a frame's transmission ended: collisions before it under CSMA/CD (R127), and whether its cells passed the parity check
of R17. -/
structure TxEnd where
  coll : Nat := 0
  parity : Bool := true
  deriving DecidableEq, Repr

/-- A Sync as the Arbiter's protocol engine takes it (R69): the grandmaster's clockIdentity, the domainNumber, the priority vector
that its port last announced, as one number of which the lower is the better (priority1 from bit 104 on), and, where the port has
measured its link since the last Sync, the responder's PLCA node and the mean link delay in nanoseconds. -/
structure SyncMsg where
  gm : Nat
  domain : Nat := 0
  rank : Nat := 0
  pdelay : Option (Nat × Nat) := none
  deriving DecidableEq, Repr

/-- What a tamper sensor reads (R435): sensors 0-8 and 10 a number in the units of TS_LIM; 9, 11 and 12 whether they detect
something; the TAMPER_IN pins, 13 and 14, their level (`found`: high) and for how many microseconds it has stood. -/
structure TamperReading where
  value : Int := 0
  found : Bool := false
  heldUs : Nat := 0
  deriving DecidableEq, Repr

/-- What a register write may find that the part's own state does not decide: a start that it causes (R566, R581), the
regions with errors that a sweep finds or the failing words that BIST finds (R382, R481), whether the 10 MHz holdover
input is present (R74), and the vectors that the host's MSI-X table leaves unmasked, where the request comes with a write
of that table (R62). -/
structure WriteEnv where
  start : StartEnv := {}
  bad : Nat := 0
  ref10 : Bool := false
  msix : Option (List Nat) := none
  deriving DecidableEq, Repr

end Sys2Proof
end

