-- ==== Sys2Proof/Syntax.lean ====
section
/-! DEFINITION. The commands of the part: one constructor for each row of the spec's table, in its order.

The operands that many of them share: `k` is a partition (H0-H3) that reads or writes, or the partition that an event
concerns; where a command names a bank or a unit of its own beside the writer, the writer is `w`. `q` is a square index,
`v` the value written with the byte enables `be`, `n` a Pawn engine or another numbered unit, and `seen` says that the
owner of a page has read PAGE_ECHO_DATA since the last side-effecting read (R55). What the part cannot decide by itself
(bits on a line, a check that finds an error, what a peer answers) is an operand too. -/

/-
MARKS of the model choices coded here; the log rows say each in full.
DESIGN CHOICE (log 10, safe): what the part cannot decide itself is an operand.
-/

namespace Sys2Proof

/-- The commands (the rows of the opcode table). -/
inductive Instr where
  /-- REGISTER_WRITE (R58). A BAR0 or Benolsia write to a register that has no row of its own is checked for ownership and applied one register at a time in ascending address order. -/
  | registerWrite (k a : Nat) (ws : List (Word × Nat)) (env : WriteEnv)
  /-- WIDE_READ_REJECT (R57). A BAR0 read that is not permitted completes with Completer Abort, has no side effect and sets PAGE_ERR.WIDE. -/
  | wideReadReject (p off n : Nat) (r : WideRead)
  /-- PAGE_OWNER_WRITE (R47). A write of PAGE_OWNER sets VEC, OWNER, READ_SHARE and LOCK field by field according to the writer's role. -/
  | pageOwnerWrite (k p : Nat) (v : Word) (be : Nat)
  /-- PAGE_IRQ_FORCE_WRITE (R61). Writing 1 to PAGE_IRQ_FORCE sets the matching PAGE_IRQ_STAT bit whatever the mask holds. -/
  | pageIrqForceWrite (k p : Nat) (v : Word) (be : Nat)
  /-- SUPV_XFER (R52). A write of 0x5356 by the supervisor hands the supervisor role to another partition and raises SUPV_CHANGE. -/
  | supvXfer (k j : Nat) (v : Word)
  /-- SUPV_WATCH_CHECK (R54). Every 10 ms the NG6400 evaluates supervisor absence and passes the role to the lowest eligible partition. -/
  | supvWatchCheck
  /-- DENY_POP (R59). An owner read of DENY_POP pops the oldest DENY log entry and records the echo registers. -/
  | denyPop (k j : Nat) (seen : Bool)
  /-- ALARM_N_HOLD_EXPIRY (R63). ALARM_N is released once its 100 µs minimum low time has passed and no enabled alarm source remains. -/
  | alarmNHoldExpiry
  /-- RATE_HI_WRITE (R67). A write of RATE_HI commits the Tempo increment from the next core cycle, clamped to 500 ppm. -/
  | rateHiWrite (k : Nat) (hi lo : Word) (be : Nat)
  /-- CAPTURE (R68). Writing 1 to TEMPO.CAPTURE latches Tempo and its state in the same core cycle. -/
  | capture (k : Nat) (v : Word)
  /-- SYNC_RECEIVED (R72). A gPTP Sync updates OFFSET and the servo, and may change the Tempo state or step Tempo. -/
  | syncReceived (q : Nat) (m : SyncMsg) (off : Int)
  /-- SYNC_RECEIPT_TIMEOUT (R72). No Sync within syncReceiptTimeout intervals moves Tempo from LOCKED to HOLDOVER. -/
  | syncReceiptTimeout
  /-- HOLDOVER_EXPIRY (R72). ERR_EST exceeding HOLD_ERR_MAX moves Tempo from HOLDOVER to FREE and sets ALARM_STAT[5]. -/
  | holdoverExpiry
  /-- HOLD_CFG_WRITE (R602). A write of HOLD_RATE or HOLD_ERR_MAX takes effect at once in HOLDOVER. -/
  | holdCfgWrite (k : Nat) (max : Bool) (v : Word) (be : Nat)
  /-- TEMPO_CTRL_WRITE (R603). A CTRL write changes servo, step and holdover source settings, and clearing SERVO_EN moves LOCKED to HOLDOVER. -/
  | tempoCtrlWrite (k : Nat) (v : Word) (be : Nat) (present : Bool)
  /-- SET_GO (R78). A write of 0x5345 with SERVO_EN 0 steps Tempo to the SET value and enters FREE. -/
  | setGo (k : Nat) (v : Word)
  /-- REF10_LOSS (R74). Loss of the 10 MHz holdover input falls back to REFCLK and sets HOLD_RATE to 500. -/
  | ref10Loss
  /-- GPTP_SYNC_RELAY (R70). A relayed Sync and its Follow_Up are sent with the residence time added, or dropped when residence exceeds 10 ms. -/
  | gptpSyncRelay (q : Nat) (corr : Int) (rin rout : Nat) (ratio : Int)
  /-- GPTP_SYNC_TRANSMIT (R69). As grandmaster the NG6400 transmits two-step Sync every sync interval on its master ports. -/
  | gptpSyncTransmit (q : Nat)
  /-- ALM_CTRL_WRITE (R80). Writing ARM latches the alarm target, and writing ARM 0 disarms the alarm without raising its source. -/
  | almCtrlWrite (k idx : Nat) (v : Word) (be : Nat)
  /-- TEMPO_ALARM_EXPIRY (R80). An armed alarm whose target is reached raises its source and re-arms by ALM_PER or disarms. -/
  | tempoAlarmExpiry (idx : Nat)
  /-- CAN_SYNC_QUEUE (R84). At each whole multiple of PERIOD a SYNC frame is queued, and a pending SYNC from the previous multiple is withdrawn. -/
  | canSyncQueue (q : Nat)
  /-- CAN_FOLLOWUP_QUEUE (R84). TS_FU_DELAY after the SYNC's egress stamp the FOLLOW-UP is queued, replacing an unsent earlier one. -/
  | canFollowupQueue (q : Nat)
  /-- TSYNC_CONFIG_WRITE (R604). Writing PERIOD or EN to 0 withdraws a queued SYNC not on the bus, or setting them schedules the first SYNC. -/
  | tsyncConfigWrite (k q : Nat) (v : Word) (be : Nat)
  /-- CAN_FRAME_RECEIVED (R94). A frame received without error is written to the staging FIFO and offered to the priority buffers and mailboxes. -/
  | canFrameReceived (q : Nat) (f : CanFrame) (x : CanIn)
  /-- CAN_ERROR_FRAME (R95). A CRC, stuff, form, bit or acknowledgement error is answered with an error frame, counters change and ERR_CAP records it. -/
  | canErrorFrame (q ty : Nat) (e : CanErr) (pos : Nat) (heavy exempt : Bool)
  /-- PROTOCOL_EXCEPTION (R95). A recessive res bit or disabled format causes a protocol exception event and integration again. -/
  | protocolException (q pos : Nat)
  /-- CAN_CTRL_WRITE (R605). A CTRL write changes mode and options, validating timing on leaving CONFIG and discarding refused writes whole.
  `rx` says that another node's frame or an error frame is on the bus then (R93). -/
  | canCtrlWrite (k q : Nat) (v : Word) (be : Nat) (rx : Bool)
  /-- CAN_INTEGRATION_DONE (R93). After 11 consecutive recessive bits the controller takes part in the bus. -/
  | canIntegrationDone (q : Nat)
  /-- RX_MAILBOX_LOCK (R99). An owner read of word 0 moves a FULL mailbox or priority buffer to LOCKED. -/
  | rxMailboxLock (k q n : Nat) (seen : Bool)
  /-- RX_MAILBOX_RELEASE (R99). An owner read of word L releases a LOCKED buffer, moving in the pending frame if there is one. -/
  | rxMailboxRelease (k q n : Nat) (seen : Bool)
  /-- TX_REQ (R104). Writing TX_REQ[n] copies the transmit mailbox entry into the controller and makes it PENDING, or rejects it. -/
  | txReq (k q : Nat) (v : Word)
  /-- TX_CANCEL (R109). Writing TX_CANCEL[n] withdraws the mailbox at once or latches the cancel until the attempt ends. -/
  | txCancel (k q : Nat) (v : Word)
  /-- CAN_TX_ATTEMPT (R102). The controller offers the eligible candidate that would win arbitration and starts a transmission attempt. -/
  | canTxAttempt (q : Nat)
  /-- CAN_ARBITRATION_LOST (R102). A lost arbitration makes the controller continue as receiver and choose again at the next attempt. -/
  | canArbitrationLost (q : Nat)
  /-- CAN_FRAME_TRANSMITTED (R106). A frame sent and acknowledged completes its mailbox or fabric buffer, updates TDC and counts. -/
  | canFrameTransmitted (q : Nat) (delay : Option Nat)
  /-- CAN_DEADLINE_EXPIRY (R107). A waiting frame whose deadline or LIFETIME has passed is discarded with STALE status. -/
  | canDeadlineExpiry (q : Nat) (src : CanSrc)
  /-- CAN_CLASS_BUFFER_PULL (R103). A free class buffer pulls the next fabric frame of its class, discarding it if its record is invalid. -/
  | canClassBufferPull (q cls : Nat) (parity : Bool)
  /-- CAN_SCHEDULE_ENTRY (R112). A transmit schedule entry time is reached and acts as SEND and/or WINDOW. -/
  | canScheduleEntry (q : Nat)
  /-- BO_RECOVER (R118). Writing BO_RECOVER in BO_WAIT starts the bus-off recovery sequence. -/
  | boRecover (k q : Nat) (v : Word)
  /-- CAN_BUSOFF_RECOVERED (R118). After 128 sequences of 11 recessive bits the counters clear, BO_END is raised and held frames compete again. -/
  | canBusoffRecovered (q seqs : Nat)
  /-- CAN_STUCK_DOMINANT (R120). RXD dominant beyond DOM_LIMIT bit times sets STUCK and raises its source. -/
  | canStuckDominant (q : Nat)
  /-- TXD_DOMINANT_LIMIT (R120). The controller forces TXD recessive after 32 dominant bit times of its own and writes a Scoresheet entry. -/
  | txdDominantLimit (q : Nat)
  /-- CAN_IDLE_TIMEOUT (R121). No valid frame for IDLE_TO ms raises the IDLE_TO source once. -/
  | canIdleTimeout (q : Nat)
  /-- RXD_WAKE (R123). A falling edge on RXD with STB 1 and RXD_WAKE_EN 1 sets RXD_WAKE and is a wake source. -/
  | rxdWake (q : Nat)
  /-- ERR_CAP_READ (R119). An owner read of ERR_CAP returns the last error and clears VALID. -/
  | errCapRead (k q : Nat) (seen : Bool)
  /-- CAN_SQUARE_RESET (R124). A requested CAN square reset takes effect at the end of the frame in progress or at once, discarding buffers. -/
  | canSquareReset (q bistStg bistSq : Nat)
  /-- ETH_FRAME_RECEIVED (R136). A received Ethernet frame is checked for length and FCS, passes MACsec, and is written to the staging FIFO. -/
  | ethFrameReceived (q : Nat) (b : List Byte) (fcsOk : Bool) (x : EthIn) (early : Bool)
  /-- PAUSE_FRAME_RECEIVED (R141). A PAUSE or PFC frame in the matching mode starts or replaces a pause, or is ignored under the duty limit. -/
  | pauseFrameReceived (q op vec : Nat) (times : List Nat)
  /-- PAUSE_EXPIRY (R141). The received pause time runs out and the class or link resumes. -/
  | pauseExpiry (q ch : Nat)
  /-- PAUSE_DUTY_WINDOW (R142). At each whole second of Tempo the pause-duty window restarts and PAUSE_IGNORE clears. -/
  | pauseDutyWindow (q : Nat)
  /-- PAUSE_TX_REPEAT (R143). A pause frame is repeated every half of its time while the buffer condition holds. -/
  | pauseTxRepeat (q ch : Nat)
  /-- PLCA_BEACON_RECEIVED (R130). A valid BEACON restores PLCA on a follower after loss or fallback. -/
  | plcaBeaconReceived (q : Nat)
  /-- PLCA_LOSS (R130). No BEACON for the invalid-beacon time loses PLCA, counting the loss and falling back or taking the link down. -/
  | plcaLoss (q : Nat)
  /-- SDS_MODE_WRITE (R132). An SDS_MODE write with the square disabled selects the PCS mode and restarts the PCS, or is refused. -/
  | sdsModeWrite (k q : Nat) (v : Word) (be : Nat)
  /-- LINK_UP (R133). PCS_UP held for LINK_UP_DEB brings the link up and ends HOLD. -/
  | linkUp (q st : Nat)
  /-- LINK_DOWN (R163). PCS_UP falling takes the link down, enters HOLD and discards class 7 and stale frames. -/
  | linkDown (q st : Nat)
  /-- LINK_HOLD_EXPIRY (R164). LINK_HOLD expiring flushes every held frame and discards later frames until the link returns. -/
  | linkHoldExpiry (q : Nat)
  /-- MDIO_CMD (R135). Writing MDIO_CMD with GO starts one Clause 22 or Clause 45 MDIO operation. -/
  | mdioCmd (k q : Nat) (v : Word)
  /-- MDIO_DONE (R135). The MDIO operation ends, GO clears and MDIO_DONE is raised. -/
  | mdioDone (q rdata : Nat)
  /-- ETH_TRANSMIT_SELECT (R150). At a transmission opportunity the MAC sends pause frames, then the highest eligible class frame, applying MACsec and preemption. -/
  | ethTransmitSelect (q : Nat) (parity : Bool)
  /-- ETH_FRAME_TX_DONE (R138). The last byte and FCS of a transmitted frame leave and the next opportunity follows the gap. -/
  | ethFrameTxDone (q : Nat) (t : TxEnd)
  /-- LPI_ENTER (R144). After EEE_IDLE µs with nothing eligible the MAC enters LPI. -/
  | lpiEnter (q : Nat)
  /-- LPI_GATE_WAKE (R146). TW_TX before a gate entry that opens a gate the MAC starts leaving LPI. -/
  | lpiGateWake (q : Nat)
  /-- MM_VERIFY_TIMER (R147). Every VERIFY_MS a verify frame is sent, and after three failed attempts verification fails. -/
  | mmVerifyTimer (q : Nat) (resp : Bool)
  /-- GATE_LIST_ENTRY (R154). A gate-list entry time or cycle start is reached and the gate states and MAC hold change. -/
  | gateListEntry (q : Nat)
  /-- FRER_RECOVERY_RESET (R162). RESET_MS with no frame accepted sets TAKE_ANY and counts RESETS. -/
  | frerRecoveryReset (fn : Nat)
  /-- FRER_LATENT_TEST (R160). Every LATENT_PERIOD the recovery function runs its latent error test. -/
  | frerLatentTest (fn : Nat)
  /-- ETH_SQUARE_RESET (R170). A requested Ethernet square reset takes effect at frame end or after 10 µs, truncating the frame. -/
  | ethSquareReset (q bistStg bistSq : Nat)
  /-- LAST_DROP_READ (R171). An owner read of LAST_DROP returns the last discard and clears VALID. -/
  | lastDropRead (k q : Nat) (seen : Bool)
  /-- STG_FLUSH (R190). A write of 0x464C flushes the staging FIFO, discarding packets and invalidating marks. -/
  | stgFlush (k q : Nat) (v : Word)
  /-- STG_HWM_READ (R193). An owner read of HWM returns the peak use and restarts it at the current use. -/
  | stgHwmRead (k q : Nat) (seen : Bool)
  /-- STG_LAST_ERR_READ (R193). An owner read of LAST_ERR returns the last discard and clears it. -/
  | stgLastErrRead (k q : Nat) (seen : Bool)
  /-- CLASSIFY_FRAME (R203). When a packet's parse window is readable both planes parse, look up, stamp the epoch and apply the action. -/
  | classifyFrame (src bad : Nat) (x : StgRead)
  /-- TABLE_ENTRY_WRITE (R206). Writes to table entry words are buffered and take effect together when the commit word is written. -/
  | tableEntryWrite (k off : Nat) (v : Word64) (be ecc : Nat)
  /-- STREAM_GATE_ENTRY (R234). A stream gate list entry time is reached and the gate state and IPV change. -/
  | streamGateEntry (g : Nat)
  /-- GUARD_WINDOW_END (R239). At each whole multiple of WIN the detector counts are stored in GSTAT and restart. -/
  | guardWindowEnd
  /-- QUARANTINE_CLEAR (R244). Writing 1 to a square's QUAR_LO or QUAR_HI bit ends its quarantine. -/
  | quarantineClear (k : Nat) (hi : Bool) (v : Word) (be : Nat)
  /-- QUARANTINE_HOLD_EXPIRY (R244). QUAR_HOLD seconds without a further QUARANTINE response end the quarantine. -/
  | quarantineHoldExpiry (idx : Nat)
  /-- UNPACK_PDU (R265). A copy reaching output 69 is unpacked through its layout into the Signal Table. -/
  | unpackPdu
  /-- HOST_SIGNAL_WRITE (R256). A host write of state word 0 writes the value with the current Tempo as capture, or word 3 clears counters. -/
  | hostSignalWrite (k idx w : Nat) (v : Word64) (wide : Bool)
  /-- FLAG_FALL (R255). The sweeper marks a signal that stopped being fresh STALE and runs its fall program, emission and watches. -/
  | flagFall (idx : Nat)
  /-- SWEEP_DONE (R255). The post-step sweep has processed all 65,536 signals and raises SWEEP_DONE. -/
  | sweepDone
  /-- PDU_PERIOD_EMIT (R266). At each whole multiple of PERIOD a layout is emitted. -/
  | pduPeriodEmit (l : Nat)
  /-- EMIT_DEFERRED (R266). A trigger deferred by MIN_GAP emits the layout once MIN_GAP has passed. -/
  | emitDeferred (l : Nat)
  /-- PAWN_DISPATCH (R292). An idle enabled engine starts the highest-priority eligible queued request. -/
  | pawnDispatch
  /-- PAWN_KICK (R294). A write of KICK requests a HOST_KICK invocation if the program belongs to the page's owner. -/
  | pawnKick (k n : Nat) (v : Word)
  /-- PAWN_TIMER_EXPIRY (R318). A running timer reaching NEXT raises a TIMER request and advances or stops. -/
  | pawnTimerExpiry (j : Nat)
  /-- BUDGET_EXHAUSTED (R297). An invocation that would exceed its budget stops with fault BUDGET. -/
  | budgetExhausted (n : Nat)
  /-- ILLEGAL_INSTRUCTION (R302). An illegal opcode, reserved sub-op or non-zero reserved field faults ILLEGAL. -/
  | illegalInstruction (n : Nat)
  /-- NOP (R303). Does nothing. -/
  | pawnNop (n : Nat)
  /-- END (R299). Ends the invocation and commits its buffer. -/
  | pawnEnd (n : Nat)
  /-- ABORT (R303). Ends the invocation without commit with fault ABORT. -/
  | pawnAbort (n : Nat)
  /-- BR (R304). Branches forward unconditionally. -/
  | pawnBr (n : Nat)
  /-- BEQ (R304). Branches if RA equals RB. -/
  | pawnBeq (n : Nat)
  /-- BNE (R304). Branches if RA differs from RB. -/
  | pawnBne (n : Nat)
  /-- BLT (R304). Branches if RA is less than RB, signed. -/
  | pawnBlt (n : Nat)
  /-- BGE (R304). Branches if RA is at least RB, signed. -/
  | pawnBge (n : Nat)
  /-- BLTU (R304). Branches if RA is less than RB, unsigned. -/
  | pawnBltu (n : Nat)
  /-- BGEU (R304). Branches if RA is at least RB, unsigned. -/
  | pawnBgeu (n : Nat)
  /-- LOOP (R305). Runs the following body a counted number of times. -/
  | pawnLoop (n : Nat)
  /-- LD (R312). Loads a 64-bit data word. -/
  | pawnLd (n : Nat)
  /-- LDW (R312). Loads a 32-bit data word zero-extended. -/
  | pawnLdw (n : Nat)
  /-- ST (R312). Holds a 64-bit store for commit. -/
  | pawnSt (n : Nat)
  /-- STW (R312). Holds a 32-bit store for commit. -/
  | pawnStw (n : Nat)
  /-- ADD (R303). Adds modulo 2^64. -/
  | pawnAdd (n : Nat)
  /-- SUB (R303). Subtracts modulo 2^64. -/
  | pawnSub (n : Nat)
  /-- ADDS (R303). Adds signed with saturation. -/
  | pawnAdds (n : Nat)
  /-- SUBS (R303). Subtracts signed with saturation. -/
  | pawnSubs (n : Nat)
  /-- ADDUS (R303). Adds unsigned with saturation. -/
  | pawnAddus (n : Nat)
  /-- SUBUS (R303). Subtracts unsigned with saturation. -/
  | pawnSubus (n : Nat)
  /-- MUL (R303). Multiplies keeping the low 64 bits. -/
  | pawnMul (n : Nat)
  /-- MULS (R303). Multiplies signed with saturation. -/
  | pawnMuls (n : Nat)
  /-- AND (R303). Bitwise AND. -/
  | pawnAnd (n : Nat)
  /-- OR (R303). Bitwise OR. -/
  | pawnOr (n : Nat)
  /-- XOR (R303). Bitwise XOR. -/
  | pawnXor (n : Nat)
  /-- SHL (R303). Shifts left by a register. -/
  | pawnShl (n : Nat)
  /-- SHR (R303). Shifts right logically by a register. -/
  | pawnShr (n : Nat)
  /-- SAR (R303). Shifts right arithmetically by a register. -/
  | pawnSar (n : Nat)
  /-- MIN (R303). Signed minimum. -/
  | pawnMin (n : Nat)
  /-- MAX (R303). Signed maximum. -/
  | pawnMax (n : Nat)
  /-- ADDI (R303). Adds a sign-extended immediate. -/
  | pawnAddi (n : Nat)
  /-- ANDI (R303). ANDs a zero-extended immediate. -/
  | pawnAndi (n : Nat)
  /-- ORI (R303). ORs a zero-extended immediate. -/
  | pawnOri (n : Nat)
  /-- XORI (R303). XORs a zero-extended immediate. -/
  | pawnXori (n : Nat)
  /-- SHLI (R303). Shifts left by an immediate. -/
  | pawnShli (n : Nat)
  /-- SHRI (R303). Shifts right logically by an immediate. -/
  | pawnShri (n : Nat)
  /-- SARI (R303). Shifts right arithmetically by an immediate. -/
  | pawnSari (n : Nat)
  /-- MOVI (R303). Loads a sign-extended 22-bit immediate. -/
  | pawnMovi (n : Nat)
  /-- MOVK (R303). Replaces one 16-bit lane with an immediate. -/
  | pawnMovk (n : Nat)
  /-- BFX (R303). Extracts a bit field zero-extended. -/
  | pawnBfx (n : Nat)
  /-- BFXS (R303). Extracts a bit field sign-extended. -/
  | pawnBfxs (n : Nat)
  /-- BFI (R303). Inserts a bit field. -/
  | pawnBfi (n : Nat)
  /-- BSW (R303). Reverses the low N bytes. -/
  | pawnBsw (n : Nat)
  /-- SRD (R313). Reads a signal value and updates CAPMIN, DLMIN and SUB. -/
  | pawnSrd (n : Nat)
  /-- SRS (R313). Reads a signal's status word. -/
  | pawnSrs (n : Nat)
  /-- SRC (R313). Reads a signal's capture time. -/
  | pawnSrc (n : Nat)
  /-- EXT (R306). Extracts a buffer field zero-extended. -/
  | pawnExt (n : Nat)
  /-- EXTS (R306). Extracts a buffer field sign-extended. -/
  | pawnExts (n : Nat)
  /-- INS (R306). Inserts a field into the OUT buffer. -/
  | pawnIns (n : Nat)
  /-- SCL (R309). Scales with multiplier, shift, rounding and offset. -/
  | pawnScl (n : Nat)
  /-- RCHK (R310). Range-checks a value against lo and hi. -/
  | pawnRchk (n : Nat)
  /-- CLAMP (R310). Clamps a value to lo and hi. -/
  | pawnClamp (n : Nat)
  /-- FTOX (R311). Converts binary32 to signed fixed point. -/
  | pawnFtox (n : Nat)
  /-- XTOF (R311). Converts signed fixed point to binary32. -/
  | pawnXtof (n : Nat)
  /-- CRC (R320). Folds bytes of a register into a CRC accumulator. -/
  | pawnCrc (n : Nat)
  /-- CRCB (R320). Folds buffer bytes into a CRC accumulator. -/
  | pawnCrcb (n : Nat)
  /-- ALV (R321). Advances an alive counter modulo MAX + 1. -/
  | pawnAlv (n : Nat)
  /-- ALVD (R321). Computes an alive counter difference. -/
  | pawnAlvd (n : Nat)
  /-- SWR (R314). Holds a signal write for commit. -/
  | pawnSwr (n : Nat)
  /-- EMIT (R315). Holds a layout emit trigger for commit. -/
  | pawnEmit (n : Nat)
  /-- SEND (R316). Holds an emission of OUT buffer bytes through a layout. -/
  | pawnSend (n : Nat)
  /-- TSTART (R319). Holds a timer start for commit. -/
  | pawnTstart (n : Nat)
  /-- TSTOP (R319). Holds a timer stop for commit. -/
  | pawnTstop (n : Nat)
  /-- COPY_LAUNCH_GRANT (R338). A copy at the head of its VOQ is granted egress cells, or checked for residence and deadline, and starts launching. -/
  | copyLaunchGrant (idx : Nat)
  /-- CELL_ARRIVE_RESEQUENCER (R343). A cell reaching the resequencer is linked in order or waits, and copies are appended to egress queues. -/
  | cellArriveResequencer (j : Nat) (x : CellRead)
  /-- RESEQ_TIMEOUT (R345). A later cell waiting RESEQ_TO makes the resequencer skip the missing SEQ and discard its copy. -/
  | reseqTimeout (idx o cls : Nat)
  /-- AGER_SCAN (R350). Every AGE_SCAN µs the ager checks queue heads for residence and deadline. -/
  | agerScan
  /-- HOLD_RECLAIM (R353). While a pool is below HOLD_RECLAIM the oldest copy for a held square is discarded each cycle. -/
  | holdReclaim
  /-- BUF_SPLIT_WRITE (R332). A SPLIT write resizes the pools if current use fits, or is discarded. -/
  | bufSplitWrite (k : Nat) (v : Word) (be : Nat)
  /-- ADJ_ITEM_COMPARE (R372). The Adjudicator compares a White item with Black's and releases it or detects a disagreement. -/
  | adjItemCompare (point loc cls : Nat) (x : ItemCheck) (drive : Bool)
  /-- ADJ_DECISION (R376). At d + 64 the disagreement is decided by the flags, keeping the move, switching over or leaving it undecided. -/
  | adjDecision
  /-- SWITCHOVER_GAP_END (R383). At the end of the switch-over gap the new active plane's items are released in order. -/
  | switchoverGapEnd
  /-- DIAG_DONE (R379). The diagnostic sweep ends, retiring a failing plane or counting the undecided disagreement. -/
  | diagDone (wBad bBad : Nat)
  /-- TABLE_SWEEP (R382). A background sweep recomputes table-region CRCs every SWEEP_MS and raises TABLE on mismatch. -/
  | tableSweep (x bad : Nat)
  /-- SWEEP_NOW (R382). A SWEEP_NOW write runs one full-speed sweep of the plane. -/
  | sweepNow (k x : Nat) (v : Word) (bad : Nat)
  /-- PL_CTRL_RESET (R385). Writing PL_CTRL.RESET retires a plane that does not have the move. -/
  | plCtrlReset (k x : Nat) (v : Word)
  /-- REINT (R386). A write of 0x5249 starts re-integration of a retired plane. -/
  | reint (k : Nat) (v : Word)
  /-- REINT_AUTO_START (R386). With AUTO_REINT the Arbiter starts re-integration within 1 ms of a retirement. -/
  | reintAutoStart
  /-- REINT_WIPE_DONE (R388). The rejoining plane's wipe completes and COPYING begins. -/
  | reintWipeDone (u bad : Nat)
  /-- REINT_COPY_DONE (R388). Copying of tables and live state completes and SNAPSHOT begins. -/
  | reintCopyDone
  /-- REINT_COPY_TIMEOUT (R607). COPYING not ended within 10 ms fails the re-integration. -/
  | reintCopyTimeout
  /-- REINT_SNAPSHOT_DONE (R388). Engine snapshots complete and the plane joins at J. -/
  | reintSnapshotDone
  /-- REINT_JOIN_DONE (R390). The last pre-join copy leaves and the plane becomes PARTNER. -/
  | reintJoinDone
  /-- PROOF_SWAP_DUE (R394). PROOF_NEXT is reached, the swap is made, deferred or skipped, and PROOF_NEXT advances. -/
  | proofSwapDue
  /-- SWAP (R394). A write of 0x5357 makes a proof swap at once or is refused. -/
  | swap (k : Nat) (v : Word)
  /-- PROOF_SWAP_RESUME (R394). A deferred proof swap takes place as soon as no deferring condition applies. -/
  | proofSwapResume
  /-- BEGIN (R404). A write of 0x5458_0001 opens a transaction for the partition. -/
  | txnBegin (w k : Nat)
  /-- COMMIT_IMMEDIATE (R409). A mode 0 COMMIT checks the transaction and writes its entries for a switch as soon as possible. -/
  | txnCommitImmediate (w k : Nat)
  /-- COMMIT_NEXT_BOUNDARY (R409). A mode 1 COMMIT switches at the next whole microsecond after the entries are written. -/
  | txnCommitNextBoundary (w k : Nat)
  /-- COMMIT_AT_TIME (R409). A mode 2 COMMIT switches at the Tempo time in TXN_AT. -/
  | txnCommitAtTime (w k : Nat)
  /-- ROLLBACK (R413). A write of 0x5458_0003 discards an open or pending transaction. -/
  | txnRollback (w k : Nat)
  /-- TXN_BAD_CMD (R415). A TXN_CMD write with an unknown value or key is discarded with BAD_CMD. -/
  | txnBadCmd (w k : Nat) (v : Word)
  /-- TXN_JOURNAL_WRITE (R405). A shadowable write inside an open transaction enters the journal instead of the tables. -/
  | txnJournalWrite (k : Nat) (bar2 : Bool) (addr : Nat) (v : Word64) (be ecc : Nat)
  /-- EPOCH_SWITCH (R410). When entries are written and the target is reached the new epoch takes effect, or the commit waits or is discarded. -/
  | epochSwitch
  /-- OLD_EPOCH_RETIRE (R401). When nothing carries the old epoch it retires and OLD_RETIRED is raised. -/
  | oldEpochRetire
  /-- TXN_AUTO_ABORT (R414). ABORT_S seconds without an accepted write discard the open transaction. -/
  | txnAutoAbort (k : Nat)
  /-- LOAD (R431). Loads a key blob into a slot after format, owner, parent, generation, SVN and tag checks. -/
  | castleLoad (w k : Nat)
  /-- WRAP (R428). Writes a blob of a slot under its parent with a fresh nonce. -/
  | castleWrap (w k : Nat)
  /-- IMPORT (R428). Loads a clear key when the life-cycle state permits. -/
  | castleImport (w k : Nat)
  /-- GENERATE (R428). Loads a random key. -/
  | castleGenerate (w k : Nat)
  /-- UNLOAD (R428). Empties a slot keeping its generation. -/
  | castleUnload (w k : Nat)
  /-- ERASE (R429). Empties a slot, increments its generation and orphans its descendants. -/
  | castleErase (w k : Nat)
  /-- PUBKEY (R428). Writes the public key of an Ed448 pair to KBUF. -/
  | castlePubkey (w k : Nat)
  /-- STORE (R433). Writes a slot's blob to its autoload entry. -/
  | castleStore (w k : Nat)
  /-- UNSTORE (R428). Clears a slot's autoload entry. -/
  | castleUnstore (w k : Nat)
  /-- CLEAR_RESIGN (R441). A correct signature marks the RESIGN latch for clearing at the next cold reset. -/
  | castleClearResign (w k : Nat)
  /-- ROOT_RETRY (R420). Runs root regeneration again. -/
  | castleRootRetry (w k : Nat) (good : Bool)
  /-- CASTLE_COMMAND_DONE (R428). A Castle command ends, sets its result, zeroes KBUF and raises DONE or FAIL. -/
  | castleCommandDone (k : Nat)
  /-- SLOT_REMASK (R432). Each loaded slot is given a fresh mask once every REMASK interval. -/
  | slotRemask (n : Nat)
  /-- RNG_FAIL (R428). The random source failing its health test ends key-generating commands with RNG_FAIL. -/
  | rngFail
  /-- TAMPER_SENSOR_FIRE (R436). A sensor leaving its window logs, alarms or resigns by its response. -/
  | tamperSensorFire (n : Nat) (r : TamperReading)
  /-- SLEEP_LATCH_WRITE (R438). Clearing SLEEP_LATCH bits lifts the sleep hold once all are clear. -/
  | sleepLatchWrite (k : Nat) (v : Word) (be : Nat)
  /-- AUTOLOAD_DEFERRED (R433). Refused autoloads are run by the Arbiter once SLEEP_LATCH is cleared. -/
  | autoloadDeferred
  /-- CX_DESCRIPTOR_FETCH (R447). A host job descriptor is fetched into the queue when quota and room permit. -/
  | cxDescriptorFetch (k : Nat) (desc : List Byte) (segs : List (Nat × Nat × List Byte)) (err : Bool)
  /-- JR_TAIL_WRITE (R450). The owner's write of JR_TAIL offers new job descriptors. -/
  | jrTailWrite (w k : Nat) (v : Word) (be : Nat)
  /-- GCM_ENCRYPT (R453). Dispatched job: GCM encryption. -/
  | gcmEncrypt
  /-- GCM_DECRYPT (R453). Dispatched job: GCM decryption. -/
  | gcmDecrypt
  /-- GMAC_GENERATE (R453). Dispatched job: GMAC generation. -/
  | gmacGenerate
  /-- GMAC_VERIFY (R453). Dispatched job: GMAC verification. -/
  | gmacVerify
  /-- CCM_ENCRYPT (R453). Dispatched job: CCM encryption. -/
  | ccmEncrypt
  /-- CCM_DECRYPT (R453). Dispatched job: CCM decryption. -/
  | ccmDecrypt
  /-- CMAC_GENERATE (R453). Dispatched job: AES-CMAC generation. -/
  | cmacGenerate
  /-- CMAC_VERIFY (R453). Dispatched job: AES-CMAC verification. -/
  | cmacVerify
  /-- SHAKE256 (R453). Dispatched job: SHAKE256 hash. -/
  | shake256
  /-- ED448_SIGN (R453). Dispatched job: Ed448 signature. -/
  | ed448Sign
  /-- ED448_VERIFY (R453). Dispatched job: Ed448 verification. -/
  | ed448Verify
  /-- ATTEST (R460). Dispatched job: signed attestation record. -/
  | attest
  /-- SEAL_JOB (R457). A dispatched fabric seal job adds freshness value and MAC to a PDU. -/
  | sealJob
  /-- VERIFY_JOB (R458). A dispatched fabric verify job checks MAC, window and replay. -/
  | verifyJob
  /-- CX_JOB_DONE (R454). A job ends, writing output, tag and DONE_WORD or continuing its route, or failing. -/
  | cxJobDone (id dma : Nat)
  /-- SCRUB_READ (R475). The scrubber reads a word, corrects and writes back a single-bit error. -/
  | scrubRead (m addr res : Nat) (last : Bool)
  /-- BUCKET_LEAK (R478). Every LEAK seconds a memory's bucket level falls by one. -/
  | bucketLeak (m : Nat)
  /-- RETIRE_GO (R479). A write of 0x5254 retires a 4 KiB range of a memory. -/
  | retireGo (k : Nat) (v : Word)
  /-- ALLOC_RETIRE_COMPLETE (R480). Every cell of a retired packet-buffer range is out of use and BUSY clears. -/
  | allocRetireComplete
  /-- BIST_RUN (R481). A BIST_RUN write runs BIST and remap on a memory held in reset. -/
  | bistRun (k : Nat) (v : Word) (bad : Nat)
  /-- RET_INIT (R482). A write of 0x5249 clears INIT_NEEDED of the retention SRAM. -/
  | retInit (k : Nat) (v : Word)
  /-- ARB_CORE_MISMATCH (R485). An Arbiter core-pair mismatch causes a warm restart. -/
  | arbCoreMismatch
  /-- ARB_WATCHDOG_EXPIRY (R485). The watchdog not kicked for WDOG_CFG ms causes a warm restart. -/
  | arbWatchdogExpiry
  /-- RESTART (R485). The supervisor's write of 0x4152 causes an Arbiter warm restart. -/
  | restart (k : Nat) (v : Word)
  /-- ARB_RESTART_DONE (R486). The warm restart completes, or a third within 600 s leaves the Arbiter FAILED. -/
  | arbRestartDone (okA okB : Bool)
  /-- PING (R489). Returns firmware version and heartbeat. -/
  | arbPing (w k : Nat)
  /-- FLUSH (R495). Flushes every unflushed Scoresheet entry to the archive. -/
  | arbFlush (w k : Nat)
  /-- ARCH_READ (R489). Returns the archived entry with a given SEQ. -/
  | arbArchRead (w k : Nat)
  /-- EYE_SCAN (R491). Measures the eye of one SerDes square. -/
  | arbEyeScan (w k : Nat)
  /-- MKA (R489). Turns MACsec key agreement on or off for one square. -/
  | arbMka (w k : Nat)
  /-- ARB_COMMAND_DONE (R488). An Arbiter command ends with its response and raises DONE or FAIL. -/
  | arbCommandDone (k eye : Nat)
  /-- SENS_SAMPLE (R490). A sensor channel is sampled and a window crossing or return is reported. -/
  | sensSample (ch val : Nat)
  /-- EYE_SCAN_PERIODIC (R491). Every EYE_S seconds the Arbiter measures every linked SerDes eye. -/
  | eyeScanPeriodic (eyes : List Nat)
  /-- SCORE_ENTRY_WRITE (R492). The writer takes one queued entry per cycle and appends it to the ring. -/
  | scoreEntryWrite
  /-- SCORE_FLUSH (R495). A flush trigger copies unflushed entries to archive pages in flash. -/
  | scoreFlush
  /-- ENT7_READ (R494). An owner read of ENT7 advances CURSOR. -/
  | ent7Read (k : Nat) (seen : Bool)
  /-- FUNCTION_LEVEL_RESET (R503). An FLR disables the endpoint's rings, abandons reads and releases its semaphores. -/
  | functionLevelReset (k : Nat)
  /-- PERST_ASSERT (R588). A low PERST_N holds the endpoint in link-training disable and acts as an FLR. -/
  | perstAssert (k : Nat)
  /-- HDMA_TX_TAIL_WRITE (R505). The host's TX_TAIL write offers new transmit descriptors. -/
  | hdmaTxTailWrite (w k t : Nat) (v : Word) (be : Nat)
  /-- HDMA_TX_FETCH (R506). A transmit descriptor is fetched, checked and its record injected at F_Hk. -/
  | hdmaTxFetch (k : Nat) (desc rec : List Byte) (err : Bool)
  /-- HDMA_RX_DELIVER (R507). A copy at the head of a host egress queue is written to its ring or handled by FULL_ACT. -/
  | hdmaRxDeliver (p : Nat) (desc : List Byte)
  /-- RX_IRQ_TIMER (R510). IRQ_US after an unsignalled completion the ring's RX_IRQ bit is set. -/
  | rxIrqTimer (k r : Nat)
  /-- BAR4_READ (R520). A window read becomes a READ message holding a tag. -/
  | bar4Read (k off len : Nat)
  /-- BAR4_WRITE (R521). A window write becomes a WRITE message holding a tag. -/
  | bar4Write (k off : Nat) (d : List Byte)
  /-- BAR4_ATOMIC_OP (R524). An AtomicOp runs lock, read, compute, write and unlock through the bridge. -/
  | bar4AtomicOp (k off op size a b : Nat)
  /-- BNL_RESPONSE_RECEIVED (R520). A bridge response completes its request, faults the window, schedules a retry or is discarded as late. -/
  | bnlResponseReceived
  /-- BRIDGE_TAG_TIMEOUT (R521). No response within TIMEOUT completes a read with abort or faults the window for a write. -/
  | bridgeTagTimeout (w t : Nat)
  /-- BRIDGE_BUSY_RETRY (R520). 50 µs after a BUSY response the request is sent again. -/
  | bridgeBusyRetry (w t : Nat)
  /-- SEM_ACQUIRE_READ (R523). An owner read of SEM acquires the window semaphore and sends LOCK, or returns busy. -/
  | semAcquireRead (k w : Nat) (seen : Bool)
  /-- SEM_RELEASE (R523). A write of SEM releases the semaphore and sends UNLOCK. -/
  | semRelease (k w : Nat)
  /-- SEM_LEASE_RENEW (R523). Every 500 µs while held the bridge renews the lease. -/
  | semLeaseRenew (w : Nat)
  /-- SEM_HOLD_TIMEOUT (R523). SEM_HOLD µs without release make the bridge release the semaphore. -/
  | semHoldTimeout (w : Nat)
  /-- WERR_POP (R527). An owner read pops the oldest window error log entry. -/
  | werrPop (k : Nat) (seen : Bool)
  /-- BNL_MESSAGE_RECEIVED (R514). A diverted Benolsia message is rate-checked, authenticated and replay-checked, then passed on. -/
  | bnlMessageReceived
  /-- ARB_CMD (R513). Agent serves a Benolsia Arbiter command request. -/
  | bnlArbCmd (eye : Nat)
  /-- CX_JOB (R513). Agent serves a Benolsia cipher job request. -/
  | bnlCxJob
  /-- GAMBIT (R538). Agent serves a Benolsia Gambit request, unicast or broadcast. -/
  | bnlGambit
  /-- SCORE_READ (R513). Agent returns Scoresheet entries. -/
  | bnlScoreRead
  /-- READ (R515). Agent reads its address space for a peer. -/
  | bnlRead (seen ue : Bool)
  /-- WRITE (R515). Agent writes its address space for a peer, checking leases. -/
  | bnlWrite (ecc : Nat) (env : WriteEnv)
  /-- LOCK (R522). Agent leases a range for a peer. -/
  | bnlLock
  /-- UNLOCK (R522). Agent ends a lease. -/
  | bnlUnlock
  /-- LEASE_EXPIRY (R522). A lease ends 1 ms after its LOCK or latest renewal. -/
  | leaseExpiry
  /-- BNL_KEY_WRITE (R512). A KEY0 or KEY1 write with VALID installs the slot key in the Benolsia engine. -/
  | bnlKeyWrite (w x : Nat) (v : Word) (be : Nat)
  /-- TX_SEL_WRITE (R516). Writing TX_SEL switches the sending key and restarts TX_SEQ. -/
  | txSelWrite (w : Nat) (v : Word) (be : Nat)
  /-- PEER_CFG_WRITE (R528). Writing PEER_CFG configures a peer and resets its replay state. -/
  | peerCfgWrite (w n : Nat) (v : Word) (be : Nat)
  /-- STAGE (R537). Checks and stages a manifest. -/
  | gambitStage (w k : Nat)
  /-- CHUNK (R535). Checks and programs a chunk into staging. -/
  | gambitChunk (w k : Nat)
  /-- ACTIVATE (R539). Verifies, copies and activates the staged set and applies it in one epoch. -/
  | gambitActivate (w k : Nat)
  /-- CONFIRM (R542). Confirms a trial set and raises SVN counters. -/
  | gambitConfirm (w k : Nat)
  /-- ABANDON (R536). Erases staging. -/
  | gambitAbandon (w k : Nat)
  /-- GAMBIT_APPLY_RETRY (R541). Every 100 ms the Arbiter retries the Gambit transaction, falling back after APPLY_TO. -/
  | gambitApplyRetry
  /-- TRIAL_WINDOW_EXPIRY (R543). The trial window ends without CONFIRM and the NG6400 falls back. -/
  | trialWindowExpiry
  /-- FLASH_DEVICE_FAIL (R530). Failure of the primary flash makes the mirror serve alone; without `whole` one read of it
  fails, or fails the check of its structure. -/
  | flashDeviceFail (whole : Bool)
  /-- PLAY (R549). PWR command: switch to PLAY at the next Tour slot 0. -/
  | pwrPlay (w : Nat)
  /-- QUIET (R549). PWR command: switch to QUIET at the next Tour slot 0. -/
  | pwrQuiet (w : Nat)
  /-- ADJOURNED_WARM (R551). PWR command: enter ADJOURNED-WARM. -/
  | pwrAdjournedWarm (w : Nat)
  /-- ADJOURNED_COLD (R551). PWR command: enter ADJOURNED-COLD. -/
  | pwrAdjournedCold (w : Nat)
  /-- ADJOURNED_ENTRY_DONE (R551). The entry steps complete, clocks stop and WAKE_OUT falls. -/
  | adjournedEntryDone (upTo : Nat)
  /-- WAKE_EVENT (R559). A wake source fires, WAKE_OUT rises and the wake sequence runs or the entry is abandoned. -/
  | wakeEvent (env : StartEnv)
  /-- WAKE_CAN_RULE (R554). A decoded CAN frame matches a wake rule. -/
  | wakeCanRule (q : Nat) (f : CanFrame) (bad : Bool)
  /-- WAKE_T1S_RULE (R554). A decoded T1S frame matches a wake rule. -/
  | wakeT1sRule (q : Nat) (b : List Byte)
  /-- WAKE_T1S_ENERGY (R553). Line activity on a T1S square with ENERGY wakes the part. -/
  | wakeT1sEnergy (q : Nat)
  /-- WAKE_ETH_PATTERN (R167). A frame matches an Ethernet wake pattern. -/
  | wakeEthPattern (q : Nat) (b : List Byte)
  /-- WAKE_SIGNAL_DETECT (R168). SerDes signal detect on a square with SD_WAKE wakes the part. -/
  | wakeSignalDetect (q : Nat)
  /-- WAKE_GPIO_EDGE (R553). A debounced edge on an armed GPIO wakes the part. -/
  | wakeGpioEdge (n : Nat) (rising : Bool)
  /-- WAKE_HOST_SIDEBAND (R553). A falling edge on an armed SBWAKE_N wakes the part. -/
  | wakeHostSideband (k : Nat)
  /-- WAKE_RC_START (R555). An edge on a watched line starts the wake RC oscillator and frame decoding. -/
  | wakeRcStart
  /-- WAKE_RC_IDLE_STOP (R555). After 1 ms with no edge the wake RC oscillator stops. -/
  | wakeRcIdleStop
  /-- BOOK_HANDOVER (R562). The Arbiter commits the full tables, ending the opening book. -/
  | bookHandover
  /-- BOOK_LATE (R562). The handover not committed within t_BOOK is retried and BOOK_LATE is raised. -/
  | bookLate
  /-- POWER_ON_RESET (R573). VDD_AO rising resets the whole part and runs the start-up sequence. -/
  | powerOnReset (env : StartEnv)
  /-- RESET_N_ASSERT (R566). RESET_N held low for t_RST causes a cold reset. -/
  | resetNAssert
  /-- RST_CMD (R566). The supervisor's write of 0x5253_0001 causes a cold reset. -/
  | rstCmd (w : Nat) (v : Word) (env : StartEnv)
  /-- BROWNOUT (R567). A rail leaving its range holds the part in reset. -/
  | brownout
  /-- BROWNOUT_RELEASE (R567). Every rail back in range for 1 ms releases a cold start. -/
  | brownoutRelease (env : StartEnv)
  /-- BLK_RST (R568). A write of 0x4252 and a page resets that block or square, or is refused. -/
  | blkRst (w : Nat) (v : Word)
  /-- REFCLK_LOSS (R577). Loss of the selected reference switches to the other, or holds the PLLs when both are lost. -/
  | refclkLoss (r : Nat)
  /-- REFCLK_REVERT (R577). REFCLK_A present for 10 s with REVERT returns the PLLs to it. -/
  | refclkRevert
  /-- REF_CTRL_WRITE (R577). A write of SEL switches reference at once unless the target is lost. -/
  | refCtrlWrite (w : Nat) (v : Word) (be : Nat)
  /-- LC_PROVISIONED (R581). Life-cycle transition to PROVISIONED. -/
  | lcProvisioned (w : Nat) (env : StartEnv)
  /-- LC_FIELD (R581). Life-cycle transition to FIELD. -/
  | lcField (w : Nat) (env : StartEnv)
  /-- LC_RETURN (R581). Life-cycle transition to RETURN with signature and PUF re-enrolment. -/
  | lcReturn (w : Nat) (env : StartEnv)
  /-- LC_DECOMMISSIONED (R581). Irreversible life-cycle transition to DECOMMISSIONED. -/
  | lcDecommissioned (w : Nat) (env : StartEnv)
  /-- TEST_MODE_HIGH (R589). TEST_MODE high outside MANUFACTURE holds the part in cold reset. -/
  | testModeHigh (high : Bool) (env : StartEnv)
  /-- JTAG_TRST (R598). JTAG_TRST_N low resets the TAP. -/
  | jtagTrst
  /-- JTAG_BYPASS (R598). TAP instruction BYPASS. -/
  | jtagBypass
  /-- JTAG_SAMPLE_PRELOAD (R598). TAP instruction SAMPLE/PRELOAD. -/
  | jtagSamplePreload (bits : List Bool)
  /-- JTAG_EXTEST (R598). TAP instruction EXTEST. -/
  | jtagExtest
  /-- JTAG_IDCODE (R598). TAP instruction IDCODE returning 0x2640_0A5B. -/
  | jtagIdcode
  /-- JTAG_CLAMP (R598). TAP instruction CLAMP. -/
  | jtagClamp
  /-- JTAG_HIGHZ (R598). TAP instruction HIGHZ. -/
  | jtagHighz
  /-- PCIE_LINK_UP (R59). The PCIe link of endpoint HPk comes up, ROLE.ATTACH shows it attached and its pending vectors can be signalled. -/
  | pcieLinkUp (k width speed : Nat)
  /-- DL_DOWN (R504). The PCIe link of HPk enters DL_Down, so the partition counts as absent and copies for output 64 + k are discarded. -/
  | dlDown (k : Nat)
  /-- STUCK_CLEAR (R120). SQxn_RXD returns recessive after being stuck dominant, clearing STATUS.STUCK and restarting the count. -/
  | stuckClear (q : Nat)
  /-- RESET_N_RELEASE (R573). RESET_N returns high and the start-up sequence of a cold reset begins. -/
  | resetNRelease (env : StartEnv)
  /-- PERST_N_RELEASE (R588). HPk_PERST_N returns high and endpoint k leaves link-training disable. -/
  | perstNRelease (k : Nat)
  /-- VDD_AO_LOSS (R547). VDD_AO falls below its power-on threshold and the part goes OFF, losing the always-on counter, latch and tamper log. -/
  | vddAoLoss
  /-- REFCLK_RETURN (R579). After both references were lost, the first reference to return is selected and HOLD_RATE is restored. -/
  | refclkReturn (r : Nat)
  /-- ACT_DONE (R539). The copying of staging into the inactive set slot ends, the pointer record is written and ACT_DONE is raised, leading to the Gambit transaction. -/
  | actDone (good : Bool) (env : StartEnv)
  deriving DecidableEq, Repr

end Sys2Proof
end

