-- ==== Sys2Proof/Decode.lean ====
section
/-! DEFINITION. The commands that words spell. The spec's table gives no row any bits: a command of this part is no word
of a program but an event or an access, so no word spells one. -/

/-
MARKS of the model choices coded here; the log rows say each in full.
DESIGN CHOICE (log 88, safe): no word spells a command.
-/

namespace Sys2Proof

/-- The command that the low `nbits` bits of a word spell by the table's bits: none, because no row has bits. -/
def decodeTableWord (_nbits _w : Nat) : Option Instr := none

end Sys2Proof
end

