-- ==== Sys2Proof/Machine/Bits.lean ====
section
/-! DEFINITION. Bit fields, sign extension and byte order: the helpers every meaning shares (R10, R12). -/

namespace Sys2Proof.Machine

/-- Bits [hi:lo] of a number. -/
def natBits (v hi lo : Nat) : Nat := v / 2 ^ lo % 2 ^ (hi - lo + 1)

/-- Field [hi:lo] of a word, as a number. -/
def fld {w : Nat} (v : BitVec w) (hi lo : Nat) : Nat := natBits v.toNat hi lo

/-- Bit n of a word. -/
def bit {w : Nat} (v : BitVec w) (n : Nat) : Bool := v.getLsbD n

/-- The word with ones in [hi:lo]. -/
def fieldMask (w hi lo : Nat) : BitVec w := BitVec.ofNat w ((2 ^ (hi - lo + 1) - 1) * 2 ^ lo)

/-- v with field [hi:lo] replaced by n. -/
def setFld {w : Nat} (v : BitVec w) (hi lo n : Nat) : BitVec w :=
  (v &&& ~~~ fieldMask w hi lo) ||| (BitVec.ofNat w (n * 2 ^ lo) &&& fieldMask w hi lo)

/-- v with bit n set to b. -/
def setBit {w : Nat} (v : BitVec w) (n : Nat) (b : Bool) : BitVec w := setFld v n n (if b then 1 else 0)

/-- The word with only bit n set. -/
def oneBit (w n : Nat) : BitVec w := BitVec.ofNat w (2 ^ n)

/-- A number read as a two's complement value of w bits. -/
def toSigned (w n : Nat) : Int := if n % 2 ^ w < 2 ^ (w - 1) then (n % 2 ^ w : Nat) else (n % 2 ^ w : Nat) - (2 ^ w : Nat)

/-- A number clamped between two limits ("others act as the nearer limit"). -/
def clampNat (lo hi n : Nat) : Nat := if n < lo then lo else if hi < n then hi else n

/-- A 32-bit saturating value of a number. -/
def sat32 (n : Nat) : Word := BitVec.ofNat 32 (if 0xFFFFFFFF < n then 0xFFFFFFFF else n)

/-- The absolute value of an integer in 32 bits, saturating. -/
def absSat (i : Int) : Nat := if 0xFFFFFFFF < i.natAbs then 0xFFFFFFFF else i.natAbs

/-- The signed 32-bit saturation of an integer, as a register word. -/
def satSigned32 (i : Int) : Word :=
  BitVec.ofInt 32 (if i < -2147483648 then -2147483648 else if 2147483647 < i then 2147483647 else i)

/-- Ceiling division. -/
def ceilDiv (a b : Nat) : Nat := if b = 0 then 0 else (a + b - 1) / b

/-- n bytes of a number, least significant first. -/
def bytesLE : Nat → Nat → List Byte
  | 0, _ => []
  | n + 1, v => BitVec.ofNat 8 v :: bytesLE n (v / 256)

/-- n bytes of a number, most significant first. -/
def bytesBE (n v : Nat) : List Byte := (bytesLE n v).reverse

/-- The number that bytes spell, least significant first. -/
def natLE : List Byte → Nat
  | [] => 0
  | b :: bs => b.toNat + 256 * natLE bs

/-- The number that bytes spell, most significant first. -/
def natBE (bs : List Byte) : Nat := bs.foldl (fun a b => a * 256 + b.toNat) 0

/-- Byte k of a byte string, zero beyond its end. -/
def byteAt (bs : List Byte) (k : Nat) : Byte := bs.getD k 0

/-- n bytes from offset k, zero padded beyond the end. -/
def bytesAt (bs : List Byte) (k n : Nat) : List Byte := (List.range n).map (fun j => byteAt bs (k + j))

/-- Big-endian number of n bytes at offset k. -/
def beAt (bs : List Byte) (k n : Nat) : Nat := natBE (bytesAt bs k n)

/-- Little-endian number of n bytes at offset k. -/
def leAt (bs : List Byte) (k n : Nat) : Nat := natLE (bytesAt bs k n)

/-- bs with its bytes from offset k replaced by new bytes; bs keeps its length. -/
def putBytes (bs : List Byte) (k : Nat) (new : List Byte) : List Byte :=
  bs.take k ++ (new.take (bs.length - k)) ++ bs.drop (k + new.length)

end Sys2Proof.Machine
end

