-- ==== Sys2Proof/Machine/Crc.lean ====
section
/-! DEFINITION. The check computations that the spec gives in full: CRC-32C of the end-to-end check (R177) and the
profile CRC of the Pawn engines (R320). -/

namespace Sys2Proof.Machine

/-- One bit of a reflected CRC. -/
def crcBitR (w : Nat) (poly : BitVec w) (crc : BitVec w) : BitVec w :=
  if crc.getLsbD 0 then (crc >>> 1) ^^^ poly else crc >>> 1

/-- One bit of an unreflected CRC. -/
def crcBitF (w : Nat) (poly : BitVec w) (crc : BitVec w) : BitVec w :=
  if crc.getLsbD (w - 1) then (crc <<< 1) ^^^ poly else crc <<< 1

/-- n-fold application. -/
def iter {α : Type} (f : α → α) : Nat → α → α
  | 0, x => x
  | n + 1, x => iter f n (f x)

/-- The bits of a word in the opposite order. -/
def reverseBits (w : Nat) (v : BitVec w) : BitVec w :=
  BitVec.ofNat w ((List.range w).foldl (fun a i => a + (if v.getLsbD i then 2 ^ (w - 1 - i) else 0)) 0)

/-- CRC-32C over bytes in ascending order: polynomial 0x1EDC_6F41 reflected, initial and final 0xFFFF_FFFF (R177). -/
def crc32c (bs : List Byte) : Word :=
  (bs.foldl (fun crc b => iter (crcBitR 32 0x82F63B78) 8 (crc ^^^ b.setWidth 32)) (0xFFFFFFFF : Word)) ^^^ 0xFFFFFFFF

/-- The frame check sequence of IEEE 802.3 over a frame's bytes (R138). -/
def ethFcs (bs : List Byte) : Word :=
  (bs.foldl (fun crc b => iter (crcBitR 32 0xEDB88320) 8 (crc ^^^ b.setWidth 32)) (0xFFFFFFFF : Word)) ^^^ 0xFFFFFFFF

end Sys2Proof.Machine
end

