-- ==== Sys2Proof/Machine/Sparse.lean ====
section
/-! DEFINITION. Sparse maps in one canonical form: pairs of a key and a value, keys strictly rising, no entry equal to
what an unlisted key reads as. Registers, table windows, buffers and per-unit records are all held this way. -/

namespace Sys2Proof.Machine

/-- A sparse map from numbers. -/
abbrev Sparse (α : Type) := List (Nat × α)

/-- The entry of a key, if listed. -/
def lookupKey {α : Type} : Sparse α → Nat → Option α
  | [], _ => none
  | (k, v) :: rest, q => if q = k then some v else lookupKey rest q

/-- Reading: an unlisted key reads as d. -/
def sget {α : Type} (d : α) (m : Sparse α) (k : Nat) : α := (lookupKey m k).getD d

/-- Remove a key. -/
def eraseKey {α : Type} : Sparse α → Nat → Sparse α
  | [], _ => []
  | (k, v) :: rest, q => if q = k then eraseKey rest q else (k, v) :: eraseKey rest q

/-- Insert or replace a key, keeping the keys rising. -/
def insertKey {α : Type} : Sparse α → Nat → α → Sparse α
  | [], q, x => [(q, x)]
  | (k, v) :: rest, q, x =>
    if q < k then (q, x) :: (k, v) :: rest
    else if q = k then (q, x) :: rest
    else (k, v) :: insertKey rest q x

/-- Writing: the value an unlisted key reads as removes the entry. -/
def sset {α : Type} [DecidableEq α] (d : α) (m : Sparse α) (k : Nat) (v : α) : Sparse α :=
  if v = d then eraseKey m k else insertKey m k v

/-- Every value of a map changed; results that an unlisted key reads as are not listed. -/
def smap {α : Type} [DecidableEq α] (d : α) (f : Nat → α → α) (m : Sparse α) : Sparse α :=
  m.filterMap fun e => if f e.1 e.2 = d then none else some (e.1, f e.1 e.2)

/-- The keys rise strictly, all at least lo. -/
def keysRise {α : Type} : Nat → Sparse α → Bool
  | _, [] => true
  | lo, (k, _) :: rest => Nat.ble lo k && keysRise (k + 1) rest

/-- The canonical form for a map whose unlisted key k reads as d k. -/
def sparseWf {α : Type} [DecidableEq α] (d : Nat → α) (m : Sparse α) : Bool :=
  keysRise 0 m && m.all (fun e => !(decide (e.2 = d e.1)))

end Sys2Proof.Machine
end

