-- ==== Sys2Proof/Machine/StateFabric.lean ====
section
/-! DEFINITION. State of the frame path beside its registers: copies, pools and middle buffers of the Tour fabric
(chapter 11), gate lists (chapters 5 and 8), bucket levels, port guard windows and mirror samplers (chapter 8), and the
Ethernet squares (chapter 5). -/

namespace Sys2Proof.Machine

/-- A copy on its way to an output: its sideband and descriptor (R327), and where it stands. `cells` is the number of
its cells, `resv` its reservation r (R335), `egr` the egress cells it holds; `sent` cells have been launched, `arrived`
are in order, `compared` were released by the Adjudicator, `txCells` went to the controller; `passed` says that step 8 of
the frame path has let it go to the Adjudicator (R26). `ctEn` says that the route permits cut-through (R28), `origin` the square
on which the frame arrived (R211). `act1` is word 1 of its
action, for the edits of step 8. `sub` is SUB of an emitted PDU (R268, R316). `discarded` says that a DMA write of it was discarded (R509), or before it is
appended that it has ended while its cells were being launched (R346, R353). `appAt` is one more than the core cycle in which it was
appended (R344). -/
structure Copy where
  id : Nat := 0
  input : Nat := 0
  output : Nat := 0
  cls : Nat := 0
  kind : RecKind := .can
  epoch : Nat := 0
  data : List Byte := []
  deadline : Option Nat := none
  entry : Nat := 0
  cells : Nat := 0
  resv : Nat := 0
  egr : Nat := 0
  sent : Nat := 0
  arrived : Nat := 0
  compared : Nat := 0
  txCells : Nat := 0
  firstSeq : Nat := 0
  granted : Bool := false
  appended : Bool := false
  passed : Bool := false
  ct : Bool := false
  ctEn : Bool := false
  origin : Option Nat := none
  de : Bool := false
  aborted : Bool := false
  held : Bool := false
  mirror : Bool := false
  src : Nat := 0
  group : Nat := 0
  lb : Bool := false
  frame : Nat := 0
  act1 : BitVec 64 := 0
  rtag : Option Nat := none
  genFn : Option Nat := none
  genSeq : Option Nat := none
  ring : Nat := 0
  layout : Nat := 0
  sub : Bool := false
  cxOp : Nat := 0
  cxProfile : Nat := 0
  next : Nat := 0
  counted : Bool := false
  subst : Nat := 0
  discarded : Bool := false
  appAt : Nat := 0
  deriving DecidableEq, Repr

/-- The ingress cells of one admitted frame: its square of arrival and flow-control class (R337, R351). -/
structure FrameCharge where
  cells : Nat := 0
  sq : Option Nat := none
  pcls : Nat := 0
  express : Bool := false
  deriving DecidableEq, Repr

/-- A cell in a middle buffer: the middle, the output port, its copy, its number in its flow, and its launch cycle. -/
structure MidCell where
  mid : Nat
  port : Nat
  copy : Nat
  cls : Nat
  flow : Nat
  seq : Nat
  launched : Nat
  deriving DecidableEq, Repr

/-- A cell that waits in the resequencer for its turn (R343). -/
structure RsqCell where
  copy : Nat
  flow : Nat
  seq : Nat
  since : Nat
  deriving DecidableEq, Repr

/-- The Tour fabric (chapter 11): the Tour counter T, copies (not appended: in VOQ order; appended: in the order of
their egress queues), the charges of admitted frames, middles and resequencers, next SEQ and expected SEQ of each flow,
round-robin positions, one more than the cycle in which each input and output port last acted, the ager's last scan, and one more than the
cycle of the last HOLD_RECLAIM discard (R353). -/
structure FabState where
  tour : Nat := 0
  nextId : Nat := 1
  nextFrame : Nat := 1
  copies : List Copy := []
  frames : List (Nat × FrameCharge) := []
  mids : List MidCell := []
  rsq : List RsqCell := []
  seqOut : Sparse Nat := []
  seqExp : Sparse Nat := []
  rr : Sparse Nat := []
  sentAt : Sparse Nat := []
  takenAt : Sparse Nat := []
  lastAge : Nat := 0
  reclaimAt : Nat := 0
  deriving DecidableEq, Repr

/-- A gate list as it runs (R153-R158, R234): its configuration, the start of its cycle in force with the entry in
force, and whether a MAC hold applies. -/
structure GateRun where
  base : Nat := 0
  cyc : Nat := 0
  init : Nat := 0
  ents : List (BitVec 64) := []
  pos : Option (Nat × Nat) := none
  deriving DecidableEq, Repr

/-- A level that leaks or fills with time: tokens in units of 10^-15, and when it stood so. -/
structure Level where
  tokens : Nat := 0
  at_ : Nat := 0
  deriving DecidableEq, Repr

/-- Policing beside its tables: token buckets, the two levels of a meter (2m, 2m+1), express buckets, and running
stream gates with a list that waits for its base time. -/
structure PolState where
  buckets : Sparse Level := []
  meters : Sparse Level := []
  express : Sparse Level := []
  gates : Sparse GateRun := []
  gatesPend : Sparse GateRun := []
  deriving DecidableEq, Repr

/-- A sequence recovery function beside its table entry (R161, R162): the history (bit n: RECOV_SEQ - n was received),
when a frame was accepted last, and the base and time of the last latent error test. -/
structure FrerFn where
  hist : Nat := 0
  accepted : Nat := 0
  base : Int := 0
  tested : Nat := 0
  deriving DecidableEq, Repr

/-- Port guard's counts of one square in the window so far (R239): matches, misses, frames, pause-duty events, wire
time in femtoseconds, and the detectors that have acted in this window. -/
structure GuardSq where
  masq : Nat := 0
  unk : Nat := 0
  frames : Nat := 0
  fc : Nat := 0
  wire : Nat := 0
  acted : Nat := 0
  quarFrom : Nat := 0
  quarUntil : Option Nat := none
  deriving DecidableEq, Repr

/-- Port guard: per square counts, the window in progress, whether it counts nothing (`skip`) or does not run its full length
(`short`), and each sampler's count of frames offered since its last
copy (R245). -/
structure GuardState where
  sq : Sparse GuardSq := []
  window : Nat := 0
  skip : Bool := false
  short : Bool := false
  smp : Sparse Nat := []
  deriving DecidableEq, Repr

/-- A frame in the MAC: its copy, its bytes as they go out, whether it uses the express MAC, when the preamble of the
fragment in progress began, the bytes that earlier fragments carried (R148), and whether GATE_OVERRUN has counted it. -/
structure MacFrame where
  copy : Copy
  bytes : List Byte := []
  express : Bool := true
  start : Nat := 0
  sent : Nat := 0
  overrun : Bool := false
  deriving DecidableEq, Repr

/-- An installed MACsec SA (R463): the Castle slot it was copied from and the key; whether its PN has reached PN_THR, and whether its PN space
has been exhausted (R464). -/
structure SaInst where
  slot : Nat
  key : List Byte
  warned : Bool := false
  spent : Bool := false
  deriving DecidableEq, Repr

/-- An Ethernet square beside its registers (chapter 5). Pause channels: 0-7 the classes in PFC mode, 8 the link in
PAUSE mode. Times in femtoseconds of elapsed time. `pauseWait` holds the pauses that
wait for the end of a frame: channel, copy and quanta (R141); `pausePend` the pause frames that wait for an opportunity, with their quanta (R143);
`mmPend` the verify (false) and respond (true) frames that wait (R147); `gapEnd` ends the inter-packet gap (R138); `over` says that
the frame coming in has been discarded at its first byte too many (R137, R183). Under PLCA, opportunity `plcaId` of the cycle in
progress begins at `plcaFrom`, for opportunity 0 the BEACON that goes before it; `burst` counts the frames of the opportunity in
progress and `lastTx` is the end of the last one (R129). -/
structure EthSq where
  pcsUpAt : Option Nat := none
  holdUntil : Option Nat := none
  holdExpired : Bool := false
  run : Option GateRun := none
  pend : Option GateRun := none
  macHold : Bool := false
  pauseEnd : Sparse Nat := []
  pauseUsed : Sparse Nat := []
  pauseSeen : Nat := 0
  ignoring : Nat := 0
  dutyWindow : Nat := 0
  cond : Nat := 0
  txPauseNext : Sparse Nat := []
  credit : Sparse Int := []
  creditAt : Nat := 0
  tx : Option MacFrame := none
  preempted : Option MacFrame := none
  idleSince : Option Nat := some 0
  wakeAt : Option Nat := none
  attempts : Nat := 0
  verifyAt : Option Nat := none
  pauseWait : List (Nat × Nat × Nat) := []
  pausePend : List (Nat × Nat) := []
  mmPend : List Bool := []
  gapEnd : Nat := 0
  tooLong : Bool := false
  plcaFrom : Option Nat := none
  plcaId : Nat := 0
  burst : Nat := 0
  lastTx : Nat := 0
  resetAt : Option Nat := none
  deriving DecidableEq, Repr

end Sys2Proof.Machine
end

