-- ==== Sys2Proof/Machine/StateHost.lean ====
section
/-! DEFINITION. State of the host interfaces beside their registers (chapter 19). -/

namespace Sys2Proof.Machine

/-- A Benolsia request that the agent has accepted (R514, R515): its TYPE, the peer entry and the partition whose rights
it carries, the addresses to answer to, its TAG and its body. -/
structure BnlReq where
  typ : Nat
  peer : Nat
  gwid : Nat
  mac : Nat
  square : Nat
  tag : Nat
  bcast : Bool := false
  body : List Byte := []
  deriving DecidableEq, Repr

/-- An AtomicOp (R524): operation (0 FetchAdd, 1 Swap, 2 CAS), its two operands, the step it has reached (0 waits for the
semaphore, 1 LOCK, 2 READ, 3 WRITE sent), and the value read. -/
structure AtomicReq where
  op : Nat
  a : Nat
  b : Nat
  step : Nat := 0
  got : Nat := 0
  deriving DecidableEq, Repr

/-- A request of the bridge (R519-R524): its window, endpoint and window offset, whether it is a write, length and data;
`stage` 0 waits for a tag, 1 sent, 2 waits after BUSY; the time of its first sending and of the next retry. -/
structure BrgReq where
  win : Nat
  ep : Nat
  write : Bool
  off : Nat
  len : Nat := 0
  data : List Byte := []
  tag : Nat := 0
  stage : Nat := 0
  since : Nat := 0
  retryAt : Nat := 0
  atomic : Option AtomicReq := none
  deriving DecidableEq, Repr

/-- A window semaphore in use (R523): the partition that holds it (4: the bridge, for an AtomicOp), since when, and the
time of the last LOCK or renewal. -/
structure SemHold where
  part : Nat
  since : Nat
  renewed : Nat
  deriving DecidableEq, Repr

/-- A lease of the agent (R522). -/
structure Lease where
  peer : Nat
  base : Nat
  len : Nat
  until_ : Nat
  deriving DecidableEq, Repr

/-- An entry of the window error log (R527). -/
structure WErr where
  kind : Nat
  win : Nat
  status : Nat
  tag : Nat
  off : Nat
  time : Nat
  deriving DecidableEq, Repr

/-- A receive ring's completions that are not signalled yet, and the time of the first of them (R510). -/
structure RxPend where
  count : Nat := 0
  since : Nat := 0
  deriving DecidableEq, Repr

/-- A transmit descriptor whose DONE_WORD waits for its release by the Adjudicator (R372, R506): ring, ring size, STATUS and STAMP. -/
structure HdmaDone where
  ring : Nat := 0
  size : Nat := 8
  status : Nat := 0
  stamp : Nat := 0
  deriving DecidableEq, Repr

/-- Host interfaces: keys in the Benolsia engine, the last KEY_SEL of each peer, the bucket of received messages, the
agent's accepted requests and its leases, the bridge's requests in order of arrival, semaphores, responses for the
bridge, the window error log, receive ring signalling, the transmit ring served last at each PRIO, and the transmit
completions that wait for their release. -/
structure HostState where
  bnlKeys : Sparse SaInst := []
  peerKey : Sparse Nat := []
  bnlBucket : Option Level := none
  agent : List BnlReq := []
  leases : List Lease := []
  brg : List BrgReq := []
  sems : Sparse SemHold := []
  responses : List BnlReq := []
  werr : List WErr := []
  rx : Sparse RxPend := []
  txLast : Sparse Nat := []
  done : List (Nat × HdmaDone) := []
  deriving DecidableEq, Repr

end Sys2Proof.Machine
end

