-- ==== Sys2Proof/Machine/StateCastle.lean ====
section
/-! DEFINITION. State of the Castle (chapter 15) and of the cipher complex (chapter 16) beside their registers, and the
OTP fields that the Castle and the life cycle use. -/

/-
MARKS of the model choices coded here; the log rows say each in full.
DESIGN CHOICE (log 1, unsafe): what State.reset is: every register at its reset value, flash empty, OTP unprogrammed.
-/

namespace Sys2Proof.Machine

/-- A key slot that holds a key (R423, R424, R432): the key is held as a mask and the key XOR that mask. An Ed448 pair
is two slots with the same attributes; `second` marks slot n + 1. `maskAt` is when the mask was drawn. -/
structure KeySlot where
  mask : List Byte
  masked : List Byte
  owner : Nat := 0
  ktype : Nat := 0
  usage : Nat := 0
  parent : Nat := 0xFFFF
  parentGen : Nat := 0
  svn : Nat := 0
  keyId : Nat := 0
  sys : Bool := false
  second : Bool := false
  maskAt : Nat := 0
  deriving DecidableEq, Repr

/-- A Castle command in progress (R428): its OP, the result it ends with, what it leaves in KBUF and KLEN, and the slots
it changed as they were before, and the slot of KSLOT as its start found it. -/
structure CastleCmd where
  op : Nat
  result : Nat
  slot : Nat := 0
  out : Option (List Byte) := none
  undo : List (Nat × Option KeySlot) := []
  deriving DecidableEq, Repr

/-- One entry of the always-on tamper log (R439). -/
structure AoTamper where
  tick : Nat
  sensor : Nat
  resp : Nat
  phase : Nat
  deriving DecidableEq, Repr

/-- The Castle: slots, generations, orphaned slots, commands, the Device Root while it exists, the number of the helper
data in force, the marks of RESIGN, and the key-blob region of flash (generation table and autoload entries). `rngBad`
says that the random source failed its health test; `gtDirty` that a write of the generation table waits for the
Arbiter; `aoCount` is the always-on copy of COUNT. -/
structure CastleState where
  slots : Sparse KeySlot := []
  gens : Sparse Nat := []
  orphaned : Sparse Bool := []
  cmds : Sparse CastleCmd := []
  root : Option (List Byte) := none
  helper : Nat := 0
  aoLatch : Bool := false
  resignPending : Nat := 0
  clearMarked : Bool := false
  rngBad : Bool := false
  gtDirty : Bool := false
  gtCount : Nat := 0
  gtSvn : Sparse Nat := []
  gtGen : Sparse Nat := []
  gtSeal : Option (List Byte × List Byte) := none
  aoCount : Option Nat := none
  autoload : Sparse (List Byte) := []
  deferred : Bool := false
  aoLog : List AoTamper := []
  aoOvf : Nat := 0
  deriving DecidableEq, Repr

/-- OTP (R437, R441, R580, R581, R52): the RESIGN and clear marks as counts of programmed bits, the resign-clear hash,
the life-cycle state, returns used, the supervisor partition, the RESIGN_FWD policy bit, the customer key hash, and a
transition whose WIPE_DONE bit is not fused. -/
structure OtpState where
  resignMark : Nat := 0
  clearMark : Nat := 0
  resignPerm : Bool := false
  clearHash : Option (List Byte) := none
  lc : Nat := 0
  returns : Nat := 0
  supervisor : Nat := 0
  resignFwd : Bool := false
  custKey : Option (List Byte) := none
  wipePending : Bool := false
  helperHashes : Nat := 0
  deriving DecidableEq, Repr

/-- A job of the cipher complex (R446-R459). A fabric job holds its copy; a host job its descriptor, its segments as
pairs of KIND and data, and its ring index; a Benolsia job the request it answers. `fail` is the status with which it ends, other
than OK; `running` says that a core has it. The outcome is computed at dispatch. -/
structure CxJob where
  id : Nat
  op : Nat
  copy : Option Copy := none
  part : Nat := 0
  index : Nat := 0
  bnl : Option BnlReq := none
  prio : Nat := 0
  slot : Nat := 0
  profile : Nat := 0
  epoch : Nat := 0
  tagLen : Nat := 0
  iv : List Byte := []
  tagIn : List Byte := []
  aad : List Byte := []
  payload : List Byte := []
  outAddr : Nat := 0
  outCap : Nat := 0
  descAddr : Nat := 0
  fail : Nat := 0
  running : Bool := false
  usesKey : Bool := true
  out : List Byte := []
  tagOut : List Byte := []
  deriving DecidableEq, Repr

/-- The cipher complex: jobs in the order of their entry, the next job number, per partition the next ring index to
fetch, and ring indexes that completed before an earlier one. -/
structure CxState where
  jobs : List CxJob := []
  nextId : Nat := 0
  fetch : Sparse Nat := []
  done : List (Nat × Nat) := []
  deriving DecidableEq, Repr

end Sys2Proof.Machine
end

