-- ==== Sys2Proof/Machine/Regs.lean ====
section
/-! DEFINITION. The register map of the part, taken row by row from the page maps of the spec (R41, R45 and each
chapter's page map): the BAR0 address of every register under the spec's own name, and for every register its reset
value, which bits software writes plainly, which bits clear on a written 1, and whether it is shadowable or reserved
to the supervisor. -/

namespace Sys2Proof.Machine

/-- The page types of R41, with the SQ type split into its CAN and its Ethernet map. -/
inductive PageKind where
  | glb
  | pwr
  | wake
  | part
  | tempo
  | tsync
  | epoch
  | adj
  | pl
  | fab
  | buf
  | cls
  | pol
  | guard
  | smp
  | sig
  | pawn
  | cx
  | castle
  | tamper
  | mem
  | arb
  | score
  | sens
  | gambit
  | xspi
  | brg
  | bnl
  | hdma
  | can
  | eth
  | stg
  | sec
  | sds
  deriving DecidableEq, Repr

/-- One register of a page map: its offset, up to two repetitions (count and stride), reset value, plainly written
bits, bits cleared by writing 1, and whether only the supervisor writes it and whether it is shadowable. -/
structure RegRow where
  off : Nat
  n1 : Nat := 1
  s1 : Nat := 4
  n2 : Nat := 1
  s2 : Nat := 4
  rst : Nat := 0
  rw : Nat := 0
  w1c : Nat := 0
  sup : Bool := false
  shadow : Bool := false
  deriving DecidableEq, Repr

/-- The page type of a page number (R41), none for an unimplemented page. -/
def pageKind (p : Nat) : Option PageKind :=
  if p == 0x000 then some .glb else
  if p == 0x001 then some .pwr else
  if p == 0x002 then some .wake else
  if 0x008 ≤ p && p ≤ 0x00B then some .part else
  if p == 0x010 then some .tempo else
  if p == 0x011 then some .tsync else
  if p == 0x020 then some .epoch else
  if p == 0x030 then some .adj else
  if 0x031 ≤ p && p ≤ 0x032 then some .pl else
  if p == 0x040 then some .fab else
  if p == 0x041 then some .buf else
  if p == 0x048 then some .cls else
  if p == 0x049 then some .pol else
  if p == 0x04A then some .guard else
  if p == 0x04B then some .smp else
  if p == 0x050 then some .sig else
  if 0x051 ≤ p && p ≤ 0x060 then some .pawn else
  if p == 0x070 then some .cx else
  if p == 0x071 then some .castle else
  if p == 0x072 then some .tamper else
  if p == 0x080 then some .mem else
  if p == 0x090 then some .arb else
  if p == 0x091 then some .score else
  if p == 0x092 then some .sens else
  if p == 0x0A0 then some .gambit else
  if p == 0x0A1 then some .xspi else
  if p == 0x0B0 then some .brg else
  if p == 0x0B1 then some .bnl else
  if 0x0C0 ≤ p && p ≤ 0x0C3 then some .hdma else
  if 0x100 ≤ p && p ≤ 0x127 then some .can else
  if 0x128 ≤ p && p ≤ 0x13F then some .eth else
  if 0x140 ≤ p && p ≤ 0x17F then some .stg else
  if 0x180 ≤ p && p ≤ 0x18F then some .sec else
  if 0x190 ≤ p && p ≤ 0x19F then some .sds else
  none

/-- The first page of a type as R41 lists the types (SQ pages form one type). -/
def PageKind.first : PageKind → Nat
  | .glb => 0x000
  | .pwr => 0x001
  | .wake => 0x002
  | .part => 0x008
  | .tempo => 0x010
  | .tsync => 0x011
  | .epoch => 0x020
  | .adj => 0x030
  | .pl => 0x031
  | .fab => 0x040
  | .buf => 0x041
  | .cls => 0x048
  | .pol => 0x049
  | .guard => 0x04A
  | .smp => 0x04B
  | .sig => 0x050
  | .pawn => 0x051
  | .cx => 0x070
  | .castle => 0x071
  | .tamper => 0x072
  | .mem => 0x080
  | .arb => 0x090
  | .score => 0x091
  | .sens => 0x092
  | .gambit => 0x0A0
  | .xspi => 0x0A1
  | .brg => 0x0B0
  | .bnl => 0x0B1
  | .hdma => 0x0C0
  | .can => 0x100
  | .eth => 0x100
  | .stg => 0x140
  | .sec => 0x180
  | .sds => 0x190

/-- PLW and PLB are two types of R41, each its own first page. -/
def typePage (k : PageKind) (p : Nat) : Nat :=
  match k with
  | .pl => p
  | k => k.first

/-- PAGE_CAPS.IRQ_SRC of each type (R45 and each page map). -/
def irqSrc : PageKind → Nat
  | .glb => 3
  | .pwr => 2
  | .wake => 3
  | .part => 4
  | .tempo => 21
  | .tsync => 1
  | .epoch => 18
  | .adj => 8
  | .pl => 2
  | .fab => 4
  | .buf => 5
  | .cls => 6
  | .pol => 3
  | .guard => 5
  | .smp => 0
  | .sig => 12
  | .pawn => 7
  | .cx => 13
  | .castle => 13
  | .tamper => 16
  | .mem => 6
  | .arb => 10
  | .score => 3
  | .sens => 2
  | .gambit => 5
  | .xspi => 2
  | .brg => 18
  | .bnl => 3
  | .hdma => 3
  | .can => 17
  | .eth => 12
  | .stg => 5
  | .sec => 4
  | .sds => 5

/-- VOLATILE (R41). -/
def isVolatile : PageKind → Bool
  | .part => true
  | .score => true
  | .brg => true
  | .can => true
  | .eth => true
  | .stg => true
  | _ => false

/-- SHADOW (R41). -/
def isShadow : PageKind → Bool
  | .wake => true
  | .fab => true
  | .buf => true
  | .cls => true
  | .pol => true
  | .guard => true
  | .smp => true
  | .sig => true
  | .pawn => true
  | .cx => true
  | .can => true
  | .eth => true
  | .sec => true
  | _ => false

/-- TABLE (R45); of the PAWN pages only PAWN(0). -/
def isTable : PageKind → Bool
  | .wake => true
  | .cls => true
  | .pol => true
  | .guard => true
  | .sig => true
  | .pawn => true
  | .cx => true
  | .castle => true
  | .score => true
  | .gambit => true
  | .can => true
  | .eth => true
  | .sec => true
  | _ => false

/-- Page map of GLB (chapter 22). -/
def rowsGLB : List RegRow :=
  [{ off := 0x040, w1c := 0x7FF },
   { off := 0x044, rst := 0x7FF, rw := 0x7FF },
   { off := 0x048, w1c := 0x7D },
   { off := 0x04C, sup := true },
   { off := 0x050 },
   { off := 0x054 },
   { off := 0x058 },
   { off := 0x05C },
   { off := 0x060, rst := 0x3, rw := 0x13 },
   { off := 0x064 },
   { off := 0x068 },
   { off := 0x070 },
   { off := 0x074, sup := true },
   { off := 0x078 },
   { off := 0x080, rst := 0x640000A2 },
   { off := 0x084 }]

/-- Page map of PWR (chapter 21). -/
def rowsPWR : List RegRow :=
  [{ off := 0x040 },
   { off := 0x044 },
   { off := 0x048 },
   { off := 0x04C },
   { off := 0x050 },
   { off := 0x080 },
   { off := 0x084 }]

/-- Page map of WAKE (chapter 21). -/
def rowsWAKE : List RegRow :=
  [{ off := 0x030, rst := 0x3A80000 },
   { off := 0x034, rst := 0x5000 },
   { off := 0x040, rst := 0x1, rw := 0x3, shadow := true },
   { off := 0x044, rw := 0xFFFFFFFF, shadow := true },
   { off := 0x048, rw := 0xFFFFFFFF, shadow := true },
   { off := 0x04C, rw := 0xF, shadow := true },
   { off := 0x050, rw := 0xFF700000, shadow := true },
   { off := 0x054 },
   { off := 0x058 },
   { off := 0x05C },
   { off := 0x080 },
   { off := 0x084 },
   { off := 0x088 }]

/-- Page map of PART (chapter 02). -/
def rowsPART : List RegRow :=
  [{ off := 0x040 },
   { off := 0x044, rw := 0x8000FFFF, sup := true },
   { off := 0x048, sup := true },
   { off := 0x04C, rw := 0xFFFF, sup := true },
   { off := 0x050 },
   { off := 0x054 },
   { off := 0x058 },
   { off := 0x060 },
   { off := 0x064 },
   { off := 0x400, n1 := 128, s1 := 0x4 }]

/-- Page map of TEMPO (chapter 03). -/
def rowsTEMPO : List RegRow :=
  [{ off := 0x040, rst := 0x3, rw := 0x33 },
   { off := 0x044 },
   { off := 0x048 },
   { off := 0x04C },
   { off := 0x050 },
   { off := 0x054 },
   { off := 0x058, rw := 0xFFFFFFFF },
   { off := 0x05C, rst := 0xA000, rw := 0xFFFF },
   { off := 0x060, rst := 0xFFFFFFFF },
   { off := 0x064, rst := 0x80064, rw := 0xFFFFFF },
   { off := 0x068, rst := 0x3E8, rw := 0xFFFFFFFF },
   { off := 0x06C, rst := 0x4E2001F4, rw := 0xFFFFFFFF },
   { off := 0x070, rst := 0x186A0, rw := 0xFFFFFFFF },
   { off := 0x074, rst := 0xC350, rw := 0xFFFFFFFF },
   { off := 0x078, rst := 0x64, rw := 0x3FF },
   { off := 0x07C },
   { off := 0x080 },
   { off := 0x084 },
   { off := 0x088, rw := 0xFFFFFFFF },
   { off := 0x08C, rw := 0xFFFFFFFF },
   { off := 0x090 },
   { off := 0x094 },
   { off := 0x098 },
   { off := 0x09C, rw := 0xFFFFFFFF },
   { off := 0x0A0, rw := 0xFFFFFF },
   { off := 0x0A4, rst := 0xFF3D000, rw := 0xFFFF1FF },
   { off := 0x0A8 },
   { off := 0x0AC, rw := 0xFF },
   { off := 0x0B0 },
   { off := 0x100, n1 := 16, s1 := 0x10, rw := 0xFFFFFFFF }] ++
  [{ off := 0x104, n1 := 16, s1 := 0x10, rw := 0xFFFFFFFF },
   { off := 0x108, n1 := 16, s1 := 0x10, rw := 0xFFFFFFFF },
   { off := 0x10C, n1 := 16, s1 := 0x10, rw := 0x3 }]

/-- Page map of TSYNC (chapter 03). -/
def rowsTSYNC : List RegRow :=
  [{ off := 0x040, rst := 0x1, rw := 0x3 },
   { off := 0x044, rst := 0x3E8, rw := 0xFFFF },
   { off := 0x048 },
   { off := 0x100, n1 := 40, s1 := 0x10, rw := 0x9FFFFFFF },
   { off := 0x104, n1 := 40, s1 := 0x10, rw := 0x9FFFFFFF },
   { off := 0x108, n1 := 40, s1 := 0x10, rw := 0xFFFF },
   { off := 0x10C, n1 := 40, s1 := 0x10 }]

/-- Page map of EPOCH (chapter 14). -/
def rowsEPOCH : List RegRow :=
  [{ off := 0x040 },
   { off := 0x044 },
   { off := 0x048 },
   { off := 0x04C },
   { off := 0x050 },
   { off := 0x054, rw := 0xFFFFFF },
   { off := 0x058, rst := 0x4000 },
   { off := 0x080 },
   { off := 0x084 },
   { off := 0x088 },
   { off := 0x08C },
   { off := 0x090 },
   { off := 0x100, n1 := 4, s1 := 0x40 },
   { off := 0x104, n1 := 4, s1 := 0x40 },
   { off := 0x108, n1 := 4, s1 := 0x40 },
   { off := 0x10C, n1 := 4, s1 := 0x40, rst := 0xA, rw := 0x80000FFF },
   { off := 0x110, n1 := 4, s1 := 0x40, rw := 0xFFFFFFFF },
   { off := 0x114, n1 := 4, s1 := 0x40, rw := 0xFFFFFFFF },
   { off := 0x118, n1 := 4, s1 := 0x40 },
   { off := 0x11C, n1 := 4, s1 := 0x40 },
   { off := 0x120, n1 := 4, s1 := 0x40 },
   { off := 0x124, n1 := 4, s1 := 0x40 },
   { off := 0x128, n1 := 4, s1 := 0x40, rw := 0x3F }]

/-- Page map of ADJ (chapter 13). -/
def rowsADJ : List RegRow :=
  [{ off := 0x040, rst := 0x3, rw := 0x3 },
   { off := 0x044 },
   { off := 0x048, rst := 0x1000, rw := 0xFFFF },
   { off := 0x04C, rst := 0xA0003, rw := 0xFFFF00FF },
   { off := 0x050, rst := 0x15180, rw := 0xFFFFFF },
   { off := 0x054 },
   { off := 0x058 },
   { off := 0x05C },
   { off := 0x060 },
   { off := 0x064, rw := 0xFFF },
   { off := 0x070, w1c := 0x80000000 },
   { off := 0x074 },
   { off := 0x080 },
   { off := 0x084 },
   { off := 0x088 },
   { off := 0x08C },
   { off := 0x090 },
   { off := 0x094 },
   { off := 0x098 },
   { off := 0x09C },
   { off := 0x0A0 },
   { off := 0x0A4 },
   { off := 0x0A8 },
   { off := 0x0AC }]

/-- Page map of PL (chapter 13). -/
def rowsPL : List RegRow :=
  [{ off := 0x040 },
   { off := 0x044 },
   { off := 0x048, w1c := 0xF },
   { off := 0x04C },
   { off := 0x050, rst := 0x3E8, rw := 0xFFFF },
   { off := 0x054 },
   { off := 0x058 },
   { off := 0x05C },
   { off := 0x080 },
   { off := 0x084 },
   { off := 0x088 },
   { off := 0x08C }]

/-- Page map of FAB (chapter 11). -/
def rowsFAB : List RegRow :=
  [{ off := 0x040, rst := 0x1, rw := 0xF, shadow := true },
   { off := 0x044 },
   { off := 0x048, rst := 0x80, rw := 0xFF, shadow := true },
   { off := 0x04C, rst := 0x4000, rw := 0xFFFF, shadow := true },
   { off := 0x050, rw := 0x3FF },
   { off := 0x054, rw := 0xFFFF },
   { off := 0x080 },
   { off := 0x084 },
   { off := 0x088 },
   { off := 0x08C },
   { off := 0x090 }]

/-- Page map of BUF (chapter 11). -/
def rowsBUF : List RegRow :=
  [{ off := 0x040, rst := 0x80000064, rw := 0x80003FFF, shadow := true },
   { off := 0x044, rst := 0x20, rw := 0x3F },
   { off := 0x048, rst := 0x20000 },
   { off := 0x04C, rst := 0x20000 },
   { off := 0x050, rst := 0x20000, rw := 0x3FFFF },
   { off := 0x054, rst := 0x20000, rw := 0x3FFFF },
   { off := 0x058, rst := 0x1000, rw := 0x3FFFF, shadow := true },
   { off := 0x05C, rst := 0x1000, rw := 0x3FFFF, shadow := true },
   { off := 0x060, rst := 0x4000, rw := 0x3FFFF, shadow := true },
   { off := 0x064, rst := 0x2000, rw := 0x3FFFF, shadow := true },
   { off := 0x068, rst := 0x4000200, rw := 0xFFFFFFFF, shadow := true },
   { off := 0x100, n1 := 8, s1 := 0x10, rst := 0x4000, rw := 0x3FFFF, shadow := true },
   { off := 0x104, n1 := 8, s1 := 0x10, rst := 0x10, rw := 0xFF, shadow := true },
   { off := 0x108, n1 := 8, s1 := 0x10, rst := 0x4000, rw := 0x3FFFF, shadow := true },
   { off := 0x10C, n1 := 8, s1 := 0x10, rst := 0x4E20, rw := 0xFFFF, shadow := true },
   { off := 0x180, n1 := 8, s1 := 0x4, rst := 0x2000100, rw := 0xFFFFFFFF, shadow := true },
   { off := 0x200, n1 := 8, s1 := 0x4 },
   { off := 0x220 },
   { off := 0x224 },
   { off := 0x228 },
   { off := 0x22C },
   { off := 0x230 },
   { off := 0x234 },
   { off := 0x238 }]

/-- Page map of CLS (chapter 07). -/
def rowsCLS : List RegRow :=
  [{ off := 0x030, rst := 0x1000000 },
   { off := 0x034, rst := 0x400000 },
   { off := 0x040, rst := 0x5, rw := 0x7, shadow := true },
   { off := 0x044 },
   { off := 0x048 },
   { off := 0x04C },
   { off := 0x080 },
   { off := 0x084 },
   { off := 0x088 },
   { off := 0x08C },
   { off := 0x090 },
   { off := 0x094 },
   { off := 0x098 },
   { off := 0x09C },
   { off := 0x0A0 },
   { off := 0x0A4 },
   { off := 0x0A8 },
   { off := 0x0AC },
   { off := 0x0B0 },
   { off := 0x0B4 },
   { off := 0x0B8 },
   { off := 0x0BC }]

/-- Page map of POL (chapter 08). -/
def rowsPOL : List RegRow :=
  [{ off := 0x030, rst := 0x1400000 },
   { off := 0x034, rst := 0x80000 },
   { off := 0x040, rst := 0x1, rw := 0x1, shadow := true },
   { off := 0x044, rw := 0xFFFF, shadow := true },
   { off := 0x080 },
   { off := 0x084 },
   { off := 0x088 },
   { off := 0x08C },
   { off := 0x090 },
   { off := 0x100, n1 := 16, s1 := 0x8, rst := 0x7735940, rw := 0xFFFFFFFF, shadow := true },
   { off := 0x104, n1 := 16, s1 := 0x8, rst := 0x2400, rw := 0xFFFFFF, shadow := true }]

/-- Page map of GUARD (chapter 08). -/
def rowsGUARD : List RegRow :=
  [{ off := 0x030, rst := 0x1480000 },
   { off := 0x034, rst := 0x2000 },
   { off := 0x040, rst := 0x80000064, rw := 0x800003FF, shadow := true },
   { off := 0x044, w1c := 0xFFFFFFFF },
   { off := 0x048, w1c := 0xFFFFFFFF },
   { off := 0x04C, rw := 0xFFFF, shadow := true },
   { off := 0x050, rw := 0x7F, shadow := true },
   { off := 0x054 },
   { off := 0x080 },
   { off := 0x084 },
   { off := 0x088 },
   { off := 0x08C },
   { off := 0x090 },
   { off := 0x100, n1 := 64, s1 := 0x10, rst := 0x55, rw := 0xFF, shadow := true },
   { off := 0x104, n1 := 64, s1 := 0x10, rw := 0xFFFFFFFF, shadow := true },
   { off := 0x108, n1 := 64, s1 := 0x10, rw := 0x7F, shadow := true },
   { off := 0x10C, n1 := 64, s1 := 0x10 }]

/-- Page map of SMP (chapter 08). -/
def rowsSMP : List RegRow :=
  [{ off := 0x040, rst := 0x1, rw := 0x1, shadow := true },
   { off := 0x100, n1 := 64, s1 := 0x10, rw := 0x7FFFFFF, shadow := true },
   { off := 0x104, n1 := 64, s1 := 0x10, rw := 0x1301F, shadow := true },
   { off := 0x108, n1 := 64, s1 := 0x10 },
   { off := 0x10C, n1 := 64, s1 := 0x10 }]

/-- Page map of SIG (chapter 09). -/
def rowsSIG : List RegRow :=
  [{ off := 0x030, rst := 0x1800000 },
   { off := 0x034, rst := 0x700000 },
   { off := 0x040, rst := 0x1, rw := 0x1, shadow := true },
   { off := 0x044 },
   { off := 0x048, rw := 0xFFFF, shadow := true },
   { off := 0x04C, w1c := 0x80000000 },
   { off := 0x080 },
   { off := 0x084 },
   { off := 0x088 },
   { off := 0x08C },
   { off := 0x090 },
   { off := 0x094 },
   { off := 0x098 },
   { off := 0x09C },
   { off := 0x0A0 },
   { off := 0x0A4 },
   { off := 0x100, n1 := 8, s1 := 0x4, rw := 0x8000FFFF }]

/-- Page map of PAWN (chapter 10). -/
def rowsPAWN : List RegRow :=
  [{ off := 0x030, rst := 0x2000000 },
   { off := 0x034, rst := 0x90000 },
   { off := 0x040, rst := 0x1, rw := 0x1 },
   { off := 0x044 },
   { off := 0x048 },
   { off := 0x04C, rw := 0xFFFFFFFF },
   { off := 0x050, rw := 0xFFFFFFFF },
   { off := 0x054 },
   { off := 0x080 },
   { off := 0x084 },
   { off := 0x088 },
   { off := 0x08C, rw := 0x3FF03FFF },
   { off := 0x090, w1c := 0x80000000 },
   { off := 0x094 },
   { off := 0x098 },
   { off := 0x200, rst := 0x801, rw := 0xF01, shadow := true },
   { off := 0x204 },
   { off := 0x208, rw := 0x7FF },
   { off := 0x20C },
   { off := 0x210, n1 := 5, s1 := 0x4 },
   { off := 0x224 },
   { off := 0x228 },
   { off := 0x22C },
   { off := 0x230 },
   { off := 0x234 },
   { off := 0x240, n1 := 8, s1 := 0x8, rw := 0xFFFFFFFF, shadow := true },
   { off := 0x244, n1 := 8, s1 := 0x8, rw := 0x31, shadow := true }]

/-- Page map of CX (chapter 16). -/
def rowsCX : List RegRow :=
  [{ off := 0x030, rst := 0x3900000 },
   { off := 0x034, rst := 0x8000 },
   { off := 0x040, rst := 0x1, rw := 0x1, shadow := true },
   { off := 0x044 },
   { off := 0x048, rst := 0x100, rw := 0x3FF, shadow := true },
   { off := 0x04C, rw := 0x7F, shadow := true },
   { off := 0x050, w1c := 0x80000000 },
   { off := 0x054 },
   { off := 0x080 },
   { off := 0x084 },
   { off := 0x088 },
   { off := 0x08C },
   { off := 0x090 },
   { off := 0x094 },
   { off := 0x098 },
   { off := 0x09C },
   { off := 0x0A0 },
   { off := 0x0A4 },
   { off := 0x0A8 },
   { off := 0x0AC },
   { off := 0x100, n1 := 4, s1 := 0x40, rw := 0xFFFFFFFF },
   { off := 0x104, n1 := 4, s1 := 0x40, rw := 0xFFFFFFFF },
   { off := 0x108, n1 := 4, s1 := 0x40, rw := 0x1FFF },
   { off := 0x10C, n1 := 4, s1 := 0x40, rw := 0xFFF },
   { off := 0x110, n1 := 4, s1 := 0x40 },
   { off := 0x114, n1 := 4, s1 := 0x40, rst := 0x40, rw := 0x3FF, sup := true },
   { off := 0x118, n1 := 4, s1 := 0x40, rw := 0x3F }]

/-- Page map of CASTLE (chapter 15). -/
def rowsCASTLE : List RegRow :=
  [{ off := 0x030, rst := 0x3880000 },
   { off := 0x034, rst := 0x8000 },
   { off := 0x040 },
   { off := 0x044, rw := 0x1 },
   { off := 0x048, rst := 0xA, rw := 0x3FF },
   { off := 0x04C },
   { off := 0x050, n1 := 4, s1 := 0x4 },
   { off := 0x060 },
   { off := 0x064 },
   { off := 0x068 },
   { off := 0x080, n1 := 15, s1 := 0x4 },
   { off := 0x0C0 },
   { off := 0x0C4 },
   { off := 0x0C8 },
   { off := 0x200, n1 := 4, s1 := 0x200 },
   { off := 0x204, n1 := 4, s1 := 0x200 },
   { off := 0x208, n1 := 4, s1 := 0x200, rw := 0x3FF },
   { off := 0x20C, n1 := 4, s1 := 0x200, rw := 0xFF },
   { off := 0x210, n1 := 4, s1 := 0x200, rw := 0x3F },
   { off := 0x214, n1 := 4, s1 := 0x200, rw := 0xFFFFFFFF },
   { off := 0x300, n1 := 4, s1 := 0x200, n2 := 64, s2 := 0x4, rw := 0xFFFFFFFF }]

/-- Page map of TAMPER (chapter 15). -/
def rowsTAMPER : List RegRow :=
  [{ off := 0x040, rw := 0x80000000 },
   { off := 0x044, w1c := 0x7FFF },
   { off := 0x048 },
   { off := 0x04C, w1c := 0x7FFF },
   { off := 0x050 },
   { off := 0x054 },
   { off := 0x100, n1 := 15, s1 := 0x8, rw := 0x3 },
   { off := 0x104, n1 := 15, s1 := 0x8, rw := 0xFFFFFFFF }]

/-- Page map of MEM (chapter 17). -/
def rowsMEM : List RegRow :=
  [{ off := 0x040, rst := 0x1, rw := 0x1 },
   { off := 0x044, rst := 0xE10, rw := 0x1FFFF },
   { off := 0x048, rst := 0x3, rw := 0xF },
   { off := 0x04C, rst := 0xA0010, rw := 0xFFFF00FF },
   { off := 0x050, rst := 0x1 },
   { off := 0x054 },
   { off := 0x058 },
   { off := 0x060, rw := 0xFF0FFF },
   { off := 0x064 },
   { off := 0x068 },
   { off := 0x070, w1c := 0x80000000 },
   { off := 0x074 },
   { off := 0x078, w1c := 0x80000000 },
   { off := 0x07C },
   { off := 0x080 },
   { off := 0x084 },
   { off := 0x088 },
   { off := 0x08C },
   { off := 0x090 },
   { off := 0x200, n1 := 64, s1 := 0x4 },
   { off := 0x400, n1 := 192, s1 := 0x10 },
   { off := 0x404, n1 := 192, s1 := 0x10 },
   { off := 0x408, n1 := 192, s1 := 0x10 },
   { off := 0x40C, n1 := 192, s1 := 0x10 }]

/-- Page map of ARB (chapter 18). -/
def rowsARB : List RegRow :=
  [{ off := 0x040 },
   { off := 0x044 },
   { off := 0x048 },
   { off := 0x04C, rst := 0x64, rw := 0xFFFF },
   { off := 0x050, sup := true },
   { off := 0x054 },
   { off := 0x058 },
   { off := 0x05C },
   { off := 0x060 },
   { off := 0x100, n1 := 4, s1 := 0x80 },
   { off := 0x104, n1 := 4, s1 := 0x80 },
   { off := 0x108, n1 := 4, s1 := 0x80, n2 := 8, s2 := 0x4, rw := 0xFFFFFFFF },
   { off := 0x140, n1 := 4, s1 := 0x80, n2 := 8, s2 := 0x4 },
   { off := 0x160, n1 := 4, s1 := 0x80, rw := 0x3F }]

/-- Page map of SCORE (chapter 18). -/
def rowsSCORE : List RegRow :=
  [{ off := 0x030, rst := 0x3A00000 },
   { off := 0x034, rst := 0x40000 },
   { off := 0x048 },
   { off := 0x04C },
   { off := 0x050 },
   { off := 0x054 },
   { off := 0x058 },
   { off := 0x05C, rw := 0x1FFF },
   { off := 0x060, rst := 0x3C0400, rw := 0xFFFF1FFF },
   { off := 0x064, rst := 0x3, rw := 0x7 },
   { off := 0x100, n1 := 7, s1 := 0x4 },
   { off := 0x11C }]

/-- Page map of SENS (chapter 18). -/
def rowsSENS : List RegRow :=
  [{ off := 0x040, rst := 0x1, rw := 0x1 },
   { off := 0x044, rst := 0x3C0028, rw := 0xFFFFFFFF },
   { off := 0x048, w1c := 0xFFFFFF },
   { off := 0x04C },
   { off := 0x050, w1c := 0xFFFF },
   { off := 0x100, n1 := 24, s1 := 0x10 },
   { off := 0x104, n1 := 24, s1 := 0x10, rw := 0xFFFFFFFF },
   { off := 0x108, n1 := 24, s1 := 0x10, rw := 0xFFFF },
   { off := 0x10C, n1 := 24, s1 := 0x10, rw := 0xFFFFFFFF }]

/-- Page map of GAMBIT (chapter 20). -/
def rowsGAMBIT : List RegRow :=
  [{ off := 0x030, rst := 0x3A40000 },
   { off := 0x034, rst := 0x2000 },
   { off := 0x040, rst := 0x384303C, rw := 0xFFFF7FFF },
   { off := 0x044 },
   { off := 0x048 },
   { off := 0x04C },
   { off := 0x050 },
   { off := 0x054 },
   { off := 0x058 },
   { off := 0x05C },
   { off := 0x060 },
   { off := 0x064, rst := 0x64000001 },
   { off := 0x068 },
   { off := 0x100, n1 := 64, s1 := 0x4 }]

/-- Page map of XSPI (chapter 20). -/
def rowsXSPI : List RegRow :=
  [{ off := 0x040, rst := 0x1, rw := 0x1 },
   { off := 0x044 },
   { off := 0x048 },
   { off := 0x04C },
   { off := 0x050 },
   { off := 0x080 },
   { off := 0x084 },
   { off := 0x088 },
   { off := 0x08C }]

/-- Page map of BRG (chapter 19). -/
def rowsBRG : List RegRow :=
  [{ off := 0x040, rst := 0x1, rw := 0x1 },
   { off := 0x044, rst := 0x2710, rw := 0xFFFF },
   { off := 0x048, rst := 0x2710, rw := 0xFFFF },
   { off := 0x050 },
   { off := 0x054 },
   { off := 0x058 },
   { off := 0x05C, w1c := 0xFFFF },
   { off := 0x080 },
   { off := 0x084 },
   { off := 0x088 },
   { off := 0x08C },
   { off := 0x100, n1 := 16, s1 := 0x20, rw := 0xBF3FFFFF },
   { off := 0x104, n1 := 16, s1 := 0x20, rw := 0xFFFFFFFF },
   { off := 0x108, n1 := 16, s1 := 0x20, rw := 0x8FFFFFFF },
   { off := 0x10C, n1 := 16, s1 := 0x20, rw := 0xFFFFFFFF },
   { off := 0x110, n1 := 16, s1 := 0x20, rw := 0xFFFFFFFF },
   { off := 0x114, n1 := 16, s1 := 0x20 },
   { off := 0x118, n1 := 16, s1 := 0x20 }]

/-- Page map of BNL (chapter 19). -/
def rowsBNL : List RegRow :=
  [{ off := 0x040, rw := 0x1 },
   { off := 0x044, rst := 0x88B5, rw := 0xFFFF },
   { off := 0x048, rw := 0xFFFF },
   { off := 0x04C, rw := 0xFFFFFFFF },
   { off := 0x050, rw := 0xFFFF },
   { off := 0x054, rw := 0xFFFFFF },
   { off := 0x058, rw := 0x800003FF },
   { off := 0x05C, rw := 0x800003FF },
   { off := 0x060, rw := 0x1 },
   { off := 0x064, rst := 0x1 },
   { off := 0x068, rst := 0x7D00040, rw := 0xFFFFFFFF },
   { off := 0x06C, rst := 0x6, rw := 0x7 },
   { off := 0x080 },
   { off := 0x084 },
   { off := 0x088 },
   { off := 0x08C },
   { off := 0x090 },
   { off := 0x094 },
   { off := 0x098 },
   { off := 0x09C },
   { off := 0x400, n1 := 64, s1 := 0x10, rw := 0xF000FFFF },
   { off := 0x404, n1 := 64, s1 := 0x10 },
   { off := 0x408, n1 := 64, s1 := 0x10 },
   { off := 0x40C, n1 := 64, s1 := 0x10 }]

/-- Page map of HDMA (chapter 19). -/
def rowsHDMA : List RegRow :=
  [{ off := 0x040, rw := 0x1 },
   { off := 0x044 },
   { off := 0x048, w1c := 0xFFFFFFFF },
   { off := 0x04C, w1c := 0xFFFFFFFF },
   { off := 0x050, rw := 0xFFFFFFFF },
   { off := 0x054, rw := 0xFFFFFFFF },
   { off := 0x080 },
   { off := 0x084 },
   { off := 0x088 },
   { off := 0x08C },
   { off := 0x090 },
   { off := 0x100, n1 := 32, s1 := 0x20, rw := 0xFFFFFFE0 },
   { off := 0x104, n1 := 32, s1 := 0x20, rw := 0xFFFFFFFF },
   { off := 0x108, n1 := 32, s1 := 0x20, rw := 0x1FFF },
   { off := 0x10C, n1 := 32, s1 := 0x20, rw := 0xFFF },
   { off := 0x110, n1 := 32, s1 := 0x20 },
   { off := 0x114, n1 := 32, s1 := 0x20, rw := 0x33F },
   { off := 0x118, n1 := 32, s1 := 0x20 },
   { off := 0x500, n1 := 32, s1 := 0x20, rw := 0xFFFFFFE0 },
   { off := 0x504, n1 := 32, s1 := 0x20, rw := 0xFFFFFFFF },
   { off := 0x508, n1 := 32, s1 := 0x20, rw := 0x1FFF },
   { off := 0x50C, n1 := 32, s1 := 0x20, rw := 0xFFF },
   { off := 0x510, n1 := 32, s1 := 0x20 },
   { off := 0x514, n1 := 32, s1 := 0x20, rw := 0xFFFFFFBF },
   { off := 0x518, n1 := 32, s1 := 0x20 }]

/-- Page map of CAN (chapter 04). -/
def rowsCAN : List RegRow :=
  [{ off := 0x030 },
   { off := 0x034, rst := 0x1800 },
   { off := 0x040, rst := 0x80, rw := 0xF3F7 },
   { off := 0x044 },
   { off := 0x048 },
   { off := 0x04C, rst := 0x600060, rw := 0xFF00FF },
   { off := 0x050, rst := 0x17E1F1F, rw := 0xFFFF7F7F },
   { off := 0x054, rst := 0x3A1313, rw := 0xFFFF7F7F },
   { off := 0x058, rst := 0x40101, rw := 0xFFFF7F7F },
   { off := 0x05C, rw := 0x80FFFF00 },
   { off := 0x060, rw := 0x3F3F3F01 },
   { off := 0x064, rst := 0x1, rw := 0x3 },
   { off := 0x068, rst := 0x1000000, rw := 0xFFFFFFFF },
   { off := 0x06C },
   { off := 0x070 },
   { off := 0x074 },
   { off := 0x078 },
   { off := 0x07C, w1c := 0xFFFFFFFF },
   { off := 0x080, n1 := 4, s1 := 0x4 },
   { off := 0x090, rw := 0xFFFFFFFF },
   { off := 0x094 },
   { off := 0x098 },
   { off := 0x09C },
   { off := 0x0A0, rw := 0xFFFF },
   { off := 0x0A4 },
   { off := 0x0A8, rw := 0xC00001FF, shadow := true },
   { off := 0x0AC, rw := 0xFFFFFFFF, shadow := true },
   { off := 0x0B0, rw := 0xFFFFFFFF, shadow := true },
   { off := 0x0B4, rw := 0xFFFFFFFF, shadow := true },
   { off := 0x0B8, rst := 0x1FF }] ++
  [{ off := 0x0C0 },
   { off := 0x0C4 },
   { off := 0x0C8 },
   { off := 0x0CC },
   { off := 0x0D0 },
   { off := 0x0D4 },
   { off := 0x0D8 },
   { off := 0x0DC },
   { off := 0x0E0 },
   { off := 0x0E4 },
   { off := 0x100, n1 := 16, s1 := 0x8, rw := 0xDFFFFFFF, shadow := true },
   { off := 0x104, n1 := 16, s1 := 0x8, rw := 0x5FFFFFFF, shadow := true },
   { off := 0x180, n1 := 4, s1 := 0x8, rw := 0xDFFFFFFF, shadow := true },
   { off := 0x184, n1 := 4, s1 := 0x8, rw := 0x5FFFFFFF, shadow := true },
   { off := 0x1A0, n1 := 4, s1 := 0x4, rw := 0x3F },
   { off := 0x800, n1 := 16, s1 := 0x50, n2 := 20, s2 := 0x4 },
   { off := 0xD00, n1 := 4, s1 := 0x50, n2 := 20, s2 := 0x4 }]

/-- Page map of ETH (chapter 05). -/
def rowsETH : List RegRow :=
  [{ off := 0x030 },
   { off := 0x034, rst := 0x2000 },
   { off := 0x040, rw := 0x13307 },
   { off := 0x044 },
   { off := 0x048, rst := 0x5F2, rw := 0x3FFF },
   { off := 0x04C, rw := 0xFFFFFFFF },
   { off := 0x050, rw := 0xFFFF },
   { off := 0x054, rst := 0x3203E8, rw := 0xFFFFFFFF },
   { off := 0x058, rst := 0xFFFF0000, rw := 0xFFFFFFFF },
   { off := 0x05C, rst := 0xC8, rw := 0x3FF },
   { off := 0x060 },
   { off := 0x064, rw := 0xFFFF7FFF },
   { off := 0x068, rst := 0x40, rw := 0xFFFF },
   { off := 0x06C, rst := 0xA007F00, rw := 0xFF03FF01 },
   { off := 0x070, rw := 0x800007FF, shadow := true },
   { off := 0x074, rw := 0xFFFFFFFF, shadow := true },
   { off := 0x078, rw := 0xFFFFFFFF, shadow := true },
   { off := 0x07C, rw := 0xFFFFFFFF, shadow := true },
   { off := 0x080, rw := 0xFFFFFFFF, shadow := true },
   { off := 0x084, rst := 0xFF, rw := 0xFF, shadow := true },
   { off := 0x088, rst := 0xFF },
   { off := 0x090, n1 := 8, s1 := 0x4, rw := 0x3FFF, shadow := true },
   { off := 0x0B0, n1 := 7, s1 := 0x4, rw := 0xFFFFFFFF, shadow := true },
   { off := 0x0D0, rst := 0x2080, rw := 0xC000FFFF },
   { off := 0x0D4, rst := 0x800, rw := 0xF0F07 },
   { off := 0x0D8 },
   { off := 0x100 },
   { off := 0x104 },
   { off := 0x108 },
   { off := 0x10C }] ++
  [{ off := 0x110 },
   { off := 0x114 },
   { off := 0x118 },
   { off := 0x11C },
   { off := 0x120 },
   { off := 0x124 },
   { off := 0x128 },
   { off := 0x12C },
   { off := 0x130 },
   { off := 0x134 },
   { off := 0x138 },
   { off := 0x13C },
   { off := 0x140 },
   { off := 0x144 },
   { off := 0x148 },
   { off := 0x14C },
   { off := 0x150 },
   { off := 0x154 },
   { off := 0x158 },
   { off := 0x15C },
   { off := 0x160 },
   { off := 0x164 },
   { off := 0x168 },
   { off := 0x16C }]

/-- Page map of STG (chapter 06). -/
def rowsSTG : List RegRow :=
  [{ off := 0x040, rw := 0x73 },
   { off := 0x044 },
   { off := 0x048 },
   { off := 0x04C },
   { off := 0x050 },
   { off := 0x054 },
   { off := 0x058 },
   { off := 0x05C },
   { off := 0x060, w1c := 0x20000000 },
   { off := 0x064 },
   { off := 0x068 },
   { off := 0x06C },
   { off := 0x080 },
   { off := 0x084 },
   { off := 0x088 },
   { off := 0x08C },
   { off := 0x090 },
   { off := 0x094 },
   { off := 0x098 },
   { off := 0x09C }]

/-- Page map of SEC (chapter 16). -/
def rowsSEC : List RegRow :=
  [{ off := 0x030 },
   { off := 0x034, rst := 0x4000 },
   { off := 0x040, rw := 0xFF800003, shadow := true },
   { off := 0x044 },
   { off := 0x048, rw := 0xFFFFFFFF, shadow := true },
   { off := 0x04C, rst := 0xC0000000, rw := 0xFFFFFFFF },
   { off := 0x050, rw := 0xFFFFFFFF },
   { off := 0x054, rw := 0xFFFFFFFF, shadow := true },
   { off := 0x080 },
   { off := 0x084 },
   { off := 0x088 },
   { off := 0x08C },
   { off := 0x090 },
   { off := 0x094 },
   { off := 0x098 },
   { off := 0x09C },
   { off := 0x0A0 },
   { off := 0x0A4 }]

/-- Page map of SDS (chapter 05). -/
def rowsSDS : List RegRow :=
  [{ off := 0x040, rw := 0x313F },
   { off := 0x044 },
   { off := 0x048, rst := 0x2800, rw := 0x1F3F1F },
   { off := 0x04C, rst := 0x100, rw := 0x13F },
   { off := 0x050, rw := 0xFFFFFFFF },
   { off := 0x054 },
   { off := 0x058 },
   { off := 0x05C },
   { off := 0x060 },
   { off := 0x064, rw := 0x107 },
   { off := 0x068 },
   { off := 0x080, rst := 0x27, rw := 0xFF },
   { off := 0x084, rw := 0x73FFFFFF },
   { off := 0x088, rw := 0xFFFF },
   { off := 0x08C }]

/-- The page map of a page type. -/
def pageRows : PageKind → List RegRow
  | .glb => rowsGLB
  | .pwr => rowsPWR
  | .wake => rowsWAKE
  | .part => rowsPART
  | .tempo => rowsTEMPO
  | .tsync => rowsTSYNC
  | .epoch => rowsEPOCH
  | .adj => rowsADJ
  | .pl => rowsPL
  | .fab => rowsFAB
  | .buf => rowsBUF
  | .cls => rowsCLS
  | .pol => rowsPOL
  | .guard => rowsGUARD
  | .smp => rowsSMP
  | .sig => rowsSIG
  | .pawn => rowsPAWN
  | .cx => rowsCX
  | .castle => rowsCASTLE
  | .tamper => rowsTAMPER
  | .mem => rowsMEM
  | .arb => rowsARB
  | .score => rowsSCORE
  | .sens => rowsSENS
  | .gambit => rowsGAMBIT
  | .xspi => rowsXSPI
  | .brg => rowsBRG
  | .bnl => rowsBNL
  | .hdma => rowsHDMA
  | .can => rowsCAN
  | .eth => rowsETH
  | .stg => rowsSTG
  | .sec => rowsSEC
  | .sds => rowsSDS

end Sys2Proof.Machine

namespace Sys2Proof.Machine.Reg

abbrev GLB.ALARM_STAT : Nat := 0x40
abbrev GLB.ALARM_EN : Nat := 0x44
abbrev GLB.RST_CAUSE : Nat := 0x48
abbrev GLB.RST_CMD : Nat := 0x4C
abbrev GLB.BLK_RST : Nat := 0x50
abbrev GLB.BOOT_STAT : Nat := 0x54
abbrev GLB.BOOT_T_CAN : Nat := 0x58
abbrev GLB.BOOT_T_ALL : Nat := 0x5C
abbrev GLB.REF_CTRL : Nat := 0x60
abbrev GLB.REF_STAT : Nat := 0x64
abbrev GLB.REF_SWITCHES : Nat := 0x68
abbrev GLB.LC_STATE : Nat := 0x70
abbrev GLB.LC_CMD : Nat := 0x74
abbrev GLB.LC_STAT : Nat := 0x78
abbrev GLB.DEV_ID : Nat := 0x80
abbrev GLB.OTP_CFG : Nat := 0x84

abbrev PWR.CMD : Nat := 0x1040
abbrev PWR.STATUS : Nat := 0x1044
abbrev PWR.T_FWD_CAN : Nat := 0x1048
abbrev PWR.T_FWD_SEAL : Nat := 0x104C
abbrev PWR.T_BOOK_END : Nat := 0x1050
abbrev PWR.ENTRIES : Nat := 0x1080
abbrev PWR.ABANDON_CNT : Nat := 0x1084

abbrev WAKE.CTRL : Nat := 0x2040
abbrev WAKE.GPIO_EN : Nat := 0x2044
abbrev WAKE.GPIO_POL : Nat := 0x2048
abbrev WAKE.HOST_EN : Nat := 0x204C
abbrev WAKE.BOOK_MISS : Nat := 0x2050
abbrev WAKE.CAUSE : Nat := 0x2054
abbrev WAKE.CAUSE_TIME : Nat := 0x2058
abbrev WAKE.PEND : Nat := 0x205C
abbrev WAKE.WAKES : Nat := 0x2080
abbrev WAKE.WAKE_LOST : Nat := 0x2084
abbrev WAKE.SKIP_CNT : Nat := 0x2088

abbrev PART.ROLE (x : Nat) : Nat := 0x8040 + 0x1000 * x
abbrev PART.SEAT (x : Nat) : Nat := 0x8044 + 0x1000 * x
abbrev PART.SUPV_XFER (x : Nat) : Nat := 0x8048 + 0x1000 * x
abbrev PART.SUPV_WATCH (x : Nat) : Nat := 0x804C + 0x1000 * x
abbrev PART.DENY_CNT (x : Nat) : Nat := 0x8050 + 0x1000 * x
abbrev PART.DENY_POP (x : Nat) : Nat := 0x8054 + 0x1000 * x
abbrev PART.DENY_TIME (x : Nat) : Nat := 0x8058 + 0x1000 * x
abbrev PART.VEC_PEND_LO (x : Nat) : Nat := 0x8060 + 0x1000 * x
abbrev PART.VEC_PEND_HI (x : Nat) : Nat := 0x8064 + 0x1000 * x
abbrev PART.PAGE_PEND (x j : Nat) : Nat := 0x8400 + 0x1000 * x + 0x4 * j

abbrev TEMPO.CTRL : Nat := 0x10040
abbrev TEMPO.STATE : Nat := 0x10044
abbrev TEMPO.CAPTURE : Nat := 0x10048
abbrev TEMPO.NOW_FRAC : Nat := 0x1004C
abbrev TEMPO.NOW_LO : Nat := 0x10050
abbrev TEMPO.NOW_HI : Nat := 0x10054
abbrev TEMPO.RATE_LO : Nat := 0x10058
abbrev TEMPO.RATE_HI : Nat := 0x1005C
abbrev TEMPO.ERR_EST : Nat := 0x10060
abbrev TEMPO.LOCK_CFG : Nat := 0x10064
abbrev TEMPO.UNLOCK_THRESH : Nat := 0x10068
abbrev TEMPO.HOLD_CFG : Nat := 0x1006C
abbrev TEMPO.HOLD_ERR_MAX : Nat := 0x10070
abbrev TEMPO.STEP_THRESH : Nat := 0x10074
abbrev TEMPO.SLEW_MAX : Nat := 0x10078
abbrev TEMPO.OFFSET : Nat := 0x1007C
abbrev TEMPO.GM_ID_LO : Nat := 0x10080
abbrev TEMPO.GM_ID_HI : Nat := 0x10084
abbrev TEMPO.SET_LO : Nat := 0x10088
abbrev TEMPO.SET_HI : Nat := 0x1008C
abbrev TEMPO.SET_GO : Nat := 0x10090
abbrev TEMPO.STEP_LAST_LO : Nat := 0x10094
abbrev TEMPO.STEP_LAST_HI : Nat := 0x10098
abbrev TEMPO.AO_CAL : Nat := 0x1009C
abbrev TEMPO.GPTP_PORTS : Nat := 0x100A0
abbrev TEMPO.GPTP_CFG : Nat := 0x100A4
abbrev TEMPO.SLAVE_PORT : Nat := 0x100A8
abbrev TEMPO.GPTP_T1S_PEER : Nat := 0x100AC
abbrev TEMPO.RES_DROP : Nat := 0x100B0
abbrev TEMPO.ALM_LO (i : Nat) : Nat := 0x10100 + 0x10 * i
abbrev TEMPO.ALM_HI (i : Nat) : Nat := 0x10104 + 0x10 * i
abbrev TEMPO.ALM_PER (i : Nat) : Nat := 0x10108 + 0x10 * i
abbrev TEMPO.ALM_CTRL (i : Nat) : Nat := 0x1010C + 0x10 * i

abbrev TSYNC.TS_CTRL : Nat := 0x11040
abbrev TSYNC.TS_FU_DELAY : Nat := 0x11044
abbrev TSYNC.TS_FAIL_CNT : Nat := 0x11048
abbrev TSYNC.TS_SYNC_ID (i : Nat) : Nat := 0x11100 + 0x10 * i
abbrev TSYNC.TS_FU_ID (i : Nat) : Nat := 0x11104 + 0x10 * i
abbrev TSYNC.TS_SQ (i : Nat) : Nat := 0x11108 + 0x10 * i
abbrev TSYNC.TS_STAT (i : Nat) : Nat := 0x1110C + 0x10 * i

abbrev EPOCH.CUR : Nat := 0x20040
abbrev EPOCH.OLD : Nat := 0x20044
abbrev EPOCH.OLD_USERS : Nat := 0x20048
abbrev EPOCH.SWITCH_LO : Nat := 0x2004C
abbrev EPOCH.SWITCH_HI : Nat := 0x20050
abbrev EPOCH.DRAIN_MAX : Nat := 0x20054
abbrev EPOCH.JOURNAL_FREE : Nat := 0x20058
abbrev EPOCH.COMMITS : Nat := 0x20080
abbrev EPOCH.EMPTY_COMMITS : Nat := 0x20084
abbrev EPOCH.BUSY_CNT : Nat := 0x20088
abbrev EPOCH.ABORT_CNT : Nat := 0x2008C
abbrev EPOCH.FAIL_CNT : Nat := 0x20090
abbrev EPOCH.TXN_CMD (k : Nat) : Nat := 0x20100 + 0x40 * k
abbrev EPOCH.TXN_STAT (k : Nat) : Nat := 0x20104 + 0x40 * k
abbrev EPOCH.TXN_ID (k : Nat) : Nat := 0x20108 + 0x40 * k
abbrev EPOCH.TXN_CFG (k : Nat) : Nat := 0x2010C + 0x40 * k
abbrev EPOCH.TXN_AT_LO (k : Nat) : Nat := 0x20110 + 0x40 * k
abbrev EPOCH.TXN_AT_HI (k : Nat) : Nat := 0x20114 + 0x40 * k
abbrev EPOCH.JOURNAL_USED (k : Nat) : Nat := 0x20118 + 0x40 * k
abbrev EPOCH.LAST_REJECT (k : Nat) : Nat := 0x2011C + 0x40 * k
abbrev EPOCH.TXN_SW_LO (k : Nat) : Nat := 0x20120 + 0x40 * k
abbrev EPOCH.TXN_SW_HI (k : Nat) : Nat := 0x20124 + 0x40 * k
abbrev EPOCH.TXN_VEC (k : Nat) : Nat := 0x20128 + 0x40 * k

abbrev ADJ.CTRL : Nat := 0x30040
abbrev ADJ.STATUS : Nat := 0x30044
abbrev ADJ.FLAG_WIN : Nat := 0x30048
abbrev ADJ.UNDEC_CFG : Nat := 0x3004C
abbrev ADJ.PROOF_INT : Nat := 0x30050
abbrev ADJ.PROOF_NEXT_LO : Nat := 0x30054
abbrev ADJ.PROOF_NEXT_HI : Nat := 0x30058
abbrev ADJ.SWAP : Nat := 0x3005C
abbrev ADJ.REINT : Nat := 0x30060
abbrev ADJ.GAP_MAX : Nat := 0x30064
abbrev ADJ.LAST_DIS : Nat := 0x30070
abbrev ADJ.LAST_DIS_TIME : Nat := 0x30074
abbrev ADJ.DIS_CELL : Nat := 0x30080
abbrev ADJ.DIS_DIGEST : Nat := 0x30084
abbrev ADJ.DIS_DMA : Nat := 0x30088
abbrev ADJ.DIS_STG : Nat := 0x3008C
abbrev ADJ.UNDECIDED : Nat := 0x30090
abbrev ADJ.DIS_DROP : Nat := 0x30094
abbrev ADJ.SWITCHOVERS : Nat := 0x30098
abbrev ADJ.PROOF_SWAPS : Nat := 0x3009C
abbrev ADJ.RETIREMENTS : Nat := 0x300A0
abbrev ADJ.REINT_DONE : Nat := 0x300A4
abbrev ADJ.REINT_FAILS : Nat := 0x300A8
abbrev ADJ.SW_STOMP : Nat := 0x300AC

abbrev PL.PL_STATE (x : Nat) : Nat := 0x31040 + 0x1000 * x
abbrev PL.PL_CTRL (x : Nat) : Nat := 0x31044 + 0x1000 * x
abbrev PL.FLAGS (x : Nat) : Nat := 0x31048 + 0x1000 * x
abbrev PL.FLAG_TIME (x : Nat) : Nat := 0x3104C + 0x1000 * x
abbrev PL.SWEEP_CFG (x : Nat) : Nat := 0x31050 + 0x1000 * x
abbrev PL.SWEEP_NOW (x : Nat) : Nat := 0x31054 + 0x1000 * x
abbrev PL.SWEEP_STAT (x : Nat) : Nat := 0x31058 + 0x1000 * x
abbrev PL.REINT_TIME (x : Nat) : Nat := 0x3105C + 0x1000 * x
abbrev PL.ECC_EVT (x : Nat) : Nat := 0x31080 + 0x1000 * x
abbrev PL.PARITY_EVT (x : Nat) : Nat := 0x31084 + 0x1000 * x
abbrev PL.BUDGET_EVT (x : Nat) : Nat := 0x31088 + 0x1000 * x
abbrev PL.TABLE_EVT (x : Nat) : Nat := 0x3108C + 0x1000 * x

abbrev FAB.CTRL : Nat := 0x40040
abbrev FAB.STATUS : Nat := 0x40044
abbrev FAB.MID_LIM : Nat := 0x40048
abbrev FAB.RESEQ_TO : Nat := 0x4004C
abbrev FAB.EXP_MID_MAX : Nat := 0x40050
abbrev FAB.EXP_RSQ_MAX : Nat := 0x40054
abbrev FAB.MID_SKIP : Nat := 0x40080
abbrev FAB.EXP_MID_DROP : Nat := 0x40084
abbrev FAB.RESEQ_SKIP : Nat := 0x40088
abbrev FAB.UNDERRUN : Nat := 0x4008C
abbrev FAB.ECC_DROP : Nat := 0x40090

abbrev BUF.CTRL : Nat := 0x41040
abbrev BUF.SPLIT : Nat := 0x41044
abbrev BUF.ING_FREE : Nat := 0x41048
abbrev BUF.EGR_FREE : Nat := 0x4104C
abbrev BUF.ING_MIN : Nat := 0x41050
abbrev BUF.EGR_MIN : Nat := 0x41054
abbrev BUF.EXP_IRES : Nat := 0x41058
abbrev BUF.EXP_ERES : Nat := 0x4105C
abbrev BUF.DE_FREE : Nat := 0x41060
abbrev BUF.HOLD_RECLAIM : Nat := 0x41064
abbrev BUF.PAUSE_THR : Nat := 0x41068
abbrev BUF.VOQ_MAX (c : Nat) : Nat := 0x41100 + 0x10 * c
abbrev BUF.ALPHA (c : Nat) : Nat := 0x41104 + 0x10 * c
abbrev BUF.EGR_MAX (c : Nat) : Nat := 0x41108 + 0x10 * c
abbrev BUF.MAX_RES (c : Nat) : Nat := 0x4110C + 0x10 * c
abbrev BUF.PFC_THR (c : Nat) : Nat := 0x41180 + 0x4 * c
abbrev BUF.ADMIT_DROP (c : Nat) : Nat := 0x41200 + 0x4 * c
abbrev BUF.DE_DROP : Nat := 0x41220
abbrev BUF.RES_DROP : Nat := 0x41224
abbrev BUF.DL_DROP : Nat := 0x41228
abbrev BUF.HOLD_RECLAIM_CNT : Nat := 0x4122C
abbrev BUF.DOWN_DROP : Nat := 0x41230
abbrev BUF.RESET_DROP : Nat := 0x41234
abbrev BUF.MIRROR_DROP : Nat := 0x41238

abbrev CLS.CTRL : Nat := 0x48040
abbrev CLS.STATUS : Nat := 0x48044
abbrev CLS.MISS_LAST : Nat := 0x48048
abbrev CLS.MISS_LAST_ID : Nat := 0x4804C
abbrev CLS.FRAMES_IN : Nat := 0x48080
abbrev CLS.HIT_TCAM : Nat := 0x48084
abbrev CLS.HIT_EHASH : Nat := 0x48088
abbrev CLS.HIT_CHASH : Nat := 0x4808C
abbrev CLS.HIT_CMASK : Nat := 0x48090
abbrev CLS.MISS_CNT : Nat := 0x48094
abbrev CLS.DROP_ACT : Nat := 0x48098
abbrev CLS.INVALID_ACT : Nat := 0x4809C
abbrev CLS.KIND_DROP : Nat := 0x480A0
abbrev CLS.LB_LOOP_CNT : Nat := 0x480A4
abbrev CLS.CX_LOOP_CNT : Nat := 0x480A8
abbrev CLS.ACF_ERR : Nat := 0x480AC
abbrev CLS.ACF_TRUNC : Nat := 0x480B0
abbrev CLS.PARSE_TRUNC : Nat := 0x480B4
abbrev CLS.DISABLED_DROP : Nat := 0x480B8
abbrev CLS.ENTRY_ABANDON : Nat := 0x480BC

abbrev POL.CTRL : Nat := 0x49040
abbrev POL.EXP_ACT : Nat := 0x49044
abbrev POL.POL_DROP : Nat := 0x49080
abbrev POL.POL_RECLASS : Nat := 0x49084
abbrev POL.UNFILTERED : Nat := 0x49088
abbrev POL.EXP_DEMOTE : Nat := 0x4908C
abbrev POL.EXP_DROP : Nat := 0x49090
abbrev POL.EXP_RATE (p : Nat) : Nat := 0x49100 + 0x8 * p
abbrev POL.EXP_BURST (p : Nat) : Nat := 0x49104 + 0x8 * p

abbrev GUARD.CTRL : Nat := 0x4A040
abbrev GUARD.QUAR_LO : Nat := 0x4A044
abbrev GUARD.QUAR_HI : Nat := 0x4A048
abbrev GUARD.QUAR_HOLD : Nat := 0x4A04C
abbrev GUARD.QUAR_SMP : Nat := 0x4A050
abbrev GUARD.LAST_EVT : Nat := 0x4A054
abbrev GUARD.MASQ_CNT : Nat := 0x4A080
abbrev GUARD.UNK_EVT : Nat := 0x4A084
abbrev GUARD.BABBLE_EVT : Nat := 0x4A088
abbrev GUARD.FC_EVT : Nat := 0x4A08C
abbrev GUARD.QUAR_DROP : Nat := 0x4A090
abbrev GUARD.GCFG (i : Nat) : Nat := 0x4A100 + 0x10 * i
abbrev GUARD.GLIM_RATE (i : Nat) : Nat := 0x4A104 + 0x10 * i
abbrev GUARD.GLIM_LOAD (i : Nat) : Nat := 0x4A108 + 0x10 * i
abbrev GUARD.GSTAT (i : Nat) : Nat := 0x4A10C + 0x10 * i

abbrev SMP.CTRL : Nat := 0x4B040
abbrev SMP.SMP_CFG (s : Nat) : Nat := 0x4B100 + 0x10 * s
abbrev SMP.SMP_DEST (s : Nat) : Nat := 0x4B104 + 0x10 * s
abbrev SMP.SMP_OFFERED (s : Nat) : Nat := 0x4B108 + 0x10 * s
abbrev SMP.SMP_SAMPLED (s : Nat) : Nat := 0x4B10C + 0x10 * s

abbrev SIG.CTRL : Nat := 0x50040
abbrev SIG.STATUS : Nat := 0x50044
abbrev SIG.GWID : Nat := 0x50048
abbrev SIG.LAST_ERR : Nat := 0x5004C
abbrev SIG.UNPACK_CNT : Nat := 0x50080
abbrev SIG.EMIT_CNT : Nat := 0x50084
abbrev SIG.OLDER_IN : Nat := 0x50088
abbrev SIG.FUTURE_CLAMP : Nat := 0x5008C
abbrev SIG.SHORT_PDU : Nat := 0x50090
abbrev SIG.MALFORMED : Nat := 0x50094
abbrev SIG.CONT_ERR : Nat := 0x50098
abbrev SIG.CONT_UNKNOWN : Nat := 0x5009C
abbrev SIG.FLAG_FALLS : Nat := 0x500A0
abbrev SIG.DISABLED_DROP : Nat := 0x500A4
abbrev SIG.FALL_WATCH (w : Nat) : Nat := 0x50100 + 0x4 * w

abbrev PAWN.ENG_CTRL (x : Nat) : Nat := 0x51040 + 0x1000 * x
abbrev PAWN.ENG_STAT (x : Nat) : Nat := 0x51044 + 0x1000 * x
abbrev PAWN.KICK (x : Nat) : Nat := 0x51048 + 0x1000 * x
abbrev PAWN.KICK_ARG_LO (x : Nat) : Nat := 0x5104C + 0x1000 * x
abbrev PAWN.KICK_ARG_HI (x : Nat) : Nat := 0x51050 + 0x1000 * x
abbrev PAWN.KICK_STAT (x : Nat) : Nat := 0x51054 + 0x1000 * x
abbrev PAWN.INVOKED (x : Nat) : Nat := 0x51080 + 0x1000 * x
abbrev PAWN.FAULTS (x : Nat) : Nat := 0x51084 + 0x1000 * x
abbrev PAWN.OVERRUNS (x : Nat) : Nat := 0x51088 + 0x1000 * x
abbrev PAWN.MAX_CYC (x : Nat) : Nat := 0x5108C + 0x1000 * x
abbrev PAWN.LAST_FAULT (x : Nat) : Nat := 0x51090 + 0x1000 * x
abbrev PAWN.LAST_FAULT_PC (x : Nat) : Nat := 0x51094 + 0x1000 * x
abbrev PAWN.LAST_FAULT_TIME (x : Nat) : Nat := 0x51098 + 0x1000 * x
abbrev PAWN.GCTRL (x : Nat) : Nat := 0x51200 + 0x1000 * x
abbrev PAWN.QUEUE (x : Nat) : Nat := 0x51204 + 0x1000 * x
abbrev PAWN.QPEAK (x : Nat) : Nat := 0x51208 + 0x1000 * x
abbrev PAWN.DISABLED (x : Nat) : Nat := 0x5120C + 0x1000 * x
abbrev PAWN.QDROP (x e : Nat) : Nat := 0x51210 + 0x1000 * x + 0x4 * e
abbrev PAWN.CHAIN_DROP (x : Nat) : Nat := 0x51224 + 0x1000 * x
abbrev PAWN.TIMER_MISS (x : Nat) : Nat := 0x51228 + 0x1000 * x
abbrev PAWN.SIG_REFUSED (x : Nat) : Nat := 0x5122C + 0x1000 * x
abbrev PAWN.CODE_BUSY (x : Nat) : Nat := 0x51230 + 0x1000 * x
abbrev PAWN.PROG_BAD (x : Nat) : Nat := 0x51234 + 0x1000 * x
abbrev PAWN.CRC_POLY (x k : Nat) : Nat := 0x51240 + 0x1000 * x + 0x8 * k
abbrev PAWN.CRC_MODE (x k : Nat) : Nat := 0x51244 + 0x1000 * x + 0x8 * k

abbrev CX.CTRL : Nat := 0x70040
abbrev CX.STATUS : Nat := 0x70044
abbrev CX.FAB_RES : Nat := 0x70048
abbrev CX.FAIL_SMP : Nat := 0x7004C
abbrev CX.LAST_FAIL : Nat := 0x70050
abbrev CX.LAST_FAIL_TIME : Nat := 0x70054
abbrev CX.SEALED : Nat := 0x70080
abbrev CX.VERIFIED : Nat := 0x70084
abbrev CX.TAG_FAIL : Nat := 0x70088
abbrev CX.WINDOW : Nat := 0x7008C
abbrev CX.REPLAY : Nat := 0x70090
abbrev CX.FREE_DROP : Nat := 0x70094
abbrev CX.FREE_ACCEPT : Nat := 0x70098
abbrev CX.NO_KEY : Nat := 0x7009C
abbrev CX.QFULL : Nat := 0x700A0
abbrev CX.FV_EXH : Nat := 0x700A4
abbrev CX.BAD_LEN : Nat := 0x700A8
abbrev CX.JOBS_DONE : Nat := 0x700AC
abbrev CX.JR_BASE_LO (k : Nat) : Nat := 0x70100 + 0x40 * k
abbrev CX.JR_BASE_HI (k : Nat) : Nat := 0x70104 + 0x40 * k
abbrev CX.JR_SIZE (k : Nat) : Nat := 0x70108 + 0x40 * k
abbrev CX.JR_TAIL (k : Nat) : Nat := 0x7010C + 0x40 * k
abbrev CX.JR_HEAD (k : Nat) : Nat := 0x70110 + 0x40 * k
abbrev CX.QUOTA (k : Nat) : Nat := 0x70114 + 0x40 * k
abbrev CX.JR_VEC (k : Nat) : Nat := 0x70118 + 0x40 * k

abbrev CASTLE.STATE : Nat := 0x71040
abbrev CASTLE.POLICY : Nat := 0x71044
abbrev CASTLE.REMASK : Nat := 0x71048
abbrev CASTLE.RESIGN_CNT : Nat := 0x7104C
abbrev CASTLE.CHAL (j : Nat) : Nat := 0x71050 + 0x4 * j
abbrev CASTLE.UNIT_ID_LO : Nat := 0x71060
abbrev CASTLE.UNIT_ID_HI : Nat := 0x71064
abbrev CASTLE.ROOT_TIME : Nat := 0x71068
abbrev CASTLE.ID_PUB (j : Nat) : Nat := 0x71080 + 0x4 * j
abbrev CASTLE.LOADS : Nat := 0x710C0
abbrev CASTLE.LOAD_FAILS : Nat := 0x710C4
abbrev CASTLE.ORPHANS : Nat := 0x710C8
abbrev CASTLE.KCMD (k : Nat) : Nat := 0x71200 + 0x200 * k
abbrev CASTLE.KSTAT (k : Nat) : Nat := 0x71204 + 0x200 * k
abbrev CASTLE.KSLOT (k : Nat) : Nat := 0x71208 + 0x200 * k
abbrev CASTLE.KLEN (k : Nat) : Nat := 0x7120C + 0x200 * k
abbrev CASTLE.KVEC (k : Nat) : Nat := 0x71210 + 0x200 * k
abbrev CASTLE.MIN_SVN (k : Nat) : Nat := 0x71214 + 0x200 * k
abbrev CASTLE.KBUF (k j : Nat) : Nat := 0x71300 + 0x200 * k + 0x4 * j

abbrev TAMPER.CTRL : Nat := 0x72040
abbrev TAMPER.FIRED : Nat := 0x72044
abbrev TAMPER.LIVE : Nat := 0x72048
abbrev TAMPER.SLEEP_LATCH : Nat := 0x7204C
abbrev TAMPER.LAST : Nat := 0x72050
abbrev TAMPER.LAST_TIME : Nat := 0x72054
abbrev TAMPER.TS_CFG (s : Nat) : Nat := 0x72100 + 0x8 * s
abbrev TAMPER.TS_LIM (s : Nat) : Nat := 0x72104 + 0x8 * s

abbrev MEM.CTRL : Nat := 0x80040
abbrev MEM.SCRUB_PASS : Nat := 0x80044
abbrev MEM.PERSIST_N : Nat := 0x80048
abbrev MEM.BUCKET_CFG : Nat := 0x8004C
abbrev MEM.RET_STAT : Nat := 0x80050
abbrev MEM.RET_INIT : Nat := 0x80054
abbrev MEM.BIST_RUN : Nat := 0x80058
abbrev MEM.RETIRE_ARG : Nat := 0x80060
abbrev MEM.RETIRE_GO : Nat := 0x80064
abbrev MEM.RETIRE_STAT : Nat := 0x80068
abbrev MEM.LAST_CE : Nat := 0x80070
abbrev MEM.LAST_CE_ADDR : Nat := 0x80074
abbrev MEM.LAST_UE : Nat := 0x80078
abbrev MEM.LAST_UE_ADDR : Nat := 0x8007C
abbrev MEM.CE_TOTAL : Nat := 0x80080
abbrev MEM.UE_TOTAL : Nat := 0x80084
abbrev MEM.POISON_WR : Nat := 0x80088
abbrev MEM.PERSIST_EVT : Nat := 0x8008C
abbrev MEM.TRACK_OVF : Nat := 0x80090
abbrev MEM.RETIRED (r : Nat) : Nat := 0x80200 + 0x4 * r
abbrev MEM.INST_INFO (m : Nat) : Nat := 0x80400 + 0x10 * m
abbrev MEM.INST_STAT (m : Nat) : Nat := 0x80404 + 0x10 * m
abbrev MEM.INST_CE (m : Nat) : Nat := 0x80408 + 0x10 * m
abbrev MEM.INST_UE (m : Nat) : Nat := 0x8040C + 0x10 * m

abbrev ARB.STATUS : Nat := 0x90040
abbrev ARB.FW_VER : Nat := 0x90044
abbrev ARB.FW_SVN : Nat := 0x90048
abbrev ARB.WDOG_CFG : Nat := 0x9004C
abbrev ARB.RESTART : Nat := 0x90050
abbrev ARB.RESTART_CNT : Nat := 0x90054
abbrev ARB.LAST_RESTART : Nat := 0x90058
abbrev ARB.RESTART_TIME : Nat := 0x9005C
abbrev ARB.HEARTBEAT : Nat := 0x90060
abbrev ARB.CMD (k : Nat) : Nat := 0x90100 + 0x80 * k
abbrev ARB.CSTAT (k : Nat) : Nat := 0x90104 + 0x80 * k
abbrev ARB.ARG (k j : Nat) : Nat := 0x90108 + 0x80 * k + 0x4 * j
abbrev ARB.RSP (k j : Nat) : Nat := 0x90140 + 0x80 * k + 0x4 * j
abbrev ARB.CVEC (k : Nat) : Nat := 0x90160 + 0x80 * k

abbrev SCORE.WR_IDX : Nat := 0x91048
abbrev SCORE.LAST_SEQ : Nat := 0x9104C
abbrev SCORE.FLUSHED_SEQ : Nat := 0x91050
abbrev SCORE.DROPPED : Nat := 0x91054
abbrev SCORE.OVERWRITTEN : Nat := 0x91058
abbrev SCORE.CURSOR : Nat := 0x9105C
abbrev SCORE.FLUSH_CFG : Nat := 0x91060
abbrev SCORE.SEV_IRQ : Nat := 0x91064
abbrev SCORE.ENT (j : Nat) : Nat := 0x91100 + 0x4 * j
abbrev SCORE.ENT7 : Nat := 0x9111C

abbrev SENS.CTRL : Nat := 0x92040
abbrev SENS.EYE_CFG : Nat := 0x92044
abbrev SENS.FIRED : Nat := 0x92048
abbrev SENS.LIVE : Nat := 0x9204C
abbrev SENS.EYE_LOW : Nat := 0x92050
abbrev SENS.VAL (c : Nat) : Nat := 0x92100 + 0x10 * c
abbrev SENS.LIM (c : Nat) : Nat := 0x92104 + 0x10 * c
abbrev SENS.HYST (c : Nat) : Nat := 0x92108 + 0x10 * c
abbrev SENS.MINMAX (c : Nat) : Nat := 0x9210C + 0x10 * c

abbrev GAMBIT.CTRL : Nat := 0xA0040
abbrev GAMBIT.STATUS : Nat := 0xA0044
abbrev GAMBIT.STAGED : Nat := 0xA0048
abbrev GAMBIT.LAST_RESULT : Nat := 0xA004C
abbrev GAMBIT.BUILD_ACT_LO : Nat := 0xA0050
abbrev GAMBIT.BUILD_ACT_HI : Nat := 0xA0054
abbrev GAMBIT.BUILD_STG_LO : Nat := 0xA0058
abbrev GAMBIT.BUILD_STG_HI : Nat := 0xA005C
abbrev GAMBIT.TRIAL_LEFT : Nat := 0xA0060
abbrev GAMBIT.DEV_CLASS : Nat := 0xA0064
abbrev GAMBIT.UCODE_PEND : Nat := 0xA0068
abbrev GAMBIT.SVN (i : Nat) : Nat := 0xA0100 + 0x4 * i

abbrev XSPI.CTRL : Nat := 0xA1040
abbrev XSPI.STATUS : Nat := 0xA1044
abbrev XSPI.DEV0_SIZE : Nat := 0xA1048
abbrev XSPI.DEV1_SIZE : Nat := 0xA104C
abbrev XSPI.CLK : Nat := 0xA1050
abbrev XSPI.READ_ERR : Nat := 0xA1080
abbrev XSPI.MIRROR_REPAIR : Nat := 0xA1084
abbrev XSPI.PROG_ERR : Nat := 0xA1088
abbrev XSPI.ERASES : Nat := 0xA108C

abbrev BRG.CTRL : Nat := 0xB0040
abbrev BRG.TIMEOUT : Nat := 0xB0044
abbrev BRG.SEM_HOLD : Nat := 0xB0048
abbrev BRG.WERR_POP : Nat := 0xB0050
abbrev BRG.WERR_ADDR : Nat := 0xB0054
abbrev BRG.WERR_TIME : Nat := 0xB0058
abbrev BRG.FAULTED : Nat := 0xB005C
abbrev BRG.LATE_RSP : Nat := 0xB0080
abbrev BRG.TIMEOUTS : Nat := 0xB0084
abbrev BRG.CA_CNT : Nat := 0xB0088
abbrev BRG.WERR_LOST : Nat := 0xB008C
abbrev BRG.WIN_CFG (w : Nat) : Nat := 0xB0100 + 0x20 * w
abbrev BRG.WIN_MAC_LO (w : Nat) : Nat := 0xB0104 + 0x20 * w
abbrev BRG.WIN_MAC_HI (w : Nat) : Nat := 0xB0108 + 0x20 * w
abbrev BRG.WIN_RBASE_LO (w : Nat) : Nat := 0xB010C + 0x20 * w
abbrev BRG.WIN_RBASE_HI (w : Nat) : Nat := 0xB0110 + 0x20 * w
abbrev BRG.WIN_STAT (w : Nat) : Nat := 0xB0114 + 0x20 * w
abbrev BRG.SEM (w : Nat) : Nat := 0xB0118 + 0x20 * w

abbrev BNL.CTRL : Nat := 0xB1040
abbrev BNL.ETYPE : Nat := 0xB1044
abbrev BNL.GWID : Nat := 0xB1048
abbrev BNL.MAC_LO : Nat := 0xB104C
abbrev BNL.MAC_HI : Nat := 0xB1050
abbrev BNL.PORTS : Nat := 0xB1054
abbrev BNL.KEY0 : Nat := 0xB1058
abbrev BNL.KEY1 : Nat := 0xB105C
abbrev BNL.TX_SEL : Nat := 0xB1060
abbrev BNL.TX_SEQ : Nat := 0xB1064
abbrev BNL.RATE : Nat := 0xB1068
abbrev BNL.CLASS : Nat := 0xB106C
abbrev BNL.RX_OK : Nat := 0xB1080
abbrev BNL.RX_RATE_DROP : Nat := 0xB1084
abbrev BNL.RX_BAD_MSG : Nat := 0xB1088
abbrev BNL.RX_UNKNOWN_PEER : Nat := 0xB108C
abbrev BNL.RX_BAD_TAG : Nat := 0xB1090
abbrev BNL.RX_REPLAY : Nat := 0xB1094
abbrev BNL.RX_UNAVAILABLE : Nat := 0xB1098
abbrev BNL.TX_MSGS : Nat := 0xB109C
abbrev BNL.PEER_CFG (n : Nat) : Nat := 0xB1400 + 0x10 * n
abbrev BNL.PEER_SEQ (n : Nat) : Nat := 0xB1404 + 0x10 * n
abbrev BNL.PEER_MAP_LO (n : Nat) : Nat := 0xB1408 + 0x10 * n
abbrev BNL.PEER_MAP_HI (n : Nat) : Nat := 0xB140C + 0x10 * n

abbrev HDMA.CTRL (x : Nat) : Nat := 0xC0040 + 0x1000 * x
abbrev HDMA.STATUS (x : Nat) : Nat := 0xC0044 + 0x1000 * x
abbrev HDMA.TX_IRQ (x : Nat) : Nat := 0xC0048 + 0x1000 * x
abbrev HDMA.RX_IRQ (x : Nat) : Nat := 0xC004C + 0x1000 * x
abbrev HDMA.TX_IE (x : Nat) : Nat := 0xC0050 + 0x1000 * x
abbrev HDMA.RX_IE (x : Nat) : Nat := 0xC0054 + 0x1000 * x
abbrev HDMA.TX_RECORDS (x : Nat) : Nat := 0xC0080 + 0x1000 * x
abbrev HDMA.RX_COPIES (x : Nat) : Nat := 0xC0084 + 0x1000 * x
abbrev HDMA.RX_TRUNC (x : Nat) : Nat := 0xC0088 + 0x1000 * x
abbrev HDMA.DMA_ERR_CNT (x : Nat) : Nat := 0xC008C + 0x1000 * x
abbrev HDMA.UNATTACHED_DROP (x : Nat) : Nat := 0xC0090 + 0x1000 * x
abbrev HDMA.TX_BASE_LO (x t : Nat) : Nat := 0xC0100 + 0x1000 * x + 0x20 * t
abbrev HDMA.TX_BASE_HI (x t : Nat) : Nat := 0xC0104 + 0x1000 * x + 0x20 * t
abbrev HDMA.TX_SIZE (x t : Nat) : Nat := 0xC0108 + 0x1000 * x + 0x20 * t
abbrev HDMA.TX_TAIL (x t : Nat) : Nat := 0xC010C + 0x1000 * x + 0x20 * t
abbrev HDMA.TX_HEAD (x t : Nat) : Nat := 0xC0110 + 0x1000 * x + 0x20 * t
abbrev HDMA.TX_CFG (x t : Nat) : Nat := 0xC0114 + 0x1000 * x + 0x20 * t
abbrev HDMA.TX_ERR (x t : Nat) : Nat := 0xC0118 + 0x1000 * x + 0x20 * t
abbrev HDMA.RX_BASE_LO (x r : Nat) : Nat := 0xC0500 + 0x1000 * x + 0x20 * r
abbrev HDMA.RX_BASE_HI (x r : Nat) : Nat := 0xC0504 + 0x1000 * x + 0x20 * r
abbrev HDMA.RX_SIZE (x r : Nat) : Nat := 0xC0508 + 0x1000 * x + 0x20 * r
abbrev HDMA.RX_TAIL (x r : Nat) : Nat := 0xC050C + 0x1000 * x + 0x20 * r
abbrev HDMA.RX_HEAD (x r : Nat) : Nat := 0xC0510 + 0x1000 * x + 0x20 * r
abbrev HDMA.RX_CFG (x r : Nat) : Nat := 0xC0514 + 0x1000 * x + 0x20 * r
abbrev HDMA.RX_FULL_DROP (x r : Nat) : Nat := 0xC0518 + 0x1000 * x + 0x20 * r

abbrev CAN.CTRL (x : Nat) : Nat := 0x100040 + 0x1000 * x
abbrev CAN.STATUS (x : Nat) : Nat := 0x100044 + 0x1000 * x
abbrev CAN.ERR_CNT (x : Nat) : Nat := 0x100048 + 0x1000 * x
abbrev CAN.ERR_WARN (x : Nat) : Nat := 0x10004C + 0x1000 * x
abbrev CAN.NBT (x : Nat) : Nat := 0x100050 + 0x1000 * x
abbrev CAN.DBT (x : Nat) : Nat := 0x100054 + 0x1000 * x
abbrev CAN.XBT (x : Nat) : Nat := 0x100058 + 0x1000 * x
abbrev CAN.TDC (x : Nat) : Nat := 0x10005C + 0x1000 * x
abbrev CAN.PWM (x : Nat) : Nat := 0x100060 + 0x1000 * x
abbrev CAN.TRX (x : Nat) : Nat := 0x100064 + 0x1000 * x
abbrev CAN.LIMITS (x : Nat) : Nat := 0x100068 + 0x1000 * x
abbrev CAN.ERR_CAP (x : Nat) : Nat := 0x10006C + 0x1000 * x
abbrev CAN.TX_REQ (x : Nat) : Nat := 0x100070 + 0x1000 * x
abbrev CAN.TX_CANCEL (x : Nat) : Nat := 0x100074 + 0x1000 * x
abbrev CAN.TX_PEND (x : Nat) : Nat := 0x100078 + 0x1000 * x
abbrev CAN.TX_DONE (x : Nat) : Nat := 0x10007C + 0x1000 * x
abbrev CAN.TX_STAT (x j : Nat) : Nat := 0x100080 + 0x1000 * x + 0x4 * j
abbrev CAN.TX_DONE_IE (x : Nat) : Nat := 0x100090 + 0x1000 * x
abbrev CAN.RX_FULL (x : Nat) : Nat := 0x100094 + 0x1000 * x
abbrev CAN.RX_LOCK (x : Nat) : Nat := 0x100098 + 0x1000 * x
abbrev CAN.RX_PEND (x : Nat) : Nat := 0x10009C + 0x1000 * x
abbrev CAN.RX_IE (x : Nat) : Nat := 0x1000A0 + 0x1000 * x
abbrev CAN.BO_RECOVER (x : Nat) : Nat := 0x1000A4 + 0x1000 * x
abbrev CAN.SCHED_CTRL (x : Nat) : Nat := 0x1000A8 + 0x1000 * x
abbrev CAN.SCHED_CYCLE (x : Nat) : Nat := 0x1000AC + 0x1000 * x
abbrev CAN.SCHED_BASE_LO (x : Nat) : Nat := 0x1000B0 + 0x1000 * x
abbrev CAN.SCHED_BASE_HI (x : Nat) : Nat := 0x1000B4 + 0x1000 * x
abbrev CAN.SCHED_STAT (x : Nat) : Nat := 0x1000B8 + 0x1000 * x
abbrev CAN.RX_FRAMES (x : Nat) : Nat := 0x1000C0 + 0x1000 * x
abbrev CAN.TX_FRAMES (x : Nat) : Nat := 0x1000C4 + 0x1000 * x
abbrev CAN.ERR_FRAMES (x : Nat) : Nat := 0x1000C8 + 0x1000 * x
abbrev CAN.OVR_CNT (x : Nat) : Nat := 0x1000CC + 0x1000 * x
abbrev CAN.PXE_CNT (x : Nat) : Nat := 0x1000D0 + 0x1000 * x
abbrev CAN.FMT_DROP_CNT (x : Nat) : Nat := 0x1000D4 + 0x1000 * x
abbrev CAN.RETRY_CNT (x : Nat) : Nat := 0x1000D8 + 0x1000 * x
abbrev CAN.STALE_CNT (x : Nat) : Nat := 0x1000DC + 0x1000 * x
abbrev CAN.BO_CNT (x : Nat) : Nat := 0x1000E0 + 0x1000 * x
abbrev CAN.ARB_LOST_CNT (x : Nat) : Nat := 0x1000E4 + 0x1000 * x
abbrev CAN.RXMB_FILT_ID (x n : Nat) : Nat := 0x100100 + 0x1000 * x + 0x8 * n
abbrev CAN.RXMB_FILT_MASK (x n : Nat) : Nat := 0x100104 + 0x1000 * x + 0x8 * n
abbrev CAN.PB_FILT_ID (x i : Nat) : Nat := 0x100180 + 0x1000 * x + 0x8 * i
abbrev CAN.PB_FILT_MASK (x i : Nat) : Nat := 0x100184 + 0x1000 * x + 0x8 * i
abbrev CAN.PB_VEC (x i : Nat) : Nat := 0x1001A0 + 0x1000 * x + 0x4 * i
abbrev CAN.RXMB (x n j : Nat) : Nat := 0x100800 + 0x1000 * x + 0x50 * n + 0x4 * j
abbrev CAN.PB (x i j : Nat) : Nat := 0x100D00 + 0x1000 * x + 0x50 * i + 0x4 * j

abbrev ETH.CTRL (x : Nat) : Nat := 0x100040 + 0x1000 * x
abbrev ETH.STATUS (x : Nat) : Nat := 0x100044 + 0x1000 * x
abbrev ETH.MAX_LEN (x : Nat) : Nat := 0x100048 + 0x1000 * x
abbrev ETH.MAC_ADDR_LO (x : Nat) : Nat := 0x10004C + 0x1000 * x
abbrev ETH.MAC_ADDR_HI (x : Nat) : Nat := 0x100050 + 0x1000 * x
abbrev ETH.LINK_CFG (x : Nat) : Nat := 0x100054 + 0x1000 * x
abbrev ETH.FC_CFG (x : Nat) : Nat := 0x100058 + 0x1000 * x
abbrev ETH.FC_DUTY (x : Nat) : Nat := 0x10005C + 0x1000 * x
abbrev ETH.FC_USED (x : Nat) : Nat := 0x100060 + 0x1000 * x
abbrev ETH.EEE_TW (x : Nat) : Nat := 0x100064 + 0x1000 * x
abbrev ETH.EEE_IDLE (x : Nat) : Nat := 0x100068 + 0x1000 * x
abbrev ETH.MM_CFG (x : Nat) : Nat := 0x10006C + 0x1000 * x
abbrev ETH.GATE_CTRL (x : Nat) : Nat := 0x100070 + 0x1000 * x
abbrev ETH.GATE_CYCLE (x : Nat) : Nat := 0x100074 + 0x1000 * x
abbrev ETH.GATE_EXT (x : Nat) : Nat := 0x100078 + 0x1000 * x
abbrev ETH.GATE_BASE_LO (x : Nat) : Nat := 0x10007C + 0x1000 * x
abbrev ETH.GATE_BASE_HI (x : Nat) : Nat := 0x100080 + 0x1000 * x
abbrev ETH.GATE_INIT (x : Nat) : Nat := 0x100084 + 0x1000 * x
abbrev ETH.GATE_STAT (x : Nat) : Nat := 0x100088 + 0x1000 * x
abbrev ETH.MAX_SDU (x c : Nat) : Nat := 0x100090 + 0x1000 * x + 0x4 * c
abbrev ETH.CBS_SLOPE (x c : Nat) : Nat := 0x1000B0 + 0x1000 * x + 0x4 * c
abbrev ETH.PLCA_CFG (x : Nat) : Nat := 0x1000D0 + 0x1000 * x
abbrev ETH.PLCA_NODE (x : Nat) : Nat := 0x1000D4 + 0x1000 * x
abbrev ETH.LAST_DROP (x : Nat) : Nat := 0x1000D8 + 0x1000 * x
abbrev ETH.RX_FRAMES (x : Nat) : Nat := 0x100100 + 0x1000 * x
abbrev ETH.RX_BYTES_LO (x : Nat) : Nat := 0x100104 + 0x1000 * x
abbrev ETH.RX_BYTES_HI (x : Nat) : Nat := 0x100108 + 0x1000 * x
abbrev ETH.TX_FRAMES (x : Nat) : Nat := 0x10010C + 0x1000 * x
abbrev ETH.TX_BYTES_LO (x : Nat) : Nat := 0x100110 + 0x1000 * x
abbrev ETH.TX_BYTES_HI (x : Nat) : Nat := 0x100114 + 0x1000 * x
abbrev ETH.RX_FCS_ERR (x : Nat) : Nat := 0x100118 + 0x1000 * x
abbrev ETH.RX_RUNT (x : Nat) : Nat := 0x10011C + 0x1000 * x
abbrev ETH.RX_OVERSIZE (x : Nat) : Nat := 0x100120 + 0x1000 * x
abbrev ETH.RX_CTRL_DROP (x : Nat) : Nat := 0x100124 + 0x1000 * x
abbrev ETH.RX_PAUSE (x : Nat) : Nat := 0x100128 + 0x1000 * x
abbrev ETH.TX_PAUSE (x : Nat) : Nat := 0x10012C + 0x1000 * x
abbrev ETH.PAUSE_IGNORED (x : Nat) : Nat := 0x100130 + 0x1000 * x
abbrev ETH.TX_STOMP (x : Nat) : Nat := 0x100134 + 0x1000 * x
abbrev ETH.TX_TRUNC (x : Nat) : Nat := 0x100138 + 0x1000 * x
abbrev ETH.SDU_DROP (x : Nat) : Nat := 0x10013C + 0x1000 * x
abbrev ETH.GATE_OVERRUN (x : Nat) : Nat := 0x100140 + 0x1000 * x
abbrev ETH.STALE_CNT (x : Nat) : Nat := 0x100144 + 0x1000 * x
abbrev ETH.HOLD_DROP (x : Nat) : Nat := 0x100148 + 0x1000 * x
abbrev ETH.HOLD_FLUSH (x : Nat) : Nat := 0x10014C + 0x1000 * x
abbrev ETH.HOLD_RES_DROP (x : Nat) : Nat := 0x100150 + 0x1000 * x
abbrev ETH.MM_FRAG_TX (x : Nat) : Nat := 0x100154 + 0x1000 * x
abbrev ETH.MM_REASM_ERR (x : Nat) : Nat := 0x100158 + 0x1000 * x
abbrev ETH.MM_VERIFY_FAIL (x : Nat) : Nat := 0x10015C + 0x1000 * x
abbrev ETH.LPI_ENTRIES (x : Nat) : Nat := 0x100160 + 0x1000 * x
abbrev ETH.PLCA_LOSS_CNT (x : Nat) : Nat := 0x100164 + 0x1000 * x
abbrev ETH.COLLISIONS (x : Nat) : Nat := 0x100168 + 0x1000 * x
abbrev ETH.LINK_DOWN_CNT (x : Nat) : Nat := 0x10016C + 0x1000 * x

abbrev STG.CTRL (x : Nat) : Nat := 0x140040 + 0x1000 * x
abbrev STG.GEOM (x : Nat) : Nat := 0x140044 + 0x1000 * x
abbrev STG.CREDITS (x : Nat) : Nat := 0x140048 + 0x1000 * x
abbrev STG.WR_PTR (x : Nat) : Nat := 0x14004C + 0x1000 * x
abbrev STG.COMMIT_PTR (x : Nat) : Nat := 0x140050 + 0x1000 * x
abbrev STG.RD_PTR_W (x : Nat) : Nat := 0x140054 + 0x1000 * x
abbrev STG.RD_PTR_B (x : Nat) : Nat := 0x140058 + 0x1000 * x
abbrev STG.REL_PTR (x : Nat) : Nat := 0x14005C + 0x1000 * x
abbrev STG.MARK_STAT (x : Nat) : Nat := 0x140060 + 0x1000 * x
abbrev STG.FLUSH (x : Nat) : Nat := 0x140064 + 0x1000 * x
abbrev STG.HWM (x : Nat) : Nat := 0x140068 + 0x1000 * x
abbrev STG.LAST_ERR (x : Nat) : Nat := 0x14006C + 0x1000 * x
abbrev STG.PKT_CNT (x : Nat) : Nat := 0x140080 + 0x1000 * x
abbrev STG.CREDIT_DROP (x : Nat) : Nat := 0x140084 + 0x1000 * x
abbrev STG.REWIND_CNT (x : Nat) : Nat := 0x140088 + 0x1000 * x
abbrev STG.ABORT_CNT (x : Nat) : Nat := 0x14008C + 0x1000 * x
abbrev STG.ZERO_COMMIT (x : Nat) : Nat := 0x140090 + 0x1000 * x
abbrev STG.E2E_ERR (x : Nat) : Nat := 0x140094 + 0x1000 * x
abbrev STG.MARK_LOST_CNT (x : Nat) : Nat := 0x140098 + 0x1000 * x
abbrev STG.FLUSH_DROP (x : Nat) : Nat := 0x14009C + 0x1000 * x

abbrev SEC.CTRL (x : Nat) : Nat := 0x180040 + 0x1000 * (x - 48)
abbrev SEC.STATUS (x : Nat) : Nat := 0x180044 + 0x1000 * (x - 48)
abbrev SEC.REPLAY_WIN (x : Nat) : Nat := 0x180048 + 0x1000 * (x - 48)
abbrev SEC.PN_THR_LO (x : Nat) : Nat := 0x18004C + 0x1000 * (x - 48)
abbrev SEC.PN_THR_HI (x : Nat) : Nat := 0x180050 + 0x1000 * (x - 48)
abbrev SEC.BYPASS_ET (x : Nat) : Nat := 0x180054 + 0x1000 * (x - 48)
abbrev SEC.OUT_PROT (x : Nat) : Nat := 0x180080 + 0x1000 * (x - 48)
abbrev SEC.OUT_ENC (x : Nat) : Nat := 0x180084 + 0x1000 * (x - 48)
abbrev SEC.OUT_TOO_LONG (x : Nat) : Nat := 0x180088 + 0x1000 * (x - 48)
abbrev SEC.OUT_PN_EXH (x : Nat) : Nat := 0x18008C + 0x1000 * (x - 48)
abbrev SEC.OUT_NO_SA (x : Nat) : Nat := 0x180090 + 0x1000 * (x - 48)
abbrev SEC.IN_OK (x : Nat) : Nat := 0x180094 + 0x1000 * (x - 48)
abbrev SEC.IN_NOT_VALID (x : Nat) : Nat := 0x180098 + 0x1000 * (x - 48)
abbrev SEC.IN_LATE (x : Nat) : Nat := 0x18009C + 0x1000 * (x - 48)
abbrev SEC.IN_NO_SA (x : Nat) : Nat := 0x1800A0 + 0x1000 * (x - 48)
abbrev SEC.IN_UNTAGGED (x : Nat) : Nat := 0x1800A4 + 0x1000 * (x - 48)

abbrev SDS.SDS_MODE (x : Nat) : Nat := 0x190040 + 0x1000 * (x - 48)
abbrev SDS.SDS_STAT (x : Nat) : Nat := 0x190044 + 0x1000 * (x - 48)
abbrev SDS.TX_EQ (x : Nat) : Nat := 0x190048 + 0x1000 * (x - 48)
abbrev SDS.RX_EQ (x : Nat) : Nat := 0x19004C + 0x1000 * (x - 48)
abbrev SDS.TS_ADJ (x : Nat) : Nat := 0x190050 + 0x1000 * (x - 48)
abbrev SDS.FEC_CORR (x : Nat) : Nat := 0x190054 + 0x1000 * (x - 48)
abbrev SDS.FEC_UNCORR (x : Nat) : Nat := 0x190058 + 0x1000 * (x - 48)
abbrev SDS.BER_CNT (x : Nat) : Nat := 0x19005C + 0x1000 * (x - 48)
abbrev SDS.EYE (x : Nat) : Nat := 0x190060 + 0x1000 * (x - 48)
abbrev SDS.PRBS_CTRL (x : Nat) : Nat := 0x190064 + 0x1000 * (x - 48)
abbrev SDS.PRBS_ERR (x : Nat) : Nat := 0x190068 + 0x1000 * (x - 48)
abbrev SDS.MDIO_CFG (x : Nat) : Nat := 0x190080 + 0x1000 * (x - 48)
abbrev SDS.MDIO_CMD (x : Nat) : Nat := 0x190084 + 0x1000 * (x - 48)
abbrev SDS.MDIO_ADDR (x : Nat) : Nat := 0x190088 + 0x1000 * (x - 48)
abbrev SDS.MDIO_RDATA (x : Nat) : Nat := 0x19008C + 0x1000 * (x - 48)

end Sys2Proof.Machine.Reg
end

