-- ==== Sys2Proof/Machine/StateCore.lean ====
section
/-! DEFINITION. State that several chapters share: outputs, partitions and interrupts (chapter 2), Tempo (chapter 3),
epochs and transactions (chapter 14), the Scoresheet (chapter 18). Plain data throughout. -/

/-
MARKS of the model choices coded here; the log rows say each in full.
DESIGN CHOICE (log 5, safe): what leaves the part is appended to a list.
DEDUCED (log 116, unsafe): Ethernet: how a stamp is taken from a command, and the order of MAC_ADDR.
-/

namespace Sys2Proof.Machine

/-- What leaves the part: messages, frames and levels, in the order in which they leave. -/
inductive OutKind where
  | msix | seatEvent | alarmN | wakeOut | canStart | canSent | canError | canTrx | ethFrame | ethFrag | ethCut | ethPause | ethStomp
  | ethVerify | ethBeacon | hostWrite | hostDone
  | benolsia | gptp | mdio | flash | firmware | clock | jtag | ball
  deriving DecidableEq, Repr

/-- One output event: its kind, the unit it concerns (partition, square, endpoint), one argument and its bytes. -/
structure Out where
  kind : OutKind
  unit : Nat
  arg : Nat := 0
  data : List Byte := []
  deriving DecidableEq, Repr

/-- One entry of a DENY log (R49, R59). -/
structure DenyEntry where
  write : Bool
  bar2 : Bool
  page : Nat
  off : Nat
  time : Nat
  deriving DecidableEq, Repr

/-- What a partition has beside its registers: the DENY log (R60), the state of its attachment (R54, R59), and the
vectors that its host's MSI-X configuration leaves unmasked (R62). -/
structure PartState where
  deny : List DenyEntry := []
  unmasked : List Nat := []
  linkUp : Bool := false
  perst : Bool := false
  lastBnl : Option Nat := none
  absentSince : Option Nat := some 0
  deriving DecidableEq, Repr

/-- How Tempo ran up to a change of its rate, value or state: the instant of the change, the value it had reached, its increment in a
core cycle and that cycle's length, and its state. -/
structure TempoPast where
  at_ : Nat
  value : Nat
  inc : Nat
  cyc : Nat
  state : Nat
  deriving DecidableEq, Repr

/-- What Tempo has beside its registers (R65-R82): the value in units of 2^-48 ns modulo 2^112, the lock count,
the Sync timer, the fine error of HOLDOVER, the latched alarm targets, whether it has run since VDD_AO rose (`latched`), the always-on counter and its entry latch with AO_CAL, HOLD_CFG and HOLD_ERR_MAX as they then
were; for each gPTP port the mean link delay last measured and the priority vector last announced with its time (R69); and how Tempo
ran before its latest changes, newest first (R79). -/
structure TempoState where
  value : Nat := 0
  rateLoNext : Word := 0
  lockCount : Nat := 0
  lastSync : Nat := 0
  holdErr : Nat := 0
  alarmTarget : Sparse Nat := []
  ao : Nat := 0
  aoFs : Nat := 0
  entryTempo : Nat := 0
  entryAo : Nat := 0
  entryState : Nat := 0
  entryErr : Nat := 0
  entryCal : Word := 0
  entryHold : Word := 0
  entryMax : Word := 0
  ref10 : Bool := false
  lastSupvCheck : Nat := 0
  syncTx : Sparse Nat := []
  latched : Bool := false
  linkDelay : Sparse Nat := []
  ranks : Sparse (Nat × Nat) := []
  past : List TempoPast := []
  deriving DecidableEq, Repr

/-- Where a journalled write goes (R405): one register with its byte enables merged, or one whole table entry. -/
inductive JItem where
  | reg (addr : Nat) (value : Word) (mask : Word)
  | entry (first : Nat) (words : List Word64)
  deriving DecidableEq, Repr

/-- The state of one transaction (R404-R414). `reached` says that Tempo reached the target before a step took it back (R77),
`met` that a due commit found two epochs live (R411). -/
structure Txn where
  state : Nat := 0
  taint : Nat := 0
  seq : Nat := 0
  journal : List JItem := []
  timer : Nat := 0
  mode : Nat := 0
  target : Nat := 0
  left : Nat := 0
  wait : Bool := false
  late : Bool := false
  reached : Bool := false
  met : Bool := false
  deriving DecidableEq, Repr

/-- The entry buffer of a partition (R206): the entry being written and its words so far. -/
structure EntryBuf where
  first : Nat
  words : List (Nat × Word64)
  deriving DecidableEq, Repr

/-- Epochs and transactions beside the EPOCH registers: transactions of H0-H3 and, as number 4, of Gambit; the
versions that only the old epoch uses (R402), and whether that epoch is the opening book's (R204); the entry buffers. -/
structure EpochState where
  txns : Sparse Txn := []
  oldRegs : List (Nat × Word) := []
  oldTbl : List (Nat × Word64) := []
  oldBook : Bool := false
  switchAt : Nat := 0
  bufs : List (Nat × EntryBuf) := []
  deriving DecidableEq, Repr

/-- One Scoresheet entry (R492), its fields beside the packed FLAGS byte. -/
structure ScoreEntry where
  seq : Nat := 0
  code : Nat := 0
  loss : Bool := false
  plane : Option Nat := none
  tempo : Nat := 0
  sev : Nat := 0
  part : Option Nat := none
  time : Nat := 0
  page : Nat := 0
  epoch : Nat := 0
  detail : List Byte := []
  cycle : Nat := 0
  deriving DecidableEq, Repr

/-- The Scoresheet beside its registers: the writer's queue, the ring in the retention SRAM, and the archive pages
in flash with the page written last (R492-R496). -/
structure ScoreState where
  queue : List ScoreEntry := []
  ring : Sparse ScoreEntry := []
  lossNext : Bool := false
  archive : Sparse ScoreEntry := []
  archPage : Option Nat := none
  archBlock : Nat := 0
  lastFlush : Nat := 0
  critAt : Option Nat := none
  deriving DecidableEq, Repr

end Sys2Proof.Machine
end

