-- ==== Sys2Proof/Machine/StateGambit.lean ====
section
/-! DEFINITION. State of the Arbiter and its sensors (chapter 18), and of Gambit and the flash (chapter 20), beside their
registers. -/

/-
MARKS of the model choices coded here; the log rows say each in full.
DESIGN CHOICE (log 1, unsafe): what State.reset is: every register at its reset value, flash empty, OTP unprogrammed.
-/

namespace Sys2Proof.Machine

/-- A command of an Arbiter bank in progress (R488): its OP, and whether its key or OP is unknown. -/
structure ArbCmd where
  op : Nat
  bad : Bool := false
  deriving DecidableEq, Repr

/-- The Arbiter: commands in progress, when it began the present restart and when it last restarted, squares with key
agreement on, the time of the last sample of each sensor channel with the side on which it lies outside its window
(1 below, 2 above), and the time of the last eye scan. -/
structure ArbState where
  cmds : Sparse ArbCmd := []
  restartFrom : Nat := 0
  restarts : List Nat := []
  cause : Nat := 0
  mka : Sparse Bool := []
  sampled : Sparse Nat := []
  side : Sparse Nat := []
  eyeAt : Nat := 0
  beatAt : Nat := 0
  deriving DecidableEq, Repr

/-- A set in flash (R531): its manifest and the chunks of its image. For staging, a chunk that is listed has its bitmap
bit programmed. -/
structure FlashSet where
  manifest : List Byte := []
  chunks : Sparse (List Byte) := []
  deriving DecidableEq, Repr

/-- A set pointer record (R540). -/
structure PtrRec where
  trial : Bool := false
  count : Nat := 0
  active : Nat := 0
  prevValid : Bool := false
  aBad : Bool := false
  bBad : Bool := false
  applyPend : Bool := false
  trials : Nat := 0
  buildAct : Nat := 0
  buildPrev : Nat := 0
  deriving DecidableEq, Repr

/-- Gambit and the flash: set slots A and B, staging, the two pointer sectors, the SVN counters of OTP, the set that an
activation is copying, the start of the present apply attempts and the time of the next one, the end of the trial
window, the digests of the images that run (keyed by part TYPE 1, 4 and 5), and devices that have failed. -/
structure GambitState where
  slotA : FlashSet := {}
  slotB : FlashSet := {}
  staging : FlashSet := {}
  sec0 : Option PtrRec := none
  sec1 : Option PtrRec := none
  svn : Sparse Nat := []
  copy : Option FlashSet := none
  applyFrom : Nat := 0
  retryAt : Nat := 0
  trialEnd : Option Nat := none
  code : Sparse (List Byte) := []
  dev0Fail : Bool := false
  dev1Fail : Bool := false
  deriving DecidableEq, Repr

end Sys2Proof.Machine
end

