-- ==== Sys2Proof/Machine/StatePlanes.lean ====
section
/-! DEFINITION. State of the Adjudicator beside its registers (chapter 13). Times are core cycles of the Tour counter
unless they say femtoseconds or nanoseconds. -/

/-
MARKS of the model choices coded here; the log rows say each in full.
DESIGN CHOICE (log 8, safe): the two planes are modelled once.
-/

namespace Sys2Proof.Machine

/-- A disagreement that waits for its decision: POINT (0 cell, 1 digest, 2 host DMA write, 3 staging pointer, 4 drive
path, 5 a TABLE flag without a disagreement), WHERE, the class of a cell, the copy it concerns (2^32 plus its key for a snapshot record
on its way into a slot) with whether that is a DMA write, the cycle d with its Tempo and elapsed time, the plane that has the move at d, and the flags of White and of Black
in their windows so far (R375). `join` says that the partner was joining at d (R391), `whole` which copies for Ethernet outputs had all
their cells released before d (R384). -/
structure Dis where
  point : Nat
  loc : Nat
  cls : Nat := 0
  copy : Nat := 0
  dma : Bool := false
  d : Nat
  dNs : Nat
  dFs : Nat := 0
  act : Nat := 0
  wFlags : Nat := 0
  bFlags : Nat := 0
  join : Bool := false
  whole : List Nat := []
  deriving DecidableEq, Repr

/-- The Adjudicator. `flagAt` is one more than the cycle in which plane x last raised flag f, keyed 4x + f; `gapFrom`
the cycle and the elapsed time at which the gap began; `diagFor` the undecided disagreement that a running diagnostic
may still count; `diagDue` and `reintDue` a diagnostic and a re-integration that wait for the Arbiter (R32, R33); `undec` the counted ones; `fails` the planes and times of failed re-integrations, `autoOff` the planes on
which AUTO_REINT no longer acts (R386); `stepFrom` when the present step of a re-integration began. -/
structure AdjState where
  flagAt : Sparse Nat := []
  pend : List Dis := []
  gapFrom : Option (Nat × Nat) := none
  diagDue : Bool := false
  reintDue : Bool := false
  diagFor : Option Nat := none
  undec : List Nat := []
  retiredAt : Option Nat := none
  reintFrom : Option Nat := none
  stepFrom : Nat := 0
  fails : List (Nat × Nat) := []
  autoOff : List Nat := []
  joinNs : Nat := 0
  proofDue : Bool := false
  sweepAt : Sparse Nat := []
  deriving DecidableEq, Repr

end Sys2Proof.Machine
end

