-- ==== Sys2Proof/Machine/StatePower.lean ====
section
/-! DEFINITION. State of power, wake, resets and clocks beside their registers (chapters 21 and 22), of the memories'
check bits (chapter 17) and of the balls and the test access port (chapter 23). -/

namespace Sys2Proof.Machine

/-- The states of R547, and the part held in reset (R566, R567). -/
inductive PowerMode where
  | play | quiet | adjournedWarm | adjournedCold | held | off
  deriving DecidableEq, Repr

/-- A frame captured for the staging FIFO while a wake runs (R556): the square, the frame and the always-on tick of its
EOF. -/
structure WakeFrame where
  square : Nat
  frame : CanFrame
  tick : Nat
  deriving DecidableEq, Repr

/-- Power and clocks: the state, a switch between PLAY and QUIET that waits for Tour slot 0, the depth whose entry is in
progress, a wake event that came too late to abandon the entry (R552), WAKE_OUT, the wake RC oscillator with its last
edge, captured frames, the elapsed time of the last wake event, the always-on tick of the last firing of a wake source, since when REFCLK_A has been present, why the part is held in reset, when VDD_AO rose, the handover from the opening
book that is late, and the HOLD_RATE that a loss of both references replaced. -/
structure PowerState where
  mode : PowerMode := .play
  switchTo : Option PowerMode := none
  entering : Option PowerMode := none
  woken : Bool := false
  wakeOut : Bool := true
  rc : Bool := false
  rcEdge : Nat := 0
  captured : List WakeFrame := []
  wokeAt : Nat := 0
  wakeTick : Option Nat := none
  refASince : Option Nat := some 0
  resetLow : Bool := false
  testMode : Bool := false
  brownout : Bool := false
  porAt : Nat := 0
  bookLate : Bool := false
  holdRateSaved : Option Nat := none
  deriving DecidableEq, Repr

/-- An address with a correctable error that the scrubber tracks (R477): consecutive passes and the pass of the last. -/
structure TrackEnt where
  addr : Nat
  passes : Nat
  lastPass : Nat
  deriving DecidableEq, Repr

/-- Memory integrity (chapter 17): words that are uncorrectable and recorded, keyed instance * 2^22 + word address; for
each instance the tracked addresses with the number of consecutive passes and the pass of the last correction, oldest
update first; the time of the last leak and of the last overflow report (one more than it, so that none is 0); when the
pass in progress began; the retired ranges of the packet buffer. -/
structure MemState where
  bad : Sparse Bool := []
  track : Sparse (List TrackEnt) := []
  leakAt : Sparse Nat := []
  ovfAt : Sparse Nat := []
  passStart : Sparse Nat := []
  alloc : List Nat := []
  deriving DecidableEq, Repr

/-- The test access port (R598): the instruction in force, and the boundary register's update latch. -/
structure TapState where
  instr : Nat := 0
  preload : List Bool := []
  deriving DecidableEq, Repr

end Sys2Proof.Machine
end

