-- ==== Sys2Proof/Machine/StateSignal.lean ====
section
/-! DEFINITION. State of the signal gateway (chapter 9) and of the Pawn engines (chapter 10) beside their registers and
windows. -/

/-
MARKS of the model choices coded here; the log rows say each in full.
DESIGN CHOICE (log 99, unsafe): a Pawn's EMIT and its epoch.
-/

namespace Sys2Proof.Machine

/-- A snapshot record on its way into a slot (R277): its word key in the snapshot memories, its bytes with an even SEQ, the SEQ of the record
before it, its epoch, and how many of the four steps are done. -/
structure SnapJob where
  key : Nat
  rcd : List Byte
  seq : Nat
  epoch : Nat := 0
  step : Nat := 0
  deriving DecidableEq, Repr

/-- A trigger that waits for the end of MIN_GAP (R266): its layout, the time at which it emits, for a Pawn's EMIT its epoch, and the core
cycle in which the first trigger of it came. -/
structure DeferredEmit where
  layout : Nat
  due : Nat
  epoch : Option Nat := none
  tour : Nat := 0
  deriving DecidableEq, Repr

/-- The signal gateway: the elapsed time of a layout's last emission, triggers that wait for the end of MIN_GAP (R266); the last whole
multiple of PERIOD that each cyclic layout has seen; triggers of this core cycle, and the signals whose flag falls it judges at its end
(R255); the snapshot memories as 64-bit words, partition k at
key k * 2^19, with the records that are being written into them, oldest first (R277); and for the order of R258 one more than the core
cycle in which signal state was last written, who wrote there (unpacker 1, the END of engine n 2 + n, host 100), and words 0-2 of each
signal written in that cycle as they stood at the end of the cycle before. -/
structure SigState where
  lastEmit : Sparse Nat := []
  deferred : List DeferredEmit := []
  cyc : Sparse Nat := []
  trig : List (Nat × Option Nat) := []
  falls : List Nat := []
  snap : Sparse Word64 := []
  slots : List SnapJob := []
  wrTour : Nat := 0
  wrRank : Nat := 0
  past : List (Nat × Word64 × Word64 × Word64) := []
  deriving DecidableEq, Repr

/-- A pending invocation (R289, R290): its program, event 1-5, epoch, chain depth, frame fields, IN data, and for a timer
event its timer. -/
structure PawnReq where
  prog : Nat
  event : Nat
  epoch : Nat
  depth : Nat := 0
  p1 : Nat := 0
  p2 : Nat := 0
  p3 : Nat := 0
  p5 : Nat := 0
  p6 : Nat := 0
  data : List Byte := []
  timer : Option Nat := none
  deriving DecidableEq, Repr

/-- An active loop: first and last instruction of its body, and the passes left after this one (R305). -/
structure PawnLoop where
  first : Nat
  last : Nat
  left : Nat
  deriving DecidableEq, Repr

/-- A held signal write (R314). -/
structure PawnWrite where
  sig : Nat
  value : Nat
  cap : Nat
  inv : Bool
  deriving DecidableEq, Repr

/-- A held EMIT, or SEND with its bytes and the accumulators as they stood (R315, R316). -/
inductive PawnEmit where
  | emit (layout : Nat)
  | send (layout : Nat) (data : List Byte) (capmin dlmin : Option Nat) (sub : Bool)
  deriving DecidableEq, Repr

/-- A held timer operation (R319): TSTART with RB, or TSTOP. -/
structure PawnTimerOp where
  timer : Nat
  start : Bool
  after : Nat
  deriving DecidableEq, Repr

/-- An invocation (R282): the program with the extent, budget and data region it began with, the registers, buffers and
accumulators, and the commit buffer (R298), stores as word index in data memory with value and the bits
that they hold; `began` is the Tempo of its dispatch. -/
structure Invocation where
  prog : Nat
  epoch : Nat
  prio : Nat := 0
  part : Nat := 0
  start : Nat := 0
  len : Nat := 0
  budget : Nat := 512
  dbase : Nat := 0
  dlen : Nat := 0
  depth : Nat := 0
  pc : Nat := 0
  issued : Nat := 0
  cycles : Nat := 0
  regs : Sparse Word64 := []
  inBuf : List Byte := []
  inLen : Nat := 0
  out : List Byte := []
  ecap : Nat := 0
  capmin : Option Nat := none
  dlmin : Option Nat := none
  sub : Bool := false
  loops : List PawnLoop := []
  writes : List PawnWrite := []
  stores : List (Nat × Word64 × Word64) := []
  timers : List PawnTimerOp := []
  emits : List PawnEmit := []
  began : Nat := 0
  deriving DecidableEq, Repr

/-- What the digest of an ended invocation covers (R301): the program, and the fault code and PC of one that faulted, or the epoch and
the ordered commit buffer of one that committed; `began` as in `Invocation`. -/
structure PawnDigest where
  prog : Nat
  fault : Option (Nat × Nat) := none
  epoch : Nat := 0
  writes : List PawnWrite := []
  stores : List (Nat × Word64 × Word64) := []
  timers : List PawnTimerOp := []
  emits : List PawnEmit := []
  began : Nat := 0
  deriving DecidableEq, Repr

/-- The Pawn engines: waiting requests, oldest first, the invocation of each busy engine, and of each engine the digest that it last passed
and that has not been compared (R301). -/
structure PawnState where
  queue : List PawnReq := []
  run : Sparse Invocation := []
  digests : Sparse PawnDigest := []
  deriving DecidableEq, Repr

end Sys2Proof.Machine
end

