-- ==== Sys2Proof/Machine/StateSquares.lean ====
section
/-! DEFINITION. State of the squares beside their registers: staging FIFOs (chapter 6) and CAN controllers (chapter 4). -/

/-
MARKS of the model choices coded here; the log rows say each in full.
DESIGN CHOICE (log 33, unsafe): the staging FIFOs: rewinds without a mark, reserved slots, and how the planes read.
-/

namespace Sys2Proof.Machine

/-- A slot of a staging FIFO (R173, R175): its 512-bit word as 64 bytes, and its tag. Where nothing is given it is the idle item
(R187). -/
structure StgWord where
  data : List Byte := List.replicate 64 0
  tag : BitVec 48 := 0
  deriving DecidableEq, Repr

/-- A packet in a staging FIFO (R174-R186): its FIRST slot as a pointer with lap bit, its words in ascending slots, whether a word
of it reads uncorrectable, whether a plane had read a word of it before its end, the wire time of its frame (R240), the epoch and
ENTRY that it took where it was classified before its end (R196), and whether the planes have discarded it under R177. -/
structure StgPkt where
  slot : Nat
  words : List StgWord
  bad : Bool := false
  early : Bool := false
  wire : Nat := 0
  head : Option (Nat × Nat) := none
  gone : Bool := false
  deriving DecidableEq, Repr

/-- A packet that the producer is writing (R174, R182): its FIRST slot, the words written, the bytes in the assembly register, the
credits reserved; or a frame that is being discarded to its end. `seen` is the time at which a plane first read a word of it (R186);
`head` and `gone` are as of a packet. -/
structure StgProg where
  slot : Nat := 0
  words : List StgWord := []
  asm : List Byte := []
  resv : Nat := 0
  dropped : Bool := false
  seen : Option Nat := none
  head : Option (Nat × Nat) := none
  gone : Bool := false
  deriving DecidableEq, Repr

/-- A transmit mailbox beside its status code in TX_STAT (R104-R109): the copied frame, its deadline in elapsed time,
failed attempts, a latched cancel and a latched new request. -/
structure TxMailbox where
  frame : CanFrame := {}
  deadline : Option Nat := none
  attempts : Nat := 0
  cancel : Bool := false
  again : Option (CanFrame × Option Nat) := none
  deriving DecidableEq, Repr

/-- A received frame as a mailbox holds it (R98). -/
structure RxFrame where
  frame : CanFrame
  stamp : Nat
  tstate : Nat
  deriving DecidableEq, Repr

/-- A receive mailbox or priority buffer (R99): state 0 EMPTY, 1 FULL, 2 LOCKED, its frame and OVR, and the pending
slot with its carried OVR. -/
structure RxBuf where
  state : Nat := 0
  held : Option RxFrame := none
  ovr : Nat := 0
  slot : Option RxFrame := none
  carried : Nat := 0
  deriving DecidableEq, Repr

/-- A fabric class buffer of a CAN controller (R103). -/
structure ClassBuf where
  copy : Copy
  frame : CanFrame
  attempts : Nat := 0
  deriving DecidableEq, Repr

/-- A queued SYNC (its SEQ) and a queued FOLLOW-UP (its payload and SEQ) (R84, R604). -/
structure FollowUp where
  payload : List Byte
  seq : Nat
  deriving DecidableEq, Repr

/-- A CAN controller beside its registers. `onBus` is its own frame on the bus, `receiving` that it receives another's;
mailboxes 0-15 and priority buffers 16-19 in `rx`; `schedPos` the last schedule entry acted, with its time, and
`schedKey` the base and cycle it belongs to; `fuDue` the FOLLOW-UPs that wait for TS_FU_DELAY, with the times at which they
are queued (R84); `leave` a return to CONFIG that was withdrawn before the frame in progress ended (R93); `suspend` the end of the
suspend-transmission time (R115); `idleHeld` the part of IDLE_TO's time that had run when the controller stopped listening (R121). -/
structure CanSq where
  tx : Sparse TxMailbox := []
  rx : Sparse RxBuf := []
  cls : List (Nat × ClassBuf) := []
  onBus : Option CanSrc := none
  receiving : Bool := false
  resetReq : Bool := false
  idleFrom : Option Nat := none
  idleRaised : Bool := false
  idleHeld : Option Nat := none
  leave : Bool := false
  suspend : Nat := 0
  schedPos : Option (Nat × Nat) := none
  schedKey : Nat × Nat := (0, 0)
  sync : Option Nat := none
  syncAgain : Bool := false
  seq : Nat := 0
  syncNext : Nat := 0
  fuDue : List (Nat × FollowUp) := []
  fu : Option FollowUp := none
  fuAgain : Option FollowUp := none
  deriving DecidableEq, Repr

/-- A staging FIFO beside its registers (R173-R191): its packets, oldest first, and the one being written; how many of the
packets each plane has released while the other has not; Black's mark, White's being MARK_STAT; a mark lost that its plane has not
yet met; the word that each plane's last read returned; a packet that was flushed while it was read cut-through, for which White and
Black are still to meet the ABORT word; and the time of the last flush. -/
structure StgSq where
  pkts : List StgPkt := []
  prog : Option StgProg := none
  relW : Nat := 0
  relB : Nat := 0
  markB : Nat := 0
  lostW : Bool := false
  lostB : Bool := false
  readW : StgWord := {}
  readB : StgWord := {}
  cut : Option StgPkt := none
  cutW : Bool := false
  cutB : Bool := false
  flushAt : Option Nat := none
  deriving DecidableEq, Repr

end Sys2Proof.Machine
end

