-- ==== Sys2Proof/Machine/Chip.lean ====
section
/-! DEFINITION. The state of the part, everything but the queue of waiting commands. -/

/-
MARKS of the model choices coded here; the log rows say each in full.
DESIGN CHOICE (log 1, unsafe): what State.reset is: every register at its reset value, flash empty, OTP unprogrammed.
DESIGN CHOICE (log 4, unsafe): time is exact and in femtoseconds; durations and latencies are left out.
DESIGN CHOICE (log 8, safe): the two planes are modelled once.
-/

namespace Sys2Proof.Machine

/-- All that the spec gives the part. `regs` is every register that differs from its reset value, keyed by BAR0 byte
offset; `tbl` every table word that is not zero, keyed by BAR2 byte offset divided by 8; `now` elapsed real time in
femtoseconds; `pba` the pending-bit arrays, pairs of an endpoint and a vector (R62). -/
structure Chip where
  regs : Sparse Word := []
  tbl : Sparse Word64 := []
  now : Nat := 0
  out : List Out := []
  pba : List (Nat × Nat) := []
  free : Nat := 0
  supervisor : Nat := 0
  parts : Sparse PartState := []
  echoUnread : Sparse Bool := []
  inReset : Sparse Nat := []
  alarmLow : Option Nat := none
  tempo : TempoState := {}
  ep : EpochState := {}
  score : ScoreState := {}
  stg : Sparse StgSq := []
  can : Sparse CanSq := []
  fab : FabState := {}
  pol : PolState := {}
  guard : GuardState := {}
  eth : Sparse EthSq := []
  adj : AdjState := {}
  frer : Sparse FrerFn := []
  sas : Sparse SaInst := []
  sig : SigState := {}
  pawn : PawnState := {}
  castle : CastleState := {}
  otp : OtpState := {}
  cx : CxState := {}
  host : HostState := {}
  power : PowerState := {}
  mem : MemState := {}
  gambit : GambitState := {}
  arb : ArbState := {}
  tap : TapState := {}
  deriving DecidableEq, Repr

end Sys2Proof.Machine
end

