-- ==== Sys2Proof/Machine/RegMap.lean ====
section
/-! DEFINITION. What a register reads as at reset: the common header (R45, R51), the page maps, and the registers
whose maps say 'per type', 'per square', 'per instance', 'per R435' or 'per R490'. -/

/-
MARKS of the model choices coded here; the log rows say each in full.
DESIGN CHOICE (log 1, unsafe): what State.reset is: every register at its reset value, flash empty, OTP unprogrammed.
-/

namespace Sys2Proof.Machine

/-- The instance number of a page (R41). -/
def pageInst (p : Nat) : Nat :=
  match pageKind p with
  | some .part => p - 0x008
  | some .pawn => p - 0x051
  | some .hdma => p - 0x0C0
  | some .can => p - 0x100
  | some .eth => p - 0x100
  | some .stg => p - 0x140
  | some .sec => p - 0x180
  | some .sds => p - 0x190
  | _ => 0

/-- PAGE_ID of a page (R41, R45): type, instance and layout version 1. -/
def pageId (p : Nat) : Nat :=
  match pageKind p with
  | none => 0
  | some k => (0x1000 + typePage k p) * 2 ^ 16 + pageInst p * 2 ^ 8 + 1

/-- PAGE_CAPS of a page (R45). -/
def pageCaps (p : Nat) : Nat :=
  match pageKind p with
  | none => 0
  | some k =>
    irqSrc k * 256 + (if k = .pl then 8 else 0) + (if isTable k && !(k = .pawn && p != 0x051) then 4 else 0)
      + (if isShadow k then 2 else 0) + (if isVolatile k then 1 else 0)

/-- The partition that owns a page after power-on of an unprogrammed part (R51, R52). -/
def resetOwner (p : Nat) : Nat :=
  match pageKind p with
  | some .part => p - 0x008
  | some .hdma => p - 0x0C0
  | _ => 0

/-- The row of a page map that an offset falls on (R43: none for an unimplemented offset). -/
def RegRow.hits (r : RegRow) (off : Nat) : Bool :=
  (List.range r.n1).any fun i =>
    let b := r.off + i * r.s1
    b ≤ off && off < b + r.n2 * r.s2 && (off - b) % r.s2 == 0

/-- The row of an offset in a page type. -/
def findRow (k : PageKind) (off : Nat) : Option RegRow := (pageRows k).find? (fun r => r.hits off)

/-- The CRC profiles 0 to 3 at reset (R320, PAWN page map): polynomial and mode. -/
def crcReset (off : Nat) : Nat :=
  match off with
  | 0x240 => 0x1D
  | 0x248 => 0x1021
  | 0x24C => 0x10
  | 0x250 => 0x04C11DB7
  | 0x254 => 0x21
  | 0x258 => 0x1EDC6F41
  | 0x25C => 0x21
  | _ => 0

/-- Nominal supply in mV: VDD_CORE, VDD_SRAM, VDD_AO, VDDIO_33, VDDIO_18, VDDA_SD09, VDDA_SD12. -/
def nominalMv (n : Nat) : Nat := [750, 850, 800, 3300, 1800, 900, 1200].getD n 0

/-- A window of two signed 16-bit limits: HI in [31:16], LO in [15:0]. -/
def limits (lo hi : Int) : Nat := (BitVec.ofInt 16 hi).toNat * 2 ^ 16 + (BitVec.ofInt 16 lo).toNat

/-- SENS.LIM at reset (R490). -/
def sensLimReset (c : Nat) : Nat :=
  if c < 8 then limits (-320) 920
  else if c < 15 then limits (Int.ofNat (nominalMv (c - 8) * 95 / 100)) (Int.ofNat ((nominalMv (c - 8) * 105 + 99) / 100))
  else if c < 17 then limits (-500) 500
  else if c < 19 then limits (-1000) 1000
  else if c < 23 then limits (-3000) 3000
  else limits (-1000) 1000

/-- SENS.HYST at reset (R490): 2 degrees, 5 mV, 5 ppm. -/
def sensHystReset (c : Nat) : Nat := if c < 8 then 16 else if c < 15 then 5 else 50

/-- TAMPER.TS_LIM at reset (R435). -/
def tamperLimReset (s : Nat) : Nat :=
  if s < 7 then limits (Int.ofNat (nominalMv s * 9 / 10)) (Int.ofNat (nominalMv s * 11 / 10))
  else if s = 7 then limits (-20) 20
  else if s = 8 then limits (-50) 50
  else if s = 10 then limits (-50) 140
  else if s = 13 || s = 14 then 100
  else 0

/-- TAMPER.TS_CFG at reset (R435): 0 LOG, 1 ALARM, 2 RESIGN. -/
def tamperCfgReset (s : Nat) : Nat := if s < 11 then 1 else if s < 13 then 2 else 0

/-- MEM.INST_INFO: kind in [31:30], plane in [29] (R469; the word count in [21:0] is an implementation's). -/
def memKind (m : Nat) : Nat :=
  if 0x40 ≤ m && m ≤ 0x5F then
    (if m % 16 ≤ 9 || m % 16 == 13 || m % 16 == 14 then 1 else if m % 16 == 10 then 2 else 0)
  else if m = 0xA1 || m = 0xA2 || m = 0xA3 then 3 else 0

/-- The reset value of a register whose map row gives no plain number. -/
def specialReset (k : PageKind) (p off rst : Nat) : Nat :=
  match k with
  | .can => if off = 0x030 then 0x0080_0000 + 0x2000 * (p - 0x100) else rst
  | .eth => if off = 0x030 then 0x0080_0000 + 0x2000 * (p - 0x100) else rst
  | .sec => if off = 0x030 then 0x0398_0000 + 0x4000 * (p - 0x180) else rst
  | .stg =>
    if off = 0x040 then (if p < 0x170 then 0x21 else 0x23)
    else if off = 0x044 then (if p < 0x170 then 64 * 2 ^ 16 + 4 else 256 * 2 ^ 16 + 8)
    else if off = 0x048 then (if p < 0x168 then 0x0001_0080 else if p < 0x170 then 0x0018_0080 else 0x0019_0200)
    else rst
  | .pl => if off = 0x040 then p - 0x031 else rst
  | .pawn => if 0x240 ≤ off && off < 0x280 then crcReset off else rst
  | .sens =>
    if 0x100 ≤ off && off < 0x280 then
      (if off % 16 = 4 then sensLimReset ((off - 0x100) / 16)
       else if off % 16 = 8 then sensHystReset ((off - 0x100) / 16) else rst)
    else rst
  | .tamper =>
    if 0x100 ≤ off && off < 0x178 then
      (if off % 8 = 0 then tamperCfgReset ((off - 0x100) / 8)
       else if off % 8 = 4 then tamperLimReset ((off - 0x100) / 8) else rst)
    else rst
  | .mem =>
    if 0x400 ≤ off && off % 16 = 0 then
      memKind ((off - 0x400) / 16) * 2 ^ 30 + (if 0x50 ≤ (off - 0x400) / 16 && (off - 0x400) / 16 ≤ 0x5F then 2 ^ 29 else 0)
    else rst
  | _ => rst

/-- What the register at a BAR0 byte offset reads as at reset. -/
def resetOf (addr : Nat) : Word :=
  let p := addr / 0x1000
  let off := addr % 0x1000
  BitVec.ofNat 32 <|
    match pageKind p with
    | none => 0
    | some k =>
      if off < 0x30 then
        (if off = 0 then pageId p else if off = 4 then pageCaps p else if off = 8 then resetOwner p else 0)
      else if k = .pawn && p != 0x051 && (off < 0x40 || 0x200 ≤ off) then 0
      else match findRow k off with
        | none => 0
        | some r => specialReset k p off r.rst

end Sys2Proof.Machine
end

