-- ==== Sys2Proof/Machine/Ops.lean ====
section
/-! DEFINITION. The named operations over registers, tables, interrupts, alarms, denials and the Scoresheet that every
chapter shares. -/

/-
MARKS of the model choices coded here; the log rows say each in full.
DESIGN CHOICE (log 4, unsafe): time is exact and in femtoseconds; durations and latencies are left out.
DESIGN CHOICE (log 5, safe): what leaves the part is appended to a list.
DESIGN CHOICE (log 6, safe): free values come from an opaque function of a counter in State.
DESIGN CHOICE (log 16, unsafe): byte enables on command registers; what a reserved bit does on a write.
DESIGN CHOICE (log 18, unsafe): where a denial is recorded when a request covers several registers or pages.
DESIGN CHOICE (log 20, unsafe): windows of the pages' status that the spec describes in words.
DESIGN CHOICE (log 21, unsafe): in RECOVERY the partition's own Arbiter bank is readable and writes of it are taken for OPs 0x40 to 0x42.
DESIGN CHOICE (log 22, unsafe): ALARM_N while boot has stopped.
DESIGN CHOICE (log 64, unsafe): Arbiter: watchdog, archive, sensors and counters.
DESIGN CHOICE (log 90, unsafe): interrupt messages: which vectors a write repeats, and the message of a mask write.
DEDUCED (log 103, unsafe): transactions: reserved bits and read-only registers.
DEDUCED (log 109, unsafe): two status registers that follow from the configuration.
DEDUCED (log 116, unsafe): Ethernet: how a stamp is taken from a command, and the order of MAC_ADDR.
PRESUMED (log 121, unsafe): the function's MSI-X state as PCI Express has it.
-/

namespace Sys2Proof.Machine

/-- The register at a BAR0 byte offset. -/
def Chip.reg (c : Chip) (a : Nat) : Word := sget (resetOf a) c.regs a

/-- The register set; the map keeps its canonical form. -/
def Chip.setReg (c : Chip) (a : Nat) (v : Word) : Chip := { c with regs := sset (resetOf a) c.regs a v }

/-- Field [hi:lo] of a register, as a number. -/
def Chip.fldOf (c : Chip) (a hi lo : Nat) : Nat := fld (c.reg a) hi lo

/-- Bit n of a register. -/
def Chip.bitOf (c : Chip) (a n : Nat) : Bool := bit (c.reg a) n

/-- Field [hi:lo] of a register set. -/
def Chip.setFldOf (c : Chip) (a hi lo n : Nat) : Chip := c.setReg a (setFld (c.reg a) hi lo n)

/-- Bit n of a register set. -/
def Chip.setBitOf (c : Chip) (a n : Nat) (b : Bool) : Chip := c.setReg a (setBit (c.reg a) n b)

/-- A counter register advanced by n, saturating at 0xFFFF_FFFF (each page map). -/
def Chip.addTo (c : Chip) (a n : Nat) : Chip := c.setReg a (sat32 ((c.reg a).toNat + n))

/-- A counter register advanced by one. -/
def Chip.inc (c : Chip) (a : Nat) : Chip := c.addTo a 1

/-- A register raised to n if it holds less (the MAX registers). -/
def Chip.peak (c : Chip) (a n : Nat) : Chip := if (c.reg a).toNat < n then c.setReg a (sat32 n) else c

/-- The 64-bit table word at a BAR2 byte offset (unlisted words are wiped words, zero: R572). -/
def Chip.tword (c : Chip) (off : Nat) : Word64 := sget 0 c.tbl (off / 8)

/-- The table word at a BAR2 byte offset set. -/
def Chip.setTword (c : Chip) (off : Nat) (v : Word64) : Chip := { c with tbl := sset 0 c.tbl (off / 8) v }

/-- The n table words from a BAR2 byte offset. -/
def Chip.twords (c : Chip) (off n : Nat) : List Word64 := (List.range n).map fun i => c.tword (off + 8 * i)

/-- The table word as the tables of an epoch hold it (R221, R402): the current version, or the one that only the old
epoch still uses. -/
def Chip.twordAt (c : Chip) (e off : Nat) : Word64 :=
  if e = fld (c.reg Reg.EPOCH.CUR) 15 0 then c.tword off else (c.ep.oldTbl.lookup (off / 8)).getD (c.tword off)

/-- A shadowable register as an epoch holds it (R401, R402). -/
def Chip.regAt (c : Chip) (e a : Nat) : Word :=
  if e = fld (c.reg Reg.EPOCH.CUR) 15 0 then c.reg a else (c.ep.oldRegs.lookup a).getD (c.reg a)

/-- One 32-bit counter half of a table word advanced, saturating: the upper half if hi. -/
def Chip.tcount (c : Chip) (off : Nat) (hi : Bool) : Chip :=
  let w := c.tword off
  if hi then c.setTword off (setFld w 63 32 (Nat.min 0xFFFFFFFF (fld w 63 32 + 1)))
  else c.setTword off (setFld w 31 0 (Nat.min 0xFFFFFFFF (fld w 31 0 + 1)))

/-- Tempo in nanoseconds (R65). -/
def Chip.ns (c : Chip) : Nat := c.tempo.value / 2 ^ 48 % 2 ^ 64

/-- Tempo's increment per 0.625 ns in units of 2^-48 ns (R66). -/
def Chip.rate (c : Chip) : Nat := c.fldOf Reg.TEMPO.RATE_HI 15 0 * 2 ^ 32 + (c.reg Reg.TEMPO.RATE_LO).toNat

/-- The Tempo state in its two-bit encoding (R75). -/
def Chip.tempoState (c : Chip) : Nat := c.fldOf Reg.TEMPO.STATE 1 0

/-- Tempo nanosecond bits [41:10], as the TIME registers hold them. -/
def Chip.ns41 (c : Chip) : Word := BitVec.ofNat 32 (c.ns / 1024)

/-- One more output. -/
def Chip.emit (c : Chip) (o : Out) : Chip := { c with out := c.out ++ [o] }

/-- The current configuration epoch (R398). -/
def Chip.epoch (c : Chip) : Nat := c.fldOf Reg.EPOCH.CUR 15 0

/-- The partition record of k. -/
def Chip.part (c : Chip) (k : Nat) : PartState := sget {} c.parts k

/-- The partition record of k set. -/
def Chip.setPart (c : Chip) (k : Nat) (v : PartState) : Chip := { c with parts := sset {} c.parts k v }

/-- The common header registers of a page (R45). -/
def hOwner (p : Nat) : Nat := p * 0x1000 + 0x008
def hStatus (p : Nat) : Nat := p * 0x1000 + 0x00C
def hIrqStat (p : Nat) : Nat := p * 0x1000 + 0x010
def hIrqMask (p : Nat) : Nat := p * 0x1000 + 0x014
def hEchoData (p : Nat) : Nat := p * 0x1000 + 0x01C
def hEchoAddr (p : Nat) : Nat := p * 0x1000 + 0x020
def hErr (p : Nat) : Nat := p * 0x1000 + 0x028

/-- The owner of a page (R47). -/
def Chip.owner (c : Chip) (p : Nat) : Nat := c.fldOf (hOwner p) 1 0

/-- The pages of the opening ROM in RECOVERY (R576). -/
def recoveryPage (p : Nat) : Bool := p = 0x000 || (0x008 ≤ p && p ≤ 0x00B) || p = 0x0A0 || p = 0x0A1

/-- A page is implemented (R41; in RECOVERY only the pages of R576). -/
def Chip.implemented (c : Chip) (p : Nat) : Bool :=
  (pageKind p).isSome && (c.fldOf Reg.GLB.BOOT_STAT 3 0 != 0xF || recoveryPage p)

/-- The interrupt bits that belong to bank k of a page with banks (R418, R443, R467, R498). -/
def bankBits (p k : Nat) : Word :=
  match pageKind p with
  | some .epoch => BitVec.ofNat 32 (0xF * 2 ^ (4 * k))
  | some .castle => BitVec.ofNat 32 (0x3 * 2 ^ (2 * k))
  | some .cx => BitVec.ofNat 32 (0x3 * 2 ^ (2 * k))
  | some .arb => BitVec.ofNat 32 (0x3 * 2 ^ (2 * k))
  | _ => 0

/-- All bank bits of a page. -/
def allBankBits (p : Nat) : Word := bankBits p 0 ||| bankBits p 1 ||| bankBits p 2 ||| bankBits p 3

/-- The vector that the sources of bank k make active. -/
def Chip.bankVec (c : Chip) (p k : Nat) : Nat :=
  match pageKind p with
  | some .epoch => c.fldOf (Reg.EPOCH.TXN_VEC k) 5 0
  | some .castle => c.fldOf (Reg.CASTLE.KVEC k) 5 0
  | some .cx => c.fldOf (Reg.CX.JR_VEC k) 5 0
  | some .arb => c.fldOf (Reg.ARB.CVEC k) 5 0
  | _ => 0

/-- PAGE_IRQ_STAT AND PAGE_IRQ_MASK (R61). -/
def Chip.pendingBits (c : Chip) (p : Nat) : Word := c.reg (hIrqStat p) &&& c.reg (hIrqMask p)

/-- The sources of a page that act on vectors of their own for the owner: the priority buffers of a CAN square (R100). -/
def ownVecBits (p : Nat) : Word := match pageKind p with | some .can => 0xF | _ => 0

/-- The pairs of a partition and a vector that one page keeps active (R62, R418). -/
def Chip.pageVecs (c : Chip) (p : Nat) : List (Nat × Nat) :=
  let b := c.pendingBits p
  (if (b &&& ~~~ (allBankBits p ||| ownVecBits p)) != 0 then [(c.owner p, c.fldOf (hOwner p) 13 8)] else []) ++
  (List.range 4).flatMap (fun k => if (b &&& bankBits p k) != 0 then [(k, c.bankVec p k)] else []) ++
  (if (b &&& ownVecBits p) = 0 then [] else
    (List.range 4).flatMap fun i => if bit b i then [(c.owner p, c.fldOf (Reg.CAN.PB_VEC (p - 0x100) i) 5 0)] else [])

/-- The vectors that the rings of HDMA(k) make active for partition k (R510). -/
def Chip.ringVecs (c : Chip) (k : Nat) : List (Nat × Nat) :=
  let tx := c.reg (Reg.HDMA.TX_IRQ k) &&& c.reg (Reg.HDMA.TX_IE k)
  let rx := c.reg (Reg.HDMA.RX_IRQ k) &&& c.reg (Reg.HDMA.RX_IE k)
  (if tx = 0 then [] else (List.range 32).flatMap fun t => if bit tx t then [(k, c.fldOf (Reg.HDMA.TX_CFG k t) 5 0)] else []) ++
  (if rx = 0 then [] else (List.range 32).flatMap fun r => if bit rx r then [(k, c.fldOf (Reg.HDMA.RX_CFG k r) 5 0)] else [])

/-- Every active vector. Only a page whose PAGE_IRQ_MASK is listed can be pending, because the mask resets to 0. -/
def Chip.activeVecs (c : Chip) : List (Nat × Nat) :=
  (c.regs.flatMap fun e => if e.1 % 0x1000 = 0x014 then c.pageVecs (e.1 / 0x1000) else []) ++ (List.range 4).flatMap c.ringVecs

/-- One interrupt message for vector v of partition k: an MSI-X message, held in the pending-bit array while the host masks
the vector, or a Benolsia event to a network seat; a partition that is not attached keeps its pages pending (R62). -/
def Chip.sendVec (c : Chip) (k v : Nat) : Chip :=
  if c.bitOf (Reg.PART.SEAT k) 31 then c.emit { kind := .seatEvent, unit := k, arg := v }
  else if (c.part k).linkUp then
    (if (c.part k).unmasked.contains v then c.emit { kind := .msix, unit := k, arg := v }
     else { c with pba := c.pba.filter (fun e => e != (k, v)) ++ [(k, v)] })
  else c

/-- Messages for the vectors that are active now and were not before (R62). -/
def Chip.irqEdge (before c : Chip) : Chip :=
  (c.activeVecs.eraseDups.filter (fun kv => !(before.activeVecs.contains kv))).foldl (fun c kv => c.sendVec kv.1 kv.2) c

/-- PRESUMED (log 121): as PCI Express Base 4.0 has it, a bit of the pending-bit array clears when its vector is no longer active
(R62). -/
def Chip.pbaSettle (c : Chip) : Chip := { c with pba := c.pba.filter fun e => c.activeVecs.contains e }

/-- An interrupt source of a page is raised: its bit of PAGE_IRQ_STAT is set (R61). -/
def Chip.raise (c : Chip) (p b : Nat) : Chip :=
  Chip.irqEdge c (c.setReg (hIrqStat p) (c.reg (hIrqStat p) ||| oneBit 32 b))

/-- A bit of PAGE_ERR is set; going from 0 to 1 it also sets PAGE_IRQ_STAT[31] (R61). -/
def Chip.setErr (c : Chip) (p b : Nat) : Chip :=
  if c.bitOf (hErr p) b then c else (c.setBitOf (hErr p) b true).raise p 31

/-- A counter advanced, with the interrupt source that says so. -/
def Chip.incRaise (c : Chip) (a p b : Nat) : Chip := (c.inc a).raise p b

/-- The core runs: PLAY or QUIET. -/
def Chip.awake (c : Chip) : Bool := c.power.mode = .play || c.power.mode = .quiet

/-- ALARM_N is to be low: by ALARM_STAT AND ALARM_EN (R63), of which the always-on domain evaluates bit 0 only (R64,
R570), and throughout a boot that has stopped in the boot ROM (R481, R576). -/
def Chip.alarmWanted (c : Chip) : Bool :=
  let on := c.reg Reg.GLB.ALARM_STAT &&& c.reg Reg.GLB.ALARM_EN
  if c.awake then on != 0 || decide (14 ≤ c.fldOf Reg.GLB.BOOT_STAT 3 0) else bit on 0

/-- ALARM_N follows its condition; it stays low for at least 100 microseconds, and the PART pages raise ALARM when it
becomes asserted (R59, R63). -/
def Chip.alarmLevel (c : Chip) : Chip :=
  if c.alarmWanted then
    (match c.alarmLow with
     | none =>
       (if c.awake then List.range 4 else []).foldl (fun c k => c.raise (0x008 + k) 3)
         (Chip.emit { c with alarmLow := some c.now } { kind := .alarmN, unit := 0, arg := 0 })
     | some _ => c)
  else
    match c.alarmLow with
    | none => c
    | some t =>
      if t + 100 * 10 ^ 9 ≤ c.now then Chip.emit { c with alarmLow := none } { kind := .alarmN, unit := 0, arg := 1 }
      else c

/-- A source of GLB.ALARM_STAT is set (R63). -/
def Chip.setAlarm (c : Chip) (b : Nat) : Chip := (c.setBitOf Reg.GLB.ALARM_STAT b true).alarmLevel

/-- A denial (R49, R60): counted, logged while the log holds fewer than 16 entries, and raised on the requester's
PART page. -/
def Chip.deny (c : Chip) (k : Nat) (write bar2 : Bool) (page off : Nat) : Chip :=
  let c1 := c.inc (Reg.PART.DENY_CNT k)
  let ps := c1.part k
  let c2 := if ps.deny.length < 16 then
      c1.setPart k { ps with deny := ps.deny ++ [{ write := write, bar2 := bar2, page := page, off := off % 0x1000, time := c.ns }] }
    else c1
  c2.raise (0x008 + k) 0

/-- Entries of one core cycle stand in the writer's queue in ascending page number (R492). -/
def insertEntry (e : ScoreEntry) : List ScoreEntry → List ScoreEntry
  | [] => [e]
  | x :: rest => if x.cycle = e.cycle && x.time = e.time && decide (e.page < x.page) then e :: x :: rest else x :: insertEntry e rest

/-- No entry of this core cycle waits for the writer. -/
def Chip.scoreFresh (c : Chip) : Bool := c.score.queue.all fun e => e.cycle != c.fab.tour + 1 || e.time != c.ns

/-- An entry is submitted to the Scoresheet writer with the TIME of this cycle; the queue holds 64 entries, a further
one is discarded and counted, and the next entry written carries LOSS (R492). -/
def Chip.scoreAs (c : Chip) (code sev page : Nat) (part plane : Option Nat) (detail : List Byte) : Chip :=
  if c.score.queue.length < 64 then
    { c with score := { c.score with
        queue := insertEntry { code := code, sev := sev, page := page, part := part, plane := plane, tempo := c.tempoState,
                               time := c.ns, epoch := c.epoch, detail := detail, cycle := c.fab.tour + 1 } c.score.queue } }
  else Chip.incRaise { c with score := { c.score with lossNext := true } } Reg.SCORE.DROPPED 0x091 1

/-- An entry with no partition and no plane. -/
def Chip.scoreLog (c : Chip) (code sev page : Nat) (detail : List Byte) : Chip :=
  c.scoreAs code sev page none none detail

/-- A fresh unstated value of at most w bits and the state in which it is used up. -/
def Chip.advanceFree (c : Chip) : Chip := { c with free := c.free + 1 }

/-- The transaction of a partition (0-3) or of Gambit (4). -/
def Chip.txn (c : Chip) (k : Nat) : Txn := sget {} c.ep.txns k

/-- The transaction of k set. -/
def Chip.setTxn (c : Chip) (k : Nat) (t : Txn) : Chip := { c with ep := { c.ep with txns := sset {} c.ep.txns k t } }

/-- Seconds, milliseconds and microseconds in femtoseconds. -/
def fsSec : Nat := 10 ^ 15
def fsMs : Nat := 10 ^ 12
def fsUs : Nat := 10 ^ 9

/-- A core cycle in femtoseconds: 1.6 GHz, in QUIET 400 MHz (R66, R549). -/
def Chip.cycleFs (c : Chip) : Nat := if c.power.mode = .quiet then 2500000 else 625000

/-- Tempo's advance per core cycle in units of 2^-48 ns (R66). -/
def Chip.cycleRate (c : Chip) : Nat := if c.power.mode = .quiet then 4 * c.rate else c.rate

/-- Tempo is about to take another rate, value or state: how it ran until now stays known for 100 ms, which is longer than any frame
lasts (R79). -/
def Chip.tempoMark (c : Chip) : Chip :=
  let e : TempoPast := { at_ := c.now, value := c.tempo.value, inc := c.cycleRate, cyc := c.cycleFs, state := c.tempoState }
  { c with tempo := { c.tempo with past := e :: c.tempo.past.filter fun x => decide (c.now < x.at_ + 100 * fsMs) } }

/-- Tempo and its state in the core cycle that contained the instant t (R79). -/
def Chip.tempoAt (c : Chip) (t : Nat) : Nat × Nat :=
  let older := c.tempo.past.takeWhile fun x => decide (t < x.at_)
  let e : TempoPast := older.getLastD { at_ := c.now, value := c.tempo.value, inc := c.cycleRate, cyc := c.cycleFs, state := c.tempoState }
  let back : Int := (ceilDiv (e.at_ - t) e.cyc * e.inc : Nat)
  ((((e.value : Int) - back) % ((2 ^ 112 : Nat) : Int)).toNat, e.state)

/-- The plane that has the move (R24). -/
def Chip.move (c : Chip) : Nat := c.fldOf Reg.ADJ.STATUS 0 0

/-- The other plane. -/
def Chip.partner (c : Chip) : Nat := 1 - c.move

/-- PL_STATE.STATE of a plane: 0 ACTIVE, 1 PARTNER, 2 RETIRED, 3 WIPING, 4 COPYING, 5 SNAPSHOT, 6 JOINING, 7 HALTED. -/
def Chip.plState (c : Chip) (x : Nat) : Nat := c.fldOf (Reg.PL.PL_STATE x) 2 0

/-- The partner is in lockstep. -/
def Chip.lockstep (c : Chip) : Bool := c.plState c.partner = 1

/-- A plane that works: it has the move or is in lockstep. -/
def Chip.planeRuns (c : Chip) (x : Nat) : Bool := decide (c.plState x < 2)

/-- The page that owns a BAR2 table window, with the window's base (R40 and the page maps); none for a hole. -/
def windowPage (off : Nat) : Option (Nat × Nat) :=
  if 0x0080_0000 ≤ off && off < 0x0088_0000 then
    (let i := (off - 0x0080_0000) / 0x2000
     let b := 0x0080_0000 + 0x2000 * i
     if i < 40 && 0x1800 ≤ off - b then none else some (0x100 + i, b))
  else if 0x0100_0000 ≤ off && off < 0x0140_0000 then some (0x048, 0x0100_0000)
  else if 0x0140_0000 ≤ off && off < 0x0148_0000 then some (0x049, 0x0140_0000)
  else if 0x0148_0000 ≤ off && off < 0x0148_2000 then some (0x04A, 0x0148_0000)
  else if 0x0180_0000 ≤ off && off < 0x01F0_0000 then some (0x050, 0x0180_0000)
  else if 0x0200_0000 ≤ off && off < 0x0209_0000 then some (0x051, 0x0200_0000)
  else if 0x0388_0000 ≤ off && off < 0x0388_8000 then some (0x071, 0x0388_0000)
  else if 0x0390_0000 ≤ off && off < 0x0390_8000 then some (0x070, 0x0390_0000)
  else if 0x0398_0000 ≤ off && off < 0x039C_0000 then
    some (0x180 + (off - 0x0398_0000) / 0x4000, 0x0398_0000 + (off - 0x0398_0000) / 0x4000 * 0x4000)
  else if 0x03A0_0000 ≤ off && off < 0x03A4_0000 then some (0x091, 0x03A0_0000)
  else if 0x03A4_0000 ≤ off && off < 0x03A4_2000 then some (0x0A0, 0x03A4_0000)
  else if 0x03A8_0000 ≤ off && off < 0x03A8_5000 then some (0x002, 0x03A8_0000)
  else none

/-- The page that a journal item writes. -/
def JItem.page : JItem → Nat
  | .reg a _ _ => a / 0x1000
  | .entry f _ => match windowPage f with | some (p, _) => p | none => 0

/-- The transaction that has journalled a page (R405, R407). -/
def Chip.journalOwner (c : Chip) (p : Nat) : Option Nat :=
  (List.range 5).find? fun k => (c.txn k).state != 0 && (c.txn k).journal.any (fun j => j.page == p)

/-- Free entries of the journal of 16,384 entries (R408). -/
def Chip.journalFree (c : Chip) : Nat :=
  16384 - ((List.range 5).map (fun k => (c.txn k).journal.length)).sum

/-- A write is lost by partition k's transaction (R406-R408): LAST_REJECT and the taint, of which the first counts. -/
def Chip.rejectWrite (c : Chip) (k reason : Nat) (bar2 : Bool) (addr : Nat) : Chip :=
  let c1 := c.setReg (Reg.EPOCH.LAST_REJECT k)
    (BitVec.ofNat 32 (2 ^ 31 + reason * 2 ^ 29 + (if bar2 then 2 ^ 28 else 0) + addr % 2 ^ 26))
  let t := c1.txn k
  let c2 := if t.taint = 0 then c1.setTxn k { t with taint := reason } else c1
  c2.setBitOf (Reg.EPOCH.TXN_STAT k) 31 true

/-- A journal item replaces the earlier item of the same register or entry, merged by byte enables (R405). -/
def mergeItem : List JItem → JItem → List JItem
  | [], j => [j]
  | .reg a v m :: rest, .reg a' v' m' =>
    if a = a' then .reg a ((v &&& ~~~ m') ||| (v' &&& m')) (m ||| m') :: rest
    else .reg a v m :: mergeItem rest (.reg a' v' m')
  | .entry f ws :: rest, .entry f' ws' =>
    if f = f' then .entry f ws' :: rest else .entry f ws :: mergeItem rest (.entry f' ws')
  | x :: rest, j => x :: mergeItem rest j

/-- A shadowable write of partition k's open transaction enters the journal (R405), or is lost when the journal is
full (R408). -/
def Chip.journalWrite (c : Chip) (k : Nat) (bar2 : Bool) (addr : Nat) (j : JItem) : Chip :=
  let t := c.txn k
  let merged := mergeItem t.journal j
  if merged.length ≤ t.journal.length || c.journalFree ≠ 0 then
    c.setTxn k { t with journal := merged, timer := c.now }
  else c.rejectWrite k 3 bar2 addr

/-- Byte enables as a bit mask. -/
def beMask (be : Nat) : Word :=
  (if be % 2 = 1 then 0xFF else 0) ||| (if be / 2 % 2 = 1 then 0xFF00 else 0)
    ||| (if be / 4 % 2 = 1 then 0xFF0000 else 0) ||| (if be / 8 % 2 = 1 then 0xFF000000 else 0)

/-- A register written plainly: the enabled writable bits take the value, the enabled W1C bits written 1 clear
(R11, R12, R58). -/
def RegRow.apply (r : RegRow) (old v mask : Word) : Word :=
  let rw := BitVec.ofNat 32 r.rw &&& mask
  ((old &&& ~~~ rw) ||| (v &&& rw)) &&& ~~~ (v &&& mask &&& BitVec.ofNat 32 r.w1c)

/-- The row of a BAR0 register: MDIO stands on the first square of each SerDes file (R135), PLCA on file f (R129), the
global Pawn registers on PAWN(0). -/
def rowOf (a : Nat) : Option RegRow :=
  match pageKind (a / 0x1000) with
  | none => none
  | some k =>
    let off := a % 0x1000
    let p := a / 0x1000
    if k = .pawn && p ≠ 0x051 && (off < 0x40 || 0x200 ≤ off) then none
    else if k = .sds && p ≠ 0x190 && p ≠ 0x198 && 0x80 ≤ off then none
    else if k = .eth && 0x130 ≤ p && (off = 0xD0 || off = 0xD4 || off = 0x164 || off = 0x168) then none
    else findRow k off

/-- The plain write of a register, as its page map gives it. -/
def Chip.plainWrite (c : Chip) (a : Nat) (v mask : Word) : Chip :=
  match rowOf a with
  | none => c
  | some r => c.setReg a (r.apply (c.reg a) v mask)

/-- The partition that a bank register belongs to (R403, R443, R467, R488). -/
def bankOf (a : Nat) : Option Nat :=
  let off := a % 0x1000
  match pageKind (a / 0x1000) with
  | some .epoch => if 0x100 ≤ off && off < 0x200 then some ((off - 0x100) / 0x40) else none
  | some .castle => if 0x200 ≤ off && off < 0xA00 then some ((off - 0x200) / 0x200) else none
  | some .cx => if 0x100 ≤ off && off < 0x200 then some ((off - 0x100) / 0x40) else none
  | some .arb => if 0x100 ≤ off && off < 0x300 then some ((off - 0x100) / 0x80) else none
  | _ => none

/-- The block of a page is in reset: in a block or square reset, or its plane is wiped (R45, R388). -/
def Chip.held (c : Chip) (p : Nat) : Bool :=
  (lookupKey c.inReset p).isSome || (pageKind p = some .pl && c.fldOf (Reg.PL.PL_STATE (p - 0x031)) 2 0 = 3)

/-- Partition k may write the block register at a (R47 and its exceptions: supervisor registers, banks). -/
def Chip.mayWrite (c : Chip) (k a : Nat) : Bool :=
  match rowOf a with
  | none => false
  | some r =>
    if r.sup then k = c.supervisor
    else match bankOf a with
      | some b => k = b
      | none => k = c.owner (a / 0x1000)

/-- The checks of a write to a block register, in order (R43, R46, R47, R49, R405-R407); if it may act, it acts. -/
def Chip.blockWrite (c : Chip) (k a : Nat) (v mask : Word) (act : Chip → Chip) : Chip :=
  let p := a / 0x1000
  if !c.implemented p then c else
  match rowOf a with
  | none => c.setErr p 1
  | some r =>
    if !c.mayWrite k a then c.deny k true false p a
    else if c.held p then c.setErr p 8
    else
      let mine := (c.txn k).state = 1
      match pageKind p with
      | none => c
      | some kind =>
        if isShadow kind && r.shadow then
          (match c.journalOwner p with
           | some j =>
             if j = k && mine then c.journalWrite k false a (.reg a v mask)
             else
               let c1 := c.setErr p 3
               if mine then c1.rejectWrite k 2 false a else c1
           | none => if mine then c.journalWrite k false a (.reg a v mask) else act c)
        else if isShadow kind && mine then (c.setErr p 2).rejectWrite k 1 false a
        else act c

/-- A side-effecting read by the owner: the echo registers keep the data and the place of the read; ECHO_LOST tells
of data that had not been read (R55). `seen` says whether the owner has read PAGE_ECHO_DATA since the last one. -/
def Chip.echo (c : Chip) (k a : Nat) (data : Word) (seen : Bool) : Chip :=
  let p := a / 0x1000
  let c1 := if sget false c.echoUnread p && !seen then c.setErr p 6 else c
  let c2 := (c1.setReg (hEchoData p) data).setReg (hEchoAddr p)
    (BitVec.ofNat 32 (c.ns / 1024 % 0x10000 * 2 ^ 16 + k * 2 ^ 12 + a % 0x1000))
  { c2 with echoUnread := sset false c2.echoUnread p true }

/-- Credits reserved at the start of a frame (R182). -/
def Chip.stgReserve (c : Chip) (q : Nat) : Nat :=
  if q < 40 then
    (if c.bitOf (Reg.CAN.CTRL q) 5 then 33 else if c.bitOf (Reg.CAN.CTRL q) 4 then 2 else 1)
  else if q < 48 then Nat.min 128 (ceilDiv (c.fldOf (Reg.ETH.MAX_LEN q) 13 0 + 12) 64)
  else ceilDiv (c.fldOf (Reg.ETH.MAX_LEN q) 13 0 + 12) 64 + 1

/-- The SC and SA window of a square (R468). -/
def secBase (q : Nat) : Nat := 0x0398_0000 + 0x4000 * (q - 48)
def scOff (q n : Nat) : Nat := secBase q + 32 * n
def saOff (q n a : Nat) : Nat := secBase q + 0x1000 + 64 * (4 * n + a)

/-- The word at index n of BAR2 is a counter of an SA of the square: its words 4 to 6 (R468). -/
def saCounter (q n : Nat) : Bool := saOff q 0 0 ≤ 8 * n && 8 * n < saOff q 0 0 + 0x2000 && 4 ≤ n % 8 && n % 8 < 7

/-- The key of an installed SA: square, SC and AN. -/
def saKey (q n a : Nat) : Nat := q * 128 + 4 * n + a
def Chip.sa? (c : Chip) (q n a : Nat) : Option SaInst := lookupKey c.sas (saKey q n a)

/-- The transmit SC of a square: the lowest valid one marked TX. -/
def Chip.txSc (c : Chip) (q : Nat) : Option Nat :=
  (List.range 32).find? fun n => bit (c.tword (scOff q n)) 63 && bit (c.tword (scOff q n)) 62

/-- SEC.STATUS (R463, R464, R468): the transmit SC, the AN it encrypts with, and whether that SA is installed. -/
def Chip.secStatus (c : Chip) (q : Nat) : Word :=
  match c.txSc q with
  | none => 0
  | some n =>
    let a := fld (c.tword (scOff q n)) 61 60
    BitVec.ofNat 32 ((if (c.sa? q n a).isSome then 2 ^ 31 else 0) + a * 2 ^ 28 + n)

/-- Registers of a page other than its header back at their reset values. -/
def Chip.resetPage (c : Chip) (p : Nat) : Chip :=
  { c with regs := c.regs.filter fun e => !(e.1 / 0x1000 = p && 0x30 ≤ e.1 % 0x1000) }

/-- Table words of a window back at zero. -/
def Chip.wipeTable (c : Chip) (base len : Nat) : Chip :=
  { c with tbl := c.tbl.filter fun e => !(decide (base ≤ 8 * e.1) && decide (8 * e.1 < base + len)) }

/-- A block leaves reset: its page is written again (R46). -/
def Chip.outOfReset (c : Chip) (p : Nat) : Chip := { c with inReset := eraseKey c.inReset p }

/-- SQxn_STB_N of CAN square q (R122, R558): in ADJOURNED as the wake configuration sets it, otherwise the inverse of TRX.STB. -/
def Chip.stbN (c : Chip) (q : Nat) : Bool :=
  if c.power.mode = .adjournedWarm || c.power.mode = .adjournedCold then
    (let w := c.tword (0x03A8_1000 + 64 * q)
     bit w 63 || !bit w 60)
  else !c.bitOf (Reg.CAN.TRX q) 0

/-- The standby outputs follow (R122): argument 1 high, 0 low. -/
def Chip.stbEdge (before c : Chip) : Chip :=
  (List.range 40).foldl (fun (c : Chip) q =>
    if before.stbN q = c.stbN q then c else c.emit { kind := .canTrx, unit := q, arg := if c.stbN q then 1 else 0 }) c

end Sys2Proof.Machine
end

