-- ==== Sys2Proof/Machine/CanRx.lean ====
section
/-! DEFINITION. Chapter 4, receive side: the frame record, receive mailboxes and priority buffers (R94, R97-R100). -/

namespace Sys2Proof.Machine

/-- SQ page of a square. -/
def pSq (q : Nat) : Nat := 0x100 + q

/-- The CAN controller of a square. -/
def Chip.canSq (c : Chip) (q : Nat) : CanSq := sget {} c.can q

/-- The CAN controller of a square set. -/
def Chip.setCan (c : Chip) (q : Nat) (v : CanSq) : Chip := { c with can := sset {} c.can q v }

/-- The data length that a DLC stands for in a format (ISO 11898-1 code table). -/
def dlcLen (fmt dlc : Nat) : Nat :=
  if dlc ≤ 8 then dlc else if fmt = 0 then 8 else [12, 16, 20, 24, 32, 48, 64].getD (dlc - 9) 64

/-- The identifier of a frame: 29 bits with IDE, otherwise 11 (R94). -/
def idOf (f : CanFrame) : Nat := if f.ide && f.fmt ≠ 2 then f.id % 2 ^ 29 else f.id % 2 ^ 11

/-- The CAN frame record of R94. -/
def canRecord (f : CanFrame) (self : Bool) (stamp : Nat) : List Byte :=
  let n := f.data.length
  bytesLE 4 ((if f.ide then 2 ^ 31 else 0) + (if f.rtr then 2 ^ 30 else 0) + idOf f) ++
  bytesLE 4 (f.fmt % 4 * 2 ^ 30 + (if f.brs then 2 ^ 29 else 0) + (if f.esi then 2 ^ 28 else 0) + (if f.sec then 2 ^ 27 else 0)
    + (if self then 2 ^ 26 else 0) + (if f.fmt = 2 then 0 else f.dlc % 16 * 2 ^ 16) + n % 2 ^ 12) ++
  bytesLE 4 (if f.fmt = 2 then f.af else 0) ++
  bytesLE 4 (if f.fmt = 2 then f.sdt % 256 * 256 + f.vcid % 256 else 0) ++
  bytesLE 8 stamp ++ f.data ++ List.replicate ((8 - n % 8) % 8) 0

/-- The frame that a CAN frame record holds (R94). -/
def canOfRecord (r : List Byte) : CanFrame :=
  let w0 := leAt r 0 4
  let w1 := leAt r 4 4
  { ide := natBits w0 31 31 = 1, rtr := natBits w0 30 30 = 1, id := w0 % 2 ^ (if natBits w0 31 31 = 1 && natBits w1 31 30 ≠ 2 then 29 else 11), fmt := natBits w1 31 30,
    brs := natBits w1 29 29 = 1, esi := natBits w1 28 28 = 1, sec := natBits w1 27 27 = 1, dlc := natBits w1 19 16,
    af := leAt r 8 4, sdt := leAt r 12 4 / 256 % 256, vcid := leAt r 12 4 % 256,
    data := (r.drop 24).take (w1 % 2 ^ 12) }

/-- LEN of a CAN frame record. -/
def canRecLen (r : List Byte) : Nat := leAt r 4 4 % 2 ^ 12

/-- Receive buffer n of a square: mailboxes 0-15, priority buffers 16-19. -/
def Chip.rxBuf (c : Chip) (q n : Nat) : RxBuf := sget {} (c.canSq q).rx n

/-- Receive buffer n of a square set. -/
def Chip.setRx (c : Chip) (q n : Nat) (b : RxBuf) : Chip :=
  c.setCan q { c.canSq q with rx := sset {} (c.canSq q).rx n b }

/-- BAR0 address of word j of receive buffer n (R98). -/
def rxAddr (q n j : Nat) : Nat := if n < 16 then Reg.CAN.RXMB q n j else Reg.CAN.PB q (n - 16) j

/-- Word j of a receive buffer as it reads (R98). -/
def RxBuf.word (b : RxBuf) (j : Nat) : Word :=
  if b.state = 0 then 0 else
  match b.held with
  | none => 0
  | some r =>
    let f := r.frame
    BitVec.ofNat 32 <|
      if j = 0 then 2 ^ 31 + (if f.ide then 2 ^ 30 else 0) + idOf f
      else if j = 1 then
        f.fmt % 4 * 2 ^ 30 + (if f.rtr then 2 ^ 29 else 0) + (if f.brs then 2 ^ 28 else 0) + (if f.esi then 2 ^ 27 else 0)
          + b.ovr % 256 * 2 ^ 16 + f.dlc % 16 * 2 ^ 12 + f.data.length % 128
      else if j = 2 then r.stamp % 2 ^ 32
      else if j = 3 then r.tstate % 4 * 2 ^ 16 + r.stamp / 2 ^ 32 % 2 ^ 16
      else leAt f.data (4 * (j - 4)) 4

/-- Word L, whose read releases the buffer (R98). -/
def RxBuf.lastWord (b : RxBuf) : Nat :=
  match b.held with
  | none => 3
  | some r => 3 + ceilDiv r.frame.data.length 4

/-- A buffer became FULL: a mailbox with its RX_IE bit raises RX_MB, a priority buffer its own source (R100). -/
def Chip.rxFullIrq (c : Chip) (q n : Nat) : Chip :=
  if n < 16 then (if c.bitOf (Reg.CAN.RX_IE q) n then c.raise (pSq q) 4 else c) else c.raise (pSq q) (n - 16)

/-- A frame arrives in buffer n (R99). -/
def Chip.rxArrive (c : Chip) (q n : Nat) (r : RxFrame) : Chip :=
  let b := c.rxBuf q n
  if b.state = 0 then (c.setRx q n { b with state := 1, held := some r, ovr := 0 }).rxFullIrq q n
  else if b.state = 1 then
    ((c.setRx q n { b with held := some r, ovr := Nat.min 255 (b.ovr + 1) }).inc (Reg.CAN.OVR_CNT q)).raise (pSq q) 11
  else
    match b.slot with
    | none => c.setRx q n { b with slot := some r }
    | some _ =>
      ((c.setRx q n { b with slot := some r, carried := Nat.min 255 (b.carried + 1) }).inc (Reg.CAN.OVR_CNT q)).raise (pSq q) 11

/-- A LOCKED buffer is released: the pending frame moves in with the carried OVR, or the buffer becomes EMPTY (R99). -/
def Chip.rxRelease (c : Chip) (q n : Nat) : Chip :=
  let b := c.rxBuf q n
  if b.state = 2 then
    match b.slot with
    | none => c.setRx q n {}
    | some r => (c.setRx q n { state := 1, held := some r, ovr := b.carried }).rxFullIrq q n
  else c

/-- A change of PAGE_OWNER releases the locks of a CAN square as at word L (R99). -/
def Chip.releaseLocks (c : Chip) (p : Nat) : Chip :=
  match pageKind p with
  | some .can => (List.range 20).foldl (fun c n => c.rxRelease (p - 0x100) n) c
  | _ => c

/-- A filter matches a frame (R97). -/
def filterMatch (fid fmask : Word) (f : CanFrame) : Bool :=
  bit fid 31 && (BitVec.ofNat 29 (idOf f) ^^^ fid.setWidth 29) &&& fmask.setWidth 29 == 0 &&
    (!bit fmask 30 || bit fid 30 == f.ide)

/-- The one buffer that a Classical or FD frame goes to: priority buffers first, then mailboxes (R97). -/
def Chip.rxPlace (c : Chip) (q : Nat) (f : CanFrame) : Option Nat :=
  if f.fmt = 2 then none else
  match (List.range 4).find? (fun i => filterMatch (c.reg (Reg.CAN.PB_FILT_ID q i)) (c.reg (Reg.CAN.PB_FILT_MASK q i)) f) with
  | some i => some (16 + i)
  | none => (List.range 16).find? (fun n => filterMatch (c.reg (Reg.CAN.RXMB_FILT_ID q n)) (c.reg (Reg.CAN.RXMB_FILT_MASK q n)) f)

end Sys2Proof.Machine
end

