-- ==== Sys2Proof/Machine/Pages.lean ====
section
/-! DEFINITION. Chapter 2: page ownership, the supervisor, denials, interrupts and side-effecting reads. -/

/-
MARKS of the model choices coded here; the log rows say each in full.
DESIGN CHOICE (log 18, unsafe): where a denial is recorded when a request covers several registers or pages.
DESIGN CHOICE (log 19, unsafe): a supervisor that hands the role to itself; a partition never heard from.
DESIGN CHOICE (log 90, unsafe): interrupt messages: which vectors a write repeats, and the message of a mask write.
-/

namespace Sys2Proof.Machine

/-- A partition is absent: its PCIe link is down or, for a network seat, no Benolsia message came within a second (R54). -/
def Chip.absent (c : Chip) (k : Nat) : Bool :=
  if c.bitOf (Reg.PART.SEAT k) 31 then
    (match (c.part k).lastBnl with
     | none => true
     | some t => decide (t + fsSec < c.now))
  else !(c.part k).linkUp

/-- How long a partition has been absent, in femtoseconds. -/
def Chip.absentFor (c : Chip) (k : Nat) : Nat :=
  if c.absent k then
    (if c.bitOf (Reg.PART.SEAT k) 31 then
      (match (c.part k).lastBnl with
       | none => c.now - ((c.part k).absentSince.getD 0)
       | some t => c.now - (t + fsSec))
     else c.now - ((c.part k).absentSince.getD 0))
  else 0

/-- The supervisor role moves; the old and the new supervisor's PART pages raise SUPV_CHANGE (R52). -/
def Chip.moveSupervisor (c : Chip) (j : Nat) : Chip :=
  let old := c.supervisor
  let c1 := { c with supervisor := j }
  if old = j then c1.raise (0x008 + j) 1 else (c1.raise (0x008 + old) 1).raise (0x008 + j) 1

/-- SUPV_XFER (R52): the supervisor's write of 0x5356 to PART(j).SUPV_XFER gives the role to partition j. -/
def doSupvXfer (k j : Nat) (v : Word) (c : Chip) : Chip :=
  if 4 ≤ j then c else
  c.blockWrite k (Reg.PART.SUPV_XFER j) v 0xFFFFFFFF fun c =>
    if fld v 15 0 = 0x5356 then c.moveSupervisor j else c

/-- The partition to which the role of an absent supervisor passes: the lowest other partition that is not absent and
whose TIMEOUT is set and exceeded (R54). -/
def Chip.heir (c : Chip) : Option Nat :=
  (List.range 4).find? fun k =>
    k != c.supervisor && !c.absent k && c.fldOf (Reg.PART.SUPV_WATCH k) 15 0 != 0
      && decide (c.fldOf (Reg.PART.SUPV_WATCH k) 15 0 * 10 * fsMs < c.absentFor c.supervisor)

/-- SUPV_WATCH_CHECK (R54): every 10 ms. While the supervisor is absent ALARM_STAT[8] is set (R63). -/
def doSupvWatchCheck (c : Chip) : Chip :=
  if c.now < c.tempo.lastSupvCheck + 10 * fsMs then c else
  let c1 := { c with tempo := { c.tempo with lastSupvCheck := c.now } }
  let c2 := if c1.absent c1.supervisor then c1.setAlarm 8 else c1
  match c2.heir with
  | none => c2
  | some k => c2.moveSupervisor k

/-- The bits of PAGE_IRQ_STAT and PAGE_IRQ_MASK that partition k may write (R47, R601). -/
def Chip.irqWritable (c : Chip) (k p : Nat) : Word :=
  bankBits p k ||| (if c.owner p = k then ~~~ allBankBits p else 0)

/-- The bits of PAGE_IRQ_STAT that a page type has: its IRQ_SRC sources and the PAGE_ERR summary (R61). -/
def irqImplemented (p : Nat) : Word :=
  match pageKind p with
  | none => 0
  | some k => BitVec.ofNat 32 (2 ^ irqSrc k - 1 + 2 ^ 31)

/-- The vectors of a page, pending or not: its owner's VEC and, where it has them, each bank's or priority buffer's
vector. -/
def Chip.vecsOfPage (c : Chip) (p : Nat) : List (Nat × Nat) :=
  (c.owner p, c.fldOf (hOwner p) 13 8) ::
    (if allBankBits p = 0 then [] else (List.range 4).map fun k => (k, c.bankVec p k)) ++
    (if ownVecBits p = 0 then [] else (List.range 4).map fun i => (c.owner p, c.fldOf (Reg.CAN.PB_VEC (p - 0x100) i) 5 0))

/-- A further message after a write to PAGE_IRQ_STAT or PAGE_IRQ_MASK that leaves a vector of the page active (R62). -/
def Chip.irqRewrite (c : Chip) (p : Nat) : Chip :=
  Chip.pbaSettle <| ((c.vecsOfPage p).eraseDups.filter (fun kv => c.activeVecs.contains kv)).foldl (fun c kv => c.sendVec kv.1 kv.2) c

/-- A write to PAGE_IRQ_STAT (W1C) by a partition that may write some of its bits. -/
def Chip.irqStatWrite (c : Chip) (k p : Nat) (v mask : Word) : Chip :=
  (c.setReg (hIrqStat p) (c.reg (hIrqStat p) &&& ~~~ (v &&& mask &&& c.irqWritable k p))).irqRewrite p

/-- A write to PAGE_IRQ_MASK by a partition that may write some of its bits. -/
def Chip.irqMaskWrite (c : Chip) (k p : Nat) (v mask : Word) : Chip :=
  let m := mask &&& c.irqWritable k p &&& irqImplemented p
  (c.setReg (hIrqMask p) ((c.reg (hIrqMask p) &&& ~~~ m) ||| (v &&& m))).irqRewrite p

/-- Writing 1 to PAGE_IRQ_FORCE sets the same bits of PAGE_IRQ_STAT, whatever the mask holds (R61, R601). -/
def Chip.irqForce (c : Chip) (k p : Nat) (v mask : Word) : Chip :=
  Chip.irqEdge c (c.setReg (hIrqStat p) (c.reg (hIrqStat p) ||| (v &&& mask &&& c.irqWritable k p &&& irqImplemented p)))

/-- A header register may be written by k at all: by the owner, or on a page with banks by every partition (R47, R601). -/
def Chip.headerWritable (c : Chip) (k p : Nat) : Bool := c.owner p = k || allBankBits p != 0

/-- PAGE_IRQ_FORCE_WRITE (R61): by partition k to page p. -/
def doPageIrqForceWrite (k p : Nat) (v : Word) (be : Nat) (c : Chip) : Chip :=
  if !c.implemented p then c
  else if c.headerWritable k p then c.irqForce k p v (beMask be)
  else c.deny k true false p 0x018

/-- The owner of a page changes (R53): refused while LOCK or JOURNALLED is 1, otherwise the mask, VEC and the echo
registers clear, and both PART pages raise OWNER_CHANGE. -/
def Chip.changeOwner (c : Chip) (p new : Nat) : Chip :=
  let old := c.owner p
  if old = new then c
  else if c.bitOf (hOwner p) 31 || (c.journalOwner p).isSome then c.setErr p 5
  else
    let c1 := c.setReg (hOwner p) (setFld (setFld (c.reg (hOwner p)) 1 0 new) 13 8 0)
    let c2 := ((c1.setReg (hIrqMask p) 0).setReg (hEchoData p) 0).setReg (hEchoAddr p) 0
    let c3 := { c2 with echoUnread := sset false c2.echoUnread p false }
    (((c3.releaseLocks p).raise (0x008 + old) 2).raise (0x008 + new) 2).pbaSettle

/-- The supervisor's part of a PAGE_OWNER write: READ_SHARE and LOCK, both frozen while LOCK is 1, then OWNER (R45, R53). -/
def Chip.supervisorOwnerWrite (c : Chip) (p : Nat) (v : Word) : Chip :=
  let locked := c.bitOf (hOwner p) 31
  let c1 := if locked then c else c.setBitOf (hOwner p) 16 (bit v 16)
  let c2 := c1.changeOwner p (fld v 1 0)
  if locked then c2 else c2.setBitOf (hOwner p) 31 (bit v 31)

/-- PAGE_OWNER_WRITE (R47): field by field according to the writer's role. -/
def doPageOwnerWrite (k p : Nat) (v : Word) (be : Nat) (c : Chip) : Chip :=
  if !c.implemented p then c else
  let old := c.reg (hOwner p)
  let nv := (old &&& ~~~ beMask be) ||| (v &&& beMask be)
  let own := c.owner p = k
  let sup := c.supervisor = k
  if !own && !sup then c.deny k true false p 0x008 else
  let isPart := decide (pageKind p = some .part)
  let c1 := if own && !isPart then c.irqEdge (c.setFldOf (hOwner p) 13 8 (fld nv 13 8)) else c
  let c2 := if sup then c1.supervisorOwnerWrite p nv else c1
  let strayVec := !own && decide (fld nv 13 8 ≠ fld old 13 8)
  let straySup := !sup && (decide (fld nv 1 0 ≠ fld old 1 0) || bit nv 16 != bit old 16 || bit nv 31 != bit old 31)
  if strayVec || straySup then c2.deny k true false p 0x008 else c2

/-- A read that partition k makes of a side-effecting register: the owner's has its effect and fills the echo
registers, the supervisor's and a shared reader's have none, any other is denied (R46, R48, R49, R55). -/
def Chip.volatileRead (c : Chip) (k a : Nat) (seen : Bool) (data : Word) (act : Chip → Chip) : Chip :=
  let p := a / 0x1000
  if !c.implemented p then c
  else if c.held p then c
  else if k = c.owner p then (act c).echo k a data seen
  else if k = c.supervisor || c.bitOf (hOwner p) 16 then c
  else c.deny k false false p a

/-- DENY_POP as it reads (R59). -/
def DenyEntry.word (d : DenyEntry) : Word :=
  BitVec.ofNat 32 (2 ^ 31 + (if d.write then 2 ^ 30 else 0) + (if d.bar2 then 2 ^ 29 else 0) + d.page * 2 ^ 12 + d.off)

/-- DENY_POP (R59): reader k pops the oldest entry of PART(j)'s DENY log. -/
def doDenyPop (k j : Nat) (seen : Bool) (c : Chip) : Chip :=
  if 4 ≤ j then c else
  match (c.part j).deny with
  | [] => c.volatileRead k (Reg.PART.DENY_POP j) seen 0 id
  | d :: rest =>
    c.volatileRead k (Reg.PART.DENY_POP j) seen d.word fun c =>
      (c.setPart j { c.part j with deny := rest }).setReg (Reg.PART.DENY_TIME j) (BitVec.ofNat 32 (d.time / 1024))

/-- A BAR0 read of n DWORDs is permitted (R57). -/
def readPermitted (p off n be : Nat) : Bool :=
  match pageKind p with
  | none => n ≤ 32 && off + 4 * n ≤ 0x1000
  | some k =>
    if isVolatile k then n = 1 && off % 4 = 0 && be = 0xF
    else 1 ≤ n && n ≤ 32 && off + 4 * n ≤ 0x1000

/-- WIDE_READ_REJECT (R57): a read of n DWORDs from offset off of page p that is not permitted completes with Completer
Abort at its endpoint and sets PAGE_ERR.WIDE of the page in which it starts, if that exists; one that crosses the end of
BAR0 is R502's. -/
def doWideReadReject (p off n : Nat) (r : WideRead) (c : Chip) : Chip :=
  if readPermitted p off n r.be || 0x1000000 < p * 0x1000 + off + 4 * n then c
  else
    let c1 := if c.implemented p then c.setErr p 0 else c
    match r.part with
    | none => c1
    | some k => if k < 4 && (c1.part k).linkUp then c1.emit { kind := .hostDone, unit := k, arg := 4 } else c1

/-- ALARM_N_HOLD_EXPIRY (R63). -/
def doAlarmNHoldExpiry (c : Chip) : Chip := c.alarmLevel

end Sys2Proof.Machine
end

