-- ==== Sys2Proof/Machine/Staging.lean ====
section
/-! DEFINITION. Chapter 6: staging FIFOs: the words and tags of packets, the producer, the planes' reads, flush and reset. The
pointers, White's mark, the credits and the counters are the STG registers. -/

/-
MARKS of the model choices coded here; the log rows say each in full.
DESIGN CHOICE (log 33, unsafe): the staging FIFOs: rewinds without a mark, reserved slots, and how the planes read.
DESIGN CHOICE (log 54, unsafe): the entry buffer, partial words and poisoned words of tables.
DESIGN CHOICE (log 95, unsafe): staging: what a rejection counts, and the header of a packet that is being written.
DEDUCED (log 113, unsafe): staging: when words are written and become readable, and an uncorrectable word of a packet.
-/

namespace Sys2Proof.Machine

/-- A word of an instance as a key. -/
def memKey (m addr : Nat) : Nat := m * 2 ^ 22 + addr

/-- STG page of a square. -/
def pStg (q : Nat) : Nat := 0x140 + q

/-- Slots and credits of a square's FIFO (R173). -/
def stgSlots (q : Nat) : Nat := if q < 48 then 128 else 512

/-- The FIFO of a square. -/
def Chip.stgSq (c : Chip) (q : Nat) : StgSq := sget {} c.stg q

/-- The FIFO of a square set. -/
def Chip.setStg (c : Chip) (q : Nat) (v : StgSq) : Chip := { c with stg := sset {} c.stg q v }

/-- A pointer advanced by n slots: [9:0] the slot, [10] the lap bit (R193). -/
def stgAdvance (q p n : Nat) : Nat :=
  let s := p % 1024 + n
  if s < stgSlots q then p / 1024 * 1024 + s else (1 - p / 1024) * 1024 + (s - stgSlots q)

/-- LAST_ERR takes a discard or error: reason and the FIRST slot (R193). -/
def Chip.stgErr (c : Chip) (q reason ptr : Nat) : Chip :=
  c.setReg (Reg.STG.LAST_ERR q) (BitVec.ofNat 32 (2 ^ 31 + reason * 2 ^ 16 + ptr % 2048))

/-- FREE credits of a FIFO. -/
def Chip.stgFree (c : Chip) (q : Nat) : Nat := c.fldOf (Reg.STG.CREDITS q) 9 0

/-- The tag of a slot (R175). -/
def stgTag (kind : Nat) (first : Bool) (vbc : Nat) (chk : Word) : BitVec 48 :=
  BitVec.ofNat 48 (kind * 2 ^ 46 + (if first then 2 ^ 45 else 0) + vbc * 2 ^ 38 + chk.toNat)

/-- KIND, VBC and CHK of a word's tag; its valid bytes. -/
def StgWord.kind (w : StgWord) : Nat := natBits w.tag.toNat 47 46
def StgWord.vbc (w : StgWord) : Nat := natBits w.tag.toNat 44 38
def StgWord.chk (w : StgWord) : Word := w.tag.setWidth 32
def StgWord.valid (w : StgWord) : List Byte := w.data.take w.vbc

/-- Word i of a record, padded with zero bytes (R174). -/
def stgWordAt (data : List Byte) (i kind : Nat) (chk : Word) : StgWord :=
  let b := (data.drop (64 * i)).take 64
  { data := b ++ List.replicate (64 - b.length) 0, tag := stgTag kind (i = 0) b.length chk }

/-- The words of a whole record: DATA words and a LAST word with the check of R177. -/
def stgWords (data : List Byte) : List StgWord :=
  let n := ceilDiv data.length 64
  (List.range n).map fun i => if i + 1 = n then stgWordAt data i 2 (crc32c data) else stgWordAt data i 1 0

/-- The words that have been written of a record of which these bytes have come in. DEDUCED (log 113): the assembly register goes to its
slot when the next byte finds it full, since only the end of the packet decides between a DATA and a LAST word. -/
def stgPart (data : List Byte) : List StgWord :=
  (List.range ((data.length - 1) / 64)).map fun i => stgWordAt data i 1 0

/-- The ABORT word (R175, R186). -/
def stgAbort : StgWord := { tag := stgTag 3 false 0 0 }

/-- The slots of a packet, its record, the check of its LAST word, and whether it ended with an ABORT word. -/
def stgPktSlots (k : StgPkt) : Nat := k.words.length
def stgPktData (k : StgPkt) : List Byte := k.words.flatMap StgWord.valid
def stgPktChk (k : StgPkt) : Word := match k.words.getLast? with | none => 0 | some w => w.chk
def stgPktAborted (k : StgPkt) : Bool := match k.words.getLast? with | none => false | some w => w.kind = 3

/-- Slots that hold words: those of the packets not yet freed, and of the packet being written (R193). DESIGN CHOICE (log 33): a slot
that is only reserved is not in use. -/
def Chip.stgUsed (c : Chip) (q : Nat) : Nat :=
  let s := c.stgSq q
  (s.pkts.map stgPktSlots).sum + (match s.prog with | none => 0 | some g => g.words.length)

/-- FREE set; HWM follows the slots in use (R184, R193). -/
def Chip.setStgFree (c : Chip) (q n : Nat) : Chip :=
  (c.setFldOf (Reg.STG.CREDITS q) 9 0 n).peak (Reg.STG.HWM q) (c.stgUsed q)

/-- A frame is discarded for want of credits or because the producer is disabled (R182). -/
def Chip.stgDrop (c : Chip) (q reason : Nat) : Chip :=
  ((c.inc (Reg.STG.CREDIT_DROP q)).stgErr q reason 0).raise (pStg q) 1

/-- CTRL.EN, which acts as 0 from the start of an entry into ADJOURNED (R551). -/
def Chip.stgOn (c : Chip) (q : Nat) : Bool := c.bitOf (Reg.STG.CTRL q) 0 && c.power.entering.isNone

/-- The producer may take a frame: enabled, and enough credits free (R182). -/
def Chip.stgAccepts (c : Chip) (q : Nat) : Bool :=
  c.stgOn q && decide (c.stgReserve q ≤ c.stgFree q)

/-- Words of the memory of a FIFO are written whole, which clears what stood uncorrectable in them (R470, R474); the nine code words of a
slot stand together (R469). -/
def Chip.stgWrote (c : Chip) (q : Nat) (slots : List Nat) : Chip :=
  { c with mem := { c.mem with bad := c.mem.bad.filter fun e => !(e.1 / 2 ^ 22 = q && slots.contains (e.1 % 2 ^ 22 / 9)) } }

/-- The packet being written. -/
def Chip.setProg (c : Chip) (q : Nat) (g : Option StgProg) : Chip := c.setStg q { c.stgSq q with prog := g }

/-- The first byte of a frame: credits are reserved, or the frame is discarded (R182). -/
def Chip.stgBegin (c : Chip) (q : Nat) : Chip :=
  if (c.stgSq q).prog.isSome then c
  else if !c.stgOn q then (c.stgDrop q 0x09).setProg q (some { dropped := true })
  else if c.stgFree q < c.stgReserve q then (c.stgDrop q 0x01).setProg q (some { dropped := true })
  else
    let c1 := c.setProg q (some { slot := c.fldOf (Reg.STG.WR_PTR q) 10 0, resv := c.stgReserve q })
    c1.setStgFree q (c.stgFree q - c.stgReserve q)

/-- The pointer of a plane that reads: 0 White, 1 Black. -/
def stgRdReg (x q : Nat) : Nat := if x = 0 then Reg.STG.RD_PTR_W q else Reg.STG.RD_PTR_B q
def Chip.stgRd (c : Chip) (x q : Nat) : Nat := c.fldOf (stgRdReg x q) 10 0
def Chip.setStgRd (c : Chip) (x q p : Nat) : Chip := c.setReg (stgRdReg x q) (BitVec.ofNat 32 p)

/-- The pointers of n slots from p. -/
def stgSpan (q p n : Nat) : List Nat := (List.range n).map fun i => stgAdvance q p i

/-- Words of a packet that plane x has read (R186). -/
def Chip.stgSeenBy (c : Chip) (x q : Nat) (slot n : Nat) : Nat :=
  match ((List.range n).filter fun i => stgAdvance q slot (i + 1) = c.stgRd x q).getLast? with | none => 0 | some i => i + 1

/-- Both planes read the FIFOs: the partner is in lockstep, or joins (R188, R388). -/
def Chip.stgBoth (c : Chip) : Bool := c.lockstep || decide (c.plState c.partner = 6)

/-- A plane reads the FIFOs: it runs, or joins (R388). -/
def Chip.stgReads (c : Chip) (x : Nat) : Bool := c.planeRuns x || decide (c.plState x = 6)

/-- The plane whose reads decide about an ABORT word (R186): White. DEDUCED (log 113): while White does not read, Black. -/
def Chip.stgLeads (c : Chip) (x : Nat) : Bool := decide (x = 0) || !c.stgReads 0

/-- More bytes of a frame have come in (R174, R185): the words that are full are written. -/
def Chip.stgFeed (c : Chip) (q : Nat) (data : List Byte) : Chip :=
  let c1 := c.stgBegin q
  match (c1.stgSq q).prog with
  | none => c1
  | some g =>
    if g.dropped then c1
    else
      let ws := (stgPart data).take (g.resv - 1)
      let c2 := (c1.stgWrote q ((stgSpan q g.slot ws.length).map (· % 1024))).setProg q (some { g with words := ws, asm := data.drop (64 * ws.length) })
      (c2.setReg (Reg.STG.WR_PTR q) (BitVec.ofNat 32 (stgAdvance q g.slot ws.length))).setStgFree q (c2.stgFree q)

/-- A packet's last word is written: it joins the packets, and the reserved credits that it did not use return (R179, R184,
R186). COMMIT_PTR follows a commit only. -/
def Chip.stgPush (c : Chip) (q : Nat) (g : StgProg) (k : StgPkt) (commit : Bool) : Chip :=
  let p' := BitVec.ofNat 32 (stgAdvance q g.slot k.words.length)
  let s := c.stgSq q
  let c0 := c.stgWrote q ((stgSpan q g.slot k.words.length).map (· % 1024))
  let c1 := (c0.setStg q { s with pkts := s.pkts ++ [{ k with head := g.head, gone := g.gone }], prog := none }).setReg (Reg.STG.WR_PTR q) p'
  (if commit then c1.setReg (Reg.STG.COMMIT_PTR q) p' else c1).setStgFree q (c.stgFree q + g.resv - k.words.length)

/-- The word that a plane's read returned. -/
def Chip.stgGave (c : Chip) (x q : Nat) (w : StgWord) : Chip :=
  c.setStg q (if x = 0 then { c.stgSq q with readW := w } else { c.stgSq q with readB := w })

/-- A plane that read a word of a packet in the core cycle in which it vanishes has read the idle item (R186). -/
def Chip.stgUnread (c : Chip) (x q : Nat) (g : StgProg) : Chip :=
  if 0 < c.stgSeenBy x q g.slot g.words.length then (c.setStgRd x q g.slot).stgGave x q {} else c

/-- A packet vanishes: the write pointer goes back to its FIRST slot, and its credits return (R180, R181). -/
def Chip.stgRewind (c : Chip) (q : Nat) (g : StgProg) : Chip :=
  ((((c.stgUnread 0 q g).stgUnread 1 q g).setProg q none).setReg (Reg.STG.WR_PTR q) (BitVec.ofNat 32 g.slot)).setStgFree q (c.stgFree q + g.resv)

/-- Words of an uncommitted packet that its planes can have read (R185): none on CAN and T1S, with CT_EN 0, or before CT_WORDS words
have been written. DEDUCED (log 113): the first CT_WORDS words become readable together. -/
def Chip.stgOpen (c : Chip) (q n : Nat) : Bool :=
  48 ≤ q && c.bitOf (Reg.STG.CTRL q) 1 && decide (c.fldOf (Reg.STG.CTRL q) 6 4 ≤ n)

/-- The frame had been read cut-through: a word of it in an earlier core cycle, or, where it came in whole, as the command says of words
that could be read (R185, R186). -/
def Chip.stgEarly (c : Chip) (q : Nat) (g : StgProg) (n : Nat) (early : Bool) : Bool :=
  (early && c.stgOpen q n) || (match g.seen with | some t => decide (t < c.now) | none => false)

/-- The frame whose wire time ends now was coming in when the FIFO was flushed (R190). -/
def Chip.stgFlushed (c : Chip) (q wire : Nat) : Bool :=
  (c.stgSq q).prog.isNone && (match (c.stgSq q).flushAt with | some t => decide (c.now < t + wire) | none => false)

/-- The commit of a record (R179, R181, R182); `early` says that a plane had read a word of it before its end. -/
def Chip.stgCommit (c : Chip) (q : Nat) (data : List Byte) (wire : Nat) (early : Bool) : Chip :=
  if c.stgFlushed q wire then c else
  let c1 := c.stgBegin q
  match (c1.stgSq q).prog with
  | none => c1
  | some g =>
    if g.dropped then c1.setProg q none
    else if data.isEmpty then (((c1.stgRewind q g).inc (Reg.STG.ZERO_COMMIT q)).stgErr q 0x04 g.slot).raise (pStg q) 2
    else
      let ws := stgWords data
      (c1.stgPush q g { slot := g.slot, words := ws, early := g.seen.isSome || c1.stgEarly q g (stgPart data).length early, wire := wire } true).inc
        (Reg.STG.PKT_CNT q)

/-- The rejection of an uncommitted packet (R180, R186): an ABORT word when White had read a word of it in an earlier core cycle,
otherwise the packet is rewound and vanishes. -/
def Chip.stgReject (c : Chip) (q : Nat) (data : List Byte) (early : Bool) : Chip :=
  let c1 := c.stgBegin q
  match (c1.stgSq q).prog with
  | none => c1
  | some g =>
    if g.dropped then c1.setProg q none
    else
      let ws := (stgPart data).take (g.resv - 1)
      if c1.stgEarly q g ws.length early then
        (((c1.stgPush q g { slot := g.slot, words := ws ++ [stgAbort], early := true } false).inc (Reg.STG.ABORT_CNT q)).stgErr q 0x03 g.slot).raise (pStg q) 0
      else ((c1.stgRewind q g).inc (Reg.STG.REWIND_CNT q)).stgErr q 0x02 g.slot

/-- A frame that was coming in is lost before its end: its packet is rejected. -/
def Chip.stgLose (c : Chip) (q : Nat) : Chip :=
  match (c.stgSq q).prog with
  | none => c
  | some g => c.stgReject q (g.words.flatMap StgWord.valid ++ g.asm) false

/-- Every word visible to the planes, by its pointer (R179, R185). -/
def Chip.stgVisible (c : Chip) (q : Nat) : List (Nat × StgWord) :=
  let s := c.stgSq q
  let of (p : Nat) (ws : List StgWord) : List (Nat × StgWord) := (stgSpan q p ws.length).zip ws
  (s.pkts.flatMap fun k => of k.slot k.words) ++
    (match s.prog with | some g => if c.stgOpen q g.words.length then of g.slot g.words else [] | none => [])

/-- MARK (R188): the plane's mark is its read pointer. -/
def Chip.stgMark (c : Chip) (x q : Nat) : Chip :=
  if x = 0 then (c.setBitOf (Reg.STG.MARK_STAT q) 31 true).setFldOf (Reg.STG.MARK_STAT q) 10 0 (c.stgRd 0 q)
  else (c.setBitOf (Reg.STG.MARK_STAT q) 30 true).setStg q { c.stgSq q with markB := c.stgRd 1 q }

/-- A plane's mark, while it is valid. -/
def Chip.stgMarkOf (c : Chip) (x q : Nat) : Option Nat :=
  if !c.bitOf (Reg.STG.MARK_STAT q) (31 - x) then none
  else some (if x = 0 then c.fldOf (Reg.STG.MARK_STAT q) 10 0 else (c.stgSq q).markB)

/-- The plane is still to meet the ABORT word of a packet that was flushed while it read it cut-through (R190). -/
def StgSq.cutOf (s : StgSq) (x : Nat) : Bool := if x = 0 then s.cutW else s.cutB

/-- It has met it. -/
def StgSq.cutMet (s : StgSq) (x : Nat) : StgSq := if x = 0 then { s with cutW := false } else { s with cutB := false }

/-- A word of the packet that is being written has been read by the plane that decides (R186). -/
def Chip.stgSaw (c : Chip) (x q p : Nat) : Chip :=
  match (c.stgSq q).prog with
  | none => c
  | some g =>
    if c.stgLeads x && (stgSpan q g.slot g.words.length).contains p then c.setProg q (some { g with seen := some (g.seen.getD c.now) }) else c

/-- A read of one word (R185, R187): the word at the read pointer, or the idle item, which leaves the pointer. After a flush the
plane that was reading a packet cut-through meets the ABORT word, once (R190). -/
def Chip.stgReadWord (c : Chip) (x q : Nat) : Chip :=
  if (c.stgSq q).cutOf x then (c.setStg q ((c.stgSq q).cutMet x)).stgGave x q stgAbort
  else
    match (c.stgVisible q).find? (fun e => e.1 = c.stgRd x q) with
    | none => c.stgGave x q {}
    | some e => ((c.stgGave x q e.2).setStgRd x q (stgAdvance q e.1 1)).stgSaw x q e.1

/-- The first slot of the next committed packet (R189): that of the oldest packet, of the packet being written, or the one where the
next is written. -/
def Chip.stgNext (c : Chip) (q : Nat) : Nat :=
  match (c.stgSq q).pkts, (c.stgSq q).prog with
  | k :: _, _ => k.slot
  | [], some g => if g.dropped then c.fldOf (Reg.STG.WR_PTR q) 10 0 else g.slot
  | [], none => c.fldOf (Reg.STG.WR_PTR q) 10 0

/-- REWIND (R188, R189): to a valid mark; a plane whose mark was lost abandons the packet. DESIGN CHOICE (log 33): with no mark valid
and none lost, a REWIND does nothing. -/
def Chip.stgBack (c : Chip) (x q : Nat) : Chip :=
  let s := c.stgSq q
  match c.stgMarkOf x q with
  | some p => c.setStgRd x q p
  | none =>
    if x = 0 && s.lostW then (c.setStgRd 0 q (c.stgNext q)).setStg q { s with lostW := false, cut := none, cutW := false }
    else if x = 1 && s.lostB then (c.setStgRd 1 q (c.stgNext q)).setStg q { s with lostB := false, cut := none, cutB := false }
    else c

/-- RELEASE by one plane of the oldest n packets (R188): its mark inside them ends, and a read pointer still inside them moves behind
them. -/
def Chip.stgReleaseBy (c : Chip) (x q n : Nat) : Chip :=
  let s := c.stgSq q
  let ks := s.pkts.take n
  let span := ks.flatMap fun k => stgSpan q k.slot k.words.length
  let stop := match ks.getLast? with | none => c.stgRd x q | some k => stgAdvance q k.slot k.words.length
  let c1 := c.setStg q (if x = 0 then { s with relW := Nat.max s.relW ks.length } else { s with relB := Nat.max s.relB ks.length })
  let c2 := match c1.stgMarkOf x q with
    | some p => if span.contains p then c1.setBitOf (Reg.STG.MARK_STAT q) (31 - x) false else c1
    | none => c1
  if span.contains (c2.stgRd x q) then c2.setStgRd x q stop else c2

/-- The slots of the oldest n packets become free, and their credits return (R188). -/
def Chip.stgFreeUp (c : Chip) (q n : Nat) : Chip :=
  let s := c.stgSq q
  match (s.pkts.take n).getLast? with
  | none => c
  | some k =>
    let c1 := c.setStg q { s with pkts := s.pkts.drop n, relW := s.relW - n, relB := s.relB - n }
    (c1.setReg (Reg.STG.REL_PTR q) (BitVec.ofNat 32 (stgAdvance q k.slot k.words.length))).setFldOf
      (Reg.STG.CREDITS q) 9 0 (c1.stgFree q + ((s.pkts.take n).map stgPktSlots).sum)

/-- Packets that a plane has released. -/
def Chip.stgRelOf (c : Chip) (x q : Nat) : Nat := if x = 0 then (c.stgSq q).relW else (c.stgSq q).relB

/-- Slots become free when both planes, or the one that runs alone, have released them (R188). -/
def Chip.stgSettle (c : Chip) (q : Nat) : Chip :=
  c.stgFreeUp q (if c.stgBoth then Nat.min (c.stgRelOf 0 q) (c.stgRelOf 1 q) else c.stgRelOf c.move q)

/-- A plane that is retired reads no more (R188): DEDUCED (log 113): its marks end, and what the other plane has released becomes
free. -/
def Chip.stgRetire (c : Chip) (x : Nat) : Chip :=
  (List.range 64).foldl (fun (c : Chip) q => (c.setBitOf (Reg.STG.MARK_STAT q) (31 - x) false).stgSettle q) c

/-- Plane x takes its pointers, its mark and its releases at one FIFO from the other plane (R191, R192). -/
def Chip.stgServe (c : Chip) (x q : Nat) : Chip :=
  let s := c.stgSq q
  let c1 := c.setStgRd x q (c.stgRd (1 - x) q)
  if x = 0 then
    ((c1.setBitOf (Reg.STG.MARK_STAT q) 31 (c1.bitOf (Reg.STG.MARK_STAT q) 30)).setFldOf (Reg.STG.MARK_STAT q) 10 0 s.markB).setStg q
      { s with relW := s.relB, lostW := s.lostB, readW := s.readB, cutW := s.cutB }
  else
    (c1.setBitOf (Reg.STG.MARK_STAT q) 30 (c1.bitOf (Reg.STG.MARK_STAT q) 31)).setStg q
      { s with relB := s.relW, lostB := s.lostW, readB := s.readW, markB := c1.fldOf (Reg.STG.MARK_STAT q) 10 0, cutB := s.cutW }

/-- A plane that joins takes all of it from the plane that has the move (R192). -/
def Chip.stgJoin (c : Chip) (x : Nat) : Chip := (List.range 64).foldl (fun (c : Chip) q => c.stgServe x q) c

/-- The marks that a flush or a square reset overtakes (R189). DEDUCED (log 113): each plane's mark counts. -/
def Chip.stgMarksLost (c : Chip) (q : Nat) : Chip :=
  let w := c.bitOf (Reg.STG.MARK_STAT q) 31
  let b := c.bitOf (Reg.STG.MARK_STAT q) 30
  if !w && !b then c else
  let c1 := (c.setFldOf (Reg.STG.MARK_STAT q) 31 30 0).setBitOf (Reg.STG.MARK_STAT q) 29 true
  let c2 := c1.setStg q { c1.stgSq q with lostW := w, lostB := b }
  ((c2.addTo (Reg.STG.MARK_LOST_CNT q) ((if w then 1 else 0) + (if b then 1 else 0))).stgErr q 0x07
    (if w then c.fldOf (Reg.STG.MARK_STAT q) 10 0 else (c.stgSq q).markB)).raise (pStg q) 4

/-- Every pointer at the write pointer, every credit free, no packet (R190, R192). -/
def Chip.stgClear (c : Chip) (q : Nat) : Chip :=
  let w := c.reg (Reg.STG.WR_PTR q)
  let c1 := (((c.setReg (Reg.STG.COMMIT_PTR q) w).setReg (Reg.STG.RD_PTR_W q) w).setReg (Reg.STG.RD_PTR_B q) w).setReg (Reg.STG.REL_PTR q) w
  (c1.setFldOf (Reg.STG.CREDITS q) 9 0 (stgSlots q)).setStg q {}

/-- The packet that a plane is reading cut-through, as it ends at a flush: the words read so far and an ABORT word (R190); one that has
been classified counts as read. With it, whether White and Black are within it. -/
def Chip.stgCut (c : Chip) (q : Nat) : Option (StgPkt × Bool × Bool) :=
  let s := c.stgSq q
  let cand : List StgPkt := ((s.pkts.filter fun k => k.early).map fun k => { k with words := k.words.dropLast }) ++
    (match s.prog with | some g => [{ slot := g.slot, words := g.words, head := g.head, gone := g.gone }] | none => [])
  let of (k : StgPkt) : Nat × Nat × Nat :=
    let w := c.stgSeenBy 0 q k.slot k.words.length
    let b := c.stgSeenBy 1 q k.slot k.words.length
    (w, b, if k.head.isSome then k.words.length else Nat.max w b)
  (cand.find? fun k => !k.gone && decide (0 < (of k).2.2)).map fun k =>
    ({ k with words := k.words.take (of k).2.2 ++ [stgAbort], early := true }, decide (0 < (of k).1), decide (0 < (of k).2.1))

/-- A flush (R189, R190): committed packets discarded and counted, marks invalid, a packet read cut-through ended, the frame that
comes in discarded to its end, pointers equal, FREE the full credit count. -/
def Chip.stgFlushAll (c : Chip) (q : Nat) : Chip :=
  let s := c.stgSq q
  let cut := c.stgCut q
  let c1 := c.addTo (Reg.STG.FLUSH_DROP q) (s.pkts.filter fun k => !stgPktAborted k).length
  let c2 := match s.prog, s.pkts.getLast? with
    | some g, _ => if g.dropped then c1 else c1.stgErr q 0x08 g.slot
    | none, some k => c1.stgErr q 0x08 k.slot
    | none, none => c1
  let c3 := c2.stgMarksLost q
  let t := c3.stgSq q
  (c3.stgClear q).setStg q { lostW := t.lostW, lostB := t.lostB, readW := t.readW, readB := t.readB, cut := cut.map (·.1),
                             cutW := cut.any (·.2.1), cutB := cut.any (·.2.2), prog := s.prog.map (fun _ => { dropped := true }),
                             flushAt := some c.now }

/-- STG_FLUSH (R190): partition k writes FLUSH of square q. -/
def doStgFlush (k q : Nat) (v : Word) (c : Chip) : Chip :=
  if 64 ≤ q then c else
  c.blockWrite k (Reg.STG.FLUSH q) v 0xFFFFFFFF fun c => if fld v 15 0 = 0x464C then c.stgFlushAll q else c

/-- STG_HWM_READ (R193): the owner's read returns the peak use and restarts it at the current use. -/
def doStgHwmRead (k q : Nat) (seen : Bool) (c : Chip) : Chip :=
  if 64 ≤ q then c else
  c.volatileRead k (Reg.STG.HWM q) seen (c.reg (Reg.STG.HWM q)) fun c =>
    c.setReg (Reg.STG.HWM q) (BitVec.ofNat 32 (c.stgUsed q))

/-- STG_LAST_ERR_READ (R193): the owner's read returns the last discard and clears it. -/
def doStgLastErrRead (k q : Nat) (seen : Bool) (c : Chip) : Chip :=
  if 64 ≤ q then c else
  c.volatileRead k (Reg.STG.LAST_ERR q) seen (c.reg (Reg.STG.LAST_ERR q)) fun c => c.setReg (Reg.STG.LAST_ERR q) 0

/-- The reset of a staging FIFO: flushed, wiped, its registers at their reset values (R192). -/
def Chip.stgReset (c : Chip) (q : Nat) : Chip := ((c.stgFlushAll q).stgWrote q (List.range (stgSlots q))).resetPage (pStg q)

end Sys2Proof.Machine
end

