-- ==== Sys2Proof/Machine/Fabric.lean ====
section
/-! DEFINITION. Chapter 11: the Tour fabric and buffer management. Cells are 64-byte pieces of a copy; a copy holds its
record once, and the fabric counts how many of its cells stand where. -/

/-
MARKS of the model choices coded here; the log rows say each in full.
DESIGN CHOICE (log 31, unsafe): credit-based shaping: the units and the limits of the credit.
DESIGN CHOICE (log 39, unsafe): outputs 68 to 71, and the header of a sampled frame that had no action.
DESIGN CHOICE (log 48, unsafe): the fabric: order of launch, the ager, and which cells a pool has.
DESIGN CHOICE (log 49, unsafe): a pool shrinks at once when its cells are retired.
DESIGN CHOICE (log 94, unsafe): Ethernet: link corner cases and field values outside their ranges.
DESIGN CHOICE (log 101, unsafe): the fabric: HOLD_RECLAIM and the minima.
DEDUCED (log 114, unsafe): a frame without room in the pool, and a cell that the Adjudicator still holds.
-/

namespace Sys2Proof.Machine

/-- The fabric's copies set. -/
def Chip.setCopies (c : Chip) (l : List Copy) : Chip := { c with fab := { c.fab with copies := l } }

/-- A copy replaced by itself changed. -/
def Chip.modCopy (c : Chip) (id : Nat) (f : Copy → Copy) : Chip :=
  c.setCopies (c.fab.copies.map fun k => if k.id = id then f k else k)

/-- A copy removed from the fabric; its egress cells return with it (R347). -/
def Chip.delCopy (c : Chip) (id : Nat) : Chip := c.setCopies (c.fab.copies.filter fun k => k.id != id)

/-- A copy by its number. -/
def Chip.copy? (c : Chip) (id : Nat) : Option Copy := c.fab.copies.find? fun k => k.id = id

/-- A copy has ended. Where cells of it are still to be launched or on their way, those are launched and discarded as they arrive
(R345, R346); it holds no egress cells any more. -/
def Chip.dropRest (c : Chip) (id : Nat) : Chip :=
  match c.copy? id with
  | none => c
  | some k =>
    if k.sent = 0 || (k.sent = k.cells && k.arrived = k.cells) then c.delCopy id
    else (c.delCopy id).setCopies ({ k with appended := false, discarded := true, ct := false, egr := 0, txCells := 0 } :: (c.delCopy id).fab.copies)

/-- The fabric port whose output side serves an output (R326). -/
def outPort (o : Nat) : Nat := if o < 64 then o / 8 else if o < 68 then o - 56 else o - 56

/-- The flow of R340: input port, output and class. -/
def flowOf (i o cls : Nat) : Nat := (i * 128 + o) * 8 + cls
def Copy.flow (k : Copy) : Nat := flowOf k.input k.output k.cls

/-- Cells of the packet buffer retired in the ingress pool of n cells (R480): the ingress pool is the lower part. -/
def Chip.retiredBelow (c : Chip) (n : Nat) : Nat := 64 * (c.mem.alloc.filter fun g => decide (g * 64 < n)).length

/-- The two pools in cells for a SPLIT, less the cells retired within them (R332, R480). -/
def Chip.ingPoolOf (c : Chip) (split : Nat) : Nat := split * 4096 - c.retiredBelow (split * 4096)
def Chip.egrPoolOf (c : Chip) (split : Nat) : Nat := 262144 - split * 4096 - (64 * c.mem.alloc.length - c.retiredBelow (split * 4096))

/-- The two pools in force. -/
def Chip.ingPool (c : Chip) : Nat := c.ingPoolOf (c.fldOf Reg.BUF.SPLIT 5 0)
def Chip.egrPool (c : Chip) : Nat := c.egrPoolOf (c.fldOf Reg.BUF.SPLIT 5 0)

/-- A frame's cells stay in the ingress pool until every admitted copy has launched its LAST cell or is gone (R337). -/
def Chip.liveFrames (c : Chip) : List (Nat × FrameCharge) :=
  c.fab.frames.filter fun f => c.fab.copies.any fun k => k.frame == f.1 && decide (k.sent < k.cells)

/-- Egress cells that a copy holds: once its controller has begun with it, those that the Adjudicator has released have gone to the
controller and are back in the pool (R347). -/
def Copy.egrHeld (k : Copy) : Nat := if k.txCells = 0 then k.egr else k.egr - k.compared

/-- Cells in use in the ingress and the egress pool. -/
def Chip.ingUsed (c : Chip) : Nat := (c.fab.frames.map fun f => f.2.cells).sum
def Chip.egrUsed (c : Chip) : Nat := (c.fab.copies.map fun k => k.egrHeld).sum

/-- Free cells of the pools. -/
def Chip.ingFree (c : Chip) : Nat := c.ingPool - c.ingUsed
def Chip.egrFree (c : Chip) : Nat := c.egrPool - c.egrUsed

/-- Shared free counts: free cells without the unused class 7 reserve (R333). -/
def Chip.ingShared (c : Chip) : Nat :=
  c.ingFree - (c.fldOf Reg.BUF.EXP_IRES 17 0 - (c.fab.frames.map fun f => if f.2.express then f.2.cells else 0).sum)
def Chip.egrShared (c : Chip) : Nat :=
  c.egrFree - (c.fldOf Reg.BUF.EXP_ERES 17 0 - (c.fab.copies.map fun k => if k.cls = 7 then k.egrHeld else 0).sum)

/-- A minimum register follows a free count. -/
def Chip.low (c : Chip) (a n : Nat) : Chip := if n < c.fldOf a 17 0 then c.setReg a (BitVec.ofNat 32 n) else c

/-- After any change of the pools: charges of finished frames return, ING_FREE, EGR_FREE and their minima follow, and
falling below DE_FREE raises ING_LOW and EGR_LOW (R337, R359). -/
def Chip.fabDone (before c : Chip) : Chip :=
  let c1 := { c with fab := { c.fab with frames := c.liveFrames } }
  let c2 := (c1.setReg Reg.BUF.ING_FREE (BitVec.ofNat 32 c1.ingFree)).setReg Reg.BUF.EGR_FREE (BitVec.ofNat 32 c1.egrFree)
  let c3 := (c2.low Reg.BUF.ING_MIN c1.ingFree).low Reg.BUF.EGR_MIN c1.egrFree
  let de := c.fldOf Reg.BUF.DE_FREE 17 0
  let c4 := if c1.ingShared < de && de ≤ before.ingShared then c3.raise 0x041 4 else c3
  if c1.egrShared < de && de ≤ before.egrShared then c4.raise 0x041 3 else c4

/-- The Ethernet controller of a square. -/
def Chip.ethSq (c : Chip) (q : Nat) : EthSq := sget {} c.eth q

/-- The Ethernet controller of a square set. -/
def Chip.setEth (c : Chip) (q : Nat) (v : EthSq) : Chip := { c with eth := sset {} c.eth q v }

/-- An output is an Ethernet square. -/
def isEth (q : Nat) : Bool := 40 ≤ q && q < 64

/-- An Ethernet square is in HOLD (R163). -/
def Chip.inHold (c : Chip) (o : Nat) : Bool := isEth o && c.bitOf (Reg.ETH.STATUS o) 1

/-- The square records its last discarded frame (R171). -/
def Chip.lastDrop (c : Chip) (q cls reason : Nat) : Chip :=
  c.setReg (Reg.ETH.LAST_DROP q) (BitVec.ofNat 32 (2 ^ 31 + cls % 8 * 2 ^ 24 + reason))

/-- A frame discarded under HOLD (R163): reason 7 express, 8 stale. -/
def Chip.holdDrop (c : Chip) (q cls reason : Nat) : Chip := (c.inc (Reg.ETH.HOLD_DROP q)).lastDrop q cls reason

/-- A held frame flushed (R163, R164). -/
def Chip.holdFlushCount (c : Chip) (q cls : Nat) : Chip := (c.inc (Reg.ETH.HOLD_FLUSH q)).lastDrop q cls 9

/-- Cells of a VOQ (R334, R336): the reservations of its copies less the cells already launched, those of a cut-through copy that has been
appended before its LAST cell among them. -/
def Chip.voqCells (c : Chip) (i o cls : Nat) : Nat :=
  (c.fab.copies.map fun k => if k.input = i && k.output = o && k.cls = cls && decide (k.sent < k.cells) then k.resv - k.sent else 0).sum

/-- ALPHA of a class: 1-128 eighths, 0 acts as 1 (R359). -/
def Chip.alpha (c : Chip) (cls : Nat) : Nat := clampNat 1 128 (c.fldOf (Reg.BUF.ALPHA cls) 7 0)

/-- The ingress pool has room for the frame of a copy, whose cells are charged with its first admitted copy (R333, R336). -/
def Chip.ingRoom (c : Chip) (k : Copy) : Bool := c.fab.frames.any (fun f => f.1 = k.frame) || decide (k.resv ≤ c.ingShared)

/-- What admission does with one copy (R336): admitted, or refused with the count it leaves. DEDUCED (R333, log 114): a copy whose frame has no
room in what its class may use is refused at step 4 as well. -/
def Chip.voqRefuse (c : Chip) (k : Copy) : Option Chip :=
  if c.inHold k.output && k.cls = 7 then some (c.holdDrop k.output 7 7)
  else if isEth k.output && (c.ethSq k.output).holdExpired then some (c.inc Reg.BUF.DOWN_DROP)
  else if k.cls = 7 && k.resv ≤ c.ingFree then none
  else if k.de && c.ingShared < c.fldOf Reg.BUF.DE_FREE 17 0 then some (c.inc Reg.BUF.DE_DROP)
  else if c.fldOf (Reg.BUF.VOQ_MAX k.cls) 17 0 < c.voqCells k.input k.output k.cls + k.resv
      || c.alpha k.cls * c.ingShared < 8 * (c.voqCells k.input k.output k.cls + k.resv) || !c.ingRoom k then
    some (if k.mirror then c.inc Reg.BUF.MIRROR_DROP
      else if k.cls = 7 then c.incRaise (Reg.BUF.ADMIT_DROP 7) 0x041 0 else c.inc (Reg.BUF.ADMIT_DROP k.cls))
  else none

/-- A frame's cells are charged to the ingress pool once (R336); its square and its flow-control class stay with the charge (R351). -/
def chargeFrame (fs : List (Nat × FrameCharge)) (sq : Option Nat) (pcls : Nat) (k : Copy) : List (Nat × FrameCharge) :=
  if fs.any (fun f => f.1 = k.frame) then
    fs.map fun f => if f.1 = k.frame then (f.1, { f.2 with cells := Nat.max f.2.cells k.resv, express := f.2.express || decide (k.cls = 7) }) else f
  else fs ++ [(k.frame, { cells := k.resv, sq := sq, pcls := pcls, express := decide (k.cls = 7) })]

/-- VOQ_ADMISSION of one copy (R336). -/
def Chip.voqAdmit (c : Chip) (sq : Option Nat) (pcls : Nat) (k : Copy) : Chip :=
  match c.voqRefuse k with
  | some c' => c'
  | none =>
    let k' : Copy := { k with id := c.fab.nextId, held := c.inHold k.output }
    { c with fab := { c.fab with copies := c.fab.copies ++ [k'], nextId := c.fab.nextId + 1, frames := chargeFrame c.fab.frames sq pcls k } }

/-- The number of cells of a record (R327): Ethernet records count without their first 16 bytes. -/
def recordCells (kind : RecKind) (data : List Byte) : Nat :=
  match kind with
  | .eth => Nat.max 1 (ceilDiv (data.length - 16) 64)
  | _ => Nat.max 1 (ceilDiv data.length 64)

/-- A copy as it comes to admission (R335): its reservation is its cells, or for a cut-through copy what its frame could take at most. -/
def Copy.sized (k : Copy) (frame : Nat) : Copy :=
  let n := recordCells k.kind k.data
  { k with frame := frame, cells := n, resv := if k.ct then Nat.max n k.resv else n }

/-- The copies of one frame are checked and enqueued in order (R334, R336). -/
def Chip.enqueueFrame (c : Chip) (sq : Option Nat) (pcls : Nat) (copies : List Copy) : Chip :=
  let f := c.fab.nextFrame
  let c1 := copies.foldl (fun (c : Chip) (k : Copy) => c.voqAdmit sq pcls (k.sized f)) c
  Chip.fabDone c { c1 with fab := { c1.fab with nextFrame := f + 1 } }

/-- Residence beyond MAX_RES of the class (R348, R349). -/
def Chip.residenceOver (c : Chip) (k : Copy) : Bool :=
  let m := c.fldOf (Reg.BUF.MAX_RES k.cls) 15 0
  decide ((if m = 0 then 65535 else m) * 1000 < c.ns - k.entry)

/-- The freshness deadline has passed. -/
def Chip.pastDeadline (c : Chip) (k : Copy) : Bool :=
  match k.deadline with
  | none => false
  | some d => decide (d < c.ns)

/-- A copy discarded for its residence (R349, R164). -/
def Chip.resDrop (c : Chip) (k : Copy) : Chip :=
  if k.held && isEth k.output then ((c.delCopy k.id).inc (Reg.ETH.HOLD_RES_DROP k.output)).lastDrop k.output k.cls 0x0A
  else (c.delCopy k.id).incRaise Reg.BUF.RES_DROP 0x041 1

/-- A copy discarded at its egress queue because its deadline has passed: the square counts it (R107, R152, R349). -/
def Chip.staleDrop (c : Chip) (k : Copy) : Chip :=
  let c1 := c.delCopy k.id
  if k.output < 40 then c1.incRaise (Reg.CAN.STALE_CNT k.output) (pSq k.output) 16
  else if k.output < 64 then (c1.incRaise (Reg.ETH.STALE_CNT k.output) (pSq k.output) 7).lastDrop k.output k.cls 6
  else c1.inc Reg.BUF.DL_DROP

/-- The egress pool grants a copy its cells (R338). -/
def Chip.mayGrant (c : Chip) (k : Copy) : Bool :=
  let used := (c.fab.copies.map fun j => if j.output = k.output && j.cls = k.cls then j.egrHeld else 0).sum
  used + k.resv ≤ c.fldOf (Reg.BUF.EGR_MAX k.cls) 17 0
    && (if k.cls = 7 then k.resv ≤ c.egrFree else k.resv ≤ c.egrShared)

/-- The head copy of a VOQ. -/
def Chip.voqHead (c : Chip) (i o cls : Nat) : Option Copy :=
  c.fab.copies.find? fun k => !k.appended && k.input = i && k.output = o && k.cls = cls && decide (k.sent < k.cells)

/-- The copies that input i could send a cell of in one class (R339): the copy in progress, otherwise the heads of the
VOQs in round robin after the VOQ served last. -/
def Chip.launchClass (c : Chip) (i cls : Nat) : List Copy :=
  match c.fab.copies.find? (fun k => k.input = i && k.cls = cls && decide (0 < k.sent) && decide (k.sent < k.cells)) with
  | some k => [k]
  | none =>
    let last := sget 71 c.fab.rr (i * 8 + cls)
    ((List.range 72).map fun n => (last + 1 + n) % 72).filterMap fun o => c.voqHead i o cls

/-- All candidates of input i, the highest class first. -/
def Chip.launchOrder (c : Chip) (i : Nat) : List Copy := (List.range 8).reverse.flatMap fun cls => c.launchClass i cls

/-- Effective MID_LIM (R341). -/
def Chip.midLim (c : Chip) : Nat := clampNat 16 208 (c.fldOf Reg.FAB.MID_LIM 7 0)

/-- The LAST cell of a frame is known: what its copies' reservations do not use returns to both pools (R335). -/
def Chip.lastKnown (c : Chip) (k : Copy) : Chip :=
  { c with fab := { c.fab with
      frames := c.fab.frames.map fun f => if f.1 = k.frame then (f.1, { f.2 with cells := k.cells }) else f,
      copies := c.fab.copies.map fun j => if j.frame = k.frame then { j with resv := j.cells, egr := Nat.min j.egr j.cells } else j } }

/-- The cell that a copy sends next enters middle m (R328, R340): it takes its SEQ, and with the LAST cell the unused
reservation returns. -/
def Chip.launchCell (c : Chip) (k : Copy) (m : Nat) (kept : Bool) : Chip :=
  let seq := sget 0 c.fab.seqOut k.flow
  let cell : MidCell := { mid := m, port := outPort k.output, copy := k.id, cls := k.cls, flow := k.flow, seq := seq, launched := c.fab.tour }
  let c1 := { c with fab := { c.fab with
      mids := if kept then c.fab.mids ++ [cell] else c.fab.mids,
      seqOut := sset 0 c.fab.seqOut k.flow ((seq + 1) % 2 ^ 18),
      rr := sset 71 c.fab.rr (k.input * 8 + k.cls) k.output } }
  let c2 := c1.modCopy k.id fun k => { k with
    granted := true, sent := k.sent + 1, firstSeq := if k.sent = 0 then seq else k.firstSeq,
    egr := if k.sent = 0 then k.resv else k.egr }
  if k.sent + 1 = k.cells then c2.lastKnown k else c2

/-- The cell that a middle sent to a port: the first of the highest class that was selectable in slot s (R329, R341). -/
def Chip.midPick (c : Chip) (m port s : Nat) : Option MidCell :=
  let ready := c.fab.mids.filter fun x => x.mid = m && x.port = port && x.launched + 5 ≤ s
  ((List.range 8).reverse.filterMap fun cls => ready.find? fun x => x.cls = cls).head?

/-- The cells that have left middle m for their port and have not reached it yet: those of its connections in the last four slots (R329). -/
def Chip.midLeft (c : Chip) (m : Nat) : List MidCell :=
  [1, 2, 3, 4].filterMap fun d =>
    let s := c.fab.tour - d
    let port := (s + 16 - m) % 16
    if c.fab.tour < d || (d = 4 && sget 0 c.fab.takenAt port = c.fab.tour + 1) then none else c.midPick m port s

/-- The cells that wait in middle m. -/
def Chip.midHere (c : Chip) (m : Nat) : List MidCell :=
  let left := c.midLeft m
  c.fab.mids.filter fun x => x.mid = m && !left.contains x

/-- Input i sends one cell to middle m, from the first candidate that can send (R338, R339, R341, R342, R349). DESIGN CHOICE
(log 48): a middle that class 7 has filled under an earlier MID_LIM takes no cell of a lower class either. -/
def Chip.launchFirst (c : Chip) (m : Nat) : List Copy → Chip
  | [] => c
  | k :: rest =>
    if k.sent = 0 && c.residenceOver k then ((c.delCopy k.id).incRaise Reg.BUF.RES_DROP 0x041 1).launchFirst m rest
    else if k.sent = 0 && c.pastDeadline k then ((c.delCopy k.id).inc Reg.BUF.DL_DROP).launchFirst m rest
    else if k.sent = 0 && !c.mayGrant k then c.launchFirst m rest
    else
      let here := c.midHere m
      let low := (here.filter fun x => x.port = outPort k.output && x.cls < 7).length
      let high := (here.filter fun x => x.cls = 7).length
      if k.cls < 7 then
        (if c.midLim ≤ low || 4096 ≤ here.length then (c.inc Reg.FAB.MID_SKIP).launchFirst m rest else c.launchCell k m true)
      else if 4096 - 16 * c.midLim ≤ high || 4096 ≤ here.length then (c.launchCell k m false).incRaise Reg.FAB.EXP_MID_DROP 0x040 0
      else
        let c1 := c.launchCell k m true
        let n := ((here.filter fun x => x.port = outPort k.output && x.cls = 7).length) + 1
        c1.peak Reg.FAB.EXP_MID_MAX (Nat.min 1023 n)

/-- Flow-control channels of a square: 8 for the link in PAUSE mode, 0-7 the classes enabled for sending in PFC mode
(R140, R143). -/
def Chip.fcChannels (c : Chip) (q : Nat) : List Nat :=
  if c.fldOf (Reg.ETH.CTRL q) 9 8 = 1 then [8]
  else if c.fldOf (Reg.ETH.CTRL q) 9 8 = 2 then (List.range 8).filter fun p => c.bitOf (Reg.ETH.FC_CFG q) p
  else []

/-- Ingress pool cells of frames from square q in one flow-control channel (R351). -/
def Chip.fcCells (c : Chip) (q ch : Nat) : Nat :=
  (c.fab.frames.map fun f => if f.2.sq = some q && (ch = 8 || f.2.pcls = ch) then f.2.cells else 0).sum

/-- What a square puts on its line: nothing under LOOP, whose frames are received internally and not sent (R171). -/
def Chip.lineOut (c : Chip) (q : Nat) (o : Out) : Chip := if c.bitOf (Reg.ETH.CTRL q) 2 then c else c.emit o

/-- A pause frame of one channel, with its time in quanta, waits for the next transmission opportunity (R143, R150). One that
still waits for the same channel is replaced. -/
def Chip.sendPause (c : Chip) (q ch quanta : Nat) : Chip :=
  let e := c.ethSq q
  c.setEth q { e with pausePend := e.pausePend.filter (fun x => x.1 != ch) ++ [(ch, quanta)] }

/-- Line rate of an Ethernet square in bits per second (R126, SDS_MODE). -/
def Chip.lineRate (c : Chip) (q : Nat) : Nat :=
  if q < 48 then 10000000
  else [0, 1000000000, 2500000000, 5000000000, 10000000000, 25000000000].getD (c.fldOf (Reg.SDS.SDS_MODE q) 3 0) 0

/-- A number of bits at the line rate in femtoseconds. -/
def Chip.bitsFs (c : Chip) (q bits : Nat) : Nat := if c.lineRate q = 0 then 0 else bits * fsSec / c.lineRate q

/-- A pause frame sent while the condition holds is repeated every half of its time (R143). -/
def Chip.pauseHalf (c : Chip) (q : Nat) : Nat := c.bitsFs q (c.fldOf (Reg.ETH.FC_CFG q) 31 16 * 512) / 2

/-- PAUSE_CONDITION_CHANGE of one channel (R351, R143). -/
def Chip.pauseCheck (c : Chip) (q ch : Nat) : Chip :=
  let thr := if ch = 8 then c.reg Reg.BUF.PAUSE_THR else c.reg (Reg.BUF.PFC_THR ch)
  let n := c.fcCells q ch
  let e := c.ethSq q
  let on := natBits e.cond ch ch = 1
  if !on && fld thr 31 16 ≤ n then
    let quanta := c.fldOf (Reg.ETH.FC_CFG q) 31 16
    (c.setEth q { e with cond := e.cond + 2 ^ ch, txPauseNext := sset 0 e.txPauseNext ch (c.now + c.pauseHalf q) }).sendPause q ch quanta
  else if on && n ≤ fld thr 15 0 then
    (c.setEth q { e with cond := e.cond - 2 ^ ch, txPauseNext := sset 0 e.txPauseNext ch 0 }).sendPause q ch 0
  else c

/-- PAUSE_CONDITION_CHANGE of every square with flow control (R351). -/
def Chip.pauseChecks (c : Chip) : Chip :=
  (List.range 16).foldl (fun c n => (c.fcChannels (48 + n)).foldl (fun c ch => c.pauseCheck (48 + n) ch) c) c

/-- COPY_LAUNCH_GRANT (R338): input port i uses its stage 1 connection of the current Tour slot. -/
def doCopyLaunchGrant (i : Nat) (c : Chip) : Chip :=
  if 16 ≤ i || sget 0 c.fab.sentAt i = c.fab.tour + 1 then c else
  let c1 := c.launchFirst ((i + c.fab.tour) % 16) (c.launchOrder i)
  let c2 := { c1 with fab := { c1.fab with sentAt := sset 0 c1.fab.sentAt i (c1.fab.tour + 1) } }
  (Chip.fabDone c c2).pauseChecks

/-- CT_LEAD (R344): 0 and 9-15 act as 8. -/
def Chip.ctLead (c : Chip) : Nat :=
  let n := c.fldOf Reg.FAB.CTRL 3 0
  if n = 0 || 8 < n then 8 else n

/-- A copy may be appended: no earlier copy of its flow waits, and enough of it is in order (R344). -/
def Chip.mayAppend (c : Chip) (k : Copy) : Bool :=
  !k.appended && decide (0 < k.sent) &&
    (c.fab.copies.find? (fun j => !j.appended && j.flow = k.flow)).map (·.id) = some k.id &&
    (k.arrived = k.cells || (k.ct && c.ctLead ≤ k.arrived) || (k.aborted && k.arrived = k.sent && k.sent = k.cells))

/-- The head of the egress queue of an output and class (R347). -/
def Chip.egrHead (c : Chip) (o cls : Nat) : Option Copy :=
  c.fab.copies.find? fun k => k.appended && k.output = o && k.cls = cls

/-- The gates of a square (R150, R154, R155). -/
def Chip.gates (c : Chip) (q : Nat) : Nat := c.fldOf (Reg.ETH.GATE_STAT q) 7 0

/-- The longest frame of a class in bytes (R151, R159). -/
def Chip.maxSdu (c : Chip) (q cls : Nat) : Nat :=
  let n := c.fldOf (Reg.ETH.MAX_SDU q cls) 13 0
  if n = 0 then c.fldOf (Reg.ETH.MAX_LEN q) 13 0 else n

/-- idleSlope of a class in bits per second, 0 when it is not shaped (R159). -/
def Chip.idleSlope (c : Chip) (q cls : Nat) : Nat := if cls = 7 then 0 else (c.reg (Reg.ETH.CBS_SLOPE q cls)).toNat * 1000

/-- hiCredit and loCredit of a class (R159, IEEE 802.1Q-2022), in bits times 10^15. -/
def Chip.creditMax (c : Chip) (q cls : Nat) : Int :=
  Int.ofNat ((List.range 8).foldl (fun a j => if j = cls then a else Nat.max a (c.maxSdu q j * 8)) 0 * c.idleSlope q cls * fsSec /
    Nat.max 1 (c.lineRate q))
def Chip.creditMin (c : Chip) (q cls : Nat) : Int :=
  -Int.ofNat (c.maxSdu q cls * 8 * (c.lineRate q - c.idleSlope q cls) * fsSec / Nat.max 1 (c.lineRate q))

/-- The credit of one class after the time since it was brought up to date (R159): it rises at idleSlope while frames wait or
it is negative, falls at sendSlope while the class sends, and is zero when nothing waits. -/
def Chip.creditAfter (c : Chip) (q cls : Nat) (cr : Int) : Int :=
  let dt := c.now - (c.ethSq q).creditAt
  let idle := c.idleSlope q cls
  let sending := match (c.ethSq q).tx with | some f => f.copy.cls = cls | none => false
  let waits := (c.egrHead q cls).isSome
  let v := if sending then cr - Int.ofNat ((c.lineRate q - idle) * dt) else if waits || cr < 0 then cr + Int.ofNat (idle * dt) else 0
  if v < c.creditMin q cls then c.creditMin q cls
  else if c.creditMax q cls < v then c.creditMax q cls
  else if !sending && !waits && 0 < v then 0 else v

/-- Credits brought up to date (R159). A class whose gate is closed keeps its credit, and one that is not shaped has none. -/
def Chip.creditUpdate (c : Chip) (q : Nat) : Chip :=
  let new := (List.range 7).foldl (fun (m : Sparse Int) cls =>
      if c.idleSlope q cls = 0 then sset 0 m cls 0
      else if natBits (c.gates q) cls cls = 0 then m
      else sset 0 m cls (c.creditAfter q cls (sget 0 m cls))) (c.ethSq q).credit
  c.setEth q { c.ethSq q with credit := new, creditAt := c.now }

/-- Credits of an Ethernet output brought up to date before a frame begins to wait there (R159). -/
def Chip.creditAtQueue (c : Chip) (o : Nat) : Chip := if isEth o then c.creditUpdate o else c

/-- A copy enters the queues behind the others, but before those of its output and class that were appended in the same core cycle from a
higher input port (R344). -/
def insertCopy (k : Copy) : List Copy → List Copy
  | [] => [k]
  | x :: rest =>
    if x.appended && !x.passed && x.output = k.output && x.cls = k.cls && x.appAt = k.appAt && decide (k.input < x.input) then k :: x :: rest
    else x :: insertCopy k rest

/-- A copy joins the egress queue of its output and class; class 7 copies for a square in HOLD are discarded (R163), and
so is every copy for a square whose LINK_HOLD has expired (R353, R164); one that has ended while its cells were being launched is
discarded here without another count (R345, R346, R353). Copies of several flows that are appended in one core cycle stand in ascending input port (R344). -/
def Chip.append (c : Chip) (k : Copy) : Chip :=
  if k.discarded then c.delCopy k.id
  else if c.inHold k.output && k.cls = 7 then (c.delCopy k.id).holdDrop k.output 7 7
  else if isEth k.output && (c.ethSq k.output).holdExpired then (c.delCopy k.id).inc Reg.BUF.DOWN_DROP
  else (c.creditAtQueue k.output).setCopies
    (insertCopy { k with appended := true, held := k.held || c.inHold k.output, appAt := c.fab.tour + 1 } (c.fab.copies.filter fun j => j.id != k.id))

/-- Copies that may be appended are appended. -/
def Chip.appendReady (c : Chip) (n : Nat) : Chip :=
  match n with
  | 0 => c
  | n + 1 =>
    match c.fab.copies.find? (fun k => c.mayAppend k) with
    | none => c
    | some k => (c.append k).appendReady n

/-- The cells of a flow that have become in order are linked into their copies (R343). -/
def Chip.linkWaiting (c : Chip) (flow : Nat) : Nat → Chip
  | 0 => c
  | n + 1 =>
    let exp := sget 0 c.fab.seqExp flow
    match c.fab.rsq.find? (fun x => x.flow = flow && x.seq = exp) with
    | none => c
    | some x =>
      let c1 := { c with fab := { c.fab with
          rsq := c.fab.rsq.filter (fun y => !(y.flow = flow && y.seq = exp)),
          seqExp := sset 0 c.fab.seqExp flow ((exp + 1) % 2 ^ 18) } }
      let c2 := if x.flow % 8 = 7 then c1.peak Reg.FAB.EXP_RSQ_MAX (Nat.min 0xFFFF (c.fab.tour - x.since)) else c1
      (c2.modCopy x.copy fun k => { k with arrived := k.arrived + 1 }).linkWaiting flow n

/-- A cell reaches the resequencer of its output port (R343). -/
def Chip.cellArrives (c : Chip) (x : MidCell) : Chip :=
  let c1 := { c with fab := { c.fab with
      mids := c.fab.mids.filter (fun y => !(y.flow = x.flow && y.seq = x.seq)),
      rsq := c.fab.rsq ++ [RsqCell.mk x.copy x.flow x.seq c.fab.tour] } }
  let c2 := c1.linkWaiting x.flow c1.fab.rsq.length
  c2.appendReady c2.fab.copies.length

/-- RESEQ_TO in core cycles (R345). -/
def Chip.reseqTo (c : Chip) : Nat :=
  let n := c.fldOf Reg.FAB.RESEQ_TO 15 0
  if n = 0 then 65535 else Nat.max 1024 n

/-- The copy that holds a SEQ of a flow. -/
def Chip.copyOfSeq (c : Chip) (flow seq : Nat) : Option Copy :=
  c.fab.copies.find? fun k => k.flow = flow && decide (0 < k.sent) && (seq + 2 ^ 18 - k.firstSeq) % 2 ^ 18 < k.sent

/-- RESEQ_TIMEOUT (R345): a later cell of the flow has waited RESEQ_TO and the expected cell has not come. The skipped SEQ is accounted for
in its copy, which is discarded, or ends as aborted where it was appended already. -/
def doReseqTimeout (i o cls : Nat) (c : Chip) : Chip :=
  let flow := flowOf i o cls
  if !(c.fab.rsq.any fun x => x.flow = flow && decide (x.since + c.reseqTo ≤ c.fab.tour)) then c else
  let exp := sget 0 c.fab.seqExp flow
  let c1 := Chip.incRaise { c with fab := { c.fab with seqExp := sset 0 c.fab.seqExp flow ((exp + 1) % 2 ^ 18) } } Reg.FAB.RESEQ_SKIP 0x040 1
  let c2 := match c1.copyOfSeq flow exp with
    | none => c1
    | some k =>
      let c2 := c1.modCopy k.id fun k => { k with arrived := k.arrived + 1 }
      if k.appended then c2.modCopy k.id fun k => { k with aborted := true } else c2.dropRest k.id
  let c3 := c2.linkWaiting flow c2.fab.rsq.length
  Chip.fabDone c (c3.appendReady c3.fab.copies.length)

/-- A copy stands in no queue any more: wholly launched and not yet appended, or wholly with its controller. -/
def Copy.between (k : Copy) : Bool := if k.appended then k.passed && k.compared = k.cells else k.sent = k.cells

/-- One queue head after another is judged by the ager; `kept` holds the queues whose head stays (R350). -/
def Chip.agePass (c : Chip) (kept : List (Bool × Nat)) : List Copy → Chip
  | [] => c
  | k :: rest =>
    let key := (k.appended, if k.appended then k.output * 8 + k.cls else k.flow)
    if k.between then c.agePass kept rest
    else if kept.contains key || c.inHold k.output || (!k.appended && k.sent != 0) || k.passed || k.txCells != 0 then c.agePass (key :: kept) rest
    else if c.residenceOver k then (if k.appended then c.resDrop k else (c.delCopy k.id).incRaise Reg.BUF.RES_DROP 0x041 1).agePass kept rest
    else if c.pastDeadline k then
      (if k.appended then c.staleDrop k else (c.delCopy k.id).inc Reg.BUF.DL_DROP).agePass kept rest
    else c.agePass (key :: kept) rest

/-- AGE_SCAN in microseconds (R359). -/
def Chip.ageScan (c : Chip) : Nat := clampNat 10 10000 (c.fldOf Reg.BUF.CTRL 13 0)

/-- AGER_SCAN (R350). -/
def doAgerScan (c : Chip) : Chip :=
  if !c.bitOf Reg.BUF.CTRL 31 || c.now < c.fab.lastAge + c.ageScan * fsUs then c else
  let c1 := { c with fab := { c.fab with lastAge := c.now } }
  Chip.fabDone c (c1.agePass [] c1.fab.copies)

/-- The copy with the oldest ENTRY of a list. -/
def oldestCopy : List Copy → Option Copy
  | [] => none
  | k :: rest =>
    match oldestCopy rest with
    | none => some k
    | some j => if k.entry ≤ j.entry then some k else some j

/-- HOLD_RECLAIM (R353): while either pool is below HOLD_RECLAIM, the oldest held copy is discarded, one in each core cycle. -/
def doHoldReclaim (c : Chip) : Chip :=
  let lim := c.fldOf Reg.BUF.HOLD_RECLAIM 17 0
  if (lim ≤ c.ingFree && lim ≤ c.egrFree) || c.fab.reclaimAt = c.fab.tour + 1 then c else
  match oldestCopy (c.fab.copies.filter fun k => c.inHold k.output && (k.sent = 0 || (k.appended && k.sent = k.cells)) && k.txCells = 0) with
  | none => c
  | some k =>
    let c1 := { c with fab := { c.fab with reclaimAt := c.fab.tour + 1 } }
    Chip.fabDone c ((c1.delCopy k.id).incRaise Reg.BUF.HOLD_RECLAIM_CNT 0x041 2)

/-- BUF_SPLIT_WRITE (R332): accepted when each new pool is at least that pool's use. -/
def doBufSplitWrite (k : Nat) (v : Word) (be : Nat) (c : Chip) : Chip :=
  c.blockWrite k Reg.BUF.SPLIT v (beMask be) fun c =>
    let n := fld ((c.reg Reg.BUF.SPLIT &&& ~~~ beMask be) ||| (v &&& beMask be)) 5 0
    if n < 8 || 56 < n || c.ingPoolOf n < c.ingUsed || c.egrPoolOf n < c.egrUsed then c.setErr 0x041 7
    else Chip.fabDone c (c.setFldOf Reg.BUF.SPLIT 5 0 n)

/-- A square reset discards every copy bound for the square (R354). -/
def Chip.resetDrops (c : Chip) (q : Nat) : Chip :=
  let mine := c.fab.copies.filter fun k => k.output = q && !k.discarded
  Chip.fabDone c ((c.setCopies (c.fab.copies.filter fun k => k.output != q)).addTo Reg.BUF.RESET_DROP mine.length)

/-- All cells of a copy that its controller needs were released by the Adjudicator (R29, R372). -/
def Copy.ready (k : Copy) : Bool := k.compared = k.cells || k.aborted || (k.ct && decide (0 < k.compared))

end Sys2Proof.Machine
end

