-- ==== Sys2Proof/Machine/Planes.lean ====
section
/-! DEFINITION. Chapter 13, what other chapters use of it: the move, self-check flags, disagreements, retirement and the
double-plane halt. Plane 0 is White, plane 1 Black. -/

/-
MARKS of the model choices coded here; the log rows say each in full.
DESIGN CHOICE (log 8, safe): the two planes are modelled once.
DESIGN CHOICE (log 39, unsafe): outputs 68 to 71, and the header of a sampled frame that had no action.
DESIGN CHOICE (log 52, unsafe): items that wait when a disagreement, a switch-over or a discard comes.
DESIGN CHOICE (log 102, unsafe): adjudication: digests, sweeps, AUTO_REINT and proof swaps.
-/

namespace Sys2Proof.Machine

/-- STATUS.PARTNER shows the state of the plane that does not have the move (R396). -/
def Chip.showPartner (c : Chip) : Chip := c.setFldOf Reg.ADJ.STATUS 18 16 (c.plState c.partner)

/-- A plane takes a state. -/
def Chip.setPlState (c : Chip) (x st : Nat) : Chip := (c.setFldOf (Reg.PL.PL_STATE x) 2 0 st).showPartner

/-- HALTED (R387). -/
def Chip.halted (c : Chip) : Bool := c.bitOf Reg.ADJ.STATUS 3

/-- The Arbiter runs (chapter 18). -/
def Chip.arbRunning (c : Chip) : Bool := c.fldOf Reg.ARB.STATUS 2 0 = 1

/-- A plane is retired (R385): stopped, alarmed, logged, counted. -/
def Chip.retirePlane (c : Chip) (x cause : Nat) : Chip :=
  let c1 := (c.setFldOf (Reg.PL.PL_STATE x) 15 8 cause).setPlState x 2
  let c2 := ((c1.setAlarm 2).setAlarm 3).scoreAs 0x0040 3 0x030 none (some x)
    ([BitVec.ofNat 8 cause, 0, 0, 0] ++ bytesLE 4 (c1.reg Reg.ADJ.LAST_DIS).toNat)
  let c3 := (c2.inc Reg.ADJ.RETIREMENTS).raise 0x030 3
  Chip.stgRetire { c3 with adj := { c3.adj with retiredAt := some c3.now, reintFrom := none } } x

/-- A double-plane fault (R387): nothing more is released from either plane. -/
def Chip.haltPlanes (c : Chip) : Chip :=
  if c.halted then c else
  let c1 := (c.setBitOf Reg.ADJ.STATUS 3 true).setPlState c.move 7
  ((c1.setAlarm 3).scoreLog 0x0041 4 0x030 ([0, 0, 0, 0] ++ bytesLE 4 (c1.reg Reg.ADJ.LAST_DIS).toNat)).raise 0x030 7

/-- A re-integration fails (R391): the rejoining plane is retired again; after the third within an hour AUTO_REINT no longer acts on that
plane (R386). -/
def Chip.reintFail (c : Chip) : Chip :=
  let x := c.partner
  let hour := 3600 * fsSec
  let c1 := ((c.retirePlane x 6).inc Reg.ADJ.REINT_FAILS).raise 0x030 5
  let fails := (c1.adj.fails ++ [(x, c1.now)]).filter fun e => decide (c1.now < e.2 + hour)
  let many := 3 ≤ (fails.filter fun e => e.1 = x).length && !c1.adj.autoOff.contains x
  { c1 with adj := { c1.adj with fails := fails, autoOff := if many then c1.adj.autoOff ++ [x] else c1.adj.autoOff } }

/-- FLAG_WIN in core cycles, at least 256 (R375). -/
def Chip.flagWin (c : Chip) : Nat := Nat.max 256 (c.fldOf Reg.ADJ.FLAG_WIN 15 0)

/-- The flags of plane x that a disagreement in cycle d finds already raised in its window; Black's own cycle is two less
than the cycle of White's timeline (R22, R375). -/
def Chip.flagsAt (c : Chip) (x d : Nat) : Nat :=
  ((List.range 4).map fun f =>
    let t := sget 0 c.adj.flagAt (4 * x + f)
    if t ≠ 0 && decide (d ≤ t - 1 - 2 * x + c.flagWin) then 2 ^ f else 0).sum

/-- A copy that only the active plane carries while the other plane joins (R389). -/
def Chip.preJoin (c : Chip) (k : Copy) : Bool := c.plState c.partner = 6 && decide (k.entry < c.adj.joinNs)

/-- The planes' items are compared: the partner is in lockstep, or joining and the item is not pre-join (R385, R389). -/
def Chip.comparing (c : Chip) (k : Copy) : Bool :=
  c.lockstep || (c.plState c.partner = 6 && !c.preJoin k)

/-- The flags of plane x in a disagreement's window. -/
def Dis.flags (p : Dis) (x : Nat) : Nat := if x = 0 then p.wFlags else p.bFlags

/-- The flags raised so far move the move (R376, R381). -/
def Dis.moves (p : Dis) : Bool :=
  !p.join && (p.point = 5 || (p.flags p.act != 0 && p.flags (1 - p.act) = 0) || 8 ≤ p.flags p.act)

/-- The switch-over gap (R383) runs: from d on, while the flags raised so far call for a switch-over, and from the decision to the first release from the new active
plane. DESIGN CHOICE (log 52): where the flag that decides comes after d, what other outputs released before it stays released. -/
def Chip.gapOn (c : Chip) : Bool :=
  c.adj.gapFrom.isSome || (c.lockstep && c.adj.pend.any fun p => decide (p.act = c.move) && p.moves)

/-- A disagreement, or an item held, at an output or endpoint (R377, R383, R387). -/
def Chip.itemHeld (c : Chip) (dma : Bool) (loc : Nat) : Bool :=
  c.halted || c.gapOn ||
    c.adj.pend.any fun p => p.loc = loc && (if dma then p.dma else (p.point = 0 || p.point = 4) && !p.dma)

/-- The digests of an engine are held (R377, R383, R387): the commit of its invocation waits. -/
def Chip.digestHeld (c : Chip) (n : Nat) : Bool :=
  c.halted || c.gapOn || c.adj.pend.any fun p => p.point = 1 && decide (p.loc = n)

/-- Copies for Ethernet outputs of which every cell has been released. -/
def Chip.wholeCopies (c : Chip) : List Nat :=
  (c.fab.copies.filter fun (k : Copy) => 40 ≤ k.output && decide (k.output < 64) && decide (k.cells ≤ k.compared)).map (·.id)

/-- A disagreement in cycle d waits for its decision (R375-R377). -/
def Chip.disagreeAt (c : Chip) (point loc cls copy d : Nat) (dma : Bool) : Chip :=
  let x : Dis := { point := point, loc := loc, cls := cls, copy := copy, dma := dma, d := d, dNs := c.ns, dFs := c.now,
                   act := c.move, wFlags := c.flagsAt 0 d, bFlags := c.flagsAt 1 d,
                   join := decide (c.plState c.partner = 6), whole := c.wholeCopies }
  { c with adj := { c.adj with pend := c.adj.pend ++ [x] } }

/-- A disagreement detected now. -/
def Chip.disagree (c : Chip) (point loc cls copy : Nat) : Chip := c.disagreeAt point loc cls copy c.fab.tour false

/-- A flag raised now counts for every disagreement whose window is still open; a TABLE flag counts for every one that is not decided
yet (R381). -/
def Dis.flag (x f tour : Nat) (p : Dis) : Dis :=
  if x = 0 && (tour ≤ p.d + 64 || f = 3) then { p with wFlags := p.wFlags ||| 2 ^ f }
  else if x = 1 && (tour ≤ p.d + 66 || f = 3) then { p with bFlags := p.bFlags ||| 2 ^ f }
  else p

/-- The counter of a kind of self-check flag. -/
def flagCounter (x f : Nat) : Nat :=
  if f = 0 then Reg.PL.ECC_EVT x else if f = 1 then Reg.PL.PARITY_EVT x else if f = 2 then Reg.PL.BUDGET_EVT x else Reg.PL.TABLE_EVT x

/-- SELF_CHECK_FLAG (R374): plane x raises flag f: 0 ECC, 1 PARITY, 2 BUDGET, 3 TABLE. A flag of a rejoining plane fails
its re-integration (R391); a PARITY or TABLE flag of the active plane without a partner in lockstep halts (R387); a TABLE
flag retires its plane, through a decision and a gap if it has the move (R381). -/
def Chip.planeFlag (c : Chip) (x f : Nat) : Chip :=
  let c1 := ((c.setBitOf (Reg.PL.FLAGS x) f true).setReg (Reg.PL.FLAG_TIME x) c.ns41).inc (flagCounter x f)
  let c2 := Chip.raise { c1 with adj := { c1.adj with flagAt := sset 0 c1.adj.flagAt (4 * x + f) (c1.fab.tour + 1),
                                                      pend := c1.adj.pend.map (Dis.flag x f c1.fab.tour) } } (0x031 + x) 0
  if c2.halted then c2
  else if x ≠ c2.move && 3 ≤ c2.plState x && c2.plState x ≤ 6 then c2.reintFail
  else if x = c2.move && !c2.lockstep then (if f = 1 || f = 3 then c2.haltPlanes else c2)
  else if f = 3 && x = c2.move then
    (if c2.adj.pend.isEmpty && c2.adj.gapFrom.isNone then c2.disagreeAt 5 0 0 0 (c2.fab.tour - 2 * x) false else c2)
  else if f = 3 && c2.plState x = 1 then (if c2.adj.pend.isEmpty then c2.retirePlane x 4 else c2)
  else c2

/-- A fault that both planes' blocks see in their own copy of a memory, or only plane x (an operand of the command). -/
def Chip.flagPlanes (c : Chip) (w b : Bool) (f : Nat) : Chip :=
  let c1 := if w then c.planeFlag 0 f else c
  if b then c1.planeFlag 1 f else c1

end Sys2Proof.Machine
end

