-- ==== Sys2Proof/Machine/MemFault.lean ====
section
/-! DEFINITION. Chapter 17, what the blocks use of it: uncorrectable words and poison; and the words of the pools that read with an
uncorrectable error (R355). -/

/-
MARKS of the model choices coded here; the log rows say each in full.
DESIGN CHOICE (log 8, safe): the two planes are modelled once.
DESIGN CHOICE (log 63, unsafe): memory: retire list, BIST and watchdog events.
DESIGN CHOICE (log 70, unsafe): an uncorrectable word read by a host.
DESIGN CHOICE (log 119, safe): an uncorrectable word of a cell pool is an operand.
-/

namespace Sys2Proof.Machine

/-- The plane memory of an instance: plane and u (R469). -/
def planeMem (m : Nat) : Option (Nat × Nat) :=
  if 0x40 ≤ m && m < 0x4F then some (0, m - 0x40) else if 0x50 ≤ m && m < 0x5F then some (1, m - 0x50) else none

/-- An instance exists and has check bits (R469). -/
def memExists (m : Nat) : Bool := m < 0x40 || (planeMem m).isSome || (0x60 ≤ m && m < 0xAB)

/-- The instance by which a plane memory's range is listed, the same for both planes (R479). -/
def memNorm (m : Nat) : Nat := if 0x50 ≤ m && m < 0x60 then m - 0x10 else m

/-- Entries of the retire list in use. -/
def Chip.retireUsed (c : Chip) : Nat := c.fldOf Reg.MEM.RETIRE_STAT 6 0

/-- A range of an instance is retired (R479). -/
def Chip.rangeRetired (c : Chip) (m pg : Nat) : Bool :=
  (List.range c.retireUsed).any fun r =>
    c.bitOf (Reg.MEM.RETIRED r) 31 && memNorm (c.fldOf (Reg.MEM.RETIRED r) 23 16) = memNorm m && c.fldOf (Reg.MEM.RETIRED r) 11 0 = pg

/-- Details of a memory entry of the Scoresheet: instance, source, word address at byte 24. -/
def memDetail (m src addr : Nat) : List Byte := [BitVec.ofNat 8 m, BitVec.ofNat 8 src, 0, 0] ++ bytesLE 4 addr

/-- An uncorrectable word (R470): counted at every read, recorded once; src 0 read, 1 scrub, 2 partial write. A plane
memory raises its plane's ECC flag. LAST_UE does not record a retired range (R480). -/
def Chip.memUe (c : Chip) (m addr src : Nat) : Chip :=
  let c1 := c.inc (Reg.MEM.INST_UE m)
  let c2 :=
    if sget false c1.mem.bad (memKey m addr) then c1
    else
      let c3 := { c1 with mem := { c1.mem with bad := sset false c1.mem.bad (memKey m addr) true } }
      let c4 := if c.rangeRetired m (addr / 512) then c3 else (c3.setReg Reg.MEM.LAST_UE (BitVec.ofNat 32 (2 ^ 31 + src * 2 ^ 24 + m * 2 ^ 16))).setReg Reg.MEM.LAST_UE_ADDR (BitVec.ofNat 32 addr)
      (((c4.inc Reg.MEM.UE_TOTAL).raise 0x080 1).setAlarm 4).scoreLog 0x0050 3 0x080 (memDetail m src addr)
  match planeMem m with
  | some (x, _) => c2.planeFlag x 0
  | none => c2

/-- A partial write onto an uncorrectable word poisons it (R473); `p` is the page whose window or register was written. -/
def Chip.memPoison (c : Chip) (m addr p : Nat) : Chip :=
  (((c.memUe m addr 2).inc Reg.MEM.POISON_WR).raise 0x080 2).setErr p 4

/-- A full write clears poison (R474). -/
def Chip.memClean (c : Chip) (m addr : Nat) : Chip := { c with mem := { c.mem with bad := sset false c.mem.bad (memKey m addr) false } }

/-- Plane x computes: it has the move, is in lockstep or joins. -/
def Chip.planeComputes (c : Chip) (x : Nat) : Bool := decide (c.plState x < 2) || c.plState x = 6

/-- The planes for which a read of their memory u goes wrong, of those that compute: where one plane alone meets the error, the other's
result differs from it, and the model goes on with that other plane unless it is not there to be compared (log 8). -/
def Chip.readFails (c : Chip) (w b : Bool) : List Nat :=
  (if w && c.planeComputes 0 then [0] else []) ++ (if b && c.planeComputes 1 then [1] else [])

/-- The planes for which a cell of a copy reads wrong: a plane that joins does not carry a pre-join copy (R389). -/
def Chip.cellFails (c : Chip) (w b : Bool) (k : Option Copy) : List Nat :=
  (c.readFails w b).filter fun x => decide (c.plState x < 2) || !(k.any c.preJoin)

/-- The planes that meet an error leave no sound plane to go on with: both in lockstep, and without a partner in lockstep the active
one, whose items are those released (R385, R389, R391). -/
def Chip.allFail (c : Chip) (xs : List Nat) : Bool :=
  xs.contains c.move && (!c.lockstep || xs.contains c.partner)

/-- The rejoining plane has not met an error that the active plane has (R391). -/
def Chip.joinDiffers (c : Chip) (xs : List Nat) : Bool :=
  c.plState c.partner = 6 && xs.contains c.move && !xs.contains c.partner

/-- An uncorrectable word of memory u of some planes, at a word address (R470). -/
def Chip.planesUe (c : Chip) (xs : List Nat) (u addr : Nat) : Chip :=
  xs.foldl (fun (c : Chip) x => c.memUe (0x40 + 16 * x + u) addr 0) c

/-- The planes' cells of a copy differ where only one plane in lockstep has met an error (R372), or where a rejoining plane carries the
copy and has not met it (R391). -/
def Chip.poolDiffer (c : Chip) (xs : List Nat) (k : Copy) : Chip :=
  if (if c.allFail xs then c.joinDiffers xs && c.comparing k else c.lockstep) then
    (c.inc Reg.ADJ.DIS_CELL).disagree 0 k.output k.cls k.id
  else c

/-- A copy ends as aborted (R355). -/
def Chip.poolAbort (c : Chip) (xs : List Nat) (k : Copy) : Chip :=
  (if c.allFail xs then c.modCopy k.id fun k => { k with aborted := true } else c).poolDiffer xs k

/-- A word reads with an uncorrectable error in some planes: of a pool, which ends the copy as aborted (R355), or of a middle, whose cell
is missing from then on (R345). ECC_DROP counts what the plane that has the move meets (R358). -/
def Chip.poolBad (c : Chip) (x : CellRead) (k : Option Copy) : Chip :=
  let xs := c.cellFails x.white x.black k
  if xs.isEmpty then c else
  let c1 := (if xs.contains c.move then c.incRaise Reg.FAB.ECC_DROP 0x040 3 else c).planesUe xs (if x.bad = 1 then 11 else 10) x.addr
  match k with
  | none => c1
  | some k => if x.bad = 1 then c1.poolDiffer xs k else c1.poolAbort xs k

/-- CELL_ARRIVE_RESEQUENCER (R329, R343): output port j takes the cell of the connection slot four cycles ago, from middle
(S - j) mod 16. A word that reads uncorrectable: in the middle, so that the cell is discarded (R345); in the ingress pool, when the cell
was launched; or in the egress pool, of the copy that heads a queue of the port (R355). -/
def doCellArriveResequencer (j : Nat) (r : CellRead) (c : Chip) : Chip :=
  if 16 ≤ j || c.fab.tour < 4 || sget 0 c.fab.takenAt j = c.fab.tour + 1 then c else
  let s := c.fab.tour - 4
  let c0 : Chip := { c with fab := { c.fab with takenAt := sset 0 c.fab.takenAt j (c.fab.tour + 1) } }
  let c1 := if r.bad = 3 && outPort r.out = j then (match c0.egrHead r.out r.cls with | none => c0 | some k => c0.poolBad r (some k)) else c0
  match c1.midPick ((s + 16 - j) % 16) j s with
  | none => c1
  | some x =>
    if r.bad = 1 then
      (let k := c1.copy? x.copy
       let c2 := c1.poolBad r k
       if c1.allFail (c1.cellFails r.white r.black k) then
         { c2 with fab := { c2.fab with mids := c2.fab.mids.filter (fun y => !(decide (y.flow = x.flow) && decide (y.seq = x.seq))) } }
       else Chip.fabDone c (c2.cellArrives x))
    else if r.bad = 2 then Chip.fabDone c ((c1.poolBad r (c1.copy? x.copy)).cellArrives x)
    else Chip.fabDone c (c1.cellArrives x)

end Sys2Proof.Machine
end

