-- ==== Sys2Proof/Machine/Parse.lean ====
section
/-! DEFINITION. Chapter 7, parsing and keys (R196-R199): what the classifier reads of a record. -/

namespace Sys2Proof.Machine

/-- The fields of the TCAM key that parsing gives (R197, R199). -/
structure Parsed where
  ntags : Nat := 0
  pcp : Nat := 0
  dei : Bool := false
  vid : Nat := 0
  vid2 : Nat := 0
  dmac : Nat := 0
  smac : Nat := 0
  etype : Nat := 0
  l3 : Nat := 0
  proto : Nat := 0
  dscp : Nat := 0
  ipDst : Nat := 0
  sport : Nat := 0
  dport : Nat := 0
  sv : Bool := false
  stream : Nat := 0
  frag : Bool := false
  l4 : Bool := false
  rtag : Option Nat := none
  trunc : Bool := false
  deriving DecidableEq, Repr

/-- A tag protocol identifier (R197). -/
def isTpid (t : Nat) : Bool := t = 0x88A8 || t = 0x8100

/-- L4 at an offset: ports of TCP and UDP, within `av` parsed bytes. -/
def parseL4 (fb : List Byte) (av off : Nat) (p : Parsed) : Parsed :=
  if p.proto = 6 || p.proto = 17 then
    (if off + 4 ≤ av then { p with sport := beAt fb off 2, dport := beAt fb (off + 2) 2, l4 := true }
     else { p with sport := if off + 2 ≤ av then beAt fb off 2 else 0, trunc := true })
  else p

/-- IPv4 at an offset (R197). -/
def parseIpv4 (fb : List Byte) (av off : Nat) (p : Parsed) : Parsed :=
  let b0 := (byteAt fb off).toNat
  if av < off + 1 then { p with trunc := true }
  else if b0 / 16 ≠ 4 || b0 % 16 < 5 then p
  else
    let have_ (k n : Nat) : Nat := if off + k + n ≤ av then beAt fb (off + k) n else 0
    let fragWord := have_ 6 2
    let q : Parsed := { p with
      l3 := 1, dscp := have_ 1 1 / 4, frag := fragWord % 0x4000 ≠ 0, proto := have_ 9 1, ipDst := have_ 16 4, trunc := av < off + 20 }
    if q.trunc || fragWord % 0x2000 ≠ 0 then q else parseL4 fb av (off + b0 % 16 * 4) q

/-- The IPv6 next headers that are followed (R197): 0, 43 and 60 with IPV6_EXT, the fragment header 44 always; the fuel bounds the
chain by the parsed bytes. A next header beyond them reads as zero. -/
def parseExt (fb : List Byte) (av : Nat) (ext : Bool) : Nat → Nat → Nat → Parsed → Parsed
  | 0, _, nh, p => { p with proto := nh }
  | n + 1, off, nh, p =>
    if ext && (nh = 0 || nh = 43 || nh = 60) then
      (if av < off + 2 then { p with proto := if off + 1 ≤ av then (byteAt fb off).toNat else 0, trunc := true }
       else parseExt fb av ext n (off + ((byteAt fb (off + 1)).toNat + 1) * 8) (byteAt fb off).toNat p)
    else if nh = 44 then
      (if av < off + 4 then { p with proto := if off + 1 ≤ av then (byteAt fb off).toNat else 0, trunc := true, frag := true }
       else if beAt fb (off + 2) 2 / 8 = 0 then parseExt fb av ext n (off + 8) (byteAt fb off).toNat { p with frag := true }
       else { p with frag := true, proto := (byteAt fb off).toNat })
    else parseL4 fb av off { p with proto := nh }

/-- IPv6 at an offset (R197). -/
def parseIpv6 (fb : List Byte) (av off : Nat) (ext : Bool) (p : Parsed) : Parsed :=
  if av < off + 1 then { p with trunc := true }
  else if (byteAt fb off).toNat / 16 ≠ 6 then p
  else
    let have_ (k n : Nat) : Nat := if off + k + n ≤ av then beAt fb (off + k) n else 0
    let nh := have_ 6 1
    let q : Parsed := { p with l3 := 2, dscp := have_ 0 2 / 16 % 256 / 4, ipDst := have_ 36 4, proto := nh, trunc := av < off + 40 }
    if q.trunc then q
    else parseExt fb av ext 16 (off + 40) nh q

/-- AVTP at an offset (R197). -/
def parseAvtp (fb : List Byte) (av off : Nat) (p : Parsed) : Parsed :=
  if av < off + 2 then { p with l3 := 3, proto := if off + 1 ≤ av then beAt fb off 1 else 0, trunc := true }
  else
    let sv := bit (byteAt fb (off + 1)) 7
    { p with l3 := 3, proto := beAt fb off 1, sv := sv, stream := if sv && off + 12 ≤ av then beAt fb (off + 4) 8 else 0,
             trunc := sv && decide (av < off + 12) }

/-- The parse from an EtherType at an offset on (R197). -/
def parseType (fb : List Byte) (av off : Nat) (l3 ext avtp : Bool) (p : Parsed) : Parsed :=
  if av < off + 2 then { p with trunc := true } else
  let t := beAt fb off 2
  let next (off t : Nat) (p : Parsed) : Parsed :=
    let q : Parsed := { p with etype := t }
    if !l3 then q
    else if t = 0x0800 then parseIpv4 fb av (off + 2) q
    else if t = 0x86DD then parseIpv6 fb av (off + 2) ext q
    else if t = 0x22F0 && avtp then parseAvtp fb av (off + 2) q
    else q
  if t = 0xF1C1 then
    (if av < off + 8 then { p with rtag := some (if off + 6 ≤ av then beAt fb (off + 4) 2 else 0), trunc := true }
     else next (off + 6) (beAt fb (off + 6) 2) { p with rtag := some (beAt fb (off + 4) 2) })
  else next off t p

/-- R197: the parse of a frame; untagged frames take DEF_PCP and DEF_VID of the source (R199). -/
def parseEth (fb : List Byte) (src : Word64) (ext avtp : Bool) : Parsed :=
  let av := Nat.min 112 fb.length
  let l3 := bit src 63
  let p0 : Parsed := { pcp := fld src 34 32, vid := fld src 46 35 }
  if av < 12 then { p0 with dmac := if 6 ≤ av then beAt fb 0 6 else 0, trunc := true } else
  let p1 : Parsed := { p0 with dmac := beAt fb 0 6, smac := beAt fb 6 6 }
  if 14 ≤ av && isTpid (beAt fb 12 2) then
    (if av < 16 then { p1 with ntags := 1, pcp := 0, vid := 0, trunc := true } else
     let t1 := beAt fb 14 2
     let p2 : Parsed := { p1 with ntags := 1, pcp := t1 / 2 ^ 13, dei := t1 / 2 ^ 12 % 2 = 1, vid := t1 % 2 ^ 12 }
     if 18 ≤ av && isTpid (beAt fb 16 2) then
       (if av < 20 then { p2 with ntags := 2, trunc := true } else
        let p3 : Parsed := { p2 with ntags := 2, vid2 := beAt fb 18 2 % 2 ^ 12 }
        if 22 ≤ av && isTpid (beAt fb 20 2) then { p3 with etype := beAt fb 20 2 }
        else parseType fb av 20 l3 ext avtp p3)
     else parseType fb av 16 l3 ext avtp p2)
  else parseType fb av 12 l3 ext avtp p1

/-- The fields of a number packed from the most significant: (width, value) pairs. -/
def packFields (l : List (Nat × Nat)) : Nat := l.foldl (fun a wv => a * 2 ^ wv.1 + wv.2 % 2 ^ wv.1) 0

/-- A Bool as a field. -/
def bn (b : Bool) : Nat := if b then 1 else 0

/-- The 256-bit TCAM key (R199). -/
def tcamKey (p : Parsed) (src group : Nat) (lb macsec : Bool) : BitVec 256 :=
  let view : List (Nat × Nat) :=
    if p.l3 = 3 then [(1, bn p.sv), (64, p.stream), (7, 0)]
    else [(6, p.dscp), (32, p.ipDst), (16, p.sport), (16, p.dport), (2, 0)]
  BitVec.ofNat 256 (packFields ([(7, src), (1, bn lb), (2, p.ntags), (3, p.pcp), (1, bn p.dei), (12, p.vid), (12, p.vid2), (48, p.dmac),
    (48, p.smac), (16, p.etype), (2, p.l3), (8, p.proto)] ++ view ++
    [(8, group), (1, bn p.frag), (1, bn p.trunc), (1, bn p.rtag.isSome), (1, bn macsec), (1, bn p.l4), (11, 0)]))

/-- The 64-bit CAN key K of a CAN record (R198). -/
def canKey (rec : List Byte) (src group : Nat) : Word64 :=
  let f := canOfRecord rec
  BitVec.ofNat 64 (packFields [(7, src), (2, f.fmt), (1, bn f.ide), (1, bn f.rtr), (29, if f.ide then f.id else f.id % 2 ^ 11),
    (8, if f.fmt = 2 then f.sdt else 0), (8, if f.fmt = 2 then f.vcid else 0), (8, group)])

/-- The bucket of a hash key (R201). -/
def hashBucket (h : Word64) : Nat :=
  ((BitVec.ofNat 13 (fld h 12 0) ^^^ BitVec.ofNat 13 (fld h 25 13)) ^^^ (BitVec.ofNat 13 (fld h 38 26) ^^^ BitVec.ofNat 13 (fld h 51 39))
    ^^^ BitVec.ofNat 13 (fld h 63 52)).toNat

end Sys2Proof.Machine
end

