-- ==== Sys2Proof/Machine/Gates.lean ====
section
/-! DEFINITION. Gate lists that run on Tempo (R153-R158, R234): which entry is in force, and when the next one is
reached. Entries carry their INTERVAL in [31:0]. -/

/-
MARKS of the model choices coded here; the log rows say each in full.
DESIGN CHOICE (log 32, unsafe): gate lists: before the first cycle, and the MAC hold.
-/

namespace Sys2Proof.Machine

/-- The start offsets of the entries in a cycle, the first at 0. -/
def entryOffsets : Nat → List (BitVec 64) → List Nat
  | _, [] => []
  | at0, w :: rest => at0 :: entryOffsets (at0 + fld w 31 0) rest

/-- The entry in force at an offset of a cycle: the last one that starts at or before it; entries that start at or
beyond the end of the cycle never act (R154). -/
def entryAt (ents : List (BitVec 64)) (cyc off : Nat) : Nat :=
  ((entryOffsets 0 ents).filter fun o => decide (o < cyc) && decide (o ≤ off)).length - 1

/-- The first BASE + k x CYCLE that is not earlier than an instant. -/
def alignUp (base cyc t : Nat) : Nat := if t ≤ base then base else base + ceilDiv (t - base) cyc * cyc

/-- The cycle start and entry in force at an instant (R154, R158); none before the first cycle. -/
def GateRun.at (r : GateRun) (ns : Nat) : Option (Nat × Nat) :=
  let fresh : Option (Nat × Nat) :=
    if ns < r.base || r.cyc = 0 then none
    else
      let s := r.base + (ns - r.base) / r.cyc * r.cyc
      some (s, entryAt r.ents r.cyc (ns - s))
  match r.pos with
  | none => fresh
  | some (s, _) =>
    if ns < s + r.cyc then some (s, entryAt r.ents r.cyc (ns - s))
    else if ns < alignUp r.base r.cyc (s + r.cyc) then some (s, entryAt r.ents r.cyc (r.cyc - 1))
    else fresh

/-- When the list's next entry or cycle is reached. -/
def GateRun.next (r : GateRun) : Nat :=
  match r.pos with
  | none => r.base
  | some (s, e) =>
    match (entryOffsets 0 r.ents)[e + 1]? with
    | some o => if o < r.cyc then s + o else alignUp r.base r.cyc (s + r.cyc)
    | none => alignUp r.base r.cyc (s + r.cyc)

/-- The entry in force, if a cycle runs. -/
def GateRun.entry (r : GateRun) : Option (BitVec 64) :=
  match r.pos with
  | none => none
  | some (_, e) => r.ents[e]?

/-- A Tempo step moves the cycle in progress with it, so that it ends on the timing it had (R158). -/
def GateRun.step (r : GateRun) (d : Int) : GateRun :=
  match r.pos with
  | none => r
  | some (s, e) => { r with pos := some ((Int.ofNat s + d).toNat, e) }

end Sys2Proof.Machine
end

