-- ==== Sys2Proof/Machine/Police.lean ====
section
/-! DEFINITION. Chapter 8: token buckets, stream filters, gates and flow meters, express admission, port guard and
mirror samplers. -/

/-
MARKS of the model choices coded here; the log rows say each in full.
DESIGN CHOICE (log 37, unsafe): token buckets are exact.
DESIGN CHOICE (log 39, unsafe): outputs 68 to 71, and the header of a sampled frame that had no action.
DESIGN CHOICE (log 40, unsafe): the port guard's figures.
DESIGN CHOICE (log 96, unsafe): a port guard detector whose response is OFF still shows that it fired.
-/

namespace Sys2Proof.Machine

/-- Window bases of POL and GUARD. -/
def polBase : Nat := 0x0140_0000
def masqBase : Nat := 0x0148_0000

/-- One token in the units of a level. -/
def oneToken : Nat := 10 ^ 15

/-- A level after the time that passed, at a rate per second and up to a burst (R229). -/
def Level.fill (l : Level) (now rate burst : Nat) : Level :=
  { tokens := Nat.min (burst * oneToken) (l.tokens + rate * (now - l.at_)), at_ := now }

/-- What a frame meets in policing. -/
inductive Verdict where
  | pass
  | recolour (cls : Nat)
  | dropEligible
  | discard
  deriving DecidableEq, Repr

/-- Writing word 0 of a token bucket fills it and clears its counters (R228). -/
def Chip.bucketCommit (c : Chip) (b : Nat) : Chip :=
  let w := c.tword (polBase + 16 * b)
  Chip.setTword { c with pol := { c.pol with buckets := sset {} c.pol.buckets b { tokens := fld w 55 32 * oneToken, at_ := c.now } } }
    (polBase + 16 * b + 8) 0

/-- TOKEN_BUCKET_METER (R228-R230) of bucket b for a metered length. -/
def Chip.bucketMeter (c : Chip) (e b len : Nat) : Chip × Verdict :=
  let off := polBase + 16 * b
  let w := c.twordAt e off
  if !bit w 63 then (c, .pass) else
  let burst := fld w 55 32
  let l := (sget {} c.pol.buckets b).fill c.now (fld w 31 0) burst
  let need := (if bit w 62 then 1 else len) * oneToken
  if burst != 0 && need ≤ l.tokens then
    (Chip.tcount { c with pol := { c.pol with buckets := sset {} c.pol.buckets b { l with tokens := l.tokens - need } } } (off + 8) true, .pass)
  else
    let c1 := Chip.tcount { c with pol := { c.pol with buckets := sset {} c.pol.buckets b l } } (off + 8) false
    if burst != 0 && fld w 61 60 = 1 && fld w 58 56 != 7 then (c1.inc Reg.POL.POL_RECLASS, .recolour (fld w 58 56))
    else (c1.inc Reg.POL.POL_DROP, .discard)

/-- The running list of a stream gate as its entry gives it (R234); none while EN, LEN or CYCLE is 0. -/
def Chip.streamGateRun (c : Chip) (g : Nat) : Option GateRun :=
  let off := polBase + 0x6_0000 + 32 * g
  let w0 := c.tword off
  let cyc := fld (c.tword (off + 8)) 31 0
  let len := fld w0 24 16
  if !bit w0 63 || len = 0 || cyc = 0 || 4096 < fld w0 11 0 + len then none
  else some { base := (c.tword (off + 16)).toNat, cyc := cyc, init := fld w0 60 56,
              ents := (List.range len).map fun n => c.tword (polBase + 0x6_8000 + 8 * (fld w0 11 0 + n)) }

/-- The list that stream gate g runs from now on. -/
def Chip.streamGateRuns (c : Chip) (g : Nat) (r : GateRun) : Chip :=
  { c with pol := { c.pol with gates := insertKey c.pol.gates g r, gatesPend := eraseKey c.pol.gatesPend g } }

/-- A stream gate takes a new list (R234): at its BASE_TIME, which is at once where that has passed (R77). Until then the list in
progress runs on, and where none has begun a cycle the new one gives what applies before its first cycle. -/
def Chip.streamGateLoad (c : Chip) (g : Nat) : Chip :=
  match c.streamGateRun g with
  | none => { c with pol := { c.pol with gates := eraseKey c.pol.gates g, gatesPend := eraseKey c.pol.gatesPend g } }
  | some r =>
    if r.base ≤ c.ns then c.streamGateRuns g { r with pos := r.at c.ns }
    else
      match lookupKey c.pol.gates g with
      | some old =>
        if old.pos.isSome then { c with pol := { c.pol with gatesPend := insertKey c.pol.gatesPend g r } } else c.streamGateRuns g r
      | none => c.streamGateRuns g r

/-- The commit word of a stream gate clears INV_RX (R235) and loads its list. -/
def Chip.streamGateCommit (c : Chip) (g : Nat) : Chip :=
  let off := polBase + 0x6_0000 + 32 * g
  (c.setTword off (setBit (c.tword off) 61 false)).streamGateLoad g

/-- STREAM_GATE_ENTRY (R234): gate g reaches a list entry, a cycle start, or the base time of a new list. -/
def doStreamGateEntry (g : Nat) (c : Chip) : Chip :=
  if 512 ≤ g then c else
  match lookupKey c.pol.gatesPend g with
  | some p =>
    if p.base ≤ c.ns then c.streamGateRuns g { p with pos := p.at c.ns }
    else
      (match lookupKey c.pol.gates g with
       | none => c
       | some r => if c.ns < r.next then c else { c with pol := { c.pol with gates := insertKey c.pol.gates g { r with pos := r.at c.ns } } })
  | none =>
    match lookupKey c.pol.gates g with
    | none => c
    | some r => if c.ns < r.next then c else { c with pol := { c.pol with gates := insertKey c.pol.gates g { r with pos := r.at c.ns } } }

/-- The state of a stream gate for a frame: open, and the class that it sets if any (R234, R235). -/
def Chip.streamGateState (c : Chip) (g : Nat) : Bool × Option Nat :=
  let w0 := c.tword (polBase + 0x6_0000 + 32 * g)
  if bit w0 62 && bit w0 61 then (false, none)
  else if bit w0 63 && fld w0 24 16 != 0 && fld (c.tword (polBase + 0x6_0000 + 32 * g + 8)) 31 0 != 0 && 4096 < fld w0 11 0 + fld w0 24 16 then (false, none)
  else
    match lookupKey c.pol.gates g with
    | none => (true, none)
    | some r =>
      match r.entry with
      | none => (natBits r.init 4 4 = 1, if natBits r.init 3 3 = 1 then some (natBits r.init 2 0) else none)
      | some e => (bit e 63, if bit e 62 then some (fld e 61 59) else none)

/-- Writing word 1 of a flow meter fills both buckets and clears the counters and MARK_RED (R236). -/
def Chip.meterCommit (c : Chip) (m : Nat) : Chip :=
  let off := polBase + 0x4_0000 + 32 * m
  let cbs := fld (c.tword off) 55 32
  let ebs := fld (c.tword (off + 8)) 55 32
  let c1 := { c with pol := { c.pol with
      meters := sset {} (sset {} c.pol.meters (2 * m) { tokens := cbs * oneToken, at_ := c.now }) (2 * m + 1) { tokens := ebs * oneToken, at_ := c.now } } }
  ((c1.setTword off (setBit (c1.tword off) 59 false)).setTword (off + 16) 0).setTword (off + 24) 0

/-- FLOW_METER_CHECK (R236): the two-rate three-colour meter in colour-blind mode; with CF, tokens beyond CBS go to the
excess bucket. `filt` is the filter whose RED_DROP counts. -/
def Chip.flowMeter (c : Chip) (e m filt len : Nat) : Chip × Verdict :=
  let off := polBase + 0x4_0000 + 32 * m
  let w0 := c.twordAt e off
  let w1 := c.twordAt e (off + 8)
  if !bit w0 63 then (c.tcount (off + 16) true, .pass) else
  let red (c : Chip) : Chip × Verdict :=
    let c1 := (c.tcount (off + 24) false).tcount (polBase + 0x2_0000 + 32 * filt + 24) true
    (if bit w0 60 then c1.setTword off (setBit (c1.tword off) 59 true) else c1, .discard)
  if bit (c.tword off) 59 && bit w0 60 then red c else
  let l0 := sget {} c.pol.meters (2 * m)
  let l1 := sget {} c.pol.meters (2 * m + 1)
  let gain := l0.tokens + fld w0 31 0 * (c.now - l0.at_)
  let cTok := Nat.min (fld w0 55 32 * oneToken) gain
  let eTok := Nat.min (fld w1 55 32 * oneToken) (l1.tokens + fld w1 31 0 * (c.now - l1.at_) + (if bit w0 62 then gain - cTok else 0))
  let put (a b : Nat) : Chip := { c with pol := { c.pol with
      meters := sset {} (sset {} c.pol.meters (2 * m) { tokens := a, at_ := c.now }) (2 * m + 1) { tokens := b, at_ := c.now } } }
  if len * oneToken ≤ cTok then ((put (cTok - len * oneToken) eTok).tcount (off + 16) true, .pass)
  else if len * oneToken ≤ eTok then
    ((put cTok (eTok - len * oneToken)).tcount (off + 16) false, if bit w0 61 then .discard else .dropEligible)
  else red (put cTok eTok)

/-- STREAM_FILTER_CHECK, STREAM_GATE_CHECK and FLOW_METER_CHECK in order (R225, R232-R236). The results beside the
verdict are the class that the gate sets. -/
def Chip.streamFilter (c : Chip) (e h cls len : Nat) : Chip × Verdict × Nat :=
  let off := polBase + 0x2_0000 + 32 * h
  let w := c.twordAt e off
  if !bit w 63 then (c, .pass, cls)
  else if !bit w 62 && fld w 61 59 != cls then (c.inc Reg.POL.UNFILTERED, .pass, cls)
  else
    let c1 := c.tcount (off + 8) true
    let long := fld w 13 0 != 0 && decide (fld w 13 0 < len)
    let blocked := bit w 31 && bit (c.tword off) 30
    if long || blocked then
      let c2 := c1.tcount (off + 16) false
      (if long && bit w 31 && !blocked then (c2.setTword off (setBit (c2.tword off) 30 true)).raise 0x049 0 else c2, .discard, cls)
    else
      let g := fld w 56 48
      let gw := c1.tword (polBase + 0x6_0000 + 32 * g)
      let st := if bit w 58 then c1.streamGateState g else (true, none)
      if !st.1 then
        let c2 := c1.tcount (off + 16) true
        let c3 := if bit gw 63 && 4096 < fld gw 11 0 + fld gw 24 16 then c2.setErr 0x049 7 else c2
        (if bit gw 62 && !bit gw 61 then (c3.setTword (polBase + 0x6_0000 + 32 * g) (setBit gw 61 true)).raise 0x049 0 else c3, .discard, cls)
      else
        let c2 := c1.tcount (off + 8) false
        let cls' := st.2.getD cls
        if bit w 47 then
          let r := c2.flowMeter e (fld w 43 32) h len
          (r.1, r.2, cls')
        else (c2, .pass, cls')

/-- The express bucket of input port p with its level now (R237); unlisted buckets were empty at time 0 (R247). -/
def Chip.expressLevel (c : Chip) (p : Nat) : Level :=
  (sget { tokens := 0, at_ := 0 } c.pol.express p).fill c.now (c.reg (Reg.POL.EXP_RATE p)).toNat (c.fldOf (Reg.POL.EXP_BURST p) 23 0)

/-- The express bucket of input port p set. -/
def Chip.setExpress (c : Chip) (p : Nat) (l : Level) : Chip :=
  { c with pol := { c.pol with express := insertKey c.pol.express p l } }

/-- The express buckets of all ports, full or empty now (R237, R247). -/
def Chip.expressAll (c : Chip) (full : Bool) : Sparse Level :=
  (List.range 16).map fun p => (p, { tokens := if full then c.fldOf (Reg.POL.EXP_BURST p) 23 0 * oneToken else 0, at_ := c.now })

/-- EXPRESS_ADMISSION of one class 7 copy of epoch e (R237): it keeps class 7, takes class 6, or is discarded. -/
def Chip.expressAdmit (c : Chip) (e p len : Nat) : Chip × Option Nat :=
  let l := c.expressLevel p
  if c.fldOf (Reg.POL.EXP_BURST p) 23 0 != 0 && len * oneToken ≤ l.tokens then
    (c.setExpress p { l with tokens := l.tokens - len * oneToken }, some 7)
  else if bit (c.regAt e Reg.POL.EXP_ACT) p then ((c.setExpress p l).incRaise Reg.POL.EXP_DROP 0x049 2, none)
  else ((c.setExpress p l).incRaise Reg.POL.EXP_DEMOTE 0x049 1, some 6)

/-- Express admission of a list of copies of one frame; a demoted copy is cut-through only where its route permits it (R28). -/
def Chip.expressCopies (c : Chip) (len : Nat) : List Copy → Chip × List Copy
  | [] => (c, [])
  | k :: rest =>
    if k.cls = 7 then
      let r := c.expressAdmit k.epoch k.input len
      let t := r.1.expressCopies len rest
      (t.1, match r.2 with | none => t.2 | some cls => { k with cls := cls, ct := k.ct && (cls = 7 || k.ctEn) } :: t.2)
    else
      let t := c.expressCopies len rest
      (t.1, k :: t.2)

/-- Port guard's record of a square. -/
def Chip.guardSq (c : Chip) (i : Nat) : GuardSq := sget {} c.guard.sq i
def Chip.setGuard (c : Chip) (i : Nat) (g : GuardSq) : Chip := { c with guard := { c.guard with sq := sset {} c.guard.sq i g } }

/-- A square is quarantined (R243). -/
def Chip.quarantined (c : Chip) (i : Nat) : Bool := if i < 32 then c.bitOf Reg.GUARD.QUAR_LO i else c.bitOf Reg.GUARD.QUAR_HI (i - 32)
def Chip.setQuar (c : Chip) (i : Nat) (b : Bool) : Chip :=
  if i < 32 then c.setBitOf Reg.GUARD.QUAR_LO i b else c.setBitOf Reg.GUARD.QUAR_HI (i - 32) b

/-- GUARD_DETECTOR_FIRE (R242): detector 0 MASQ, 1 UNK, 2 BABBLE, 3 FC, at most once in each window for each square. -/
def Chip.guardFire (c : Chip) (i det count : Nat) : Chip :=
  let g := c.guardSq i
  if natBits g.acted det det = 1 then c else
  let resp := c.fldOf (Reg.GUARD.GCFG i) (2 * det + 1) (2 * det)
  let c1 := (c.setGuard i { g with acted := g.acted + 2 ^ det }).setBitOf (Reg.GUARD.GSTAT i) det true
  let c2 := if det = 1 then c1.inc Reg.GUARD.UNK_EVT else if det = 2 then c1.inc Reg.GUARD.BABBLE_EVT
    else if det = 3 then c1.inc Reg.GUARD.FC_EVT else c1
  if resp = 0 then c2 else
  let c3 := (c2.scoreLog 0x0060 (if resp = 3 then 3 else 2) 0x04A
      ([BitVec.ofNat 8 i, BitVec.ofNat 8 det, BitVec.ofNat 8 resp, 0] ++ bytesLE 4 count)).setReg Reg.GUARD.LAST_EVT
      (BitVec.ofNat 32 (2 ^ 31 + i * 2 ^ 24 + det * 2 ^ 16 + resp * 2 ^ 8))
  let c4 := if resp = 1 then c3 else (c3.raise 0x04A det).setAlarm 6
  if resp = 3 then
    let h := c4.fldOf Reg.GUARD.QUAR_HOLD 15 0
    let c5 := if c4.quarantined i then c4 else (c4.setQuar i true).raise 0x04A 4
    c5.setGuard i { c5.guardSq i with quarUntil := if h = 0 then none else some (c5.now + h * fsSec) }
  else c4

/-- Port guard is enabled and counting: after EN is written 1 again, counting starts at the next window (R606). -/
def Chip.guardOn (c : Chip) : Bool := c.bitOf Reg.GUARD.CTRL 31 && !c.guard.skip

/-- WIN in milliseconds (R239). -/
def Chip.guardWin (c : Chip) : Nat := clampNat 1 1000 (c.fldOf Reg.GUARD.CTRL 9 0)

/-- BABBLE (R239, R240): a frame of square i with its wire time. -/
def Chip.guardBabble (c : Chip) (i wire : Nat) : Chip :=
  let g := c.guardSq i
  let g' := { g with frames := g.frames + 1, wire := g.wire + wire }
  let c1 := c.setGuard i g'
  let fr := c.fldOf (Reg.GUARD.GLIM_RATE i) 15 0
  let ld := c.fldOf (Reg.GUARD.GLIM_LOAD i) 6 0
  if (fr != 0 && fr ≤ g'.frames) || (ld != 0 && ld * c.guardWin * fsMs ≤ g'.wire * 100) then c1.guardFire i 2 g'.frames else c1

/-- UNK (R239): a miss of square i. -/
def Chip.guardUnknown (c : Chip) (i : Nat) : Chip :=
  let g := c.guardSq i
  let c1 := c.setGuard i { g with unk := g.unk + 1 }
  let lim := c.fldOf (Reg.GUARD.GLIM_RATE i) 31 16
  if lim != 0 && lim ≤ g.unk + 1 then c1.guardFire i 1 (g.unk + 1) else c1

/-- FC (R239, R142): the square reports its pause-duty event. -/
def Chip.guardPause (c : Chip) (i : Nat) : Chip :=
  if !c.guardOn then c else
  let g := c.guardSq i
  (c.setGuard i { g with fc := g.fc + 1 }).guardFire i 3 (g.fc + 1)

/-- The masquerade entries that match: can says which comparison applies, v is K or VID and SMAC (R241). -/
def Chip.masqHits (c : Chip) (i : Nat) (can : Bool) (v : Word64) : List Nat :=
  (List.range 256).filter fun n =>
    let off := masqBase + 32 * n
    bit (c.tword off) 63 && bit (c.tword off) 62 == can && bit (c.tword (off + 24)) i
      && ((v ^^^ c.tword (off + 8)) &&& c.tword (off + 16)) == 0

/-- MASQUERADE_MATCH (R241): the count, the detector, and whether an entry with DROP matched. -/
def Chip.masquerade (c : Chip) (i : Nat) (can : Bool) (v : Word64) : Chip × Bool :=
  let hits := c.masqHits i can v
  if hits.isEmpty then (c, false) else
  let g := c.guardSq i
  let c1 := (c.addTo Reg.GUARD.MASQ_CNT hits.length).setGuard i { g with masq := g.masq + 1 }
  (c1.guardFire i 0 (g.masq + 1), hits.any fun n => bit (c.tword (masqBase + 32 * n)) 61)

/-- GUARD_WINDOW_END (R239): at a whole multiple of WIN the figures of a window that ran its full length are kept and counting
restarts. -/
def doGuardWindowEnd (c : Chip) : Chip :=
  let w := c.ns / (c.guardWin * 1000000)
  if w = c.guard.window then c else
  let c1 := (List.range 64).foldl (fun c i =>
      let g := c.guardSq i
      let load := Nat.min 100 (g.wire * 100 / (c.guardWin * fsMs))
      let c1 := if c.guardOn && !c.guard.short then
          c.setReg (Reg.GUARD.GSTAT i) (BitVec.ofNat 32 (load * 2 ^ 24 + Nat.min 0xFFFF g.frames * 2 ^ 8))
        else c.setFldOf (Reg.GUARD.GSTAT i) 3 0 0
      c1.setGuard i { quarUntil := g.quarUntil }) c
  { c1 with guard := { c1.guard with window := w, short := false, skip := !c1.bitOf Reg.GUARD.CTRL 31 } }

/-- A Tempo step ends the window in progress, which is discarded: GSTAT keeps its figures, FIRED clears (R239). -/
def Chip.guardStep (c : Chip) : Chip :=
  let c1 := (List.range 64).foldl (fun c i =>
      (c.setFldOf (Reg.GUARD.GSTAT i) 3 0 0).setGuard i { quarUntil := (c.guardSq i).quarUntil }) c
  { c1 with guard := { c1.guard with window := c1.ns / (c1.guardWin * 1000000), short := true } }

/-- Tempo runs again after a reset or ADJOURNED: the window in progress did not run its full length, and its counts restart (R239). -/
def Chip.guardResume (c : Chip) : Chip :=
  { c with guard := { c.guard with
      sq := smap {} (fun _ (g : GuardSq) => { quarUntil := g.quarUntil }) c.guard.sq,
      window := c.ns / (c.guardWin * 1000000), short := true } }

/-- The express buckets are empty when the core starts (R247). -/
def Chip.expressEmpty (c : Chip) : Chip := { c with pol := { c.pol with express := c.expressAll false } }

/-- GUARD.CTRL written (R239, R606): with EN 0 counting waits for a window boundary. DESIGN CHOICE (log 40): a new WIN makes the window in
progress one of the new length that has not run in full; its counts stand. -/
def Chip.guardCtrl (before c : Chip) : Chip :=
  let c1 := if c.bitOf Reg.GUARD.CTRL 31 then c else { c with guard := { c.guard with skip := true } }
  if before.guardWin = c1.guardWin then c1
  else { c1 with guard := { c1.guard with window := c1.ns / (c1.guardWin * 1000000), short := true } }

/-- QUARANTINE_CLEAR (R244): the owner writes 1 to bits of QUAR_LO (hi false) or QUAR_HI. -/
def doQuarantineClear (k : Nat) (hi : Bool) (v : Word) (be : Nat) (c : Chip) : Chip :=
  let a := if hi then Reg.GUARD.QUAR_HI else Reg.GUARD.QUAR_LO
  c.blockWrite k a v (beMask be) fun c => c.setReg a (c.reg a &&& ~~~ (v &&& beMask be))

/-- QUARANTINE_HOLD_EXPIRY (R244): QUAR_HOLD seconds without a further QUARANTINE response for square i. -/
def doQuarantineHoldExpiry (i : Nat) (c : Chip) : Chip :=
  if 64 ≤ i || !c.quarantined i then c else
  match (c.guardSq i).quarUntil with
  | none => c
  | some t => if c.now < t then c else (c.setQuar i false).setGuard i { c.guardSq i with quarUntil := none }

/-- Where a mirror copy of sampler s goes (R245): output, ring. -/
def Chip.smpDest (c : Chip) (s : Nat) : Nat × Nat :=
  let d := c.reg (Reg.SMP.SMP_DEST s)
  if bit d 16 then (64 + fld d 13 12, fld d 4 0) else (70, 0)

/-- MIRROR_SAMPLE (R245, R246): a frame is offered to sampler s from an input port. -/
def Chip.mirrorOffer (c : Chip) (s input src action epoch entry : Nat) (kind : RecKind) (rec : List Byte) (quar : Bool) : Chip :=
  let n := c.fldOf (Reg.SMP.SMP_CFG s) 23 0
  if n = 0 || !c.bitOf Reg.SMP.CTRL 0 then c else
  let cnt := sget 0 c.guard.smp s + 1
  let c1 := Chip.inc { c with guard := { c.guard with smp := sset 0 c.guard.smp s (if n ≤ cnt then 0 else cnt) } } (Reg.SMP.SMP_OFFERED s)
  if cnt < n then c1 else
  let c2 := c1.inc (Reg.SMP.SMP_SAMPLED s)
  let isCanRec := decide (kind = .can)
  let head : List Byte := [1, BitVec.ofNat 8 s, BitVec.ofNat 8 src,
      BitVec.ofNat 8 ((if isCanRec then 1 else 0) + (if 128 < rec.length then 2 else 0) + (if quar then 4 else 0))] ++
    bytesLE 2 action ++ bytesLE 2 epoch ++ bytesLE 4 rec.length ++ bytesLE 4 (c2.reg (Reg.SMP.SMP_SAMPLED s)).toNat
  let d := c2.smpDest s
  c2.enqueueFrame none 0
    [{ input := input, output := d.1, ring := d.2, cls := c2.fldOf (Reg.SMP.SMP_CFG s) 26 24, kind := .mirror, epoch := epoch,
       entry := entry, data := head ++ rec.take 128, mirror := true, src := src }]

end Sys2Proof.Machine
end

