-- ==== Sys2Proof/Machine/Classify.lean ====
section
/-! DEFINITION. Chapter 7: lookup, actions and enqueueing of frames, and the steps of chapter 8 that stand among them. -/

/-
MARKS of the model choices coded here; the log rows say each in full.
DESIGN CHOICE (log 34, unsafe): a layout with a reserved DKIND has no destination.
PRESUMED (log 35, unsafe): AVTP and ACF byte layouts are those of IEEE 1722.
DESIGN CHOICE (log 39, unsafe): outputs 68 to 71, and the header of a sampled frame that had no action.
DESIGN CHOICE (log 125, unsafe): AVTP frames of another subtype.
-/

namespace Sys2Proof.Machine

/-- The CLS window. -/
def clsBase : Nat := 0x0100_0000

/-- A frame in the classifier: its record, source value, square of arrival, input port, whether it entered at F_LB with
which group, its epoch and ENTRY, the square on which it first arrived, and whether the planes read it before its length was known. -/
structure Flight where
  rcd : List Byte
  kind : RecKind
  src : Nat
  sq : Option Nat
  input : Nat
  lb : Bool
  group : Nat
  epoch : Nat
  entry : Nat
  aborted : Bool := false
  origin : Option Nat := none
  early : Bool := false

/-- The frame bytes of an Ethernet record (R176). -/
def frameBytes (rec : List Byte) : List Byte := rec.drop 16

/-- The ingress stamp of a record (R94, R176). -/
def recStamp (kind : RecKind) (rec : List Byte) : Nat := if kind = .can then leAt rec 16 8 else leAt rec 0 8

/-- The metered length of a frame (R226). -/
def meteredLen (kind : RecKind) (rec : List Byte) : Nat := if kind = .can then canRecLen rec + 8 else rec.length - 16 + 4

/-- The source table entry of a SRC in an epoch (R200). -/
def Chip.srcEntry (c : Chip) (e src : Nat) : Word64 := c.twordAt e (clsBase + 8 * src)

/-- The word offsets of a table region that hold anything, in this or the old epoch. -/
def Chip.listedWords (c : Chip) (lo hi : Nat) : List Nat :=
  ((c.tbl.map (·.1)) ++ (c.ep.oldTbl.map (·.1))).filterMap fun k => if lo ≤ 8 * k && 8 * k < hi then some (8 * k) else none

/-- The least of a list. -/
def leastOf : List Nat → Option Nat
  | [] => none
  | n :: rest => match leastOf rest with | none => some n | some m => some (Nat.min n m)

/-- The TCAM hit with the lowest index (R202): only entries whose result word holds VALID can match. -/
def Chip.tcamHit (c : Chip) (e : Nat) (key : BitVec 256) : Option Nat :=
  let base := clsBase + 0x10_0000
  leastOf ((c.listedWords base (base + 0x8_0000)).filterMap fun off =>
    if (off - base) % 128 = 64 && bit (c.twordAt e off) 63 then
      let n := (off - base) / 128
      let ok := (List.range 4).all fun j =>
        ((BitVec.ofNat 64 (fld key (64 * j + 63) (64 * j)) ^^^ c.twordAt e (base + 128 * n + 8 * j)) &&& c.twordAt e (base + 128 * n + 32 + 8 * j)) == 0
      if ok then some n else none
    else none)

/-- The CAN masked hit with the lowest index (R202). -/
def Chip.maskedHit (c : Chip) (e : Nat) (k : Word64) : Option Nat :=
  let base := clsBase + 0x2_0000
  leastOf ((c.listedWords base (base + 0x1_0000)).filterMap fun off =>
    if (off - base) % 32 = 16 && bit (c.twordAt e off) 63 then
      let n := (off - base) / 32
      if ((k ^^^ c.twordAt e (base + 32 * n)) &&& c.twordAt e (base + 32 * n + 8)) == 0 then some n else none
    else none)

/-- The hit of a hash key in a hash table at a window offset: the lowest way wins (R201). -/
def Chip.hashHit (c : Chip) (e region : Nat) (h : Word64) : Option Nat :=
  ((List.range 8).map fun w => clsBase + region + 16 * (8 * hashBucket h + w)).find? fun off =>
    bit (c.twordAt e (off + 8)) 63 && c.twordAt e off == h

/-- What lookup answers: the action, whether a TCAM hit selected it, the hash action for DKIND 0b10, and a miss. -/
structure Lookup where
  action : Nat
  tcam : Bool := false
  hash : Option Nat := none
  miss : Bool := false
  stat : Nat := 0
  deriving DecidableEq, Repr

/-- H of the Ethernet hash (R201). -/
def ethHashKey (p : Parsed) : Word64 := BitVec.ofNat 64 (p.vid * 2 ^ 48 + p.dmac)

/-- Lookup of an Ethernet frame (R203). -/
def Chip.lookupEth (c : Chip) (e : Nat) (src : Word64) (p : Parsed) (key : BitVec 256) : Lookup :=
  let hash := if bit src 61 then (c.hashHit e 0x20_0000 (ethHashKey p)).map fun off => fld (c.twordAt e (off + 8)) 13 0 else none
  let tcam := if bit src 62 then (c.tcamHit e key).map fun n => fld (c.twordAt e (clsBase + 0x10_0000 + 128 * n + 64)) 13 0 else none
  match tcam with
  | some a => { action := a, tcam := true, hash := hash, stat := Reg.CLS.HIT_TCAM }
  | none =>
    match hash with
    | some a => { action := a, hash := hash, stat := Reg.CLS.HIT_EHASH }
    | none => { action := fld src 60 47, miss := true, stat := Reg.CLS.MISS_CNT }

/-- Lookup of a CAN record (R203). -/
def Chip.lookupCan (c : Chip) (e : Nat) (src k : Word64) : Lookup :=
  let h : Word64 := k &&& ~~~ (oneBit 64 53 ||| fieldMask 64 23 0)
  let hit := if bit src 61 then (c.hashHit e 0x30_0000 h).map fun off => fld (c.twordAt e (off + 8)) 13 0 else none
  match hit with
  | some a => { action := a, stat := Reg.CLS.HIT_CHASH }
  | none =>
    match (if bit src 61 then c.maskedHit e k else none) with
    | some n => { action := fld (c.twordAt e (clsBase + 0x2_0000 + 32 * n + 16)) 13 0, stat := Reg.CLS.HIT_CMASK }
    | none => { action := fld src 60 47, miss := true, stat := Reg.CLS.MISS_CNT }

/-- Word w of an action in an epoch (R209). -/
def Chip.actionWord (c : Chip) (e a w : Nat) : Word64 := c.twordAt e (clsBase + 0x8_0000 + 32 * a + 8 * w)

/-- An action is malformed (R212). -/
def malformed (w0 w1 w3 : Word64) (tcam : Bool) : Bool :=
  let dk := fld w0 61 60
  let dest := fld w0 57 48
  (dk = 0 && (dest = 68 || dest = 69 || dest = 70 || 71 < dest)) || (dk = 2 && !tcam) ||
    (fld w1 63 61 = 6 && !(dk = 0 && dest = 71)) || fld w1 63 61 = 7 || fld w3 63 62 = 3

/-- The outputs and rings of an action's destination fields (R209, R211). -/
def Chip.destinations (c : Chip) (e : Nat) (sq : Option Nat) (w0 : Word64) : List (Nat × Nat) :=
  let dk := fld w0 61 60
  if dk = 0 then [(fld w0 57 48, fld w0 44 40)]
  else if dk = 1 then
    let off := clsBase + 0x1_0000 + 16 * fld w0 57 48
    let g0 := c.twordAt e off
    let g1 := c.twordAt e (off + 8)
    ((List.range 64).filterMap fun o => if bit g0 o && sq != some o then some (o, 0) else none) ++
      ((List.range 4).filterMap fun k => if bit g1 k then some (64 + k, fld g1 (12 + 5 * k) (8 + 5 * k)) else none)
  else []

/-- Cut-through is decided for one copy (R28, R215): between Ethernet squares of which the ingress is a SerDes square and
the egress line rate is not higher, in class 7 or where the route enables it. -/
def Chip.cutThrough (c : Chip) (sq : Option Nat) (o cls : Nat) (ctEn : Bool) : Bool :=
  match sq with
  | none => false
  | some s => decide (48 ≤ s) && isEth o && (ctEn || cls = 7) && decide (c.lineRate o ≤ c.lineRate s) && c.bitOf (Reg.STG.CTRL s) 1

/-- A copy of a frame for one output, before admission. -/
def Flight.copy (fl : Flight) (o cls : Nat) : Copy :=
  { input := fl.input, output := o, cls := cls, kind := fl.kind, epoch := fl.epoch, data := fl.rcd, entry := fl.entry,
    src := fl.src, group := fl.group, lb := fl.lb, aborted := fl.aborted, origin := fl.origin }

/-- The reservation of a cut-through copy whose length is not known when it is enqueued (R335): that of the longest frame which its SerDes
square takes. -/
def Chip.ctResv (c : Chip) (fl : Flight) : Nat :=
  match fl.sq with
  | some s => if fl.early && 48 ≤ s then ceilDiv (c.fldOf (Reg.ETH.MAX_LEN s) 13 0 - 4) 64 else 0
  | none => 0

/-- The copies of a frame enter the fabric: of an aborted packet those in cut-through alone (R215), each class 7 copy under express
admission (R225, R237). -/
def Chip.admitCopies (c : Chip) (fl : Flight) (fc len : Nat) (ks : List Copy) : Chip :=
  let r := c.expressCopies len (ks.filter fun k => !fl.aborted || k.ct)
  r.1.enqueueFrame fl.sq fc r.2

/-- The code of a CAN data length in a format, if the length is valid for it. -/
def dlcOf (fmt n : Nat) : Option Nat :=
  if n ≤ 8 then some n
  else if fmt = 1 then ((List.range 7).find? fun j => [12, 16, 20, 24, 32, 48, 64].getD j 0 = n).map (· + 9)
  else none

/-- The ACF messages of an AVTP payload as CAN records (R218): the records with their bus_id, whether the walk ended in
an error, and how many CAN messages came after the sixteenth. -/
def acfWalk (fb : List Byte) (stamp tstate : Nat) (useMtv : Bool) : Nat → Nat → Nat → List (Nat × List Byte) → List (Nat × List Byte) × Bool × Nat
  | 0, _, n, acc => (acc, false, n - 16)
  | fuel + 1, off, n, acc =>
    if fb.length < off + 4 then (acc, false, n - 16) else
    let w := beAt fb off 4
    let typ := natBits w 31 25
    let quad := natBits w 24 16
    let size := quad * 4
    if size = 0 || fb.length < off + size then (acc, true, n - 16)
    else if typ = 1 || typ = 2 then
      let hdr := if typ = 1 then 16 else 8
      let pad := natBits w 15 14
      let fdf := natBits w 9 9 = 1
      let idw := beAt fb (off + hdr - 4) 4
      let len := size - hdr - pad
      if size < hdr + pad then (acc, true, n - 16) else
      match dlcOf (if fdf then 1 else 0) len with
      | none => (acc, true, n - 16)
      | some d =>
        let mtv := natBits w 13 13 = 1
        let f : CanFrame := { ide := natBits w 11 11 = 1, rtr := natBits w 12 12 = 1, id := idw % 2 ^ 29, fmt := if fdf then 1 else 0,
                              brs := natBits w 10 10 = 1, esi := natBits w 8 8 = 1, dlc := d,
                              data := (fb.drop (off + hdr)).take len }
        let st := if useMtv && mtv && typ = 1 then beAt fb (off + 4) 8 else stamp
        acfWalk fb stamp tstate useMtv fuel (off + size) (n + 1)
          (if n < 16 then acc ++ [(natBits w 4 0, canRecord f false st)] else acc)
    else acfWalk fb stamp tstate useMtv fuel (off + size) n acc

/-- Where the ACF messages start after the AVTP common header: NTSCF 12 bytes, TSCF 24 bytes (IEEE 1722-2016). -/
def acfStart (subtype : Nat) : Option Nat := if subtype = 0x82 then some 12 else if subtype = 0x05 then some 24 else none

/-- Offset of the AVTP header in a frame: after addresses, tags, R-TAG and EtherType. -/
def avtpOffset (p : Parsed) : Nat := 14 + 4 * p.ntags + (if p.rtag.isSome then 6 else 0)

/-- ACF_DECAPSULATE (R218): the records of the first sixteen CAN messages enter F_LB, drop-eligible where the frame is yellow (R236), in its
flow-control class (R351); answered with whether the frame had ACF messages to give. DESIGN CHOICE (log 125): an AVTP frame of another subtype counts ACF_ERR and is discarded, as one that is not
AVTP. -/
def Chip.acfDecap (c : Chip) (fl : Flight) (p : Parsed) (cls fc : Nat) (useMtv de : Bool) : Chip × Bool :=
  match (if p.l3 = 3 then acfStart p.proto else none) with
  | none => (c.incRaise Reg.CLS.ACF_ERR 0x048 2, false)
  | some h =>
    if fl.aborted then (c, false) else
    let fb := frameBytes fl.rcd
    let r := acfWalk fb (recStamp .eth fl.rcd) 0 useMtv fb.length (avtpOffset p + h) 0 []
    let c1 := if r.2.1 then c.incRaise Reg.CLS.ACF_ERR 0x048 2 else c
    let c2 := c1.addTo Reg.CLS.ACF_TRUNC r.2.2
    (r.1.foldl (fun c br => c.admitCopies fl fc (meteredLen .can br.2)
      [{ fl.copy 71 cls with de := de, kind := .can, data := br.2, src := 0x40 + br.1, lb := true }]) c2, true)

/-- LB_LOOP_DROP (R21). -/
def Chip.lbLoop (c : Chip) : Chip := c.incRaise Reg.CLS.LB_LOOP_CNT 0x048 3

/-- The generation function of an action's copies for squares 40-63, where it is enabled in the frame's epoch (R161, R217). -/
def Chip.frerGen (c : Chip) (e : Nat) (w1 : Word64) : Option Nat :=
  if fld w1 43 42 = 1 && bit (c.twordAt e (clsBase + 0x2000 + 8 * fld w1 41 32)) 63 then some (fld w1 41 32) else none

/-- The class that PCP_MAP gives a frame, which is its flow-control class (R200, R351). -/
def pcpMapped (pcpMap : Word64) (p : Parsed) : Nat := fld pcpMap (3 * p.pcp + 2) (3 * p.pcp)

/-- Steps 4 and 5 of R210 for an action that is valid: policing, destinations, class, admission. -/
def Chip.routeFrame (c : Chip) (fl : Flight) (p : Parsed) (w0 d0 w1 w2 w3 : Word64) (pcpMap : Word64) (policed : Bool) : Chip :=
  let fc := pcpMapped pcpMap p
  let cls0 := if bit w0 39 then fld w0 38 36 else fc
  let len := meteredLen fl.kind fl.rcd
  let polOn := policed && bit (c.regAt fl.epoch Reg.POL.CTRL) 0
  let f := if polOn && bit w1 28 then c.streamFilter fl.epoch (fld w1 27 16) cls0 len else (c, .pass, cls0)
  if f.2.1 = .discard then f.1 else
  let de := decide (f.2.1 = .dropEligible)
  let b := if polOn && bit w2 63 then f.1.bucketMeter fl.epoch (fld w2 62 50) len else (f.1, .pass)
  if b.2 = .discard then b.1 else
  let cls := match b.2 with | .recolour x => x | _ => f.2.2
  let c1 := b.1
  let cx := fld w3 63 62
  let dl := fld w2 27 12
  let deadline (o : Nat) : Option Nat := if dl = 0 || 64 ≤ o then none else some (recStamp fl.kind fl.rcd + dl * 100000)
  let mk (o ring cls : Nat) : Copy :=
    { fl.copy o cls with ring := ring, deadline := deadline o, de := de, act1 := w1, rtag := p.rtag, genFn := if isEth o then c1.frerGen fl.epoch w1 else none,
                         ct := c1.cutThrough fl.sq o cls (bit w0 35), ctEn := bit w0 35,
                         resv := c1.ctResv fl }
  if cx = 1 || cx = 2 then
    c1.admitCopies fl fc len [{ mk 68 0 cls with cxOp := cx, cxProfile := fld w3 61 52, next := fld w3 45 32 }]
  else
    let dests := c1.destinations fl.epoch fl.origin d0
    let sg : List Copy := if bit w2 42 then [{ mk 69 0 (if cls = 7 then 6 else cls) with layout := fld w2 41 28 }] else []
    if dests.any (fun d => d.1 = 71) then
      (if fl.lb then c1.lbLoop
       else if fld w1 63 61 = 6 then
         (let r := c1.acfDecap fl p cls fc (bit w1 60) de
          if r.2 then r.1.admitCopies fl fc len sg else r.1)
       else c1.admitCopies fl fc len ({ mk 71 0 cls with lb := true } :: sg))
    else
      let bad (o : Nat) : Bool := (fl.kind = .can && isEth o) || (fl.kind = .eth && decide (o < 40))
      let c2 := c1.addTo Reg.CLS.KIND_DROP (dests.filter fun d => bad d.1).length
      c2.admitCopies fl fc len ((dests.filter fun d => !bad d.1).map (fun d => mk d.1 d.2 cls) ++ sg)

/-- The end of a frame from a quarantined square (R243): offered to QUAR_SMP, counted. DESIGN CHOICE (log 39): where no action was
looked up, the header's ACTION is 0. -/
def Chip.quarDrop (c : Chip) (fl : Flight) (a : Nat) : Chip :=
  let c1 := if c.bitOf Reg.GUARD.QUAR_SMP 6 then
      c.mirrorOffer (c.fldOf Reg.GUARD.QUAR_SMP 5 0) fl.input fl.src a fl.epoch fl.entry fl.kind fl.rcd true else c
  c1.inc Reg.GUARD.QUAR_DROP

/-- ACTION_APPLY (R210): validity, mirror, quarantine, masquerade drop, drop, then policing and destinations. -/
def Chip.applyAction (c : Chip) (fl : Flight) (p : Parsed) (lk : Lookup) (srcEnt : Word64) (quar masqDrop : Bool) : Chip :=
  let w (a n : Nat) : Word64 := c.actionWord fl.epoch a n
  let a := lk.action
  let hitOff := clsBase + 0x4_0000 + 8 * a
  let c0 := c.setTword hitOff (c.tword hitOff + 1)
  let d0 := if fld (w a 0) 61 60 = 2 && lk.tcam then w (lk.hash.getD (fld srcEnt 60 47)) 0 else w a 0
  if !bit (w a 0) 63 || malformed (w a 0) (w a 1) (w a 3) lk.tcam || (fld (w a 0) 61 60 = 2 && malformed d0 0 0 false) then
    c0.incRaise Reg.CLS.INVALID_ACT 0x048 1
  else
    let c1 := if bit (w a 2) 49 then
        c0.mirrorOffer (fld (w a 2) 48 43) fl.input fl.src a fl.epoch fl.entry fl.kind fl.rcd false else c0
    if masqDrop then c1
    else if quar then c1.quarDrop fl a
    else if bit (w a 0) 62 then c1.inc Reg.CLS.DROP_ACT
    else c1.routeFrame fl p (w a 0) d0 (w a 1) (w a 2) (w a 3) srcEnt true

/-- The WAKE window and its books (R560, R563). -/
def wakeBase : Nat := 0x03A8_0000

/-- The book entry that a key meets (R560): CAN entries over K, Ethernet entries over H and the square. -/
def Chip.bookHit (c : Chip) (fl : Flight) (k : Word64) : Option Nat :=
  if fl.kind = .can then
    ((List.range 256).map fun n => wakeBase + 0x2000 + 32 * n).find? fun off =>
      bit (c.tword (off + 16)) 63 && ((k ^^^ c.tword off) &&& c.tword (off + 8)) == 0
  else
    ((List.range 64).map fun n => wakeBase + 0x4000 + 32 * n).find? fun off =>
      bit (c.tword (off + 16)) 63 && ((k ^^^ c.tword off) &&& c.tword (off + 8)) == 0 &&
        (match fl.sq with | some s => decide (40 ≤ s) && bit (c.tword (off + 24)) (s - 40) | none => false)

/-- A book route (R560, R561): one square, express admission only, in the frame's flow-control class (R351); a miss takes
WAKE.BOOK_MISS. -/
def Chip.bookRoute (c : Chip) (fl : Flight) (k : Word64) (fc : Nat) (quar masqDrop : Bool) : Chip :=
  if masqDrop then c
  else if quar then c.quarDrop fl 0
  else
    let go (drop : Bool) (dest cls cx prof dl : Nat) : Chip :=
      if drop || cx = 3 then c.inc Reg.CLS.DROP_ACT
      else if cx = 0 && ((fl.kind = .can && isEth dest) || (fl.kind = .eth && decide (dest < 40))) then c.inc Reg.CLS.KIND_DROP
      else
        let d := if dl = 0 then none else some (recStamp fl.kind fl.rcd + dl * 100000)
        c.admitCopies fl fc (meteredLen fl.kind fl.rcd)
          [if cx = 0 then { fl.copy dest cls with deadline := d, ct := c.cutThrough fl.sq dest cls false, resv := c.ctResv fl }
           else { fl.copy 68 cls with deadline := d, cxOp := cx, cxProfile := prof, ring := dest, next := 16384 }]
    match c.bookHit fl k with
    | some off =>
      let w := c.tword (off + 16)
      go (bit w 62) (fld w 61 56) (fld w 54 52) (fld w 51 50) (fld w 49 46) (fld w 15 0)
    | none =>
      go (!c.bitOf Reg.WAKE.BOOK_MISS 31 || c.bitOf Reg.WAKE.BOOK_MISS 30) (c.fldOf Reg.WAKE.BOOK_MISS 29 24)
        (c.fldOf Reg.WAKE.BOOK_MISS 22 20) 0 0 0

/-- A Benolsia frame on a listed square (R514). -/
def Chip.isBenolsia (c : Chip) (fl : Flight) (p : Parsed) : Bool :=
  match fl.sq with
  | none => false
  | some s =>
    c.bitOf Reg.BNL.CTRL 0 && isEth s && fl.kind = .eth && !fl.lb && c.bitOf Reg.BNL.PORTS (s - 40) && p.etype = c.fldOf Reg.BNL.ETYPE 15 0 &&
      p.dmac = c.fldOf Reg.BNL.MAC_HI 15 0 * 2 ^ 32 + (c.reg Reg.BNL.MAC_LO).toNat

/-- The detectors that see a frame of a square in classification (R227, R239-R243): matches, unknowns, babble; answered
with the chip and whether a masquerade entry drops the frame. Once EN is 1 again entries drop at once, and counting starts
with the next window (R606). -/
def Chip.guardFrame (c : Chip) (sq : Nat) (isCanRec : Bool) (key : Word64) (miss : Bool) (wire : Nat) : Chip × Bool :=
  if !c.bitOf Reg.GUARD.CTRL 31 then (c, false)
  else if c.guard.skip then (c, (c.masqHits sq isCanRec key).any fun n => bit (c.tword (masqBase + 32 * n)) 61) else
  let m := c.masquerade sq isCanRec key
  let c1 := m.1.guardBabble sq wire
  (if miss then c1.guardUnknown sq else c1, m.2)

/-- CLS.CTRL.EN acts as 0 (R436, R582): the Castle is resigned or its root has failed and OTP's RESIGN_FWD is 0, or the
part is decommissioned. -/
def Chip.castleStops (c : Chip) : Bool :=
  ((c.fldOf Reg.CASTLE.STATE 2 0 = 3 || c.fldOf Reg.CASTLE.STATE 2 0 = 4) && !c.otp.resignFwd) || c.otp.lc = 4

/-- A frame of epoch e is looked up in the opening book (R204): while BOOK is 1, and after the handover where it was stamped
before. -/
def Chip.bookRules (c : Chip) (e : Nat) : Bool := c.bitOf Reg.CLS.STATUS 0 || (decide (e ≠ c.epoch) && c.ep.oldBook)

/-- A frame is classified (R194-R222). -/
def Chip.classify (c : Chip) (fl : Flight) (wire : Nat) : Chip :=
  if !bit (c.regAt fl.epoch Reg.CLS.CTRL) 0 || c.castleStops then c.inc Reg.CLS.DISABLED_DROP else
  let srcEnt := c.srcEntry fl.epoch fl.src
  let p := if fl.kind = .can then { pcp := fld srcEnt 34 32 : Parsed }
    else parseEth (frameBytes fl.rcd) srcEnt (bit (c.regAt fl.epoch Reg.CLS.CTRL) 1) (bit (c.regAt fl.epoch Reg.CLS.CTRL) 2)
  let quar := match fl.sq with | some s => !fl.lb && c.quarantined s | none => false
  let fc := pcpMapped srcEnt p
  let c0 := c.inc Reg.CLS.FRAMES_IN
  let fl := { fl with group := if fl.lb then fl.group else fld srcEnt 31 24 }
  let k := if fl.kind = .can then canKey fl.rcd fl.src fl.group else ethHashKey p
  let watch (c : Chip) (miss : Bool) : Chip × Bool :=
    match fl.sq with
    | none => (c, false)
    | some s =>
      if fl.lb || (fl.kind = .can && natBits (leAt fl.rcd 4 4) 26 26 = 1) then (c, false)
      else c.guardFrame s (fl.kind = .can) (if fl.kind = .can then k else BitVec.ofNat 64 (p.vid * 2 ^ 48 + p.smac)) miss wire
  if c.isBenolsia fl p then
    let g := watch c0 false
    (if g.2 then g.1
     else if quar then g.1.quarDrop fl 0
     else g.1.admitCopies fl fc (meteredLen fl.kind fl.rcd) [fl.copy 70 (c.fldOf Reg.BNL.CLASS 2 0)])
  else
    let c1 := if p.trunc && 112 < (frameBytes fl.rcd).length then c0.inc Reg.CLS.PARSE_TRUNC else c0
    if c.bookRules fl.epoch then
      let g := watch c1 (c.bookHit fl k).isNone
      g.1.bookRoute fl k fc quar g.2
    else
      let lk := if fl.kind = .can then c.lookupCan fl.epoch srcEnt k
        else c.lookupEth fl.epoch srcEnt p (tcamKey p fl.src fl.group fl.lb (natBits (leAt fl.rcd 8 4) 31 31 = 1))
      let c2 := if lk.miss then
          ((c1.incRaise Reg.CLS.MISS_CNT 0x048 0).setReg Reg.CLS.MISS_LAST (BitVec.ofNat 32
            (2 ^ 31 + (if fl.kind = .can then 2 ^ 30 else 0) + fl.src * 2 ^ 16 + fl.epoch % 2 ^ 16))).setReg Reg.CLS.MISS_LAST_ID
            (BitVec.ofNat 32 (if fl.kind = .can then (canOfRecord fl.rcd).id else p.etype))
        else c1.inc lk.stat
      let g := watch c2 lk.miss
      g.1.applyAction fl p lk srcEnt quar g.2

end Sys2Proof.Machine
end

