-- ==== Sys2Proof/Config.lean ====
section
/-! DEFINITION. What the spec leaves to the implementation or to the unit and does not state: constants with no body,
so that no proof can use a value of theirs. A statement that holds, holds whatever they are. The cryptographic
algorithms that the spec names without giving them (AES, SHAKE256, Ed448, the key derivations) stand here as functions
of their inputs. -/

/-
MARKS of the model choices coded here; the log rows say each in full.
DESIGN CHOICE (log 6, safe): free values come from an opaque function of a counter in State.
DESIGN CHOICE (log 11, safe): cryptographic algorithms are uninterpreted functions.
DESIGN CHOICE (log 12, safe): sizes the spec does not give are constants with no body.
DESIGN CHOICE (log 105, safe): SRC of a frame that the signal gateway emitted is a free value.
-/

namespace Sys2Proof.Config

/-- A fresh unstated value: applied to the free-value counter of the state. -/
opaque freeValue : Nat → Nat

/-- GCM under a key: IV, additional data and plaintext give the ciphertext. -/
opaque gcmCipher : List Byte → List Byte → List Byte → List Byte → List Byte

/-- GCM under a key: IV, additional data and ciphertext give the plaintext. -/
opaque gcmPlain : List Byte → List Byte → List Byte → List Byte → List Byte

/-- GCM's 16-byte tag: key, IV, additional data, ciphertext. -/
opaque gcmTag : List Byte → List Byte → List Byte → List Byte → List Byte

/-- CCM under a key with a tag length: nonce, additional data, plaintext give the ciphertext. -/
opaque ccmCipher : List Byte → Nat → List Byte → List Byte → List Byte → List Byte

/-- CCM's plaintext of a ciphertext. -/
opaque ccmPlain : List Byte → Nat → List Byte → List Byte → List Byte → List Byte

/-- CCM's tag: key, tag length, nonce, additional data, plaintext. -/
opaque ccmTag : List Byte → Nat → List Byte → List Byte → List Byte → List Byte

/-- AES-CMAC, 16 bytes: key and message. -/
opaque cmac : List Byte → List Byte → List Byte

/-- SHAKE256: message and output length in bytes. -/
opaque shake256 : List Byte → Nat → List Byte

/-- Ed448 with empty context: private key and message give the 114-byte signature. -/
opaque ed448Sign : List Byte → List Byte → List Byte

/-- Ed448: public key, message and signature. -/
opaque ed448Verify : List Byte → List Byte → List Byte → Bool

/-- The Ed448 public key of a private key, 57 bytes. -/
opaque ed448Public : List Byte → List Byte

/-- The Device Root of this unit under the n-th helper data (R419): 32 bytes. -/
opaque deviceRoot : Nat → List Byte

/-- The Skovoc life-cycle public key hash in the boot ROM (R580). -/
opaque lifeCycleKeyHash : List Byte

/-- The Skovoc manifest public key in the boot ROM (R532). -/
opaque manifestKey : List Byte

/-- The size of a memory instance in ranges of 512 words, where the spec does not give it (R469, R484 INST_INFO). -/
opaque instPages : Nat → Nat

/-- The version that an Arbiter firmware image writes to ARB.FW_VER (R498): a function of the image. -/
opaque firmwareVersion : List Byte → Nat

/-- The size in MiB of the flash device on XSPI n, 0 where none is fitted (R529). -/
opaque flashSize : Nat → Nat

/-- The flash clock in MHz after boot (R529). -/
opaque flashClock : Nat

/-- What the SRC byte of a receive descriptor holds for a frame that the signal gateway emitted: R195 gives such a frame no
source (free value, log 105). -/
opaque gatewaySource : BitVec 7

end Sys2Proof.Config
end

