-- ==== Sys2Proof/Machine/Can.lean ====
section
/-! DEFINITION. Chapter 4: CAN controllers. Modes and timing, transmit mailboxes, the choice of the next frame, the
transmit schedule, errors and confinement, and the reading side of the receive buffers. The bus itself is outside:
what happens on it arrives as commands. -/

/-
MARKS of the model choices coded here; the log rows say each in full.
PRESUMED (log 26, unsafe): the longest time of a CAN frame uses the bit counts of ISO 11898-1:2024.
DESIGN CHOICE (log 27, unsafe): CAN schedules: the position from which entries act.
DESIGN CHOICE (log 28, unsafe): CAN mailboxes: LIFETIME, cancellation and rejection corners.
DESIGN CHOICE (log 29, unsafe): when a CAN square's mode takes effect.
DESIGN CHOICE (log 81, unsafe): wake events and capture.
DESIGN CHOICE (log 92, unsafe): CAN time distribution.
DEDUCED (log 93, unsafe): a CAN output that is stalled pulls nothing into its class buffers.
DESIGN CHOICE (log 95, unsafe): staging: what a rejection counts, and the header of a packet that is being written.
DESIGN CHOICE (log 106, unsafe): BO_SEQ: the bus says how many sequences have passed.
DEDUCED (log 107, unsafe): CAN: a frame of the square's own in a loop mode; warning levels of 0.
PRESUMED (log 110, unsafe): CAN XL: an error in the data phase while XL_ERRSIG is 0.
DESIGN CHOICE (log 111, unsafe): CAN timing: TDCV beyond 255, and PWM widths of 0.
DEDUCED (log 112, unsafe): CAN: a return to CONFIG that is withdrawn before the frame in progress ends.
PRESUMED (log 120, unsafe): CAN: the suspend-transmission time.
DESIGN CHOICE (log 122, unsafe): CAN: IDLE_TO in LOOP_INT and at bus-off.
-/

namespace Sys2Proof.Machine

/-- A square is a CAN square (R13). -/
def isCan (q : Nat) : Bool := q < 40

/-- STATUS fields of a CAN square. -/
def Chip.modeAct (c : Chip) (q : Nat) : Nat := c.fldOf (Reg.CAN.STATUS q) 6 4
def Chip.errState (c : Chip) (q : Nat) : Nat := c.fldOf (Reg.CAN.STATUS q) 1 0
def Chip.integrating (c : Chip) (q : Nat) : Bool := c.bitOf (Reg.CAN.STATUS q) 8
def Chip.setStatus (c : Chip) (q hi lo n : Nat) : Chip := c.setFldOf (Reg.CAN.STATUS q) hi lo n

/-- Status code of transmit mailbox n (R106). -/
def Chip.mbStatus (c : Chip) (q n : Nat) : Nat := c.fldOf (Reg.CAN.TX_STAT q (n / 8)) (4 * (n % 8) + 3) (4 * (n % 8))

/-- A mailbox takes a status code; any code other than PENDING sets TX_DONE[n], and TX_DONE AND TX_DONE_IE becoming
non-zero raises TX_DONE (R106). -/
def Chip.setMbStatus (c : Chip) (q n st : Nat) : Chip :=
  let c1 := c.setFldOf (Reg.CAN.TX_STAT q (n / 8)) (4 * (n % 8) + 3) (4 * (n % 8)) st
  if st = 1 then c1 else
  let c2 := c1.setBitOf (Reg.CAN.TX_DONE q) n true
  if (c1.reg (Reg.CAN.TX_DONE q) &&& c1.reg (Reg.CAN.TX_DONE_IE q)) = 0 &&
     (c2.reg (Reg.CAN.TX_DONE q) &&& c2.reg (Reg.CAN.TX_DONE_IE q)) != 0 then c2.raise (pSq q) 5 else c2

/-- Transmit mailbox n. -/
def Chip.mb (c : Chip) (q n : Nat) : TxMailbox := sget {} (c.canSq q).tx n

/-- Transmit mailbox n set. -/
def Chip.setMb (c : Chip) (q n : Nat) (m : TxMailbox) : Chip :=
  c.setCan q { c.canSq q with tx := sset {} (c.canSq q).tx n m }

/-- BAR2 offset of the window of a square (R125). -/
def sqWindow (q : Nat) : Nat := 0x0080_0000 + 0x2000 * q

/-- The frame and the deadline of the mailbox entry as it stands in the window (R104). -/
def Chip.mbEntry (c : Chip) (q n : Nat) : CanFrame × Option Nat :=
  let base := sqWindow q + 0x80 * n
  let bytes := (c.twords base 9).flatMap fun w => bytesLE 8 w.toNat
  let w0 := leAt bytes 0 4
  let w1 := leAt bytes 4 4
  let fmt := natBits w1 31 30
  let rtr := natBits w0 30 30 = 1
  let dlc := natBits w1 19 16
  let life := natBits w1 15 0
  ({ ide := natBits w0 31 31 = 1, rtr := rtr, id := if natBits w0 31 31 = 1 then w0 % 2 ^ 29 else w0 % 2 ^ 11, fmt := fmt, brs := natBits w1 29 29 = 1, dlc := dlc,
     data := if rtr then [] else (bytes.drop 8).take (dlcLen fmt dlc) },
   if life = 0 then none else some (c.now + life * 100 * fsUs))

/-- A mailbox entry is a valid frame for the square (R105). -/
def Chip.mbValid (c : Chip) (q : Nat) (f : CanFrame) : Bool :=
  f.fmt < 2 && (f.fmt = 0 || c.bitOf (Reg.CAN.CTRL q) 4) && !(f.rtr && f.fmt = 1) && !(f.brs && f.fmt = 0)

/-- A copied entry becomes PENDING, or completes at once with FMT_REJECT (R104, R105). -/
def Chip.mbAdmit (c : Chip) (q n : Nat) (e : CanFrame × Option Nat) : Chip :=
  if c.mbValid q e.1 then (c.setMb q n { frame := e.1, deadline := e.2 }).setMbStatus q n 1
  else (c.setMb q n {}).setMbStatus q n 8

/-- A TX_REQ[n] (R104, R105): while the mailbox's frame is on the bus the request is latched. -/
def Chip.txRequest (c : Chip) (q n : Nat) : Chip :=
  let e := c.mbEntry q n
  if (c.canSq q).onBus = some (.mailbox n) then c.setMb q n { c.mb q n with again := some e }
  else c.mbAdmit q n e

/-- The mailbox's attempt is over with a status of its own; a latched request makes it PENDING again (R105). DESIGN CHOICE
(log 28): a TX_CANCEL that was latched for the frame on the bus cancels that frame alone, and a request latched beside it is
still admitted. -/
def Chip.mbFinish (c : Chip) (q n st : Nat) : Chip :=
  match (c.mb q n).again with
  | some e => ((c.setMb q n {}).setMbStatus q n st).mbAdmit q n e
  | none => (c.setMb q n {}).setMbStatus q n st

/-- The bits of a mask, lowest first. -/
def bitsOf (v : Word) : List Nat := (List.range 32).filter fun n => bit v n

/-- TX_REQ (R104): partition k writes a mask of requests. DESIGN CHOICE (log 28): TX_REQ and TX_CANCEL always read 0: their
bits act at once and hold nothing. -/
def doTxReq (k q : Nat) (v : Word) (c : Chip) : Chip :=
  if !isCan q then c else
  c.blockWrite k (Reg.CAN.TX_REQ q) v 0xFFFFFFFF fun c => (bitsOf v).foldl (fun c n => c.txRequest q n) c

/-- A TX_CANCEL[n] (R109): withdrawn at once, or latched while the frame is on the bus. -/
def Chip.txCancel (c : Chip) (q n : Nat) : Chip :=
  if c.mbStatus q n ≠ 1 then c
  else if (c.canSq q).onBus = some (.mailbox n) then c.setMb q n { c.mb q n with cancel := true }
  else (c.setMb q n {}).setMbStatus q n 3

/-- TX_CANCEL (R109): partition k writes a mask of cancels. DESIGN CHOICE (log 28): it always reads 0. -/
def doTxCancel (k q : Nat) (v : Word) (c : Chip) : Chip :=
  if !isCan q then c else
  c.blockWrite k (Reg.CAN.TX_CANCEL q) v 0xFFFFFFFF fun c => (bitsOf v).foldl (fun c n => c.txCancel q n) c

/-- The arbitration field as a number: the bits in the order in which they stand on the bus, lower wins (R102). DESIGN CHOICE (log
28): an XL frame has no extended identifier; of an XL record with IDE 1, which R110 does not call invalid, bits [10:0] of ID stand in
the arbitration field. -/
def arbField (f : CanFrame) : Nat :=
  if f.ide && f.fmt ≠ 2 then f.id / 2 ^ 18 % 2 ^ 11 * 2 ^ 21 + 2 ^ 20 + 2 ^ 19 + f.id % 2 ^ 18 * 2 + (if f.rtr && f.fmt = 0 then 1 else 0)
  else f.id % 2 ^ 11 * 2 ^ 21 + (if f.rtr && f.fmt = 0 then 2 ^ 20 else 0)

/-- The TSYNC identifier registers as a frame (R84, R85). -/
def tsFrame (id : Word) (data : List Byte) : CanFrame :=
  { ide := bit id 31, id := if bit id 31 then fld id 28 0 else fld id 10 0, fmt := 0, dlc := 8, data := data }

/-- Bytes 0 and 1 of a SYNC and seconds of a Tempo value (R85). -/
def syncPayload (seq state ns : Nat) : List Byte :=
  [1, BitVec.ofNat 8 (seq % 16 * 16 + state * 4)] ++ bytesBE 6 (ns / 10 ^ 9)

/-- The frame that a candidate offers. -/
def Chip.srcFrame (c : Chip) (q : Nat) (s : CanSrc) : Option CanFrame :=
  match s with
  | .sync => (c.canSq q).sync.map fun seq => tsFrame (c.reg (Reg.TSYNC.TS_SYNC_ID q)) (syncPayload seq c.tempoState c.ns)
  | .followUp => (c.canSq q).fu.map fun fu => tsFrame (c.reg (Reg.TSYNC.TS_FU_ID q)) fu.payload
  | .cls n => (lookupKey (c.canSq q).cls n).map fun b => b.frame
  | .mailbox n => if c.mbStatus q n = 1 then some (c.mb q n).frame else none

/-- The schedule acts: enabled, with entries and a cycle (R112, R113). -/
def Chip.schedOn (c : Chip) (q : Nat) : Bool :=
  c.bitOf (Reg.CAN.SCHED_CTRL q) 31 && c.fldOf (Reg.CAN.SCHED_CTRL q) 8 0 != 0 && c.reg (Reg.CAN.SCHED_CYCLE q) != 0

/-- SCHED_BASE and SCHED_CYCLE. -/
def Chip.schedBase (c : Chip) (q : Nat) : Nat :=
  (c.reg (Reg.CAN.SCHED_BASE_HI q)).toNat * 2 ^ 32 + (c.reg (Reg.CAN.SCHED_BASE_LO q)).toNat
def Chip.schedCycle (c : Chip) (q : Nat) : Nat := (c.reg (Reg.CAN.SCHED_CYCLE q)).toNat

/-- Schedule entry e (R111). -/
def Chip.schedEntry (c : Chip) (q e : Nat) : Word64 := c.tword (sqWindow q + 0x1000 + 8 * e)

/-- The schedule position belongs to the base and cycle now in force. -/
def Chip.schedFresh (c : Chip) (q : Nat) : Bool := (c.canSq q).schedKey = (c.schedBase q, c.schedCycle q)

/-- The open mask in force: everything open without a schedule or before its first cycle (R112, R113). -/
def Chip.openMask (c : Chip) (q : Nat) : Nat :=
  if c.schedOn q && c.schedFresh q && (c.canSq q).schedPos.isSome then c.fldOf (Reg.CAN.SCHED_STAT q) 8 0 else 0x1FF

/-- The entries that act, with their offsets (R112). -/
def Chip.schedEntries (c : Chip) (q : Nat) : List (Nat × Nat) :=
  ((List.range (c.fldOf (Reg.CAN.SCHED_CTRL q) 8 0)).map fun e => (fld (c.schedEntry q e) 31 0, e)).filter
    fun oe => oe.1 < c.schedCycle q && oe.2 < 256

/-- The least of a list of pairs, first component first. -/
def leastPair : List (Nat × Nat) → Option (Nat × Nat)
  | [] => none
  | p :: rest =>
    match leastPair rest with
    | none => some p
    | some r => if p.1 < r.1 || (p.1 = r.1 && p.2 ≤ r.2) then some p else some r

/-- When an entry is reached next after the position of another (R112): cycle k starts at SCHED_BASE + k x SCHED_CYCLE. -/
def nextOccur (base cyc : Nat) (pos : Nat × Nat) (oe : Nat × Nat) : Nat × Nat :=
  let first := base + oe.1
  if pos.1 < first || (pos.1 = first && pos.2 < oe.2) then (first, oe.2)
  else
    let k := (pos.1 - first) / cyc
    let t := first + k * cyc
    if pos.1 < t || (pos.1 = t && pos.2 < oe.2) then (t, oe.2) else (t + cyc, oe.2)

/-- The start of the cycle in which the schedule is first looked at, or of the first cycle. -/
def Chip.schedStart (c : Chip) (q : Nat) : Nat :=
  let b := c.schedBase q
  if c.ns < b then b else b + (c.ns - b) / c.schedCycle q * c.schedCycle q

/-- When an entry (its offset and index) is reached next: after the position that the schedule has, or in the cycle in which it is
first looked at. -/
def Chip.schedOccur (c : Chip) (q : Nat) (oe : Nat × Nat) : Nat × Nat :=
  match (if c.schedFresh q then (c.canSq q).schedPos else none) with
  | some pos => nextOccur (c.schedBase q) (c.schedCycle q) pos oe
  | none => (c.schedStart q + oe.1, oe.2)

/-- The next schedule entry and its time. -/
def Chip.schedNext (c : Chip) (q : Nat) : Option (Nat × Nat) :=
  if !c.schedOn q then none else leastPair ((c.schedEntries q).map (c.schedOccur q))

/-- CAN_SCHEDULE_ENTRY (R112): the next entry's time is reached; SEND acts as TX_REQ, WINDOW sets the open mask. -/
def doCanScheduleEntry (q : Nat) (c : Chip) : Chip :=
  if !isCan q then c else
  match c.schedNext q with
  | none => c
  | some (t, e) =>
    if c.ns < t then c else
    let w := c.schedEntry q e
    let c1 := c.setCan q { c.canSq q with schedPos := some (t, e), schedKey := (c.schedBase q, c.schedCycle q) }
    let c2 := c1.setFldOf (Reg.CAN.SCHED_STAT q) 24 16 e
    let c3 := if bit w 63 then c2.setFldOf (Reg.CAN.SCHED_STAT q) 8 0 (fld w 56 48)
      else if !(c.schedFresh q && (c.canSq q).schedPos.isSome) then c2.setFldOf (Reg.CAN.SCHED_STAT q) 8 0 0x1FF else c2
    if bit w 62 then c3.txRequest q (fld w 44 40) else c3

/-- The bit of the open mask for a source; TSYNC frames are always eligible (R101, R111). -/
def srcBit : CanSrc → Option Nat
  | .sync => none
  | .followUp => none
  | .cls n => some n
  | .mailbox _ => some 8

/-- Length of one bit in femtoseconds for a timing register (R88): one clock cycle is 6.25 ns. -/
def bitFs (t : Word) : Nat := (fld t 31 24 + 1) * (1 + (fld t 23 16 + 1) + (fld t 14 8 + 1)) * 6250000

/-- The longest time that a frame can take on the bus, with the maximum number of stuff bits (R114): SOF to the end of
EOF, Classical with one stuff bit after every four of the stuffed region; in FD and XL frames the data phase at its
own rate, after the arbitration and before the acknowledgement at the nominal rate. PRESUMED (log 26): the bit counts are those
of ISO 11898-1:2024, which the spec names without repeating them. -/
def Chip.longestFs (c : Chip) (q : Nat) (f : CanFrame) : Nat :=
  let nb := bitFs (c.reg (Reg.CAN.NBT q))
  let n := f.data.length
  if f.fmt = 0 then
    let stuffed := (if f.ide then 54 else 34) + 8 * n
    (stuffed + (stuffed - 1) / 4 + 10) * nb
  else if f.fmt = 1 then
    let arb := if f.ide then 36 else 17
    let crc := if n ≤ 16 then 17 + 5 else 21 + 6
    let dat := 5 + 8 * n + (5 + 8 * n) / 4 + 1 + 4 + 1 + crc
    let db := if f.brs then bitFs (c.reg (Reg.CAN.DBT q)) else nb
    (arb + arb / 4 + 12) * nb + dat * db
  else
    let arb := 18
    let dat := 9 + 8 + 1 + 11 + 3 + 13 + 8 + 32 + 8 * n + 32
    (arb + arb / 4 + 12) * nb + (dat + dat / 10 + 4) * bitFs (c.reg (Reg.CAN.XBT q))

/-- The time of the next entry that closes a source, if any (R114). -/
def Chip.nextClose (c : Chip) (q b : Nat) : Option Nat :=
  if !c.schedOn q then none else
  (leastPair (((c.schedEntries q).filter fun oe =>
      bit (c.schedEntry q oe.2) 63 && !bit (c.schedEntry q oe.2) (48 + b)).map (c.schedOccur q))).map (·.1)

/-- A candidate is open in the transmit schedule, guarded if GUARD is set (R101, R114). -/
def Chip.srcOpen (c : Chip) (q : Nat) (s : CanSrc) (f : CanFrame) : Bool :=
  match srcBit s with
  | none => true
  | some b =>
    natBits (c.openMask q) b b = 1 &&
      (!c.bitOf (Reg.CAN.SCHED_CTRL q) 30 ||
        match c.nextClose q b with
        | none => true
        | some t => decide (c.ns * 10 ^ 6 + c.longestFs q f < t * 10 ^ 6))

/-- The deadline of a candidate has passed (R107). -/
def Chip.srcExpired (c : Chip) (q : Nat) (s : CanSrc) : Bool :=
  match s with
  | .cls n => match lookupKey (c.canSq q).cls n with
    | some b => (match b.copy.deadline with | some d => decide (d < c.ns) | none => false)
    | none => false
  | .mailbox n => match (c.mb q n).deadline with | some d => decide (d < c.now) | none => false
  | _ => false

/-- All candidates in the order in which equal arbitration fields are offered (R102). DESIGN CHOICE (log 92): a SYNC stands before
a FOLLOW-UP with the same arbitration field. -/
def canSources : List CanSrc :=
  [.sync, .followUp] ++ ((List.range 8).reverse.map .cls) ++ ((List.range 32).map .mailbox)

/-- The eligible candidates with their arbitration fields (R101); a double-plane fault stops fabric frames (R387), and FREE a
SYNC unless SEND_FREE is 1 (R85). -/
def Chip.eligible (c : Chip) (q : Nat) : List (CanSrc × Nat) :=
  canSources.filterMap fun s =>
    match c.srcFrame q s with
    | none => none
    | some f =>
      let cut := match s with
        | .cls _ => c.bitOf Reg.ADJ.STATUS 3
        | .sync => c.tempoState = 0 && !c.bitOf Reg.TSYNC.TS_CTRL 1
        | _ => false
      if c.srcOpen q s f && !c.srcExpired q s && !cut then some (s, arbField f) else none

/-- The first of the least. -/
def bestOf : List (CanSrc × Nat) → Option (CanSrc × Nat)
  | [] => none
  | p :: rest =>
    match bestOf rest with
    | none => some p
    | some r => if p.2 ≤ r.2 then some p else some r

/-- The controller may start a frame: a transmitting mode, integrated, not bus-off, the bus idle, no suspend-transmission time,
no entry into ADJOURNED (R92, R93, R115, R117, R551). -/
def Chip.mayTransmit (c : Chip) (q : Nat) : Bool :=
  (c.modeAct q = 1 || c.modeAct q = 4 || c.modeAct q = 5) && !c.integrating q && c.errState q != 2 &&
    (c.canSq q).onBus.isNone && !(c.canSq q).receiving && c.fldOf (Reg.CAN.CTRL q) 2 0 != 0 && !(c.canSq q).resetReq &&
    c.power.entering.isNone && decide ((c.canSq q).suspend ≤ c.now)

/-- A frame as the controller sends it: the ESI of an FD frame follows its own state (R94). -/
def Chip.onWire (c : Chip) (q : Nat) (f : CanFrame) : CanFrame := { f with esi := f.fmt = 1 && c.errState q = 1 }

/-- The PWM coding of the data phase of an XL frame (R91): the PWM register while PWM_EN is 1. -/
def Chip.pwmOf (c : Chip) (q : Nat) (f : CanFrame) : Nat :=
  if f.fmt = 2 && c.bitOf (Reg.CAN.PWM q) 0 then (c.reg (Reg.CAN.PWM q)).toNat else 0

/-- The data phase of an XL frame under PWM coding (R91): the transceiver is switched for it, argument 3 for transmission, 2 for
reception, and switched back after it, argument 4. A frame that lost arbitration never came to its data phase. -/
def Chip.trxMode (c : Chip) (q : Nat) (f : CanFrame) (arg : Nat) : Chip :=
  if c.pwmOf q f = 0 then c else (c.emit { kind := .canTrx, unit := q, arg := arg }).emit { kind := .canTrx, unit := q, arg := 4 }

/-- CAN_TX_ATTEMPT (R102): the controller offers the eligible candidate that would win arbitration. In LOOP_INT TXD stays
recessive (R92). -/
def doCanTxAttempt (q : Nat) (c : Chip) : Chip :=
  if !isCan q || !c.mayTransmit q then c else
  match bestOf (c.eligible q) with
  | none => c
  | some (s, _) =>
    let c1 := (c.setCan q { c.canSq q with onBus := some s }).setStatus q 9 9 0
    match c.srcFrame q s with
    | none => c1
    | some f =>
      if c.modeAct q = 4 then c1
      else c1.emit { kind := .canStart, unit := q, arg := c.pwmOf q f, data := canRecord (c.onWire q f) true c.ns }

/-- A CAN square distributes time: EN is 1 and its PERIOD is not zero (R84). -/
def Chip.tsActive (c : Chip) (q : Nat) : Bool := c.bitOf Reg.TSYNC.TS_CTRL 0 && c.fldOf (Reg.TSYNC.TS_SQ q) 15 0 != 0

/-- The first whole multiple of PERIOD after an instant, in Tempo ns. -/
def Chip.tsMultiple (c : Chip) (q ns : Nat) : Nat :=
  let p := c.fldOf (Reg.TSYNC.TS_SQ q) 15 0 * 1000000
  if p = 0 then 0 else (ns / p + 1) * p

/-- What a reset of a CAN square does (R124): registers at reset values, window wiped, buffers empty, pending mailboxes RESET,
frames from the class buffers counted in RESET_DROP, TXD recessive. The next SYNC is that of the next multiple of PERIOD. -/
def Chip.canWipe (c : Chip) (q : Nat) : Chip :=
  let s := c.canSq q
  let pend := (List.range 32).filter fun n => c.mbStatus q n = 1
  let c1 := (c.resetDrops q).addTo Reg.BUF.RESET_DROP s.cls.length
  let c2 := ((c1.setCan q { syncNext := c1.tsMultiple q c1.ns }).resetPage (pSq q)).wipeTable (sqWindow q) 0x1800
  let c3 := pend.foldl (fun c n => c.setMbStatus q n 7) c2
  c.stbEdge (c3.stgReset q)

/-- A requested reset of a CAN square takes effect: its pages stay in reset until BIST has run (R124, R481). -/
def Chip.canHalt (c : Chip) (q : Nat) : Chip :=
  let c1 := c.canWipe q
  c1.setCan q { c1.canSq q with resetReq := true }

/-- IDLE_TO's time runs while the controller takes part in the bus or listens to it (R121): not in CONFIG, not in LOOP_INT, which does
not read RXD (R92), and not in bus-off. -/
def Chip.idleRuns (c : Chip) (q : Nat) : Bool := c.modeAct q != 0 && c.modeAct q != 4 && c.errState q != 2

/-- IDLE_TO's time stops or goes on with a change of the mode or of the error state. DESIGN CHOICE (log 122): what had run before
LOOP_INT or bus-off is kept and goes on from there. -/
def Chip.idleGate (before c : Chip) (q : Nat) : Chip :=
  let s := c.canSq q
  if before.idleRuns q && !c.idleRuns q then
    (match s.idleFrom with | some t => c.setCan q { s with idleFrom := none, idleHeld := some (c.now - t) } | none => c)
  else if !before.idleRuns q && c.idleRuns q then
    (match s.idleHeld with | some h => c.setCan q { s with idleFrom := some (c.now - h), idleHeld := none } | none => c)
  else c

/-- MODE_ACT changes between two modes that are not CONFIG. -/
def Chip.switchMode (c : Chip) (q m : Nat) : Chip := Chip.idleGate c (c.setStatus q 6 4 m) q

/-- The end of a frame or error frame in which the controller took part: the bus is idle again, and what waited for the end takes
effect: a square reset (R124), a change of the mode, or the integration after a change to CONFIG that was withdrawn (R93). -/
def Chip.busEnd (c : Chip) (q : Nat) : Chip :=
  let c1 := c.setCan q { c.canSq q with onBus := none, receiving := false }
  if (c1.canSq q).resetReq then c1.canHalt q
  else if c1.fldOf (Reg.CAN.CTRL q) 2 0 = 0 then
    ((c1.setCan q { c1.canSq q with idleFrom := none, idleHeld := none }).setStatus q 9 8 0).setStatus q 6 4 0
  else if (c1.canSq q).leave then
    ((c1.setCan q { c1.canSq q with leave := false, idleFrom := none, idleHeld := none }).setStatus q 9 8 1).setStatus q 6 4 (c1.fldOf (Reg.CAN.CTRL q) 2 0)
  else (c1.switchMode q (c1.fldOf (Reg.CAN.CTRL q) 2 0)).setStatus q 9 9 1

/-- Error counters (R115, R116): TEC in [24:16] and REC in [7:0] of ERR_CNT, RP while REC is above 127. -/
def Chip.tec (c : Chip) (q : Nat) : Nat := c.fldOf (Reg.CAN.ERR_CNT q) 24 16
def Chip.rec8 (c : Chip) (q : Nat) : Nat := c.fldOf (Reg.CAN.ERR_CNT q) 7 0

/-- TX_WARN_LVL and RX_WARN_LVL of STATUS, as ERR_CNT and ERR_WARN stand (R116, R125). -/
def Chip.warnLevels (c : Chip) (q : Nat) : Chip :=
  (c.setStatus q 2 2 (if c.fldOf (Reg.CAN.ERR_WARN q) 23 16 ≤ c.tec q then 1 else 0)).setStatus q 3 3
    (if c.fldOf (Reg.CAN.ERR_WARN q) 7 0 ≤ c.rec8 q then 1 else 0)

/-- The levels and the state that follow from the counters; rising through a warning level, entering error-passive and
entering bus-off raise their sources (R115-R117). -/
def Chip.setCounters (c : Chip) (q tec rec : Nat) : Chip :=
  let oldT := c.tec q
  let oldR := c.rec8 q
  let tw := c.fldOf (Reg.CAN.ERR_WARN q) 23 16
  let rw := c.fldOf (Reg.CAN.ERR_WARN q) 7 0
  let c1 := c.setReg (Reg.CAN.ERR_CNT q) (BitVec.ofNat 32 (Nat.min tec 511 * 2 ^ 16 + (if 127 < rec then 2 ^ 15 else 0) + Nat.min rec 255))
  let c2 := c1.warnLevels q
  let c3 := if tw != 0 && oldT < tw && tw ≤ tec then c2.raise (pSq q) 6 else c2
  let c4 := if rw != 0 && oldR < rw && rw ≤ rec then c3.raise (pSq q) 7 else c3
  let st := if 256 ≤ tec then 2 else if 128 ≤ tec || 128 ≤ rec then 1 else 0
  let old := c.errState q
  let c5 := Chip.idleGate c4 (c4.setStatus q 1 0 st) q
  let c6 := if st = 1 && old = 0 then c5.raise (pSq q) 8 else c5
  if st = 2 && old ≠ 2 then
    let c7 := ((c6.inc (Reg.CAN.BO_CNT q)).raise (pSq q) 9).setStatus q 23 16 0
    if c7.bitOf (Reg.CAN.CTRL q) 7 then c7.setStatus q 12 12 1 else c7.setStatus q 13 13 1
  else c6

/-- REC after a frame received without error: less one, and from above 127 to a value between 119 and 127, which
ISO 11898-1 leaves to the implementation (a free value in that range). -/
def Chip.recAfterGood (c : Chip) (q : Nat) : Nat :=
  let r := c.rec8 q
  if r = 0 then 0 else if r ≤ 127 then r - 1 else 119 + Config.freeValue c.free % 9

/-- A frame that the part takes in: the staging record and, for Classical and FD frames, one receive buffer (R94, R97). A faulty
controller commits no bytes of its record (R181). -/
def Chip.canDeliver (c : Chip) (q : Nat) (f : CanFrame) (self : Bool) (x : CanIn) : Chip :=
  let c1 := c.stgCommit q (if x.fault then [] else canRecord f self c.ns) x.wire false
  match c1.rxPlace q f with
  | none => c1
  | some n => c1.rxArrive q n { frame := f, stamp := c.ns % 2 ^ 48, tstate := c.tempoState }

/-- A format is enabled on a square. -/
def Chip.fmtEnabled (c : Chip) (q : Nat) (f : CanFrame) : Bool :=
  f.fmt = 0 || (f.fmt = 1 && c.bitOf (Reg.CAN.CTRL q) 4) || (f.fmt = 2 && c.bitOf (Reg.CAN.CTRL q) 5)

/-- The controller listens to frames of other nodes: NORMAL, LISTEN, RESTRICTED or LOOP_EXT, integrated (R92-R94). -/
def Chip.listens (c : Chip) (q : Nat) : Bool :=
  (c.modeAct q = 1 || c.modeAct q = 2 || c.modeAct q = 3 || c.modeAct q = 5) && !c.integrating q && c.errState q != 2

/-- CAN_FRAME_RECEIVED (R94): a valid frame of another node ends on the bus of square q at the current Tempo. -/
def doCanFrameReceived (q : Nat) (f : CanFrame) (x : CanIn) (c : Chip) : Chip :=
  if !isCan q || !c.listens q || !c.fmtEnabled q f then c else
  let c1 := c.inc (Reg.CAN.RX_FRAMES q)
  let c2 := if c.modeAct q = 2 then c1 else (c1.setCounters q (c1.tec q) (c1.recAfterGood q)).advanceFree
  let c3 := c2.setCan q { c2.canSq q with idleFrom := some c.now, idleRaised := false, suspend := 0 }
  ((c3.trxMode q f 2).canDeliver q f false x).busEnd q

/-- A withdrawn SYNC counted as a failure (R84). -/
def Chip.tsFail (c : Chip) (q seq : Nat) : Chip :=
  ((c.setReg (Reg.TSYNC.TS_STAT q) (BitVec.ofNat 32 (2 ^ 8 + seq % 16))).inc Reg.TSYNC.TS_FAIL_CNT).raise 0x011 0

/-- A replaced FOLLOW-UP counts as a failure and leaves SEQ, which is that of the last SYNC (R604). -/
def Chip.tsFuFail (c : Chip) (q : Nat) : Chip :=
  ((c.setBitOf (Reg.TSYNC.TS_STAT q) 8 true).inc Reg.TSYNC.TS_FAIL_CNT).raise 0x011 0

/-- A SYNC is queued with the next SEQ (R84). -/
def Chip.queueSync (c : Chip) (q : Nat) : Chip :=
  let s := c.canSq q
  c.setCan q { s with sync := some s.seq, seq := (s.seq + 1) % 16, syncAgain := false }

/-- The SYNC of a multiple that arrived during an attempt is queued once that attempt has ended (R84). -/
def Chip.syncFollow (c : Chip) (q : Nat) : Chip := if (c.canSq q).syncAgain then c.queueSync q else c

/-- The own frame on the bus failed without being sent: a lost arbitration or an error frame. A SYNC whose next multiple
has come and a FOLLOW-UP whose successor is queued are withdrawn (R84, R604). -/
def Chip.tsAttemptFailed (c : Chip) (q : Nat) (s : CanSrc) : Chip :=
  match s with
  | .sync =>
    if (c.canSq q).syncAgain then
      (match (c.canSq q).sync with
       | none => c
       | some seq => ((c.setCan q { c.canSq q with sync := none }).tsFail q seq).syncFollow q)
    else c
  | .followUp =>
    match (c.canSq q).fuAgain, (c.canSq q).fu with
    | some n, some _ => (c.setCan q { c.canSq q with fu := some n, fuAgain := none }).tsFuFail q
    | _, _ => c
  | _ => c

/-- CAN_ARBITRATION_LOST (R102, R109): the controller continues as receiver; a latched cancel and a square reset that waited for
the own frame take effect. -/
def doCanArbitrationLost (q : Nat) (c : Chip) : Chip :=
  if !isCan q || c.modeAct q = 4 then c else
  match (c.canSq q).onBus with
  | none => c
  | some s =>
    let c1 := (c.setCan q { c.canSq q with onBus := none, receiving := true }).inc (Reg.CAN.ARB_LOST_CNT q)
    let c2 := match s with
      | .mailbox n =>
        if (c1.mb q n).cancel then c1.mbFinish q n 3
        else (match (c1.mb q n).again with
          | some e => (c1.setMb q n {}).mbAdmit q n e
          | none => c1)
      | s => c1.tsAttemptFailed q s
    if (c2.canSq q).resetReq then c2.canHalt q else c2

/-- A fabric class buffer is emptied. -/
def Chip.dropCls (c : Chip) (q n : Nat) : Chip :=
  c.setCan q { c.canSq q with cls := (c.canSq q).cls.filter (fun e => e.1 != n) }

/-- The own attempt ended in an error frame (R108, R109). DESIGN CHOICE (log 28): a mailbox with a latched request goes straight
to the new copy, without a status of the failed attempt, and that copy is judged only then; so it is after a lost
arbitration. -/
def Chip.attemptFailed (c : Chip) (q : Nat) (s : CanSrc) : Chip :=
  let lim := c.fldOf (Reg.CAN.CTRL q) 15 12
  match s with
  | .mailbox n =>
    let m := c.mb q n
    if lim ≠ 0 && lim ≤ m.attempts + 1 then c.mbFinish q n 6
    else if m.cancel then c.mbFinish q n 3
    else (match m.again with
      | some e => (c.setMb q n {}).mbAdmit q n e
      | none => c.setMb q n { m with attempts := m.attempts + 1 })
  | .cls n =>
    match lookupKey (c.canSq q).cls n with
    | none => c
    | some b =>
      if lim ≠ 0 && lim ≤ b.attempts + 1 then (c.dropCls q n).inc (Reg.CAN.RETRY_CNT q)
      else c.setCan q { c.canSq q with cls := insertKey (c.canSq q).cls n { b with attempts := b.attempts + 1 } }
  | s => c.tsAttemptFailed q s

/-- TDCV takes a loop delay measured in an own FD or XL frame (R90); DESIGN CHOICE (log 111): above 255 cycles the 8 bits of
TDCV saturate. -/
def Chip.tdcMeasure (c : Chip) (q : Nat) (f : CanFrame) (delay : Option Nat) : Chip :=
  match delay with
  | none => c
  | some d =>
    if c.bitOf (Reg.CAN.TDC q) 31 && f.fmt ≠ 0 && c.fldOf (Reg.CAN.TDC q) 15 8 ≤ d then c.setFldOf (Reg.CAN.TDC q) 7 0 (Nat.min 255 d)
    else c

/-- The secondary sample point in clock cycles after the start of each data bit of an own frame (R90). -/
def Chip.sspOf (c : Chip) (q : Nat) (f : CanFrame) : Nat :=
  if c.bitOf (Reg.CAN.TDC q) 31 && (f.fmt = 2 || (f.fmt = 1 && f.brs)) then c.fldOf (Reg.CAN.TDC q) 7 0 + c.fldOf (Reg.CAN.TDC q) 23 16
  else 0

/-- The loop delay measured in the own frame on the bus. -/
def Chip.ownMeasure (c : Chip) (q : Nat) (delay : Option Nat) : Chip :=
  match (c.canSq q).onBus with
  | none => c
  | some s => match c.srcFrame q s with | none => c | some f => c.tdcMeasure q f delay

/-- The suspend-transmission time of an error-passive transmitter (R115): 8 nominal bit times after an intermission of 3. -/
def Chip.suspendTx (c : Chip) (q : Nat) : Chip :=
  if c.errState q ≠ 1 then c
  else c.setCan q { c.canSq q with suspend := c.now + 11 * bitFs (c.reg (Reg.CAN.NBT q)) }

/-- The attempt on the bus, if any, has failed. -/
def Chip.ownFailed (c : Chip) (q : Nat) (own : Option CanSrc) : Chip :=
  match own with | none => c | some s => (c.attemptFailed q s).suspendTx q

/-- The record of a frame that was coming in when the error stood, another node's or one of the own (R106), is rejected (R180). DESIGN
CHOICE (log 95): its first byte is handed over with the data field, so an error before that rewinds nothing. -/
def Chip.canLost (c : Chip) (q field : Nat) : Chip :=
  let takes := (c.canSq q).onBus.isNone || c.modeAct q = 5 || c.bitOf (Reg.CAN.CTRL q) 9
  if takes && 2 ≤ field then c.stgReject q [] false else c

/-- An error of type ty (1 bit, 2 stuff, 3 CRC, 4 form, 5 acknowledgement) in a field at a bit position, answered with
an error frame. `heavy` and `exempt` name the cases of ISO 11898-1 in which a receiver counts 8 and a transmitter
counts nothing. -/
def Chip.canError (c : Chip) (q ty field pos : Nat) (heavy exempt : Bool) : Chip :=
  let c := c.canLost q field
  let own := (c.canSq q).onBus
  let c1 := (c.setReg (Reg.CAN.ERR_CAP q) (BitVec.ofNat 32
      (2 ^ 31 + ty % 8 * 2 ^ 24 + field % 4 * 2 ^ 22 + (if own.isSome then 2 ^ 21 else 0) + pos % 2 ^ 16))).inc (Reg.CAN.ERR_FRAMES q)
  let c2 := if c.modeAct q = 2 then c1
    else if own.isSome then c1.setCounters q (c1.tec q + (if exempt then 0 else 8)) (c1.rec8 q)
    else c1.setCounters q (c1.tec q) (Nat.min 255 (c1.rec8 q + (if heavy then 8 else 1)))
  let c3 := if c.modeAct q = 2 || c.modeAct q = 3 then c2 else c2.emit { kind := .canError, unit := q }
  ((c3.setCan q { c3.canSq q with onBus := none }).ownFailed q own).busEnd q

/-- The controller leaves the frame in progress and integrates again (R95). -/
def Chip.reintegrate (c : Chip) (q : Nat) : Chip :=
  let c1 := c.busEnd q
  if c1.modeAct q = 0 then c1 else c1.setStatus q 9 8 1

/-- An error in the data phase of an XL frame while XL_ERRSIG is 0 (R86). PRESUMED (log 110), as ISO 11898-1 has it: no error frame,
no count, no record in ERR_CAP; the attempt has failed, and the controller integrates again. -/
def Chip.xlQuiet (c : Chip) (q : Nat) : Chip :=
  let own := (c.canSq q).onBus
  let c0 := (c.trxMode q { id := 0, fmt := 2 } (if own.isSome then 3 else 2)).canLost q 2
  ((c0.setCan q { c0.canSq q with onBus := none }).ownFailed q own).reintegrate q

/-- A controller that takes part in the bus: in a mode, integrated, not bus-off; in LOOP_INT it does not read RXD (R92). -/
def Chip.onCanBus (c : Chip) (q : Nat) : Bool :=
  c.modeAct q != 0 && c.modeAct q != 4 && !c.integrating q && c.errState q != 2

/-- CAN_ERROR_FRAME (R86, R90, R95, R119). In LOOP_EXT a missing acknowledgement is no error (R92). -/
def doCanErrorFrame (q ty : Nat) (e : CanErr) (pos : Nat) (heavy exempt : Bool) (c : Chip) : Chip :=
  if !isCan q || !c.onCanBus q || (c.modeAct q = 5 && ty = 5) then c
  else if e.xl && !c.bitOf (Reg.CAN.CTRL q) 8 then (c.ownMeasure q e.delay).xlQuiet q
  else (c.ownMeasure q e.delay).canError q ty e.field pos heavy exempt

/-- PROTOCOL_EXCEPTION (R95): a recessive res bit or a format not enabled; with PXHD 1 it is a form error. -/
def doProtocolException (q pos : Nat) (c : Chip) : Chip :=
  if !isCan q || !c.onCanBus q then c
  else if c.bitOf (Reg.CAN.CTRL q) 6 then c.canError q 4 1 pos false false
  else ((c.inc (Reg.CAN.PXE_CNT q)).raise (pSq q) 12).reintegrate q

/-- The nominal bit in time quanta, in clock cycles (R89). -/
def bitTq (t : Word) : Nat := 1 + (fld t 23 16 + 1) + (fld t 14 8 + 1)
def bitCycles (t : Word) : Nat := (fld t 31 24 + 1) * bitTq t

/-- TIMING_VALIDATE (R89) and the refusals of R91. DESIGN CHOICE (log 111): a PWMS or PWML of 0, outside the 1-63 that R91 gives, is
not refused of itself: only PWMS >= PWML is. -/
def Chip.timingOk (c : Chip) (q : Nat) (ctrl : Word) : Bool :=
  let n := c.reg (Reg.CAN.NBT q)
  let d := c.reg (Reg.CAN.DBT q)
  let x := c.reg (Reg.CAN.XBT q)
  let pwm := c.reg (Reg.CAN.PWM q)
  let sjw (t : Word) : Bool := fld t 6 0 ≤ fld t 14 8
  8 ≤ bitTq n && bitTq n ≤ 385 && 160 ≤ bitCycles n && bitCycles n ≤ 16000 && sjw n && sjw d && sjw x &&
  (!bit ctrl 4 || (5 ≤ bitTq d && bitTq d ≤ 385 && 20 ≤ bitCycles d && bitCycles d ≤ bitCycles n)) &&
  (!bit ctrl 5 || (5 ≤ bitTq x && bitTq x ≤ 385 && 8 ≤ bitCycles x && bitCycles x ≤ bitCycles n)) &&
  !(bit pwm 0 && (!bit ctrl 5 || bit ctrl 8 || fld pwm 21 16 ≤ fld pwm 13 8))

/-- The controller is in the middle of a frame. -/
def CanSq.busy (s : CanSq) : Bool := s.onBus.isSome || s.receiving

/-- Class buffers whose frames the square's formats no longer allow are emptied before they are offered (R110). -/
def Chip.fmtPurge (c : Chip) (q : Nat) : Chip :=
  ((c.canSq q).cls.filter fun e => !c.fmtEnabled q e.2.frame).foldl
    (fun (c : Chip) e => (c.dropCls q e.1).incRaise (Reg.CAN.FMT_DROP_CNT q) (pSq q) 15) c

/-- CTRL.MODE leaves CONFIG with timing that holds: the mode is in force and the controller integrates; where the return to CONFIG
still waited for the end of a frame, it does so once that frame has ended (R93). -/
def Chip.leaveConfig (c : Chip) (q m : Nat) : Chip :=
  if c.modeAct q = 0 then ((c.setStatus q 6 4 m).setStatus q 8 8 1).fmtPurge q else c.setCan q { c.canSq q with leave := true }

/-- CTRL.MODE is CONFIG: at once, or at the end of the frame in progress (R93). -/
def Chip.enterConfig (c : Chip) (q : Nat) (rx : Bool) : Chip :=
  let c0 := c.setCan q { c.canSq q with leave := false }
  if c.modeAct q = 0 then c0.fmtPurge q
  else if (c.canSq q).busy then c0
  else if rx && c.onCanBus q then c0.setCan q { c0.canSq q with receiving := true }
  else ((c0.setStatus q 6 4 0).setStatus q 9 8 0).setCan q { c0.canSq q with idleFrom := none, idleHeld := none }

/-- The effect of a CTRL value that a write would leave (R89, R91-R93, R605); `rx` says that a frame of another node or an
error frame is on the bus, which then completes under the mode in force. DEDUCED (log 112): where CONFIG is left again before the
frame in progress has ended, the timing is checked at once, and the controller integrates at the end of that frame. -/
def Chip.canCtrl (c : Chip) (q : Nat) (nv : Word) (rx : Bool) : Chip :=
  let old := c.reg (Reg.CAN.CTRL q)
  let m := fld nv 2 0
  let act := c.modeAct q
  let cfgErr (c : Chip) : Chip := c.setStatus q 11 11 1
  if 6 ≤ m then (cfgErr c).setErr (pSq q) 7
  else if act ≠ 0 && ((old ^^^ nv) &&& 0x170) ≠ 0 then (cfgErr c).setErr (pSq q) 7
  else if m ≠ 0 && m ≠ 4 && c.bitOf (Reg.CAN.TRX q) 0 then cfgErr c
  else if fld old 2 0 = 0 && m ≠ 0 then
    (if c.timingOk q nv then ((c.setReg (Reg.CAN.CTRL q) nv).setStatus q 11 11 0).leaveConfig q m
     else cfgErr (c.setReg (Reg.CAN.CTRL q) (setFld nv 2 0 0)))
  else
    let c1 := (c.setReg (Reg.CAN.CTRL q) nv).setStatus q 11 11 0
    if m = 0 then c1.enterConfig q rx
    else if (c.canSq q).leave || (c.canSq q).busy then c1
    else if rx && c.onCanBus q && m ≠ act then c1.setCan q { c1.canSq q with receiving := true }
    else c1.switchMode q m

/-- CAN_CTRL_WRITE (R605): partition k writes CTRL of square q. -/
def doCanCtrlWrite (k q : Nat) (v : Word) (be : Nat) (rx : Bool) (c : Chip) : Chip :=
  if !isCan q then c else
  c.blockWrite k (Reg.CAN.CTRL q) v (beMask be) fun c =>
    c.canCtrl q (RegRow.apply { off := 0x40, rw := 0xF3F7 } (c.reg (Reg.CAN.CTRL q)) v (beMask be)) rx

/-- CAN_INTEGRATION_DONE (R93, R121): after 11 recessive bits the controller takes part in the bus. -/
def doCanIntegrationDone (q : Nat) (c : Chip) : Chip :=
  if !isCan q || !c.integrating q then c else
  let c1 := c.setStatus q 9 8 2
  match (c.canSq q).idleFrom with
  | none => c1.setCan q (if c.idleRuns q then { c1.canSq q with idleFrom := some c.now } else { c1.canSq q with idleHeld := some 0 })
  | some _ => c1

/-- RX_MAILBOX_LOCK (R99): reader k reads word 0 of buffer n. -/
def doRxMailboxLock (k q n : Nat) (seen : Bool) (c : Chip) : Chip :=
  if !isCan q || 20 ≤ n || (c.rxBuf q n).state ≠ 1 then c else
  c.volatileRead k (rxAddr q n 0) seen ((c.rxBuf q n).word 0) fun c => c.setRx q n { c.rxBuf q n with state := 2 }

/-- RX_MAILBOX_RELEASE (R99): reader k reads word L of buffer n. -/
def doRxMailboxRelease (k q n : Nat) (seen : Bool) (c : Chip) : Chip :=
  if !isCan q || 20 ≤ n || (c.rxBuf q n).state ≠ 2 then c else
  let l := (c.rxBuf q n).lastWord
  c.volatileRead k (rxAddr q n l) seen ((c.rxBuf q n).word l) fun c => c.rxRelease q n

/-- The FOLLOW-UP of a SYNC with a SEQ, a state and an egress stamp (R85). -/
def followUpOf (seq state ns errNs : Nat) : FollowUp :=
  { payload := [2, BitVec.ofNat 8 (seq % 16 * 16 + state * 4)] ++ bytesBE 4 (ns % 10 ^ 9) ++ bytesBE 2 (Nat.min 0xFFFF (errNs / 1000)),
    seq := seq }

/-- A sent frame completes its source (R84, R106, R109). -/
def Chip.srcSent (c : Chip) (q : Nat) (s : CanSrc) : Chip :=
  match s with
  | .mailbox n => c.mbFinish q n (if (c.mb q n).cancel then 4 else 2)
  | .cls n => c.dropCls q n
  | .sync =>
    (match (c.canSq q).sync with
     | none => c
     | some seq =>
       let c1 := c.setReg (Reg.TSYNC.TS_STAT q) (BitVec.ofNat 32 (seq % 16))
       (c1.setCan q { c1.canSq q with
          sync := none,
          fuDue := (c1.canSq q).fuDue ++ [(c.now + c.fldOf Reg.TSYNC.TS_FU_DELAY 15 0 * fsUs,
                         followUpOf seq c.tempoState c.ns (c.reg Reg.TEMPO.ERR_EST).toNat)] }).syncFollow q)
  | .followUp =>
    (c.setCan q { c.canSq q with fu := (c.canSq q).fuAgain, fuAgain := none }).setBitOf (Reg.TSYNC.TS_STAT q) 8 false

/-- CAN_FRAME_TRANSMITTED (R106): the own frame on the bus was sent and acknowledged, at the current Tempo; `delay` is
the loop delay measured in it, in clock cycles (R90). In LOOP_INT nothing reaches the bus (R92). -/
def doCanFrameTransmitted (q : Nat) (delay : Option Nat) (c : Chip) : Chip :=
  if !isCan q then c else
  match (c.canSq q).onBus with
  | none => c
  | some s =>
    match c.srcFrame q s with
    | none => c
    | some f0 =>
      let f := c.onWire q f0
      let int := c.modeAct q = 4
      let c0 := if int then c else c.tdcMeasure q f delay
      let c1 := if int then c0 else (c0.trxMode q f 3).emit { kind := .canSent, unit := q, arg := c0.sspOf q f, data := canRecord f true c.ns }
      let c2 := (c1.inc (Reg.CAN.TX_FRAMES q)).setCounters q (c.tec q - 1) (c.rec8 q)
      let loop := int || c.modeAct q = 5
      let c3 := if loop || c.bitOf (Reg.CAN.CTRL q) 9 then c2.canDeliver q f true {} else c2
      let c4 := if loop then c3.inc (Reg.CAN.RX_FRAMES q) else c3
      ((((c4.setCan q { c4.canSq q with onBus := none }).srcSent q s).suspendTx q).busEnd q)

/-- CAN_DEADLINE_EXPIRY (R107): a waiting frame whose deadline has passed, and that is not on the bus, is discarded. -/
def doCanDeadlineExpiry (q : Nat) (s : CanSrc) (c : Chip) : Chip :=
  if !isCan q || (c.canSq q).onBus = some s || !c.srcExpired q s then c else
  match s with
  | .mailbox n =>
    if c.mbStatus q n ≠ 1 then c
    else (((c.setMb q n {}).setMbStatus q n 5).inc (Reg.CAN.STALE_CNT q)).raise (pSq q) 16
  | .cls n => ((c.dropCls q n).inc (Reg.CAN.STALE_CNT q)).raise (pSq q) 16
  | _ => c

/-- BO_RECOVER (R118). -/
def doBoRecover (k q : Nat) (v : Word) (c : Chip) : Chip :=
  if !isCan q then c else
  c.blockWrite k (Reg.CAN.BO_RECOVER q) v 0xFFFFFFFF fun c =>
    if bit v 0 && c.bitOf (Reg.CAN.STATUS q) 13 then (c.setStatus q 13 12 1).setStatus q 23 16 0 else c

/-- CAN_BUSOFF_RECOVERED (R118): `seqs` sequences of 11 recessive bits have been counted; with 128 recovery completes. -/
def doCanBusoffRecovered (q seqs : Nat) (c : Chip) : Chip :=
  if !isCan q || !c.bitOf (Reg.CAN.STATUS q) 12 then c
  else if seqs < 128 then c.setStatus q 23 16 seqs
  else
  ((((c.setStatus q 12 12 0).setStatus q 23 16 128).setCounters q 0 0).setStatus q 9 9 1).raise (pSq q) 10

/-- CAN_STUCK_DOMINANT (R120): RXD has been dominant for more than DOM_LIMIT nominal bit times. -/
def doCanStuckDominant (q : Nat) (c : Chip) : Chip :=
  if !isCan q || c.fldOf (Reg.CAN.LIMITS q) 31 16 = 0 || c.bitOf (Reg.CAN.STATUS q) 10 then c
  else (c.setStatus q 10 10 1).raise (pSq q) 13

/-- STUCK_CLEAR (R120): RXD returns recessive. -/
def doStuckClear (q : Nat) (c : Chip) : Chip := if !isCan q then c else c.setStatus q 10 10 0

/-- TXD_DOMINANT_LIMIT (R120): the controller forces TXD recessive, raises STUCK and writes a Scoresheet entry. -/
def doTxdDominantLimit (q : Nat) (c : Chip) : Chip :=
  if !isCan q then c else ((c.emit { kind := .canError, unit := q, arg := 1 }).raise (pSq q) 13).scoreLog 0x0063 3 (pSq q) [BitVec.ofNat 8 q]

/-- CAN_IDLE_TIMEOUT (R121). -/
def doCanIdleTimeout (q : Nat) (c : Chip) : Chip :=
  if !isCan q then c else
  match (c.canSq q).idleFrom with
  | none => c
  | some t =>
    let lim := c.fldOf (Reg.CAN.LIMITS q) 15 0
    if lim = 0 || (c.canSq q).idleRaised || c.now < t + lim * fsMs then c
    else (c.setCan q { c.canSq q with idleRaised := true }).raise (pSq q) 14

/-- A falling edge on RXD of CAN square q is a wake indication: the transceiver is in standby and TRX.RXD_WAKE_EN is 1 (R123). -/
def Chip.rxdWakes (c : Chip) (q : Nat) : Bool := isCan q && !c.stbN q && c.bitOf (Reg.CAN.TRX q) 1

/-- RXD_WAKE (R123): a falling edge on RXD with STB 1 and RXD_WAKE_EN 1. DESIGN CHOICE (log 81): STATUS.RXD_WAKE stays set until
a reset of the square; the spec names nothing that clears it. -/
def doRxdWake (q : Nat) (c : Chip) : Chip :=
  if c.rxdWakes q then c.setStatus q 15 15 1 else c

/-- ERR_CAP_READ (R119): the owner's read clears VALID and the other fields, which are RC (R11). -/
def doErrCapRead (k q : Nat) (seen : Bool) (c : Chip) : Chip :=
  if !isCan q then c else
  c.volatileRead k (Reg.CAN.ERR_CAP q) seen (c.reg (Reg.CAN.ERR_CAP q)) fun c => c.setReg (Reg.CAN.ERR_CAP q) 0

/-- The SYNC of a multiple that still waits for the end of an attempt is withdrawn when the next multiple arrives (R84). -/
def Chip.syncSkip (c : Chip) (q : Nat) : Chip :=
  let s := c.canSq q
  if s.syncAgain then (c.setCan q { s with seq := (s.seq + 1) % 16, syncAgain := false }).tsFail q s.seq else c

/-- CAN_SYNC_QUEUE (R84, R85): a whole multiple of PERIOD is reached. DESIGN CHOICE (log 92): a forward step of Tempo over one or
more multiples queues one SYNC, at the step. -/
def doCanSyncQueue (q : Nat) (c : Chip) : Chip :=
  if !isCan q || !c.tsActive q || c.ns < (c.canSq q).syncNext then c else
  let c1 := c.setCan q { c.canSq q with syncNext := c.tsMultiple q c.ns }
  let allowed := c.tempoState ≠ 0 || c.bitOf Reg.TSYNC.TS_CTRL 1
  if (c1.canSq q).onBus = some .sync then
    let c2 := c1.syncSkip q
    c2.setCan q { c2.canSq q with syncAgain := allowed }
  else
    let c2 := match (c1.canSq q).sync with
      | none => c1
      | some seq => (c1.setCan q { c1.canSq q with sync := none }).tsFail q seq
    if allowed then c2.queueSync q else c2

/-- CAN_FOLLOWUP_QUEUE (R84, R604): TS_FU_DELAY after the SYNC's stamp, replacing an unsent earlier FOLLOW-UP. -/
def doCanFollowupQueue (q : Nat) (c : Chip) : Chip :=
  if !isCan q then c else
  match (c.canSq q).fuDue.find? (fun x => decide (x.1 ≤ c.now)) with
  | none => c
  | some (t, f) =>
    let c1 := c.setCan q { c.canSq q with fuDue := (c.canSq q).fuDue.erase (t, f) }
    match (c1.canSq q).fu with
    | none => c1.setCan q { c1.canSq q with fu := some f }
    | some _ =>
      if (c1.canSq q).onBus = some .followUp then
        let c2 := match (c1.canSq q).fuAgain with | none => c1 | some _ => c1.tsFuFail q
        c2.setCan q { c2.canSq q with fuAgain := some f }
      else (c1.setCan q { c1.canSq q with fu := some f }).tsFuFail q

/-- What a TSYNC configuration write does to one square (R84, R604). DESIGN CHOICE (log 92): a SYNC that is on the bus when EN or
PERIOD is written 0 and whose attempt then fails stays queued and is offered again. -/
def Chip.tsReconfigure (before c : Chip) (q : Nat) : Chip :=
  if before.tsActive q && !c.tsActive q then
    (match (c.canSq q).sync with
     | some seq =>
       if (c.canSq q).onBus = some .sync then
         let s := c.canSq q
         c.setCan q { s with syncAgain := false, seq := if s.syncAgain then (s.seq + 1) % 16 else s.seq }
       else (c.setCan q { c.canSq q with sync := none, syncAgain := false }).setReg (Reg.TSYNC.TS_STAT q) (BitVec.ofNat 32 (2 ^ 8 + seq % 16))
     | none => c)
  else if c.tsActive q && (!before.tsActive q || before.fldOf (Reg.TSYNC.TS_SQ q) 15 0 != c.fldOf (Reg.TSYNC.TS_SQ q) 15 0) then
    c.setCan q { c.canSq q with syncNext := c.tsMultiple q c.ns }
  else c

/-- TSYNC_CONFIG_WRITE (R84, R604): partition k writes TS_CTRL (q = 40) or TS_SQ(q). -/
def doTsyncConfigWrite (k q : Nat) (v : Word) (be : Nat) (c : Chip) : Chip :=
  if 41 ≤ q then c else
  let a := if q = 40 then Reg.TSYNC.TS_CTRL else Reg.TSYNC.TS_SQ q
  c.blockWrite k a v (beMask be) fun c =>
    let c1 := c.plainWrite a v (beMask be)
    if q = 40 then (List.range 40).foldl (fun d i => Chip.tsReconfigure c d i) c1 else Chip.tsReconfigure c c1 q

end Sys2Proof.Machine
end

