-- ==== Sys2Proof/Machine/Macsec.lean ====
section
/-! DEFINITION. Chapter 16, inline MACsec of the SerDes squares (R461-R465): what happens to a frame between the staging
FIFO and the MAC. The secure associations hold the key that their commit captured. -/

/-
MARKS of the model choices coded here; the log rows say each in full.
DESIGN CHOICE (log 38, unsafe): MACsec: what Check mode counts.
-/

namespace Sys2Proof.Machine

/-- SEC page of a SerDes square. -/
def pSec (q : Nat) : Nat := 0x180 + (q - 48)

/-- EtherType of a frame without VLAN tags in the clear (R461). -/
def etherType (b : List Byte) : Nat := beAt b 12 2

/-- Frames that pass unprotected in every mode (R462). -/
def Chip.secBypass (c : Chip) (q et : Nat) : Bool :=
  et = 0x888E || et = 0x88CC || et = 0x88F7 || (et != 0 && (et = c.fldOf (Reg.SEC.BYPASS_ET q) 31 16 || et = c.fldOf (Reg.SEC.BYPASS_ET q) 15 0))

/-- XPN cipher suites (R468 CTRL). -/
def Chip.secXpn (c : Chip) (q : Nat) : Bool := 2 ≤ c.fldOf (Reg.SEC.CTRL q) 1 0

/-- The IV of a frame: SCI and PN, or for XPN the salt with SSCI and the full PN (IEEE 802.1AE-2018). -/
def Chip.secIv (c : Chip) (q n a pn : Nat) : List Byte :=
  if c.secXpn q then
    let salt := bytesBE 8 (c.tword (saOff q n a + 16)).toNat ++ bytesBE 4 (fld (c.tword (saOff q n a + 24)) 63 32)
    let x := bytesBE 4 (fld (c.tword (saOff q n a)) 31 0) ++ bytesBE 8 pn
    (salt.zip x).map fun p => p.1 ^^^ p.2
  else bytesBE 8 (c.tword (scOff q n + 8)).toNat ++ bytesBE 4 pn

/-- Bytes left in the clear before confidentiality starts: none, 30 or 50. -/
def Chip.confOff (c : Chip) (q : Nat) : Nat := [0, 30, 50, 0].getD (c.fldOf (Reg.SEC.CTRL q) 25 24) 0

/-- The PN space of an SA is used up (R464). -/
def Chip.pnExhausted (c : Chip) (q pn : Nat) : Bool := if c.secXpn q then pn = 0 else 2 ^ 32 ≤ pn

/-- PN_THR (R464). -/
def Chip.pnThr (c : Chip) (q : Nat) : Nat := (c.reg (Reg.SEC.PN_THR_HI q)).toNat * 2 ^ 32 + (c.reg (Reg.SEC.PN_THR_LO q)).toNat

/-- A transmit SA has used a PN (R464): its next PN is in word 1; with PN_THR reached it warns, once, and with the end of the PN space it
sends no more, whatever its PN word is set to. -/
def Chip.pnUsed (c : Chip) (q n a pn : Nat) (k : SaInst) : Chip :=
  let next := (pn + 1) % 2 ^ 64
  let warn := !k.warned && (decide (c.pnThr q ≤ next) || decide (next = 0))
  let c1 := c.setTword (saOff q n a + 8) (BitVec.ofNat 64 next)
  let c2 : Chip := { c1 with sas := insertKey c1.sas (saKey q n a) { k with warned := k.warned || warn, spent := c.pnExhausted q next } }
  if warn then c2.raise (pSec q) 3 else c2

/-- The counter in a word of an SA saturates (R468). -/
def Chip.saCount (c : Chip) (q n a w : Nat) : Chip :=
  let o := saOff q n a + 8 * w
  if 0xFFFFFFFF ≤ (c.tword o).toNat then c else c.setTword o (c.tword o + 1)

/-- Bytes that MACsec adds to a frame: SecTAG, SCI where it is sent, and ICV (R461, R462). -/
def Chip.secGrowth (c : Chip) (q : Nat) (b : List Byte) : Nat :=
  if q < 48 || !c.bitOf (Reg.SEC.CTRL q) 31 || c.secBypass q (etherType b) then 0 else 24 + (if c.bitOf (Reg.SEC.CTRL q) 27 then 8 else 0)

/-- Protection of a frame to be sent (R462-R464): the frame as it goes to the MAC, or none if it is discarded. -/
def Chip.macsecTx (c : Chip) (q : Nat) (b : List Byte) : Chip × Option (List Byte) :=
  if q < 48 || !c.bitOf (Reg.SEC.CTRL q) 31 || c.secBypass q (etherType b) then (c, some b) else
  match c.txSc q with
  | none => (c.inc (Reg.SEC.OUT_NO_SA q), none)
  | some n =>
    let a := fld (c.tword (scOff q n)) 61 60
    match c.sa? q n a with
    | none => (c.inc (Reg.SEC.OUT_NO_SA q), none)
    | some k =>
      let pn := (c.tword (saOff q n a + 8)).toNat
      if k.spent || c.pnExhausted q pn then (c.incRaise (Reg.SEC.OUT_PN_EXH q) (pSec q) 2, none) else
      let integ := c.bitOf (Reg.SEC.CTRL q) 23
      let sciTx := c.bitOf (Reg.SEC.CTRL q) 27
      let body := b.drop 12
      let co := if integ then body.length else c.confOff q
      let tag := bytesBE 2 0x88E5 ++ [BitVec.ofNat 8 ((if sciTx then 0x20 else 0) + (if integ then 0 else 0x0C) + a),
          BitVec.ofNat 8 (if body.length < 48 then body.length else 0)] ++ bytesBE 4 (pn % 2 ^ 32) ++
        (if sciTx then bytesBE 8 (c.tword (scOff q n + 8)).toNat else [])
      let aad := b.take 12 ++ tag ++ body.take co
      let iv := c.secIv q n a pn
      let sealed := Config.gcmCipher k.key iv aad (body.drop co)
      let out := aad ++ sealed ++ Config.gcmTag k.key iv aad sealed
      if c.fldOf (Reg.ETH.MAX_LEN q) 13 0 < out.length + 4 then (c.inc (Reg.SEC.OUT_TOO_LONG q), none) else
      (((c.pnUsed q n a pn k).inc (if integ then Reg.SEC.OUT_PROT q else Reg.SEC.OUT_ENC q)).saCount q n a 4, some out)

/-- What ingress MACsec makes of a frame: its bytes, whether it was verified and decrypted, and its SC. -/
structure SecIn where
  bytes : List Byte
  ok : Bool := false
  sc : Nat := 0
  deriving DecidableEq, Repr

/-- The receive SC of a tagged frame: by the SCI it carries, otherwise the lowest valid one that does not transmit. -/
def Chip.rxSc (c : Chip) (q : Nat) (sci : Option Nat) : Option Nat :=
  (List.range 32).find? fun n =>
    bit (c.tword (scOff q n)) 63 && !bit (c.tword (scOff q n)) 62 &&
      (match sci with | none => true | some s => (c.tword (scOff q n + 8)).toNat == s)

/-- The full PN of a received frame: under XPN the lower half is completed near the lowest acceptable PN. -/
def fullPn (xpn : Bool) (low pn32 : Nat) : Nat :=
  if !xpn then pn32 else if pn32 < low % 2 ^ 32 && 2 ^ 31 ≤ low % 2 ^ 32 - pn32 then (low / 2 ^ 32 + 1) * 2 ^ 32 + pn32 else low / 2 ^ 32 * 2 ^ 32 + pn32

/-- A frame that fails in a validateFrames mode (R465): Strict discards it, with the count of its reason; Check counts
IN_NOT_VALID and delivers it; Disabled delivers it. One without an installed SA counts IN_NO_SA in every mode (R463). -/
def Chip.secFail (c : Chip) (q reason : Nat) (b : List Byte) : Chip × Option SecIn :=
  let m := c.fldOf (Reg.SEC.CTRL q) 29 28
  if 2 ≤ m then (if reason = Reg.SEC.IN_NOT_VALID q then c.incRaise reason (pSec q) 0 else c.inc reason, none)
  else
    let c1 := if reason = Reg.SEC.IN_NO_SA q then c.inc reason else c
    (if m = 1 then c1.incRaise (Reg.SEC.IN_NOT_VALID q) (pSec q) 0 else c1, some { bytes := b })

/-- MACSEC_RX_VALIDATE (R465): a frame that arrives untagged is discarded in every mode. -/
def Chip.macsecRx (c : Chip) (q : Nat) (b : List Byte) : Chip × Option SecIn :=
  if q < 48 || !c.bitOf (Reg.SEC.CTRL q) 30 || c.secBypass q (etherType b) then (c, some { bytes := b })
  else if etherType b ≠ 0x88E5 then (c.inc (Reg.SEC.IN_UNTAGGED q), none)
  else
    let tci := (byteAt b 14).toNat
    let hasSci := natBits tci 5 5 = 1
    let hdr := if hasSci then 28 else 20
    match c.rxSc q (if hasSci then some (beAt b 20 8) else none) with
    | none => c.secFail q (Reg.SEC.IN_NO_SA q) b
    | some n =>
      let a := tci % 4
      match c.sa? q n a with
      | none => c.secFail q (Reg.SEC.IN_NO_SA q) b
      | some k =>
        let low := (c.tword (saOff q n a + 8)).toNat
        let pn := fullPn (c.secXpn q) low (beAt b 16 4)
        let sl := (byteAt b 15).toNat % 64
        let len := if sl = 0 then b.length - hdr - 16 else sl
        let body := bytesAt b hdr len
        let co := if natBits tci 3 3 = 0 then body.length else c.confOff q
        let aad := b.take hdr ++ body.take co
        let iv := c.secIv q n a pn
        let good := Config.gcmTag k.key iv aad (body.drop co) == bytesAt b (hdr + len) 16
        if b.length < hdr + len + 16 || !good then
          Chip.secFail (c.saCount q n a 5) q (Reg.SEC.IN_NOT_VALID q) b
        else if c.bitOf (Reg.SEC.CTRL q) 26 && pn < low then
          Chip.secFail (c.saCount q n a 6) q (Reg.SEC.IN_LATE q) b
        else
          let low' := Nat.max low (pn + 1 - (c.reg (Reg.SEC.REPLAY_WIN q)).toNat)
          let c1 := ((c.setTword (saOff q n a + 8) (BitVec.ofNat 64 low')).saCount q n a 4).inc (Reg.SEC.IN_OK q)
          (c1, some { bytes := b.take 12 ++ body.take co ++ Config.gcmPlain k.key iv aad (body.drop co), ok := true, sc := n })

end Sys2Proof.Machine
end

