-- ==== Sys2Proof/Machine/EthRx.lean ====
section
/-! DEFINITION. Chapter 5, receive side and link: frames received, flow control received and sent, PLCA, SerDes mode,
link up and down, MDIO. -/

/-
MARKS of the model choices coded here; the log rows say each in full.
DESIGN CHOICE (log 16, unsafe): byte enables on command registers; what a reserved bit does on a write.
DESIGN CHOICE (log 94, unsafe): Ethernet: link corner cases and field values outside their ranges.
DESIGN CHOICE (log 95, unsafe): staging: what a rejection counts, and the header of a packet that is being written.
DESIGN CHOICE (log 108, unsafe): what a lane and a flash report.
PRESUMED (log 115, unsafe): Ethernet: forms that the spec takes from IEEE 802.3.
DEDUCED (log 116, unsafe): Ethernet: how a stamp is taken from a command, and the order of MAC_ADDR.
-/

namespace Sys2Proof.Machine

/-- Bits of an Ethernet square's STATUS. -/
def Chip.ethStat (c : Chip) (q b : Nat) : Bool := c.bitOf (Reg.ETH.STATUS q) b
def Chip.setEthStat (c : Chip) (q b : Nat) (v : Bool) : Chip := c.setBitOf (Reg.ETH.STATUS q) b v

/-- A 64-bit counter of two registers advanced. -/
def Chip.add64 (c : Chip) (lo hi n : Nat) : Chip :=
  let v := Nat.min (2 ^ 64 - 1) ((c.reg hi).toNat * 2 ^ 32 + (c.reg lo).toNat + n)
  (c.setReg lo (BitVec.ofNat 32 (v % 2 ^ 32))).setReg hi (BitVec.ofNat 32 (v / 2 ^ 32))

/-- A received frame discarded by the MAC: its counter, RX_ERR, LAST_DROP (R136, R137, R171). -/
def Chip.rxDiscard (c : Chip) (q a reason : Nat) : Chip := (c.incRaise a (pSq q) 1).lastDrop q 0 reason

/-- The Ethernet frame record (R176); a stamp is Tempo in nanoseconds and the Tempo state at that instant. -/
def ethRecord (q : Nat) (stamp : Nat × Nat) (macsec preempt : Bool) (sc : Nat) (frame : List Byte) : List Byte :=
  bytesLE 8 stamp.1 ++ bytesLE 4 ((if macsec then 2 ^ 31 else 0) + (if preempt then 2 ^ 30 else 0) + sc % 32 * 2 ^ 16 + q % 64) ++
    bytesLE 4 (stamp.2 % 4) ++ frame

/-- FC_MODE of a square: none, PAUSE, PFC (R140). -/
def Chip.fcMode (c : Chip) (q : Nat) : Nat := c.fldOf (Reg.ETH.CTRL q) 9 8

/-- DUTY of a square as a time in femtoseconds; 1000 thousandths remove the limit (R142). DESIGN CHOICE (log 94): a DUTY of 1001 to
1023, which the rule does not name, acts as 1000. -/
def Chip.dutyLimit (c : Chip) (q : Nat) : Option Nat :=
  let d := c.fldOf (Reg.ETH.FC_DUTY q) 9 0
  if 1000 ≤ d then none else some (d * fsMs)

/-- The time for which each pause channel has been paused in the current window, up to now (R142). -/
def Chip.pauseTimes (c : Chip) (q : Nat) : Sparse Nat :=
  let e := c.ethSq q
  (List.range 9).foldl (fun (m : Sparse Nat) ch =>
      if natBits e.ignoring ch ch = 1 then m
      else sset 0 m ch (sget 0 m ch + (Nat.min c.now (sget 0 e.pauseEnd ch) - e.pauseSeen))) e.pauseUsed

/-- FC_USED (R171): the time of the most-paused channel in microseconds. -/
def Chip.fcUsed (c : Chip) (q : Nat) : Word :=
  BitVec.ofNat 32 (Nat.min 0xFFFFF ((List.range 9).foldl (fun a ch => Nat.max a (sget 0 (c.pauseTimes q) ch)) 0 / fsUs))

/-- A pause channel's time is brought up to date (R142). -/
def Chip.pauseAccount (c : Chip) (q : Nat) : Chip :=
  (c.setEth q { c.ethSq q with pauseUsed := c.pauseTimes q, pauseSeen := c.now }).setReg (Reg.ETH.FC_USED q) (c.fcUsed q)

/-- A channel has reached its duty limit (R142). -/
def Chip.dutyReached (c : Chip) (q ch : Nat) : Bool :=
  match c.dutyLimit q with
  | none => false
  | some l => decide (l ≤ sget 0 (c.ethSq q).pauseUsed ch)

/-- PAUSE_DUTY_LIMIT (R142): the channel ignores pause until the window ends; the square reports it. -/
def Chip.dutyEvent (c : Chip) (q ch : Nat) : Chip :=
  let e := c.ethSq q
  if natBits e.ignoring ch ch = 1 then c else
  (((c.setEth q { e with ignoring := e.ignoring + 2 ^ ch, pauseEnd := sset 0 e.pauseEnd ch 0 }).setEthStat q 5 true).raise (pSq q) 8).guardPause q

/-- A channel is paused now; the paused classes in PFC mode. -/
def Chip.pauseOn (c : Chip) (q ch : Nat) : Bool := decide (c.now < sget 0 (c.ethSq q).pauseEnd ch)
def Chip.pfcOn (c : Chip) (q : Nat) : Nat := (List.range 8).foldl (fun a ch => a + (if c.pauseOn q ch then 2 ^ ch else 0)) 0

/-- STATUS.PAUSED and PFC_PAUSED follow the channels. -/
def Chip.pauseStatus (c : Chip) (q : Nat) : Chip :=
  (c.setEthStat q 4 (c.pauseOn q 8)).setFldOf (Reg.ETH.STATUS q) 15 8 (c.pfcOn q)

/-- A channel's pause runs from now. -/
def Chip.pauseFrom (c : Chip) (q ch quanta : Nat) : Chip :=
  let e := c.ethSq q
  c.setEth q { e with pauseEnd := sset 0 e.pauseEnd ch (if quanta = 0 then 0 else c.now + c.bitsFs q (512 * quanta)),
                      pauseWait := e.pauseWait.filter fun x => x.1 != ch }

/-- The frame that a pause must wait for: the one being transmitted, or a preempted one (R141). -/
def EthSq.onLine (e : EthSq) : Option Nat :=
  match e.tx, e.preempted with
  | some f, _ => some f.copy.id
  | none, some f => some f.copy.id
  | none, none => none

/-- One channel takes a received pause time in quanta (R141, R142); answered with whether it was honoured. It takes effect at
the end of the frame that is being transmitted; a time of 0 ends the pause at once. -/
def Chip.pauseTake (c : Chip) (q ch quanta : Nat) : Chip × Bool :=
  if natBits (c.ethSq q).ignoring ch ch = 1 then (c, false)
  else if c.dutyReached q ch then (c.dutyEvent q ch, false)
  else
    let e := c.ethSq q
    match e.onLine with
    | none => (c.pauseFrom q ch quanta, true)
    | some id =>
      if quanta = 0 then (c.pauseFrom q ch 0, true)
      else (c.setEth q { e with pauseWait := e.pauseWait.filter (fun x => x.1 != ch) ++ [(ch, id, quanta)] }, true)

/-- The channels and times of a received PAUSE or PFC frame in the square's mode (R139, R140): none where the frame is
not acted on. -/
def Chip.pauseOf (c : Chip) (q op vec : Nat) (times : List Nat) : Option (List (Nat × Nat)) :=
  if q < 48 then none
  else if op = 1 && c.fcMode q = 1 then some [(8, times.getD 0 0)]
  else if op = 0x101 && c.fcMode q = 2 then
    some (((List.range 8).filter fun p => natBits vec p p = 1 && c.bitOf (Reg.ETH.FC_CFG q) (8 + p)).map fun p => (p, times.getD p 0))
  else none

/-- A MAC control frame that is not acted on (R139). -/
def Chip.ctrlDrop (c : Chip) (q : Nat) : Chip := (c.inc (Reg.ETH.RX_CTRL_DROP q)).lastDrop q 0 4

/-- A PAUSE or PFC frame in the square's mode: it counts as acted on, or as a frame that is not, and once as ignored where a channel
ignores it (R139, R142). -/
def Chip.pauseFrame (c : Chip) (q : Nat) (chs : List (Nat × Nat)) : Chip :=
  let c1 := c.pauseAccount q
  let r := chs.foldl (fun (a : Chip × Bool × Bool) x =>
      let t := a.1.pauseTake q x.1 x.2
      (t.1, a.2.1 || t.2, a.2.2 || !t.2)) (c1, chs.isEmpty, false)
  let c2 := if r.2.1 then r.1.inc (Reg.ETH.RX_PAUSE q) else r.1.ctrlDrop q
  let c3 := if r.2.2 then c2.inc (Reg.ETH.PAUSE_IGNORED q) else c2
  c3.pauseStatus q

/-- The receiver is on: RX_EN and the link (R136). -/
def Chip.rxOn (c : Chip) (q : Nat) : Bool := c.bitOf (Reg.ETH.CTRL q) 0 && c.ethStat q 0

/-- The pauses that waited for the end of a copy's frame take effect (R141). -/
def Chip.pauseBegin (c : Chip) (q id : Nat) : Chip :=
  let due := (c.ethSq q).pauseWait.filter fun x => x.2.1 = id
  if due.isEmpty then c
  else (due.foldl (fun (c : Chip) x => c.pauseFrom q x.1 x.2.2) (c.pauseAccount q)).pauseStatus q

/-- The stamp of an event `lag` femtoseconds ago: Tempo of the core cycle that contains it, less `adj` picoseconds, in nanoseconds,
and the Tempo state then (R66, R79, R176). -/
def Chip.nsAgo (c : Chip) (lag : Nat) (adj : Int) : Nat × Nat :=
  let t := c.tempoAt (c.now - lag)
  ((((t.1 : Int) - adj * (2 ^ 48 : Nat) / 1000) % ((2 ^ 112 : Nat) : Int)).toNat / 2 ^ 48, t.2)

/-- TS_ADJ of a SerDes square in picoseconds: [15:0] receive, [31:16] transmit (R134). -/
def Chip.tsAdj (c : Chip) (q lo : Nat) : Int := if q < 48 then 0 else toSigned 16 (c.fldOf (Reg.SDS.TS_ADJ q) (lo + 15) lo)

/-- The ingress stamp of a frame whose first bit after the SFD crossed the balls `lag` femtoseconds ago: TS_ADJ moves the plane
further out, so the frame crossed it earlier (R79, R134). -/
def Chip.rxStamp (c : Chip) (q lag : Nat) : Nat × Nat := c.nsAgo lag (c.tsAdj q 0)

/-- The egress stamp of a frame that crosses the balls now: it crosses the plane of TS_ADJ later (R79, R134). -/
def Chip.txStamp (c : Chip) (q : Nat) : Nat := (c.nsAgo 0 (-(c.tsAdj q 16))).1

/-- PAUSE_FRAME_RECEIVED (R141): a valid MAC control frame with opcode op, class-enable vector and times in quanta. -/
def doPauseFrameReceived (q op vec : Nat) (times : List Nat) (c : Chip) : Chip :=
  if !isEth q || !c.rxOn q then c else
  match c.pauseOf q op vec times with
  | none => c.ctrlDrop q
  | some chs => c.pauseFrame q chs

/-- A frame of permitted length and good FCS goes through MACsec into the staging FIFO (R136, R176, R465). -/
def Chip.ethDeliver (c : Chip) (q : Nat) (b : List Byte) (preempt early : Bool) (stamp : Nat × Nat) : Chip :=
  let c1 := (c.inc (Reg.ETH.RX_FRAMES q)).add64 (Reg.ETH.RX_BYTES_LO q) (Reg.ETH.RX_BYTES_HI q) (b.length + 4)
  let s := c1.macsecRx q b
  match s.2 with
  | none => s.1.stgReject q (ethRecord q stamp false preempt 0 b) early
  | some i => s.1.stgCommit q (ethRecord q stamp i.ok preempt i.sc i.bytes) (c.bitsFs q (8 * (b.length + 12))) early

/-- The longest frame that a square takes, FCS included (R136, R183). -/
def Chip.rxLimit (c : Chip) (q : Nat) : Nat :=
  let maxLen := c.fldOf (Reg.ETH.MAX_LEN q) 13 0
  if q < 48 then Nat.min maxLen 8180 else maxLen

/-- A frame too long is discarded at its first byte too many and counted (R137, R183). -/
def Chip.rxOversize (c : Chip) (q : Nat) (b : List Byte) (preempt early : Bool) (stamp : Nat × Nat) : Chip :=
  (c.rxDiscard q (Reg.ETH.RX_OVERSIZE q) 2).stgReject q (ethRecord q stamp false preempt 0 (b.take (c.rxLimit q + 1))) early

/-- More bytes of a frame have come in (R137, R183, R185): one that passes the limit is discarded there, and its rest is not
written. -/
def Chip.rxPart (c : Chip) (q : Nat) (b : List Byte) (early : Bool) (stamp : Nat × Nat) : Chip :=
  if (c.ethSq q).tooLong then c
  else if c.rxLimit q < b.length then
    let c1 := c.rxOversize q b false early stamp
    (c1.setEth q { c1.ethSq q with tooLong := true }).setProg q (some { dropped := true })
  else c.stgFeed q (ethRecord q stamp false false 0 b)

/-- The frame that was coming in ends without being judged. -/
def Chip.rxLose (c : Chip) (q : Nat) : Chip := (c.setEth q { c.ethSq q with tooLong := false }).stgLose q

/-- The MAC judges a frame from the line, stamped on its first bit (R79, R136, R137, R139, R183). -/
def Chip.ethReceive (c : Chip) (q : Nat) (b : List Byte) (fcsOk preempt early : Bool) (stamp : Nat × Nat) : Chip :=
  let n := b.length + 4
  let rcd (bs : List Byte) : List Byte := ethRecord q stamp false preempt 0 bs
  if (c.ethSq q).tooLong then c.rxLose q
  else if n < 64 then (c.rxDiscard q (Reg.ETH.RX_RUNT q) 1).stgReject q (rcd b) early
  else if c.rxLimit q < n then c.rxOversize q b preempt early stamp
  else if !fcsOk then (c.rxDiscard q (Reg.ETH.RX_FCS_ERR q) 3).stgReject q (rcd b) early
  else if etherType b = 0x8808 then
    (let op := beAt b 14 2
     let times := if op = 1 then [beAt b 16 2] else (List.range 8).map fun p => beAt b (18 + 2 * p) 2
     let c := c.stgLose q
     match c.pauseOf q op (beAt b 16 2 % 256) times with
     | none => c.ctrlDrop q
     | some chs => c.pauseFrame q chs)
  else c.ethDeliver q b preempt early stamp

/-- Verification of the MAC merge sublayer succeeds (R147). -/
def Chip.mmSucceed (c : Chip) (q : Nat) : Chip :=
  ((c.setFldOf (Reg.ETH.STATUS q) 17 16 2).setEth q { c.ethSq q with verifyAt := none }).raise (pSq q) 4

/-- One attempt to verify (R147): a verify frame goes out, and VERIFY_MS runs. DESIGN CHOICE (log 94): a VERIFY_MS of 0 acts as 1 and
one above 128 as 128. -/
def Chip.mmAttempt (c : Chip) (q n : Nat) : Chip :=
  let e := c.ethSq q
  c.setEth q { e with attempts := n, verifyAt := some (c.now + clampNat 1 128 (c.fldOf (Reg.ETH.MM_CFG q) 31 24) * fsMs),
                      mmPend := e.mmPend ++ [false] }

/-- A verify frame of the partner is answered while MM_EN is 1; a respond frame ends a verification that runs (R147). -/
def Chip.mmFrame (c : Chip) (q : Nat) (resp : Bool) : Chip :=
  if q < 48 || !c.bitOf (Reg.ETH.CTRL q) 16 then c
  else if resp then (if c.fldOf (Reg.ETH.STATUS q) 17 16 = 1 then c.mmSucceed q else c)
  else c.setEth q { c.ethSq q with mmPend := (c.ethSq q).mmPend ++ [true] }

/-- TO_TIMER in femtoseconds: a 0 acts as 1 (R129). -/
def Chip.plcaSlot (c : Chip) (q : Nat) : Nat := c.bitsFs q (Nat.max 1 (c.fldOf (Reg.ETH.PLCA_CFG q) 15 8))

/-- The bits of a BEACON (IEEE 802.3-2022 Clause 148). -/
def beaconBits : Nat := 20

/-- Where opportunity `plcaId` of the cycle begins; the BEACON goes before opportunity 0 (R129). -/
def Chip.plcaBase (c : Chip) (q from_ : Nat) : Nat := if (c.ethSq q).plcaId = 0 then from_ + c.bitsFs q beaconBits else from_

/-- A frame of n bytes from another node of a file f segment ends now (R129): the opportunity in which it began ends with it, and the
next one begins. PRESUMED (log 115): each frame of another node has an opportunity of its own. -/
def Chip.plcaHeard (c : Chip) (q n : Nat) : Chip :=
  match (c.ethSq q).plcaFrom with
  | none => c
  | some b =>
    let e := c.ethSq q
    let begun := c.now - c.bitsFs q (8 * (8 + n))
    c.setEth q { e with plcaFrom := some c.now, plcaId := e.plcaId + (begun - c.plcaBase q b) / Nat.max 1 (c.plcaSlot q) + 1 }

/-- ETH_FRAME_RECEIVED (R136): the bytes of a frame without its FCS; `early` says that White had read a word of it before its
end (R186). Fragments that fail reassembly are rejected in the staging FIFO (R180), and so is what came in of a frame that the
receiver, switched off, never ends. DESIGN CHOICE (log 95): the words of a part that has come in show the record's header as it stands
before MACsec and reassembly are known. -/
def doEthFrameReceived (q : Nat) (b : List Byte) (fcsOk : Bool) (x : EthIn) (early : Bool) (c : Chip) : Chip :=
  if !isEth q then c
  else if !c.rxOn q then (if x.how = 0 then c.plcaHeard q (b.length + 4) else c).rxLose q
  else
    let stamp := c.rxStamp q x.lag
    match x.how with
    | 0 => (c.plcaHeard q (b.length + 4)).ethReceive q b fcsOk false early stamp
    | 1 => c.ethReceive q b fcsOk true early stamp
    | 2 => (c.incRaise (Reg.ETH.MM_REASM_ERR q) (pSq q) 2).stgReject q (ethRecord q stamp false true 0 b) early
    | 3 => c.mmFrame q false
    | 4 => c.mmFrame q true
    | 5 => c.rxPart q b early stamp
    | _ => c.stgCommit q [] 0 early

/-- PAUSE_EXPIRY (R141): the pause of a channel has run out. -/
def doPauseExpiry (q ch : Nat) (c : Chip) : Chip :=
  if !isEth q || 9 ≤ ch || sget 0 (c.ethSq q).pauseEnd ch = 0 || c.now < sget 0 (c.ethSq q).pauseEnd ch then c else
  let c1 := c.pauseAccount q
  (c1.setEth q { c1.ethSq q with pauseEnd := sset 0 (c1.ethSq q).pauseEnd ch 0 }).pauseStatus q

/-- PAUSE_DUTY_WINDOW (R142): channels at their limit are judged, and at a whole second of Tempo the counts restart. -/
def doPauseDutyWindow (q : Nat) (c : Chip) : Chip :=
  if !isEth q then c else
  let c1 := c.pauseAccount q
  let c2 := (List.range 9).foldl (fun c ch => if c.now < sget 0 (c.ethSq q).pauseEnd ch && c.dutyReached q ch then c.dutyEvent q ch else c) c1
  let w := c.ns / 10 ^ 9
  if w = (c2.ethSq q).dutyWindow then c2.pauseStatus q
  else
    (((c2.setEth q { c2.ethSq q with dutyWindow := w, pauseUsed := [], ignoring := 0 }).setEthStat q 5 false).setReg (Reg.ETH.FC_USED q) 0).pauseStatus q

/-- PAUSE_TX_REPEAT (R143): half of the pause time has passed and the condition of an enabled channel still holds. -/
def doPauseTxRepeat (q ch : Nat) (c : Chip) : Chip :=
  if !isEth q || 9 ≤ ch then c else
  let e := c.ethSq q
  if natBits e.cond ch ch = 0 || !(c.fcChannels q).contains ch || c.now < sget 0 e.txPauseNext ch then c else
  (c.setEth q { e with txPauseNext := sset 0 e.txPauseNext ch (c.now + c.pauseHalf q) }).sendPause q ch (c.fldOf (Reg.ETH.FC_CFG q) 31 16)

/-- No verification of the MAC merge sublayer runs, and none has ended (R147). -/
def Chip.mmIdle (c : Chip) (q : Nat) : Chip :=
  let c1 := c.setFldOf (Reg.ETH.STATUS q) 17 16 0
  c1.setEth q { c1.ethSq q with verifyAt := none, attempts := 0, mmPend := [] }

/-- Verification of the MAC merge sublayer starts (R147). PRESUMED (log 115, IEEE 802.3 Clause 99): it waits for a link. -/
def Chip.mmStart (c : Chip) (q : Nat) : Chip :=
  if q < 48 then c
  else if !c.bitOf (Reg.ETH.CTRL q) 16 || c.bitOf (Reg.ETH.MM_CFG q) 0 || !c.ethStat q 0 then c.mmIdle q
  else ((c.mmIdle q).setFldOf (Reg.ETH.STATUS q) 17 16 1).mmAttempt q 1

/-- A copy is discarded under HOLD (R353): one that is partly launched has its remaining cells launched, and they are discarded at the
output. -/
def Chip.holdCut (c : Chip) (k : Copy) : Chip :=
  if 0 < k.sent && k.sent < k.cells then c.modCopy k.id fun k => { k with discarded := true, appended := false, ct := false }
  else c.delCopy k.id

/-- Copies of a square in HOLD whose freshness deadline has passed are discarded into HOLD_DROP (R163). -/
def Chip.holdStale (c : Chip) (q : Nat) : Chip :=
  if !c.inHold q then c else
  let late := c.fab.copies.filter fun k => k.output = q && c.pastDeadline k && !k.discarded
  if late.isEmpty then c else Chip.fabDone c (late.foldl (fun c k => (c.holdCut k).holdDrop q k.cls 8) c)

/-- The link comes up (R133, R145, R163, R164): what went stale in HOLD is discarded, HOLD ends, TW_VALID clears,
verification starts. -/
def Chip.linkRise (c : Chip) (q : Nat) : Chip :=
  if c.ethStat q 0 then c else
  let c0 := c.holdStale q
  let c1 := ((c0.setEthStat q 0 true).setEthStat q 1 false).raise (pSq q) 9
  let c2 := c1.setEth q { c1.ethSq q with holdUntil := none, holdExpired := false, idleSince := some c1.now }
  (c2.setBitOf (Reg.ETH.EEE_TW q) 31 false).mmStart q

/-- Every copy queued for a square flushed under HOLD (R163, R353); DESIGN CHOICE (log 94): a copy that is partly launched counts then. -/
def Chip.holdFlushAll (c : Chip) (q : Nat) : Chip :=
  (c.fab.copies.filter fun k => k.output = q && !k.discarded).foldl (fun c k => (c.holdCut k).holdFlushCount q k.cls) c

/-- Class 7 copies and copies past their deadline are discarded when HOLD begins (R163, R353). -/
def Chip.holdPurge (c : Chip) (q : Nat) : Chip :=
  (c.fab.copies.filter fun k => k.output = q && !k.discarded).foldl (fun c k =>
    if k.cls = 7 then (c.holdCut k).holdDrop q 7 7
    else if c.pastDeadline k then (c.holdCut k).holdDrop q k.cls 8
    else c.modCopy k.id fun k => { k with held := true }) c

/-- Frames whose transmission has begun: the one on the line and a preempted one. -/
def EthSq.begun (e : EthSq) : List MacFrame := e.tx.toList ++ e.preempted.toList

/-- A frame that is cut off is counted (R165, R170, R171). -/
def Chip.countCut (c : Chip) (q : Nat) (f : MacFrame) : Chip := (c.incRaise (Reg.ETH.TX_TRUNC q) (pSq q) 0).lastDrop q f.copy.cls 0x0B

/-- The frame on the wire is cut off and not sent again (R165, R170). -/
def Chip.truncateTx (c : Chip) (q : Nat) : Chip :=
  let c := c.creditUpdate q
  let fs := (c.ethSq q).begun
  let c1 := fs.foldl (fun (c : Chip) f => ((c.delCopy f.copy.id).lineOut q { kind := .ethCut, unit := q, arg := f.copy.cls }).countCut q f) c
  fs.foldl (fun (c : Chip) f => c.pauseBegin q f.copy.id) (c1.setEth q { c1.ethSq q with tx := none, preempted := none })

/-- The link goes down (R163, R165): the frame on the wire is lost, LPI ends with the link, egress enters HOLD. PRESUMED (log 115): what
verification has found ends with the link; it starts again when that comes up (R147, IEEE 802.3 Clause 99). -/
def Chip.linkFall (c : Chip) (q : Nat) : Chip :=
  if !c.ethStat q 0 then c else
  let c1 := (((((c.rxLose q).setEthStat q 0 false).setEthStat q 2 false).setEthStat q 1 true).incRaise (Reg.ETH.LINK_DOWN_CNT q) (pSq q) 10).truncateTx q
  let hold := c.fldOf (Reg.ETH.LINK_CFG q) 31 16
  let cm := if q < 48 then c1 else c1.mmIdle q
  let c2 := (cm.setEth q { cm.ethSq q with holdUntil := some (cm.now + hold * fsMs) }).holdPurge q
  Chip.fabDone c (if hold = 0 then
    Chip.setEth (c2.holdFlushAll q) q { (c2.ethSq q) with holdUntil := none, holdExpired := true } else c2)

/-- LINK_HOLD_EXPIRY (R163, R164): copies gone stale in HOLD are discarded, and once LINK_HOLD has passed every held copy
is flushed. -/
def doLinkHoldExpiry (q : Nat) (c : Chip) : Chip :=
  if !isEth q then c else
  match (c.ethSq q).holdUntil with
  | none => c
  | some t =>
    if c.now < t then c.holdStale q else
    let c1 := (c.holdStale q).holdFlushAll q
    Chip.fabDone c ((c1.setEth q { c1.ethSq q with holdUntil := none, holdExpired := true }).raise (pSq q) 11)

/-- PCS_UP of a SerDes square from its other states (R133): AN_DONE in [4], FEC_ALIGN in [5], HI_BER in [8], BLOCK_LOCK
in [2]. -/
def pcsUp (mode : Word) (st : Nat) : Bool :=
  let m := fld mode 3 0
  let lock := natBits st 2 2 = 1
  if m = 0 || 5 < m then false
  else if m ≤ 2 then lock && (!bit mode 8 || natBits st 4 4 = 1)
  else lock && natBits st 8 8 = 0 && (fld mode 5 4 ≠ 2 || natBits st 5 5 = 1)

/-- SDS page of a SerDes square. -/
def pSds (q : Nat) : Nat := 0x190 + (q - 48)

/-- The lane reports its state (SDS_STAT [8], [5:4], [2:0]); changes raise the SDS sources (R133, R172). -/
def Chip.sdsReport (c : Chip) (q st : Nat) : Chip :=
  let old := c.reg (Reg.SDS.SDS_STAT q)
  let up := pcsUp (c.reg (Reg.SDS.SDS_MODE q)) st
  let keep := natBits st 8 8 * 256 + natBits st 5 4 * 16 + (if up then 8 else 0) + natBits st 2 0
  let c1 := c.setReg (Reg.SDS.SDS_STAT q) ((old &&& 0x200) ||| BitVec.ofNat 32 keep)
  let c2 := if bit old 0 && natBits st 0 0 = 0 then c1.raise (pSds q) 0 else c1
  let c3 := if bit old 3 != up then c2.raise (pSds q) 1 else c2
  let c4 := if !bit old 8 && natBits st 8 8 = 1 then c3.raise (pSds q) 2 else c3
  let e := c4.ethSq q
  c4.setEth q { e with pcsUpAt := if up then (if e.pcsUpAt.isSome then e.pcsUpAt else some c.now) else none }

/-- The rest of a lane report (R144, R172): [9] the partner is in LPI; since the last report, [31:16] corrected and [47:32]
uncorrectable codewords, [63:48] block errors and [79:64] bit errors of the PRBS checker. -/
def Chip.laneCounts (c : Chip) (q st : Nat) : Chip :=
  let c1 := ((c.setEthStat q 3 (natBits st 9 9 = 1)).addTo (Reg.SDS.FEC_CORR q) (natBits st 31 16)).addTo (Reg.SDS.FEC_UNCORR q) (natBits st 47 32)
  let c2 := if natBits st 47 32 = 0 then c1 else c1.raise (pSds q) 3
  let c3 := c2.addTo (Reg.SDS.BER_CNT q) (natBits st 63 48)
  if c3.bitOf (Reg.SDS.PRBS_CTRL q) 8 then c3.addTo (Reg.SDS.PRBS_ERR q) (natBits st 79 64) else c3

/-- The link of a file f square follows its enables and PLCA (R130, R131). -/
def Chip.t1sLink (c : Chip) (q : Nat) : Chip :=
  let en := c.bitOf (Reg.ETH.CTRL q) 0 || c.bitOf (Reg.ETH.CTRL q) 1
  let plca := !c.bitOf (Reg.ETH.PLCA_CFG q) 31 || c.ethStat q 18 || c.ethStat q 19
  if en && plca then c.linkRise q else c.linkFall q

/-- LINK_UP (R133): the lane reports a state; the link comes up once PCS_UP has stood for LINK_UP_DEB microseconds. On
file f the link follows R130 and R131. -/
def doLinkUp (q st : Nat) (c : Chip) : Chip :=
  if !isEth q then c
  else if q < 48 then c.t1sLink q
  else
    let c1 := (c.sdsReport q st).laneCounts q st
    match (c1.ethSq q).pcsUpAt with
    | none => c1.linkFall q
    | some t => if t + c1.fldOf (Reg.ETH.LINK_CFG q) 15 0 * fsUs ≤ c1.now then c1.linkRise q else c1

/-- LINK_DOWN (R133, R163): the lane reports a state in which PCS_UP is 0. -/
def doLinkDown (q st : Nat) (c : Chip) : Chip :=
  if !isEth q then c
  else if q < 48 then c.t1sLink q
  else
    let c1 := (c.sdsReport q st).laneCounts q st
    if (c1.ethSq q).pcsUpAt.isNone then c1.linkFall q else c1

/-- A new PLCA cycle begins with its BEACON (R129). -/
def Chip.plcaCycle (c : Chip) (q : Nat) : Chip := c.setEth q { c.ethSq q with plcaFrom := some c.now, plcaId := 0, burst := 0 }

/-- PLCA_BEACON_RECEIVED (R129, R130): a valid BEACON makes the PLCA status true again and begins a cycle. -/
def doPlcaBeaconReceived (q : Nat) (c : Chip) : Chip :=
  if q < 40 || 48 ≤ q || !c.bitOf (Reg.ETH.PLCA_CFG q) 31 then c
  else (((c.setEthStat q 18 true).setEthStat q 19 false).plcaCycle q).t1sLink q

/-- PLCA_LOSS (R130): no BEACON for the invalid-beacon time. -/
def doPlcaLoss (q : Nat) (c : Chip) : Chip :=
  if q < 40 || 48 ≤ q || !c.bitOf (Reg.ETH.PLCA_CFG q) 31 || c.fldOf (Reg.ETH.PLCA_NODE q) 2 0 = 0 || !c.ethStat q 18 then c else
  let c1 := ((c.setEthStat q 18 false).inc (Reg.ETH.PLCA_LOSS_CNT q)).raise (pSq q) 3
  (c1.setEthStat q 19 (c.bitOf (Reg.ETH.PLCA_CFG q) 30)).t1sLink q

/-- An SDS_MODE value that is refused on a square (R132). -/
def sdsModeBad (q : Nat) (v : Word) : Bool :=
  let m := fld v 3 0
  5 < m || (m = 5 && q < 56) || (fld v 5 4 != 0 && m != 5) || fld v 5 4 = 3 || (bit v 8 && m != 1)

/-- SDS_MODE_WRITE (R132): accepted only while TX_EN and RX_EN are 0; it restarts the PCS. DESIGN CHOICE (log 94): the rule says
only that the PCS restarts; the model clears every lane and PCS bit of SDS_STAT with it, SIGNAL_DET and CDR_LOCK too, and so
raises SIGNAL_DET lost, until the lane reports again. -/
def doSdsModeWrite (k q : Nat) (v : Word) (be : Nat) (c : Chip) : Chip :=
  if q < 48 || 64 ≤ q then c else
  c.blockWrite k (Reg.SDS.SDS_MODE q) v (beMask be) fun c =>
    let nv := RegRow.apply { off := 0x40, rw := 0x313F } (c.reg (Reg.SDS.SDS_MODE q)) v (beMask be)
    if c.bitOf (Reg.ETH.CTRL q) 0 || c.bitOf (Reg.ETH.CTRL q) 1 || sdsModeBad q nv then
      (c.setBitOf (Reg.SDS.SDS_STAT q) 9 true).setErr (pSds q) 7
    else (((c.setReg (Reg.SDS.SDS_MODE q) nv).setBitOf (Reg.SDS.SDS_STAT q) 9 false).sdsReport q 0).linkFall q

/-- The frames of one MDIO operation (R135): Clause 22 one frame; Clause 45 the address frame with MDIO_ADDR first, then the
data frame where the operation has one. DESIGN CHOICE (log 94): a read with address increment (OP 0b10) is a Clause 45 read, so that it
sends the address frame too. -/
def Chip.mdioFrames (c : Chip) (q : Nat) (v : Word) : Chip :=
  if !bit v 30 then c.emit { kind := .mdio, unit := q, arg := v.toNat }
  else
    let addr := setFld (setFld v 29 28 0) 15 0 (c.fldOf (Reg.SDS.MDIO_ADDR q) 15 0)
    let c1 := c.emit { kind := .mdio, unit := q, arg := addr.toNat }
    if fld v 29 28 = 0 then c1 else c1.emit { kind := .mdio, unit := q, arg := v.toNat }

/-- MDIO_CMD (R135): a write with GO starts one operation; while GO is 1 it is discarded. Bits [27:26] are reserved (R12). -/
def doMdioCmd (k q : Nat) (v : Word) (c : Chip) : Chip :=
  if q ≠ 48 && q ≠ 56 then c else
  c.blockWrite k (Reg.SDS.MDIO_CMD q) v 0xFFFFFFFF fun c =>
    if c.bitOf (Reg.SDS.MDIO_CMD q) 31 then c.setErr (pSds q) 7
    else
      let w := v &&& 0xF3FFFFFF
      let c1 := c.setReg (Reg.SDS.MDIO_CMD q) w
      if bit w 31 then c1.mdioFrames q w else c1

/-- MDIO_DONE (R135): the operation ends; a read leaves its data, 0xFFFF where no PHY answers. -/
def doMdioDone (q rdata : Nat) (c : Chip) : Chip :=
  if (q ≠ 48 && q ≠ 56) || !c.bitOf (Reg.SDS.MDIO_CMD q) 31 then c else
  let cmd := c.reg (Reg.SDS.MDIO_CMD q)
  let c1 := c.setBitOf (Reg.SDS.MDIO_CMD q) 31 false
  let read := if bit cmd 30 then 2 ≤ fld cmd 29 28 else fld cmd 29 28 = 2
  (if read then c1.setReg (Reg.SDS.MDIO_RDATA q) (BitVec.ofNat 32 (rdata % 0x10000)) else c1).raise (pSds q) 4

/-- LAST_DROP_READ (R171): the owner's read clears the record. -/
def doLastDropRead (k q : Nat) (seen : Bool) (c : Chip) : Chip :=
  if !isEth q then c else
  c.volatileRead k (Reg.ETH.LAST_DROP q) seen (c.reg (Reg.ETH.LAST_DROP q)) fun c => c.setReg (Reg.ETH.LAST_DROP q) 0

end Sys2Proof.Machine
end

