-- ==== Sys2Proof/Machine/Frer.lean ====
section
/-! DEFINITION. Chapter 5, frame replication and elimination (R160-R162), and the tag edits of egress step 8 (R217). -/

/-
MARKS of the model choices coded here; the log rows say each in full.
DEDUCED (log 36, unsafe): frame elimination is part of step 8 of the frame path.
DESIGN CHOICE (log 124, unsafe): the instant at which a FRER number is drawn.
-/

namespace Sys2Proof.Machine

/-- Recovery function entry fn, word w (R161). -/
def frerOff (fn w : Nat) : Nat := clsBase + 0x3_0000 + 64 * fn + 8 * w

/-- The live part of a recovery function. -/
def Chip.frerFn (c : Chip) (fn : Nat) : FrerFn := sget {} c.frer fn
def Chip.setFrer (c : Chip) (fn : Nat) (f : FrerFn) : Chip := { c with frer := sset {} c.frer fn f }

/-- HIST_LEN: outside 1-64 it acts as 64 (R161). -/
def histLen (w0 : Word64) : Nat := let n := fld w0 55 48; if n = 0 || 64 < n then 64 else n

/-- Writing word 0 clears history and counters; the next frame is accepted whatever its number. A HIST_LEN outside 1-64
sets PAGE_ERR.BLOCK of CLS (R161). -/
def Chip.frerCommit (c : Chip) (fn : Nat) : Chip :=
  let w0 := c.tword (frerOff fn 0)
  let c1 := [2, 3, 4, 5].foldl (fun c w => c.setTword (frerOff fn w) 0) (c.setTword (frerOff fn 1) 1)
  let c2 := c1.setFrer fn { accepted := c.now, tested := c.now }
  if fld w0 55 48 = 0 || 64 < fld w0 55 48 then c2.setErr 0x048 7 else c2

/-- A frame is accepted with a number: RECOV_SEQ, TAKE_ANY 0 and the counters (R161, R162). -/
def Chip.frerAccept (c : Chip) (fn seq hist : Nat) (keepSeq : Bool) : Chip :=
  let w1 := c.tword (frerOff fn 1)
  let c1 := c.setTword (frerOff fn 1) (setBit (if keepSeq then w1 else setFld w1 63 48 seq) 0 false)
  (c1.tcount (frerOff fn 2) true).setFrer fn { c1.frerFn fn with hist := hist % 2 ^ 64, accepted := c.now }

/-- Numbers shifted out of the history without having been received, for d shifts of a history of n bits. -/
def lostIn (hist n : Nat) : Nat → Nat → Nat
  | 0, lost => lost
  | d + 1, lost => lostIn (hist * 2 % 2 ^ n) n d (if natBits hist (n - 1) (n - 1) = 1 then lost else lost + 1)

/-- FRER_ELIMINATE (R162): the sequence recovery function judges a number; true means that the frame passes. Only an accepted frame
restarts the reset time, with INDIV 1 too: R162 makes no exception for it. -/
def Chip.frerRecover (c : Chip) (e fn seq : Nat) : Chip × Bool :=
  let w0 := c.twordAt e (frerOff fn 0)
  if !bit w0 63 then (c, true) else
  let n := histLen w0
  let f := c.frerFn fn
  let recov := fld (c.tword (frerOff fn 1)) 63 48
  if bit (c.tword (frerOff fn 1)) 0 then (c.frerAccept fn seq 1 false, true)
  else
    let delta := toSigned 16 (seq + 0x10000 - recov)
    if bit w0 62 then
      (if delta = 0 then (c.tcount (frerOff fn 2) false, false)
       else
        let c1 := if delta = 1 then c else c.tcount (frerOff fn 3) true
        (c1.frerAccept fn seq 1 false, true))
    else if n ≤ delta.natAbs then (c.tcount (frerOff fn 3) false, false)
    else if delta ≤ 0 then
      (if natBits f.hist delta.natAbs delta.natAbs = 1 then (c.tcount (frerOff fn 2) false, false)
       else ((c.tcount (frerOff fn 3) true).frerAccept fn seq (f.hist + 2 ^ delta.natAbs) true, true))
    else
      let d := delta.natAbs
      let lost := lostIn (f.hist % 2 ^ n) n d 0
      let c1 := if d = 1 then c else c.tcount (frerOff fn 3) true
      let w4 := c1.tword (frerOff fn 4)
      let c2 := c1.setTword (frerOff fn 4) (setFld w4 63 32 (Nat.min 0xFFFFFFFF (fld w4 63 32 + lost)))
      (c2.frerAccept fn seq (f.hist * 2 ^ d % 2 ^ n + 1) false, true)

/-- FRER_RECOVERY_RESET (R162): RESET_MS has passed with no frame accepted. -/
def doFrerRecoveryReset (fn : Nat) (c : Chip) : Chip :=
  if 1024 ≤ fn then c else
  let w0 := c.tword (frerOff fn 0)
  let ms := fld w0 47 32
  if !bit w0 63 || ms = 0 || bit (c.tword (frerOff fn 1)) 0 || c.now < (c.frerFn fn).accepted + ms * fsMs then c
  else (c.setTword (frerOff fn 1) (setBit (c.tword (frerOff fn 1)) 0 true)).tcount (frerOff fn 4) false

/-- FRER_LATENT_TEST (R160, R161): every LATENT_PERIOD ms, the discards that PATHS lead one to expect are compared with
those counted since the test before (IEEE 802.1CB-2017). -/
def doFrerLatentTest (fn : Nat) (c : Chip) : Chip :=
  if 1024 ≤ fn then c else
  let w0 := c.tword (frerOff fn 0)
  let f := c.frerFn fn
  let ms := fld w0 31 16
  if !bit w0 63 || !bit w0 60 || ms = 0 || c.now < f.tested + ms * fsMs then c else
  let w2 := c.tword (frerOff fn 2)
  let diff : Int := Int.ofNat (fld w2 63 32 * (fld w0 59 56 - 1)) - Int.ofNat (fld w2 31 0)
  let c1 := c.setFrer fn { f with base := diff, tested := c.now }
  if fld w0 15 0 < (f.base - diff).natAbs then c1.tcount (frerOff fn 5) false else c1

/-- FRER_GENERATE (R161, R217): at step 8 the first copy of a frame draws the number for all copies of that frame. DESIGN CHOICE (log 124):
it draws it when it goes to the Adjudicator. -/
def Chip.frerDraw (c : Chip) (k : Copy) : Chip :=
  match k.genFn, k.genSeq with
  | some fn, none =>
    let off := clsBase + 0x2000 + 8 * fn
    let seq := fld (c.tword off) 15 0
    let c1 := c.setTword off (setFld (c.tword off) 15 0 ((seq + 1) % 0x10000))
    { c1 with fab := { c1.fab with copies := c1.fab.copies.map fun j =>
        if j.frame = k.frame && j.genFn = some fn && j.genSeq.isNone then { j with genSeq := some seq } else j } }
  | _, _ => c

/-- Bytes of a frame's outer tag, if it has one. -/
def hasTag (b : List Byte) : Bool := isTpid (beAt b 12 2)

/-- n bytes inserted after the addresses. -/
def insertAt (b : List Byte) (k : Nat) (new : List Byte) : List Byte := b.take k ++ new ++ b.drop k

/-- n bytes removed. -/
def removeAt (b : List Byte) (k n : Nat) : List Byte := b.take k ++ b.drop (k + n)

/-- The tag edit of an action word 1 (R217). -/
def tagEdit (w1 : Word64) (b : List Byte) : List Byte :=
  let tci := fld w1 59 57 * 2 ^ 13 + (if bit w1 56 then 2 ^ 12 else 0) + fld w1 55 44
  match fld w1 63 61 with
  | 1 => insertAt b 12 (bytesBE 2 0x8100 ++ bytesBE 2 tci)
  | 2 => insertAt b 12 (bytesBE 2 0x88A8 ++ bytesBE 2 tci)
  | 3 => if hasTag b then removeAt b 12 4 else b
  | 4 => if hasTag b then putBytes b 14 (bytesBE 2 tci) else insertAt b 12 (bytesBE 2 0x8100 ++ bytesBE 2 tci)
  | 5 =>
    let b1 := if hasTag b then removeAt b 12 4 else b
    if hasTag b && hasTag b1 then removeAt b1 12 4 else b1
  | _ => b

/-- Offset of the EtherType after at most two tags. -/
def typeOffset (b : List Byte) : Nat :=
  if !hasTag b then 12 else if isTpid (beAt b 16 2) then 20 else 16

/-- The frame bytes of a copy after tag and FRER edits (R217), with DEI set on a drop-eligible copy (R236). -/
def editFrame (k : Copy) : List Byte :=
  let b0 := frameBytes k.data
  let op := fld k.act1 43 42
  let b1 := if op = 3 && beAt b0 (typeOffset b0) 2 = 0xF1C1 then removeAt b0 (typeOffset b0) 6 else b0
  let b2 := tagEdit k.act1 b1
  let b3 := if k.genFn.isSome then insertAt b2 (typeOffset b2) (bytesBE 2 0xF1C1 ++ bytesBE 2 0 ++ bytesBE 2 (k.genSeq.getD 0)) else b2
  if k.de && hasTag b3 then putBytes b3 14 [byteAt b3 14 ||| 0x10] else b3

end Sys2Proof.Machine
end

