-- ==== Sys2Proof/Machine/EthTx.lean ====
section
/-! DEFINITION. Chapter 5, transmit side: gates, shapers, selection, preemption, LPI, and the square reset. -/

/-
MARKS of the model choices coded here; the log rows say each in full.
DEDUCED (log 9, unsafe): the common header of a page survives block and square resets.
DESIGN CHOICE (log 30, safe): a parity failure of a frame's cells on its way out is an operand.
DESIGN CHOICE (log 32, unsafe): gate lists: before the first cycle, and the MAC hold.
DEDUCED (log 36, unsafe): frame elimination is part of step 8 of the frame path.
DESIGN CHOICE (log 94, unsafe): Ethernet: link corner cases and field values outside their ranges.
DEDUCED (log 114, unsafe): a frame without room in the pool, and a cell that the Adjudicator still holds.
PRESUMED (log 115, unsafe): Ethernet: forms that the spec takes from IEEE 802.3.
DEDUCED (log 116, unsafe): Ethernet: how a stamp is taken from a command, and the order of MAC_ADDR.
DESIGN CHOICE (log 124, unsafe): the instant at which a FRER number is drawn.
-/

namespace Sys2Proof.Machine

/-- Length of a frame on the line from destination address to FCS, padded (R138). -/
def wireLen (b : List Byte) : Nat := Nat.max 64 (b.length + 4)

/-- The gate list of a square as its registers and window give it (R153, R155). DESIGN CHOICE (log 32): a LEN of 1025 to 2047 acts as
1024. -/
def Chip.gateConfig (c : Chip) (q : Nat) : Option GateRun :=
  let len := Nat.min 1024 (c.fldOf (Reg.ETH.GATE_CTRL q) 10 0)
  let cyc := (c.reg (Reg.ETH.GATE_CYCLE q)).toNat
  if !c.bitOf (Reg.ETH.GATE_CTRL q) 31 || len = 0 || cyc = 0 then none
  else some { base := (c.reg (Reg.ETH.GATE_BASE_HI q)).toNat * 2 ^ 32 + (c.reg (Reg.ETH.GATE_BASE_LO q)).toNat,
              cyc := cyc, init := c.fldOf (Reg.ETH.GATE_INIT q) 7 0, ents := c.twords (sqWindow q) len }

/-- A gate list waits for its base time: a new one beside the one that runs, or a first one (R157). -/
def Chip.gatePending (c : Chip) (q : Nat) : Bool :=
  (c.ethSq q).pend.isSome || (match (c.ethSq q).run with | some r => r.pos.isNone | none => false)

/-- GATE_STAT shows the entry in force, PENDING and the gate states (R171). -/
def Chip.showGates (c : Chip) (q gates entry : Nat) : Chip :=
  c.setReg (Reg.ETH.GATE_STAT q) (BitVec.ofNat 32 (entry % 2048 * 2 ^ 16 + (if c.gatePending q then 2 ^ 8 else 0) + gates % 256))

/-- Preemption is active (R147). -/
def Chip.preemptionActive (c : Chip) (q : Nat) : Bool :=
  48 ≤ q && c.bitOf (Reg.ETH.CTRL q) 16 && (c.fldOf (Reg.ETH.STATUS q) 17 16 = 2 || c.bitOf (Reg.ETH.MM_CFG q) 0)

/-- A class uses the preemptable MAC (R147). -/
def Chip.preemptable (c : Chip) (q cls : Nat) : Bool := c.preemptionActive q && cls != 7 && c.bitOf (Reg.ETH.MM_CFG q) (8 + cls)

/-- The entries that have acted when a list goes from the position it had to entry e of the cycle at s, oldest first (R154):
entries passed over and entries with INTERVAL 0 have acted too. -/
def GateRun.acted (r : GateRun) (s e : Nat) : List Word64 :=
  let acting := (((entryOffsets 0 r.ents).zip r.ents).filter fun x => decide (x.1 < r.cyc)).map fun x => x.2
  match r.pos with
  | none => (if r.base < s then acting else []) ++ acting.take (e + 1)
  | some (s0, e0) =>
    if s0 = s then (acting.take (e + 1)).drop (e0 + 1)
    else acting.drop (e0 + 1) ++ (if s0 + r.cyc < s then acting else []) ++ acting.take (e + 1)

/-- The MAC hold after entries have acted: Set-And-Hold-MAC and Set-And-Release-MAC; while preemption is not active both only
set gates (R149). -/
def Chip.holdAfter (c : Chip) (q : Nat) (ws : List Word64) : Bool :=
  if !c.preemptionActive q then (c.ethSq q).macHold
  else ws.foldl (fun h w => if fld w 63 60 = 1 then true else if fld w 63 60 = 2 then false else h) (c.ethSq q).macHold

/-- The frame on the wire when one of the entries closes its gate is counted, once (R156). -/
def Chip.gateOverrun (c : Chip) (q : Nat) (ws : List Word64) : Chip :=
  match (c.ethSq q).tx with
  | none => c
  | some f =>
    if f.overrun || ws.all (fun w => natBits (fld w 39 32) f.copy.cls f.copy.cls = 1) then c
    else (c.setEth q { c.ethSq q with tx := some { f with overrun := true } }).incRaise (Reg.ETH.GATE_OVERRUN q) (pSq q) 5

/-- The list takes the position in force at this instant: gates, MAC hold, overrun; each entry with a reserved OP that acts
sets PAGE_ERR.BLOCK (R149, R153, R154, R156). -/
def Chip.gateAdvance (c : Chip) (q : Nat) (r : GateRun) : Chip :=
  let c := c.creditUpdate q
  match r.at c.ns with
  | none => c.showGates q r.init 0
  | some (s, e) =>
    let ws := r.acted s e
    let c1 := (c.setEth q { c.ethSq q with run := some { r with pos := some (s, e) }, macHold := c.holdAfter q ws }).showGates q
      (fld (r.ents.getD e 0) 39 32) e
    let c2 := if ws.any (fun w => decide (3 ≤ fld w 63 60)) then c1.setErr (pSq q) 7 else c1
    c2.gateOverrun q ws

/-- A new gate list reaches the square (R154, R155, R157): where no list is in force it starts at its own base time, at once
where that lies in the past; otherwise it waits for it. -/
def Chip.gateLoad (c : Chip) (q : Nat) : Chip :=
  let c := c.creditUpdate q
  match c.gateConfig q with
  | none => (c.setEth q { c.ethSq q with run := none, pend := none, macHold := false }).showGates q 0xFF 0
  | some r =>
    match (c.ethSq q).run with
    | none => (c.setEth q { c.ethSq q with run := some r, pend := none }).gateAdvance q r
    | some o =>
      if o.ents = r.ents && o.base = r.base && o.cyc = r.cyc && o.init = r.init then
        (c.setEth q { c.ethSq q with pend := none }).showGates q (c.gates q) (c.fldOf (Reg.ETH.GATE_STAT q) 26 16)
      else if o.pos.isNone then (c.setEth q { c.ethSq q with run := some r, pend := none }).gateAdvance q r
      else (c.setEth q { c.ethSq q with pend := some r }).showGates q (c.gates q) (c.fldOf (Reg.ETH.GATE_STAT q) 26 16)

/-- A cycle of an old list that starts at s is suppressed (R157): it would start less than GATE_EXT before the base time of the list that
waits, and its predecessor is extended. DESIGN CHOICE (log 32): GATE_EXT as it stands committed, with the new list, judges. -/
def Chip.gateSuppressed (c : Chip) (q : Nat) (p : GateRun) (s : Nat) : Bool := decide (p.base - s < (c.reg (Reg.ETH.GATE_EXT q)).toNat)

/-- GATE_LIST_ENTRY (R154, R157): an entry, a cycle start or the base time of a new list is reached. -/
def doGateListEntry (q : Nat) (c : Chip) : Chip :=
  if !isEth q then c else
  let e := c.ethSq q
  match e.run with
  | none => c
  | some r =>
    match e.pend with
    | some p =>
      if p.base ≤ c.ns then (c.setEth q { e with run := some p, pend := none }).gateAdvance q p
      else if c.ns < r.next then c
      else
        (match r.at c.ns, r.pos with
         | some (s, _), some (s0, _) => if s ≠ s0 && c.gateSuppressed q p s then c else c.gateAdvance q r
         | _, _ => c.gateAdvance q r)
    | none => if c.ns < r.next then c else c.gateAdvance q r

/-- The times of the next gate-list entries with their words: the rest of this cycle, and all of the next unless that one is not to
start. -/
def GateRun.upcoming (r : GateRun) (starts : Nat → Bool) : List (Nat × Word64) :=
  let acting := ((entryOffsets 0 r.ents).zip r.ents).filter fun x => decide (x.1 < r.cyc)
  match r.pos with
  | none => acting.map fun x => (r.base + x.1, x.2)
  | some (s, e) =>
    let s' := alignUp r.base r.cyc (s + r.cyc)
    (acting.drop (e + 1)).map (fun x => (s + x.1, x.2)) ++ (if starts s' then acting.map (fun x => (s' + x.1, x.2)) else [])

/-- The next entries of a square: those of the list in force up to the base time of a list that waits, but for a cycle that is
suppressed, then that one's (R157). -/
def Chip.nextEntries (c : Chip) (q : Nat) : List (Nat × Word64) :=
  let e := c.ethSq q
  let old (starts : Nat → Bool) : List (Nat × Word64) := match e.run with | none => [] | some r => r.upcoming starts
  match e.pend with
  | none => old fun _ => true
  | some p => ((old fun s => !c.gateSuppressed q p s).filter fun x => decide (x.1 < p.base)) ++ p.upcoming fun _ => true

/-- The guard of R156: a transmission of a duration in femtoseconds ends before the next entry that closes the gate of its
class. -/
def Chip.guardPasses (c : Chip) (q cls dur : Nat) : Bool :=
  match ((c.nextEntries q).find? fun x => natBits (fld x.2 39 32) cls cls = 0) with
  | none => true
  | some (t, _) => decide (c.ns * 10 ^ 6 + dur < t * 10 ^ 6)

/-- A class is paused now (R140-R142). -/
def Chip.classPaused (c : Chip) (q cls : Nat) : Bool :=
  let ch := if c.fcMode q = 1 then 8 else cls
  c.fcMode q != 0 && decide (c.now < sget 0 (c.ethSq q).pauseEnd ch) &&
    (match c.dutyLimit q with
     | none => true
     | some l => decide (sget 0 (c.ethSq q).pauseUsed ch + (c.now - (c.ethSq q).pauseSeen) < l))

/-- Heads of a class's egress queue that must go before transmission. Step 8 of the frame path judges residence, deadline,
MAX_SDU (R151, R152, R349) and elimination (R162), and ends an aborted copy that is not cut-through (R346); a copy that it has let go to the Adjudicator can only go stale (R29,
R152). -/
def Chip.purgeHead (c : Chip) (q cls : Nat) : Nat → Chip
  | 0 => c
  | n + 1 =>
    match c.egrHead q cls with
    | none => c
    | some k =>
      if k.txCells != 0 then c
      else if k.aborted && !k.ct then (c.delCopy k.id).purgeHead q cls n
      else if k.passed then (if c.pastDeadline k then (c.staleDrop k).purgeHead q cls n else c)
      else if c.residenceOver k then (c.resDrop k).purgeHead q cls n
      else if c.pastDeadline k then (c.staleDrop k).purgeHead q cls n
      else if c.maxSdu q cls < (editFrame k).length + 4 then
        (((c.delCopy k.id).incRaise (Reg.ETH.SDU_DROP q) (pSq q) 6).lastDrop q cls 5).purgeHead q cls n
      else if 2 ≤ fld k.act1 43 42 && !k.counted then
        (match k.rtag with
         | none => c
         | some s =>
           let r := c.frerRecover k.epoch (fld k.act1 41 32) s
           if r.2 then r.1.modCopy k.id fun k => { k with counted := true }
           else (r.1.delCopy k.id).purgeHead q cls n)
      else c

/-- PLCA governs the square's transmission: it is enabled, its status is true and the square has not fallen back (R130). -/
def Chip.plcaRuns (c : Chip) (q : Nat) : Bool :=
  q < 48 && c.bitOf (Reg.ETH.PLCA_CFG q) 31 && c.ethStat q 18 && !c.ethStat q 19

/-- The transmit opportunity n of the cycle in progress begins (R129): one TO_TIMER after the one before it, where no frame uses
that. -/
def Chip.plcaStart (c : Chip) (q from_ n : Nat) : Nat := c.plcaBase q from_ + (n - (c.ethSq q).plcaId) * c.plcaSlot q

/-- The square's own frame ends now (R129, IEEE 802.3-2022 Clause 148): its opportunity goes on for BURST_TMR where its burst may go on, and
then the next one begins. -/
def Chip.plcaSent (c : Chip) (q : Nat) : Chip :=
  let e := c.ethSq q
  let more := if e.burst < c.fldOf (Reg.ETH.PLCA_NODE q) 19 16 then c.bitsFs q (c.fldOf (Reg.ETH.PLCA_CFG q) 7 0) else 0
  c.setEth q { e with plcaFrom := e.plcaFrom.map fun _ => c.now + more, plcaId := c.fldOf (Reg.ETH.PLCA_NODE q) 2 0 + 1,
                      lastTx := c.now, burst := e.burst + 1 }

/-- The square's own transmit opportunity, or a frame of its burst within BURST_TMR of the one before (R129, R156). -/
def Chip.plcaTurn (c : Chip) (q : Nat) : Bool :=
  let e := c.ethSq q
  match e.plcaFrom with
  | none => false
  | some b =>
    let own := c.plcaStart q b (c.fldOf (Reg.ETH.PLCA_NODE q) 2 0)
    if e.burst = 0 then
      decide (e.plcaId ≤ c.fldOf (Reg.ETH.PLCA_NODE q) 2 0) && decide (own ≤ c.now) && decide (c.now < own + c.plcaSlot q)
    else decide (e.burst ≤ c.fldOf (Reg.ETH.PLCA_NODE q) 19 16) &&
      decide (c.now ≤ e.lastTx + c.bitsFs q (c.fldOf (Reg.ETH.PLCA_CFG q) 7 0))

/-- The coordinator sends the BEACON when the NODE_CNT opportunities of the cycle before are over (R129). -/
def Chip.plcaBeacon (c : Chip) (q : Nat) : Chip :=
  if !c.plcaRuns q || c.fldOf (Reg.ETH.PLCA_NODE q) 2 0 ≠ 0 || !c.bitOf (Reg.ETH.CTRL q) 1 || (c.ethSq q).tx.isSome then c
  else
    let due := match (c.ethSq q).plcaFrom with
      | none => true
      | some b => decide (c.plcaStart q b (c.fldOf (Reg.ETH.PLCA_NODE q) 11 8) ≤ c.now)
    if due then (c.plcaCycle q).lineOut q { kind := .ethBeacon, unit := q } else c

/-- The head of a class may start (R149, R150, R156); its transmission time counts what MACsec adds. -/
def Chip.mayStart (c : Chip) (q cls : Nat) : Option Copy :=
  match c.egrHead q cls with
  | none => none
  | some k =>
    let b := editFrame k
    let dur := c.bitsFs q (8 * (8 + wireLen b + c.secGrowth q b))
    if k.txCells = 0 && natBits (c.gates q) cls cls = 1 && c.guardPasses q cls dur && !c.classPaused q cls &&
        (c.idleSlope q cls = 0 || decide (0 ≤ sget 0 (c.ethSq q).credit cls)) && (!c.plcaRuns q || c.plcaTurn q) &&
        !(c.preemptable q cls && ((c.ethSq q).macHold || (c.ethSq q).preempted.isSome)) then some k else none

/-- Classes that could start now, the highest first. -/
def Chip.startable (c : Chip) (q : Nat) : Option Copy := ((List.range 8).reverse.filterMap fun cls => c.mayStart q cls).head?

/-- A stomped frame (R138): what was sent, padded to 60 bytes, with the inverse FCS. -/
def stomped (b : List Byte) : List Byte :=
  let p := b ++ List.replicate (60 - b.length) 0
  p ++ bytesLE 4 (~~~ ethFcs p).toNat

/-- Bytes of a frame that are on the line by now, those of earlier fragments included. -/
def Chip.bytesOut (c : Chip) (q : Nat) (f : MacFrame) : Nat := f.sent + ((c.now - f.start) * c.lineRate q / (8 * fsSec) - 8)

/-- The bytes of a frame that the MAC has: those of the cells that the Adjudicator has released (R138, R384). -/
def Chip.bytesHave (c : Chip) (f : MacFrame) : Nat :=
  match c.copy? f.copy.id with
  | none => f.bytes.length
  | some k => if k.compared = k.cells then f.bytes.length else Nat.min f.bytes.length (64 * k.compared)

/-- The inter-packet gap of 12 bytes begins once n more bytes are out (R138). -/
def Chip.startGap (c : Chip) (q n : Nat) : Chip := c.setEth q { c.ethSq q with gapEnd := c.now + c.bitsFs q (8 * (n + 12)) }

/-- What the square sends comes in again (R171): MAC loopback, with the receiver on. -/
def Chip.looped (c : Chip) (q : Nat) : Bool := c.bitOf (Reg.ETH.CTRL q) 2 && c.bitOf (Reg.ETH.CTRL q) 0

/-- A frame that has left the MAC now is received internally under LOOP (R171). -/
def Chip.loopFrame (c : Chip) (q : Nat) (b : List Byte) (fcsOk preempt : Bool) : Chip :=
  if c.looped q then c.ethReceive q b fcsOk preempt false (c.nsAgo (c.bitsFs q (8 * (b.length + 4))) 0) else c

/-- TX_STOMP: a frame in the MAC is ended with the bytes that it has (R138); of its copy, what has not come yet is discarded as it arrives (R346). Under LOOP it is received with its wrong
FCS (R171). -/
def Chip.stomp (c : Chip) (q : Nat) (f : MacFrame) (have_ : Nat) : Chip :=
  let c := c.creditUpdate q
  let data := (stomped (f.bytes.take have_)).drop f.sent
  let c1 := ((c.dropRest f.copy.id).lineOut q { kind := .ethStomp, unit := q, data := data }).incRaise (Reg.ETH.TX_STOMP q) (pSq q) 0
  let c2 := ((c1.setEth q { c1.ethSq q with tx := none, idleSince := some c1.now }).startGap q (f.sent + data.length - c.bytesOut q f)).pauseBegin q f.copy.id
  c2.loopFrame q (f.bytes.take have_ ++ List.replicate (60 - have_) 0) false (!f.express)

/-- A frame that fails R17's parity check once begun: it is stomped, counted and entered in the Scoresheet. -/
def Chip.stompParity (c : Chip) (q : Nat) (f : MacFrame) : Chip :=
  (c.stomp q f (c.bytesHave f)).scoreLog 0x0062 3 (pSq q) [BitVec.ofNat 8 q]

/-- The MAC starts a frame: MACsec, then the line (R138, R462). `parity` is the check of R17 on its cells. -/
def Chip.startFrame (c : Chip) (q : Nat) (k : Copy) (parity : Bool) : Chip :=
  if !parity then
    ((c.dropRest k.id).incRaise (Reg.ETH.TX_STOMP q) (pSq q) 0).scoreLog 0x0062 3 (pSq q) [BitVec.ofNat 8 q]
  else
    let s := c.macsecTx q (editFrame k)
    match s.2 with
    | none => s.1.dropRest k.id
    | some b =>
      let c1 := s.1.modCopy k.id fun k => { k with txCells := 1 }
      let f : MacFrame := { copy := k, bytes := b ++ List.replicate (60 - b.length) 0, express := !c.preemptable q k.cls, start := c.now }
      c1.setEth q { c1.ethSq q with tx := some f, idleSince := none }

/-- A cut-through frame in the MAC needs a cell that is not in order, or its source aborted (R138, R346). DEDUCED (log 114): a cell that the
Adjudicator still holds is missing to the MAC as one that is not in order. -/
def Chip.txBroken (c : Chip) (q : Nat) (f : MacFrame) : Option Bool :=
  match c.copy? f.copy.id with
  | none => none
  | some k =>
    if k.aborted then some false
    else if k.compared < k.cells && k.compared * 64 ≤ c.bytesOut q f then some true else none

/-- The line can take something: TX_EN, a link or the loopback, no HOLD, no LPI wake time running, no reset of the square that
waits for the end of a frame (R170), no entry into ADJOURNED (R551). -/
def Chip.lineOn (c : Chip) (q : Nat) : Bool :=
  c.bitOf (Reg.ETH.CTRL q) 1 && (c.ethStat q 0 || c.bitOf (Reg.ETH.CTRL q) 2) && !c.ethStat q 1 && (c.ethSq q).resetAt.isNone &&
    !c.halted && c.power.entering.isNone && (match (c.ethSq q).wakeAt with | none => true | some t => decide (t ≤ c.now))

/-- The transmitter may take frames of the planes: the line can, and no switch-over gap runs (R384). -/
def Chip.txOn (c : Chip) (q : Nat) : Bool := c.lineOn q && !c.gapOn

/-- The MAC leaves LPI; it sends nothing before TW_TX has passed (R144). -/
def Chip.leaveLpi (c : Chip) (q : Nat) : Chip :=
  (c.setEthStat q 2 false).setEth q { c.ethSq q with wakeAt := some (c.now + c.fldOf (Reg.ETH.EEE_TW q) 14 0 * 10 ^ 6), idleSince := some c.now }

/-- The bytes of a PAUSE or of a PFC frame for one class, without FCS (R139, R143): its source address is MAC_ADDR. -/
def Chip.pauseBytes (c : Chip) (q ch quanta : Nat) : List Byte :=
  let sa := (c.reg (Reg.ETH.MAC_ADDR_HI q)).toNat % 2 ^ 16 * 2 ^ 32 + (c.reg (Reg.ETH.MAC_ADDR_LO q)).toNat
  let body := if ch = 8 then bytesBE 2 1 ++ bytesBE 2 quanta
    else bytesBE 2 0x0101 ++ bytesBE 2 (2 ^ ch) ++ (List.range 8).flatMap fun p => bytesBE 2 (if p = ch then quanta else 0)
  let b := bytesBE 6 0x0180C2000001 ++ bytesBE 6 sa ++ bytesBE 2 0x8808 ++ body
  b ++ List.replicate (60 - b.length) 0

/-- The MAC is idle once n bytes more are out (R144). -/
def Chip.idleAfter (c : Chip) (q n : Nat) : Chip := c.setEth q { c.ethSq q with idleSince := some (c.now + c.bitsFs q (8 * n)) }

/-- A pause frame leaves the square (R143); under LOOP it is received internally (R171). -/
def Chip.putPause (c : Chip) (q ch quanta : Nat) : Chip :=
  let b := c.pauseBytes q ch quanta
  let c1 := ((c.lineOut q { kind := .ethPause, unit := q, arg := ch * 2 ^ 16 + quanta, data := b ++ bytesLE 4 (ethFcs b).toNat }).inc
    (Reg.ETH.TX_PAUSE q)).startGap q (8 + 64)
  let c2 := c1.idleAfter q (8 + 64)
  if c2.looped q then c2.ethReceive q b true false false (c2.nsAgo 0 0) else c2

/-- A verify (false) or respond (true) frame leaves the square (R147); under LOOP it is received internally (R171). -/
def Chip.putVerify (c : Chip) (q : Nat) (resp : Bool) : Chip :=
  let c1 := ((c.lineOut q { kind := .ethVerify, unit := q, arg := if resp then 1 else 0 }).startGap q (8 + 64)).idleAfter q (8 + 64)
  if c1.looped q then c1.mmFrame q resp else c1

/-- Pending pause frames go first, one at an opportunity, then frames of the merge sublayer; none if nothing waits (R143,
R147, R150). -/
def Chip.sendControl (c : Chip) (q : Nat) : Option Chip :=
  let e := c.ethSq q
  match e.pausePend, e.mmPend with
  | [], [] => none
  | (ch, quanta) :: rest, _ => some (if c.ethStat q 2 then c.leaveLpi q else (c.setEth q { e with pausePend := rest }).putPause q ch quanta)
  | [], resp :: rest =>
    some (if c.ethStat q 2 then c.leaveLpi q else (c.setEth q { e with mmPend := rest }).putVerify q resp)

/-- The point at which a frame of the preemptable MAC can be cut now (R148): no fragment, its mCRC included, is shorter than
64 bytes, and one that is not the last is not shorter than 64 x (1 + ADD_FRAG). -/
def Chip.cutPoint (c : Chip) (q : Nat) (f : MacFrame) : Option Nat :=
  let out := c.bytesOut q f
  if f.sent + 64 * (1 + c.fldOf (Reg.ETH.MM_CFG q) 17 16) ≤ out + 4 && out + 60 ≤ f.bytes.length then some out else none

/-- A fragment after the first has been sent (R171). -/
def Chip.fragCount (c : Chip) (q : Nat) (f : MacFrame) : Chip := if f.sent = 0 then c else c.inc (Reg.ETH.MM_FRAG_TX q)

/-- The frame in progress is preempted at a point: its fragment ends with the mCRC (R148, IEEE 802.3-2022 Clause 99). -/
def Chip.preempt (c : Chip) (q : Nat) (f : MacFrame) (out : Nat) : Chip :=
  let mCrc := (ethFcs (f.bytes.take out) ^^^ 0x0000FFFF).toNat
  let data := (f.bytes.take out).drop f.sent ++ bytesLE 4 mCrc
  let c1 := (c.lineOut q { kind := .ethFrag, unit := q, arg := f.copy.cls, data := data }).fragCount q f
  (c1.setEth q { c1.ethSq q with tx := none, preempted := some { f with sent := out } }).startGap q 4

/-- A copy has passed step 8 and goes to the Adjudicator (R26). -/
def Chip.step8 (c : Chip) (k : Copy) : Chip := (c.frerDraw k).modCopy k.id fun k => { k with passed := true }

/-- The MAC takes a frame, or resumes a preempted one when no express frame is eligible and the MAC is not held (R148-R150).
The frame of the highest class that may start first goes through step 8 to the Adjudicator, and starts once that has released
what the MAC needs of it (R26). -/
def Chip.txChoose (c : Chip) (q : Nat) (parity : Bool) : Chip :=
  match c.startable q with
  | some k =>
    if c.ethStat q 2 then c.leaveLpi q
    else if !k.passed then c.step8 k
    else if k.ready then c.startFrame q k parity
    else c
  | none =>
    match (c.ethSq q).preempted with
    | none => c
    | some f => if (c.ethSq q).macHold && c.preemptionActive q then c else c.setEth q { c.ethSq q with tx := some { f with start := c.now }, preempted := none }

/-- An express frame meets the frame in progress: it goes to the Adjudicator first; ready, or under a hold of the MAC, it
preempts at the next point where that is possible (R148, R149). -/
def Chip.txPreempt (c : Chip) (q : Nat) (f : MacFrame) : Chip :=
  let express := match c.startable q with | some k => if c.preemptable q k.cls then none else some k | none => none
  let c1 := match express with | some k => if k.passed then c else c.step8 k | none => c
  let ready := match express with | some k => k.passed && k.ready | none => false
  if c.preemptionActive q && (ready || (c.ethSq q).macHold) then (match c.cutPoint q f with | some n => c1.preempt q f n | none => c1)
  else c1

/-- ETH_TRANSMIT_SELECT (R150): a transmission opportunity of square q. `parity` is the check of R17 on the frame that starts
or is in the MAC. -/
def doEthTransmitSelect (q : Nat) (parity : Bool) (c : Chip) : Chip :=
  if !isEth q then c else
  let c0 := c.plcaBeacon q
  if !c0.lineOn q then c0 else
  match (c0.ethSq q).tx with
  | none =>
    if c0.now < (c0.ethSq q).gapEnd then c0
    else (match c0.sendControl q with
      | some c1 => c1
      | none =>
        if !c0.txOn q then c0
        else Chip.fabDone c (((List.range 8).foldl (fun c cls => c.purgeHead q cls (c.fab.copies.length)) (c0.creditUpdate q)).txChoose q parity))
  | some f =>
    if !c0.txOn q then c0 else
    let c1 := (List.range 8).foldl (fun c cls => c.purgeHead q cls (c.fab.copies.length)) (c0.creditUpdate q)
    Chip.fabDone c (if !parity then c1.stompParity q f
      else match c1.txBroken q f with
        | some under => (if under then c1.incRaise Reg.FAB.UNDERRUN 0x040 2 else c1).stomp q f (c1.bytesHave f)
        | none => if f.express then c1 else c1.txPreempt q f)

/-- The last bit of a frame is out (R138): the frame or its last fragment with the FCS over all of it. -/
def Chip.txEnd (c : Chip) (q coll : Nat) (f : MacFrame) : Chip :=
  let c0 := (c.creditUpdate q).lineOut q { kind := if f.sent = 0 then .ethFrame else .ethFrag, unit := q, arg := f.copy.cls,
                                           data := f.bytes.drop f.sent ++ bytesLE 4 (ethFcs f.bytes).toNat }
  let c1 := ((c0.inc (Reg.ETH.TX_FRAMES q)).add64 (Reg.ETH.TX_BYTES_LO q) (Reg.ETH.TX_BYTES_HI q) (f.bytes.length + 4)).fragCount q f
  let c2 := if q < 48 && (!c.bitOf (Reg.ETH.PLCA_CFG q) 31 || c.ethStat q 19) then c1.addTo (Reg.ETH.COLLISIONS q) coll else c1
  let c3 := ((c2.delCopy f.copy.id).setEth q { c2.ethSq q with tx := none, idleSince := some c.now }).plcaSent q
  let c4 := (c3.startGap q 0).pauseBegin q f.copy.id
  c4.loopFrame q f.bytes true (!f.express)

/-- ETH_FRAME_TX_DONE (R138): the last bit of the frame is out; `t` says how many collisions came before it under CSMA/CD and
whether its cells passed the parity check of R17. -/
def doEthFrameTxDone (q : Nat) (t : TxEnd) (c : Chip) : Chip :=
  if !isEth q then c else
  match (c.ethSq q).tx with
  | none => c
  | some f =>
    Chip.fabDone c (if !t.parity then c.stompParity q f
      else match c.txBroken q f with
        | some under => (if under then c.incRaise Reg.FAB.UNDERRUN 0x040 2 else c).stomp q f (c.bytesHave f)
        | none => c.txEnd q t.coll f)

/-- LPI is permitted (R144): TW_VALID, a BASE-R mode, and EEE_EN or QUIET with EEE_QUIET. -/
def Chip.lpiPermitted (c : Chip) (q : Nat) : Bool :=
  48 ≤ q && c.bitOf (Reg.ETH.EEE_TW q) 31 && decide (3 ≤ c.fldOf (Reg.SDS.SDS_MODE q) 3 0) &&
    (c.bitOf (Reg.ETH.CTRL q) 12 || (c.fldOf Reg.PWR.STATUS 2 0 = 1 && c.bitOf (Reg.ETH.CTRL q) 13))

/-- Something is eligible for transmission, or on the line. -/
def Chip.txBusy (c : Chip) (q : Nat) : Bool :=
  let e := c.ethSq q
  (c.startable q).isSome || e.tx.isSome || e.preempted.isSome || !e.pausePend.isEmpty || !e.mmPend.isEmpty

/-- LPI_ENTER (R144): nothing has been eligible for EEE_IDLE microseconds. -/
def doLpiEnter (q : Nat) (c : Chip) : Chip :=
  if !isEth q || !c.lpiPermitted q || c.ethStat q 2 || !c.ethStat q 0 then c else
  let idle := c.fldOf (Reg.ETH.EEE_IDLE q) 15 0
  match (c.ethSq q).idleSince with
  | none => c
  | some t =>
    if idle = 0 || c.now < t + idle * fsUs || c.txBusy q then c
    else (c.setEthStat q 2 true).inc (Reg.ETH.LPI_ENTRIES q)

/-- The time of the next entry that opens a gate which is closed before it. -/
def firstOpening (gates : Nat) : List (Nat × Word64) → Option Nat
  | [] => none
  | (t, w) :: rest =>
    if (BitVec.ofNat 8 (fld w 39 32) &&& ~~~ BitVec.ofNat 8 gates) != 0 then some t else firstOpening (fld w 39 32) rest

/-- LPI_GATE_WAKE (R146): TW_TX before an entry that opens a gate, the MAC starts to leave LPI. -/
def doLpiGateWake (q : Nat) (c : Chip) : Chip :=
  if !isEth q || !c.ethStat q 2 then c else
  match firstOpening (c.gates q) (c.nextEntries q) with
  | none => c
  | some t => if c.ns + c.fldOf (Reg.ETH.EEE_TW q) 14 0 < t then c else c.leaveLpi q

/-- MM_VERIFY_TIMER (R147): a response to the verify frame has come, or VERIFY_MS has passed without one: the next attempt
sends its verify frame. -/
def doMmVerifyTimer (q : Nat) (resp : Bool) (c : Chip) : Chip :=
  if q < 48 || 64 ≤ q || c.fldOf (Reg.ETH.STATUS q) 17 16 ≠ 1 then c
  else if resp then c.mmSucceed q
  else
    match (c.ethSq q).verifyAt with
    | none => c
    | some t =>
      if c.now < t then c
      else if 3 ≤ (c.ethSq q).attempts then
        ((((c.setFldOf (Reg.ETH.STATUS q) 17 16 3).setEth q { c.ethSq q with verifyAt := none }).inc (Reg.ETH.MM_VERIFY_FAIL q)).raise (pSq q) 4)
      else c.mmAttempt q ((c.ethSq q).attempts + 1)

/-- What the reset of an Ethernet square's controller leaves (R170). The frame that it cuts off is counted in the counters that it
leaves cleared. -/
def Chip.ethClear (c : Chip) (q : Nat) : Chip :=
  let cut := (c.ethSq q).begun
  let c1 := (c.resetDrops q).truncateTx q
  let c2 := (c1.linkFall q).resetPage (pSq q)
  let c3 := (c2.wipeTable (sqWindow q) 0x2000).stgReset q
  let c4 := (c3.setEth q {}).setBitOf Reg.GAMBIT.UCODE_PEND (q - 40) false
  let c5 := if q < 48 then c4 else
    { (c4.resetPage (pSds q)).resetPage (pSec q) with
        sas := c4.sas.filter fun (e : Nat × SaInst) => e.1 / 128 != q,
        tbl := c4.tbl.filter fun (e : Nat × Word64) => !saCounter q e.1 }
  cut.foldl (fun (c : Chip) f => c.countCut q f) c5

/-- The reset of an Ethernet square's controller (R170); its pages leave reset with it. -/
def Chip.ethReset (c : Chip) (q : Nat) : Chip :=
  let c1 := ((c.ethClear q).outOfReset (pSq q)).outOfReset (pStg q)
  if q < 48 then c1 else (c1.outOfReset (pSds q)).outOfReset (pSec q)

end Sys2Proof.Machine
end

