-- ==== Sys2Proof/Machine/CanFab.lean ====
section
/-! DEFINITION. Chapter 4, where a CAN square meets the fabric: the class buffers (R103, R110) and the square reset
(R124, R354). -/

/-
MARKS of the model choices coded here; the log rows say each in full.
DEDUCED (log 9, unsafe): the common header of a page survives block and square resets.
DESIGN CHOICE (log 30, safe): a parity failure of a frame's cells on its way out is an operand.
DEDUCED (log 93, unsafe): a CAN output that is stalled pulls nothing into its class buffers.
-/

namespace Sys2Proof.Machine

/-- LEN of a record matches its format and DLC (R110). -/
def canLenOk (r : List Byte) : Bool :=
  let f := canOfRecord r
  let n := canRecLen r
  if f.fmt = 2 then decide (1 ≤ n) && decide (n ≤ 2048) && !f.rtr
  else if f.fmt = 1 then decide (n = dlcLen 1 f.dlc) && !f.rtr
  else if f.rtr then decide (n = 0)
  else decide (n = dlcLen 0 f.dlc)

/-- A fabric record is valid for a square (R110). -/
def Chip.canRecOk (c : Chip) (q : Nat) (r : List Byte) : Bool :=
  c.fmtEnabled q (canOfRecord r) && canLenOk r

/-- The head of a class goes to the controller (R103, R347): expired heads before it are discarded (R107, R349); a head that
fails parity or is invalid is discarded. -/
def Chip.canPull (c : Chip) (q cls : Nat) (parity : Bool) : Nat → Chip
  | 0 => c
  | n + 1 =>
    match c.egrHead q cls with
    | none => c
    | some k =>
      if !k.ready then c
      else if c.pastDeadline k then (c.staleDrop k).canPull q cls parity n
      else if k.aborted then (c.delCopy k.id).canPull q cls parity n
      else if !parity then
        ((c.delCopy k.id).inc (Reg.CAN.FMT_DROP_CNT q)).scoreLog 0x0062 3 (pSq q) [BitVec.ofNat 8 q]
      else if c.canRecOk q k.data then
        let c1 := c.delCopy k.id
        c1.setCan q { c1.canSq q with cls := insertKey (c1.canSq q).cls cls { copy := k, frame := canOfRecord k.data } }
      else (c.delCopy k.id).incRaise (Reg.CAN.FMT_DROP_CNT q) (pSq q) 15

/-- The square of a CAN output is stalled (R352): bus-off, with or without BO_WAIT, in CONFIG, or in standby. -/
def Chip.canStalled (c : Chip) (q : Nat) : Bool := c.errState q = 2 || c.modeAct q = 0 || c.bitOf (Reg.CAN.TRX q) 0

/-- CAN_CLASS_BUFFER_PULL (R103, R352): class `cls` of square q; `parity` is the check of R17 on the head's cells. -/
def doCanClassBufferPull (q cls : Nat) (parity : Bool) (c : Chip) : Chip :=
  if !isCan q || 8 ≤ cls || (lookupKey (c.canSq q).cls cls).isSome || c.halted || c.canStalled q then c
  else Chip.fabDone c (c.canPull q cls parity (c.fab.copies.length + 1))

/-- The state of a CAN square after its reset (R124), out of reset. Mailboxes that the reset ended when it took effect still
show RESET. -/
def Chip.canReset (c : Chip) (q : Nat) : Chip :=
  let ended := (List.range 32).filter fun n => c.mbStatus q n = 7
  ((ended.foldl (fun c n => c.setMbStatus q n 7) (c.canWipe q)).outOfReset (pSq q)).outOfReset (pStg q)

end Sys2Proof.Machine
end

