-- ==== Sys2Proof/Machine/Adjudicate.lean ====
section
/-! DEFINITION. Chapter 13: comparison, decisions, switch-over, sweeps, re-integration and the proof swap. The planes are
held once: where they differ, the command that meets the difference says so. -/

/-
MARKS of the model choices coded here; the log rows say each in full.
DESIGN CHOICE (log 8, safe): the two planes are modelled once.
DESIGN CHOICE (log 50, unsafe): adjudication: GAP_MAX and REGION.
DESIGN CHOICE (log 51, safe): sweeps, diagnostics and the reintegration's parts are each one command.
DESIGN CHOICE (log 52, unsafe): items that wait when a disagreement, a switch-over or a discard comes.
DESIGN CHOICE (log 102, unsafe): adjudication: digests, sweeps, AUTO_REINT and proof swaps.
DESIGN CHOICE (log 118, unsafe): the four steps of a snapshot record.
-/

namespace Sys2Proof.Machine

/-- DRIVE_PATH_CHECK (R392): the driven item differs from the partner's although the planes agreed. -/
def Chip.driveFail (c : Chip) (counter loc cls copy : Nat) (dma : Bool) : Chip :=
  ((c.inc counter).planeFlag c.move 1).disagreeAt 4 loc cls copy c.fab.tour dma

/-- A ring size that enables the ring (R505). -/
def ringSize (n : Nat) : Option Nat :=
  if [8, 16, 32, 64, 128, 256, 512, 1024, 2048, 4096].contains n then some n else none

/-- The rings of endpoint k run: attached, no network seat, EN (R504, R526). -/
def Chip.hdmaOn (c : Chip) (k : Nat) : Bool :=
  decide (k < 4) && (c.part k).linkUp && !c.bitOf (Reg.PART.SEAT k) 31 && c.bitOf (Reg.HDMA.CTRL k) 0

/-- Receive ring r of endpoint p has a posted descriptor; the ring's size. -/
def Chip.rxRing (c : Chip) (p r : Nat) : Option Nat :=
  match ringSize (c.fldOf (Reg.HDMA.RX_SIZE p r) 12 0) with
  | none => none
  | some n => if c.fldOf (Reg.HDMA.RX_HEAD p r) 11 0 = c.fldOf (Reg.HDMA.RX_TAIL p r) 11 0 % n then none else some n

/-- The controller of an output takes the copy now, so that its cells leave the fabric (R347, R352): a CAN square whose class
buffer is free and that is not stalled; a host ring with a posted descriptor, or one whose copies are dropped without (R508).
An Ethernet square takes it when step 8 has let it pass. -/
def Chip.outputTakes (c : Chip) (k : Copy) : Bool :=
  if k.output < 40 then (lookupKey (c.canSq k.output).cls k.cls).isNone && !c.canStalled k.output
  else if k.output < 64 then false
  else (c.rxRing (k.output - 64) k.ring).isSome || !c.bitOf (Reg.HDMA.RX_CFG (k.output - 64) k.ring) 7

/-- A cell of output o and class cls leaves the fabric and is released when the planes' copies of it agree (R372, R377). Before
its first cell, a copy that is not for an Ethernet square is judged at the head of its egress queue (R349), and so is the record of one
for a CAN square (R110). -/
def Chip.compareCell (c : Chip) (o cls : Nat) (same drive : Bool) : Chip :=
  match c.fab.copies.find? (fun k => k.appended && k.output = o && k.cls = cls && decide (k.compared < k.arrived)) with
  | none => c
  | some k =>
    if !k.passed && !c.outputTakes k then c
    else if !k.passed && k.output < 40 && !c.canRecOk k.output k.data then
      Chip.fabDone c ((c.delCopy k.id).incRaise (Reg.CAN.FMT_DROP_CNT k.output) (pSq k.output) 15)
    else if !k.passed && c.residenceOver k then Chip.fabDone c (c.resDrop k)
    else if !k.passed && c.pastDeadline k then Chip.fabDone c (c.staleDrop k)
    else
      let c0 := c.modCopy k.id fun k => { k with passed := true }
      if !c.comparing k || (same && drive) then Chip.fabDone c (c0.modCopy k.id fun k => { k with compared := k.compared + 1 })
      else if same then c0.driveFail Reg.ADJ.DIS_CELL o cls k.id false
      else (c0.inc Reg.ADJ.DIS_CELL).disagreeAt 0 o cls k.id c.fab.tour false

/-- A DMA write that a disagreement concerns: the snapshot record of a key, the DONE_WORD of an endpoint. -/
def slotItem (key : Nat) : Nat := 2 ^ 32 + key
def doneItem (k : Nat) : Nat := 2 ^ 33 + k

/-- The DMA write of partition k that is compared (R372, R377): with cls 8 a snapshot record on its way into a slot, with 9 the DONE_WORD of
a transmit descriptor, otherwise its oldest copy, or without one the record or else the DONE_WORD; with its class. -/
def Chip.dmaItem (c : Chip) (k cls : Nat) : Option (Nat × Nat) :=
  let copy := if cls = 8 || cls = 9 then none else c.fab.copies.find? fun x => x.appended && x.output = 64 + k
  let slot := if cls = 9 then none else (c.sig.slots.find? fun j => j.key / 2 ^ 19 = k).map fun j => (slotItem j.key, 0)
  let done := if cls = 8 then none else (lookupKey c.host.done k).map fun _ => (doneItem k, 0)
  match copy with
  | some x => some (x.id, x.cls)
  | none => slot.or done

/-- The planes' copies of a DMA write are compared (R372): one of a pre-join copy is released without (R389). -/
def Chip.dmaCompared (c : Chip) (id : Nat) : Bool :=
  match c.copy? id with
  | some k => c.comparing k
  | none => c.lockstep || c.plState c.partner = 6

/-- A disagreement of a DMA write, or of its drive path (R372, R392). -/
def Chip.compareDma (c : Chip) (k cls : Nat) (same drive : Bool) : Chip :=
  match c.dmaItem k cls with
  | none => c
  | some (id, cl) =>
    if !c.dmaCompared id || (same && drive) then c
    else if same then c.driveFail Reg.ADJ.DIS_DMA k cl id true
    else (c.inc Reg.ADJ.DIS_DMA).disagreeAt 2 k cl id c.fab.tour true

/-- A disagreement of the digest that an engine passed last (R301, R372): while the partner joins, of an invocation that began at J or
later (R389). -/
def Chip.compareDigest (c : Chip) (n : Nat) (same : Bool) : Chip :=
  match lookupKey c.pawn.digests n with
  | none => c
  | some d =>
    let c1 : Chip := { c with pawn := { c.pawn with digests := eraseKey c.pawn.digests n } }
    if same || !(c.lockstep || (c.plState c.partner = 6 && decide (c.adj.joinNs ≤ d.began))) then c1
    else (c1.inc Reg.ADJ.DIS_DIGEST).disagreeAt 1 n 0 0 c1.fab.tour false

/-- The self-check flags that the planes raise with an item (R374): PARITY, and at a digest BUDGET; a plane that does not compute raises
none. -/
def Chip.checkFlags (c : Chip) (point : Nat) (x : ItemCheck) : Chip :=
  let raise (c : Chip) (p bits f : Nat) : Chip := if natBits bits f f = 1 && c.planeComputes p then c.planeFlag p f else c
  let both (c : Chip) (f : Nat) : Chip := raise (raise c 0 x.white f) 1 x.black f
  if point = 1 then both (both c 1) 2 else both c 1

/-- ADJ_ITEM_COMPARE (R372): an item of point 0 (a cell of output `loc` and class `cls`), 1 (the digest that engine `loc` passed last)
or 2 (a DMA write for partition `loc`). `x` says whether White's and Black's item agree and what flags they raise, `drive` that the driven
item agrees with them (R392). An item that is held is not compared (R377). -/
def doAdjItemCompare (point loc cls : Nat) (x : ItemCheck) (drive : Bool) (c0 : Chip) : Chip :=
  let c := c0.checkFlags point x
  match point with
  | 0 => if 68 ≤ loc || 8 ≤ cls || c.itemHeld false loc then c else c.compareCell loc cls x.same drive
  | 1 => if c.digestHeld loc then c else c.compareDigest loc x.same
  | 2 => if 4 ≤ loc || c.itemHeld true loc then c else c.compareDma loc cls x.same drive
  | _ => c

/-- UNDEC_RATE_RETIRE (R380): an undecided disagreement of time t counts. -/
def Chip.countUndecided (c : Chip) (t : Nat) : Chip :=
  let lim := c.fldOf Reg.ADJ.UNDEC_CFG 7 0
  let win := c.fldOf Reg.ADJ.UNDEC_CFG 31 16
  let list := (c.adj.undec ++ [t]).filter fun u => decide (t ≤ u + win * fsSec)
  let c1 := { c with adj := { c.adj with undec := list } }
  if lim ≠ 0 && lim ≤ list.length && c1.lockstep then
    Chip.retirePlane { c1 with adj := { c1.adj with undec := [] } } c1.partner 3
  else c1

/-- The diagnostic after an undecided disagreement (R379, R380, R33). -/
def Chip.diagnose (c : Chip) (t : Nat) : Chip :=
  if c.bitOf Reg.ADJ.STATUS 2 then c.countUndecided t
  else if c.arbRunning then
    Chip.setBitOf { c with adj := { c.adj with diagFor := some t } } Reg.ADJ.STATUS 2 true
  else Chip.countUndecided { c with adj := { c.adj with diagDue := true, diagFor := none } } t

/-- The DONE_WORD of a transmit descriptor is discarded (R378): DESIGN CHOICE (log 52): TX_HEAD and TX_IRQ follow as after its write. -/
def Chip.doneDrop (c : Chip) (k : Nat) : Chip :=
  match lookupKey c.host.done k with
  | none => c
  | some d =>
    let c1 : Chip := { c with host := { c.host with done := eraseKey c.host.done k } }
    let c2 := c1.setReg (Reg.HDMA.TX_HEAD k d.ring) (BitVec.ofNat 32 ((c1.fldOf (Reg.HDMA.TX_HEAD k d.ring) 11 0 + 1) % d.size))
    Chip.irqEdge c2 (c2.setBitOf (Reg.HDMA.TX_IRQ k) d.ring true)

/-- UNDECIDED_DISCARD (R378): the item of an undecided disagreement. -/
def Chip.discardItem (c : Chip) (p : Dis) : Chip :=
  let slot (j : SnapJob) : Bool := p.dma && decide (p.copy = slotItem j.key)
  match c.copy? p.copy with
  | none =>
    if c.sig.slots.any slot then
      Chip.inc { c with sig := { c.sig with slots := c.sig.slots.eraseP slot } } Reg.ADJ.DIS_DROP
    else if p.dma && p.copy = doneItem p.loc && (lookupKey c.host.done p.loc).isSome then (c.doneDrop p.loc).inc Reg.ADJ.DIS_DROP
    else c
  | some k =>
    if p.dma then (c.modCopy k.id fun k => { k with discarded := true, aborted := true }).inc Reg.ADJ.DIS_DROP
    else if isEth k.output && k.txCells != 0 then (c.modCopy k.id fun k => { k with aborted := true }).inc Reg.ADJ.DIS_DROP
    else Chip.fabDone c ((c.delCopy k.id).inc Reg.ADJ.DIS_DROP)

/-- A frame in progress whose LAST cell had not been released before d is ended with a stomped FCS in the gap (R384). -/
def Chip.gapEnd (c : Chip) (p : Dis) (q : Nat) (f : MacFrame) : Chip :=
  if (c.copy? f.copy.id).isNone || p.whole.contains f.copy.id then c else (c.stomp q f (c.bytesHave f)).inc Reg.ADJ.SW_STOMP

/-- The frames in progress at a square when the gap begins: the one on the line, and a preempted one, which takes the line for its end. -/
def Chip.gapStomp (c : Chip) (p : Dis) (q : Nat) : Chip :=
  let c1 := match (c.ethSq q).tx with | none => c | some f => c.gapEnd p q f
  match (c1.ethSq q).preempted with
  | none => c1
  | some f =>
    if (c1.copy? f.copy.id).isNone || p.whole.contains f.copy.id then c1
    else (c1.setEth q { c1.ethSq q with preempted := none }).gapEnd p q { f with start := c1.now }

/-- SWITCHOVER (R383, R384): the partner takes the move, the former active plane is retired, the gap runs from d. -/
def Chip.switchOver (c : Chip) (p : Dis) (cause : Nat) : Chip :=
  let old := c.move
  let c1 := (c.setBitOf Reg.ADJ.STATUS 0 (old = 0)).setPlState (1 - old) 0
  let c2 := ((c1.retirePlane old cause).setBitOf Reg.ADJ.STATUS 1 true)
  let c3 := { c2 with adj := { c2.adj with gapFrom := some (p.d, p.dFs) } }
  let c4 := (List.range 24).foldl (fun c i => c.gapStomp p (40 + i)) c3
  Chip.fabDone c ((c4.inc Reg.ADJ.SWITCHOVERS).raise 0x030 2)

/-- LAST_DIS takes the decision (R396). -/
def Chip.lastDis (c : Chip) (p : Dis) (outcome : Nat) : Chip :=
  if p.point = 5 then c else
  (c.setReg Reg.ADJ.LAST_DIS (BitVec.ofNat 32
    (2 ^ 31 + p.point * 2 ^ 24 + outcome * 2 ^ 20 + p.wFlags * 2 ^ 16 + p.bFlags * 2 ^ 12 + p.loc % 128))).setReg
    Reg.ADJ.LAST_DIS_TIME (BitVec.ofNat 32 (p.dNs / 1024))

/-- The outcome of R376: 0 active kept, 1 switch-over, 2 undecided with neither flagged, 3 undecided with both. A TABLE
flag without a disagreement always moves, unless the partner has raised one as well (R381). -/
def Dis.outcome (p : Dis) : Nat :=
  if p.point = 5 then 1 else
  let a := p.flags p.act != 0
  let b := p.flags (1 - p.act) != 0
  if b then (if a then 3 else 0) else if a then 1 else 2

/-- A TABLE flag in the window of an undecided outcome still retires its plane (R381). -/
def Chip.tableAfter (c : Chip) (p : Dis) : Chip :=
  let aT := 8 ≤ p.flags p.act
  let bT := 8 ≤ p.flags (1 - p.act)
  let c1 := if bT && c.lockstep then c.retirePlane c.partner 4 else c
  if !aT then c1 else if c1.lockstep then c1.switchOver p 4 else c1.haltPlanes

/-- An undecided outcome (R376, R378, R379). -/
def Chip.undecided (c : Chip) (p : Dis) (outcome : Nat) : Chip :=
  let c1 := ((if outcome = 3 then c.setAlarm 3 else c).discardItem p).incRaise Reg.ADJ.UNDECIDED 0x030 1
  let c2 := if p.point = 1 && c1.lockstep then c1.retirePlane c1.partner 2 else c1
  (c2.tableAfter p).diagnose p.dFs

/-- A disagreement while the partner joined (R391): the active plane keeps the move and the rejoining plane is retired. -/
def Chip.joinDisagree (c : Chip) (p : Dis) : Chip :=
  let c0 := c.lastDis p 0
  let c1 := if c.plState c.partner = 6 then c0.reintFail else c0
  if p.flags p.act / 2 % 2 = 1 || 8 ≤ p.flags p.act then c1.haltPlanes else c1

/-- DISAGREEMENT_DECIDE (R376): a disagreement whose windows have closed. -/
def Chip.decide1 (c : Chip) (p : Dis) : Chip :=
  if c.halted then c
  else if p.join then c.joinDisagree p
  else
    let o := p.outcome
    let c1 := c.lastDis p o
    if o = 0 then (if c1.lockstep then c1.retirePlane c1.partner 1 else c1)
    else if o = 1 then
      (if p.point = 5 && 8 ≤ p.flags (1 - p.act) then c1.tableAfter p
       else if c1.move = p.act && c1.lockstep then c1.switchOver p (if p.point = 5 then 4 else 1)
       else if c1.move = p.act && p.point = 5 then c1.haltPlanes
       else c1)
    else c1.undecided p o

/-- ADJ_DECISION (R375, R376): the decision of the oldest disagreement, once Black's window has closed: cycle d + 64 of
Black's timeline is d + 66 of White's. -/
def doAdjDecision (c : Chip) : Chip :=
  match c.adj.pend with
  | [] => c
  | p :: rest =>
    if c.fab.tour < p.d + 66 then c
    else Chip.decide1 { c with adj := { c.adj with pend := rest } } p

/-- SWITCHOVER_GAP_END (R383): the first release from the new active plane. -/
def doSwitchoverGapEnd (c : Chip) : Chip :=
  match c.adj.gapFrom with
  | none => c
  | some (_, fs) =>
    let ns := Nat.min 0xFFF ((c.now - fs) / 10 ^ 6)
    let c1 := if c.fldOf Reg.ADJ.GAP_MAX 11 0 < ns then c.setFldOf Reg.ADJ.GAP_MAX 11 0 ns else c
    Chip.setBitOf { c1 with adj := { c1.adj with gapFrom := none } } Reg.ADJ.STATUS 1 false

/-- A sweep of plane x has ended (R382): counted; a mismatch in region `bad` (0 none) sets FAIL and REGION and raises the
TABLE flag. -/
def Chip.sweepDone (c : Chip) (x bad : Nat) : Chip :=
  let a := Reg.PL.SWEEP_STAT x
  let c1 := c.setFldOf a 15 0 (c.fldOf a 15 0 + 1)
  if bad = 0 then c1
  else
    let c2 := if c1.bitOf a 30 then c1 else (c1.setBitOf a 30 true).setFldOf a 23 16 bad
    (c2.raise (0x031 + x) 1).planeFlag x 3

/-- TABLE_SWEEP (R382): the background sweep of plane x, every SWEEP_MS. `bad` is the region in which its memory differs
from its reference CRC, 0 for none. -/
def doTableSweep (x bad : Nat) (c : Chip) : Chip :=
  if 2 ≤ x || 8 < bad || !c.planeRuns x then c else
  let ms := c.fldOf (Reg.PL.SWEEP_CFG x) 15 0
  if ms = 0 || c.now < sget 0 c.adj.sweepAt x + clampNat 100 60000 ms * fsMs then c
  else Chip.sweepDone { c with adj := { c.adj with sweepAt := sset 0 c.adj.sweepAt x c.now } } x bad

/-- SWEEP_NOW (R382): partition k runs one full-speed sweep of plane x, which ends with `bad`. -/
def doSweepNow (k x : Nat) (v : Word) (bad : Nat) (c : Chip) : Chip :=
  if 2 ≤ x || 8 < bad then c else
  c.blockWrite k (Reg.PL.SWEEP_NOW x) v 0xFFFFFFFF fun c => if bit v 0 && c.planeRuns x then c.sweepDone x bad else c

/-- DIAG_DONE (R379, R380): both planes' diagnostic sweeps have ended with `wBad` and `bBad`; the Arbiter runs them (R32). -/
def doDiagDone (wBad bBad : Nat) (c : Chip) : Chip :=
  if !c.bitOf Reg.ADJ.STATUS 2 || !c.arbRunning || 8 < wBad || 8 < bBad then c else
  let f := c.adj.diagFor
  let c1 := (Chip.setBitOf { c with adj := { c.adj with diagFor := none } } Reg.ADJ.STATUS 2 false).raise 0x030 0
  let c2 := if c1.planeRuns 0 then c1.sweepDone 0 wBad else c1
  let c3 := if c2.planeRuns 1 then c2.sweepDone 1 bBad else c2
  if wBad = 0 && bBad = 0 then (match f with | some t => c3.countUndecided t | none => c3) else c3

/-- PL_CTRL_RESET (R385, R397): partition k retires plane x, which must not have the move. -/
def doPlCtrlReset (k x : Nat) (v : Word) (c : Chip) : Chip :=
  if 2 ≤ x then c else
  c.blockWrite k (Reg.PL.PL_CTRL x) v 0xFFFFFFFF fun c =>
    if !bit v 0 then c
    else if x = c.move then c.setErr (0x031 + x) 7
    else if c.plState x = 2 then c else c.retirePlane x 5

/-- Re-integration starts, or starts again, at WIPING (R388): the plane's counters, FAIL and REGION clear. -/
def Chip.startReint (c : Chip) : Chip :=
  let x := c.partner
  let c1 := ([Reg.PL.ECC_EVT x, Reg.PL.PARITY_EVT x, Reg.PL.BUDGET_EVT x, Reg.PL.TABLE_EVT x].foldl
    (fun c a => c.setReg a 0) c).setReg (Reg.PL.SWEEP_STAT x) 0
  let clean := c1.adj.flagAt.filter fun e => !(e.1 / 4 = x)
  Chip.setPlState { c1 with adj := { c1.adj with flagAt := clean, reintDue := false, reintFrom := some c1.now, stepFrom := c1.now, retiredAt := none } } x 3

/-- AUTO_REINT does not act on the retired plane: three of its re-integrations have failed within an hour (R386). -/
def Chip.autoStopped (c : Chip) : Bool := c.adj.autoOff.contains c.partner

/-- REINT (R386): partition k writes 0x5249 while a plane is retired and AUTO_REINT does not act. Without the Arbiter the re-integration
is deferred until it runs (R32). -/
def doReint (k : Nat) (v : Word) (c : Chip) : Chip :=
  c.blockWrite k Reg.ADJ.REINT v 0xFFFFFFFF fun c =>
    if fld v 15 0 ≠ 0x5249 then c
    else if c.plState c.partner = 2 && !c.halted && (!c.bitOf Reg.ADJ.CTRL 1 || c.autoStopped) then
      (let x := c.partner
       let c1 : Chip := { c with adj := { c.adj with autoOff := c.adj.autoOff.filter (· != x), fails := c.adj.fails.filter fun e => e.1 != x } }
       if c.arbRunning then c1.startReint else { c1 with adj := { c1.adj with reintDue := true } })
    else c.setErr 0x030 7

/-- REINT_AUTO_START (R386): the Arbiter rebuilds a retired plane of its own accord. -/
def doReintAutoStart (c : Chip) : Chip :=
  if c.bitOf Reg.ADJ.CTRL 1 && c.plState c.partner = 2 && !c.autoStopped && c.arbRunning && !c.halted then c.startReint else c

/-- What waited for the Arbiter goes on when it runs again (R32, R33, R395): a re-integration in progress from WIPING, a deferred one, and
a diagnostic whose disagreement has been counted. -/
def Chip.planesResume (c : Chip) : Chip :=
  let c1 := if 3 ≤ c.plState c.partner && c.plState c.partner ≤ 6 then c.startReint
    else if c.adj.reintDue && c.plState c.partner = 2 && !c.halted then c.startReint
    else { c with adj := { c.adj with reintDue := false } }
  if c1.adj.diagDue then Chip.setBitOf { c1 with adj := { c1.adj with diagDue := false } } Reg.ADJ.STATUS 2 true else c1

/-- The wipe of the rejoining plane is over (R388): none of its memories holds an uncorrectable word any more. -/
def Chip.reintWiped (c : Chip) : Chip :=
  let bad := c.mem.bad.filter fun e => (planeMem (e.1 / 2 ^ 22)).map (·.1) != some c.partner
  Chip.setPlState { c with adj := { c.adj with stepFrom := c.now }, mem := { c.mem with bad := bad } } c.partner 4

/-- REINT_COPY_DONE (R388): nothing marked is left to copy. -/
def doReintCopyDone (c : Chip) : Chip :=
  if c.plState c.partner ≠ 4 || !c.arbRunning || c.adj.stepFrom + 10 * fsMs < c.now then c
  else Chip.setPlState { c with adj := { c.adj with stepFrom := c.now } } c.partner 5

/-- REINT_COPY_TIMEOUT (R607): COPYING has not ended within 10 ms. -/
def doReintCopyTimeout (c : Chip) : Chip :=
  if c.plState c.partner ≠ 4 || !c.arbRunning || c.now < c.adj.stepFrom + 10 * fsMs then c else c.reintFail

/-- REINT_SNAPSHOT_DONE (R388, R389): the plane joins at J, from where it reads the staging FIFOs in lockstep (R192). -/
def doReintSnapshotDone (c : Chip) : Chip :=
  if c.plState c.partner ≠ 5 || !c.arbRunning then c
  else Chip.stgJoin (Chip.setPlState { c with adj := { c.adj with stepFrom := c.now, joinNs := c.ns } } c.partner 6) c.partner

/-- REINT_JOIN_DONE (R390): the last pre-join copy has left or has been discarded, in the cipher complex too, and no disagreement of the
joining waits for its decision (R391). -/
def doReintJoinDone (c : Chip) : Chip :=
  if c.plState c.partner ≠ 6 || !c.arbRunning || c.fab.copies.any (fun k => c.preJoin k) ||
      c.cx.jobs.any (fun j => j.copy.any c.preJoin) || !c.adj.pend.isEmpty then c
  else
    let us := (c.now - c.adj.reintFrom.getD c.now) / fsUs
    let c1 := (c.setPlState c.partner 1).setFldOf (Reg.PL.REINT_TIME c.partner) 23 0 (Nat.min 0xFFFFFF us)
    Chip.incRaise { c1 with adj := { c1.adj with reintFrom := none } } Reg.ADJ.REINT_DONE 0x030 6

/-- A swap must wait (R394): no lockstep, a decision, gap or diagnostic, or an Arbiter warm restart. -/
def Chip.swapBlocked (c : Chip) : Bool :=
  !c.lockstep || !c.adj.pend.isEmpty || c.adj.gapFrom.isSome || c.bitOf Reg.ADJ.STATUS 2 || !c.arbRunning || c.halted

/-- A proof swap (R394): the planes exchange roles at a cycle boundary. -/
def Chip.swapPlanes (c : Chip) : Chip :=
  let old := c.move
  let c1 := ((c.setBitOf Reg.ADJ.STATUS 0 (old = 0)).setPlState old 1).setPlState (1 - old) 0
  c1.incRaise Reg.ADJ.PROOF_SWAPS 0x030 4

/-- PROOF_NEXT, and PROOF_NEXT set (R394). -/
def Chip.proofNext (c : Chip) : Nat := (c.reg Reg.ADJ.PROOF_NEXT_HI).toNat * 2 ^ 32 + (c.reg Reg.ADJ.PROOF_NEXT_LO).toNat
def Chip.setProofNext (c : Chip) (t : Nat) : Chip :=
  (c.setReg Reg.ADJ.PROOF_NEXT_LO (BitVec.ofNat 32 t)).setReg Reg.ADJ.PROOF_NEXT_HI (BitVec.ofNat 32 (t / 2 ^ 32))

/-- PROOF_INT in nanoseconds. -/
def Chip.proofInt (c : Chip) : Nat := Nat.max 1 (c.fldOf Reg.ADJ.PROOF_INT 23 0) * 10 ^ 9

/-- PROOF_SWAP_DUE (R394): PROOF_NEXT is reached; it advances from the due instant whatever happens to the swap. -/
def doProofSwapDue (c : Chip) : Chip :=
  if c.ns < c.proofNext || 14 ≤ c.fldOf Reg.GLB.BOOT_STAT 3 0 then c else
  let c1 := c.setProofNext (c.proofNext + c.proofInt)
  if !c1.bitOf Reg.ADJ.CTRL 0 then c1
  else if c1.swapBlocked then { c1 with adj := { c1.adj with proofDue := true } }
  else c1.swapPlanes

/-- SWAP (R394): partition k writes 0x5357. -/
def doSwap (k : Nat) (v : Word) (c : Chip) : Chip :=
  c.blockWrite k Reg.ADJ.SWAP v 0xFFFFFFFF fun c =>
    if fld v 15 0 ≠ 0x5357 then c
    else if c.swapBlocked then c.setErr 0x030 7
    else c.swapPlanes

/-- PROOF_SWAP_RESUME (R394): a deferred swap takes place. -/
def doProofSwapResume (c : Chip) : Chip :=
  if !c.adj.proofDue then c
  else if !c.bitOf Reg.ADJ.CTRL 0 then { c with adj := { c.adj with proofDue := false } }
  else if c.swapBlocked then c
  else Chip.swapPlanes { c with adj := { c.adj with proofDue := false } }

end Sys2Proof.Machine
end

