-- ==== Sys2Proof/Machine/SigTable.lean ====
section
/-! DEFINITION. Chapter 9: the Signal Table, freshness, and the writing of signals with its change events; and the
request queue of chapter 10 into which events go. -/

/-
MARKS of the model choices coded here; the log rows say each in full.
DESIGN CHOICE (log 41, unsafe): triggers and emissions of layouts.
DESIGN CHOICE (log 42, unsafe): F32 signals and the deadband.
DESIGN CHOICE (log 44, unsafe): Pawn requests: CHAIN_MAX 0 and the order of the checks.
DESIGN CHOICE (log 97, unsafe): signals: negative ages, F32 zeros, unconfigured signals, and state writes.
DESIGN CHOICE (log 98, unsafe): layouts: what is emitted in the corners.
DESIGN CHOICE (log 99, unsafe): a Pawn's EMIT and its epoch.
-/

namespace Sys2Proof.Machine

/-- The SIG and the PAWN window. -/
def sigBase : Nat := 0x0180_0000
def pawnBase : Nat := 0x0200_0000

/-- Word w of the configuration of signal i in an epoch (R252). -/
def Chip.sigCfg (c : Chip) (e i w : Nat) : Word64 := c.twordAt e (sigBase + 32 * i + 8 * w)

/-- Offset of state word w of signal i (R253). -/
def sigStOff (i w : Nat) : Nat := sigBase + 0x20_0000 + 32 * i + 8 * w

/-- State word w of signal i. -/
def Chip.sigSt (c : Chip) (i w : Nat) : Word64 := c.tword (sigStOff i w)

/-- TYPE of a signal: 0 UINT, 1 SINT, 2 F32, 3 RAW. -/
def Chip.sigType (c : Chip) (e i : Nat) : Nat := fld (c.sigCfg e i 0) 62 60

/-- A signal is in use: VALID, and its TYPE is not reserved (R252). -/
def Chip.sigValid (c : Chip) (e i : Nat) : Bool := bit (c.sigCfg e i 0) 63 && decide (c.sigType e i < 4)

/-- MAX_AGE in nanoseconds; 0 unchecked. -/
def Chip.maxAge (c : Chip) (e i : Nat) : Nat := fld (c.sigCfg e i 0) 39 16 * 10000

/-- A checked signal (R254). -/
def Chip.checked (c : Chip) (e i : Nat) : Bool := c.maxAge e i != 0

/-- STATUS, CAPTURE and VALUE of a signal. -/
def Chip.sigStatus (c : Chip) (i : Nat) : Nat := fld (c.sigSt i 2) 63 62
def Chip.sigCapture (c : Chip) (i : Nat) : Nat := (c.sigSt i 1).toNat
def Chip.sigValue (c : Chip) (i : Nat) : Word64 := c.sigSt i 0

/-- Signal state has been written in this core cycle. -/
def Chip.sigWritten (c : Chip) : Bool := c.sig.wrTour = c.fab.tour + 1

/-- A writer of rank r may still write in this core cycle: none that comes after it has written (R258, R299). -/
def Chip.sigTurn (c : Chip) (r : Nat) : Bool := !c.sigWritten || decide (c.sig.wrRank ≤ r)

/-- A writer of rank r writes in this core cycle. -/
def Chip.sigBegin (c : Chip) (r : Nat) : Chip :=
  { c with sig := { c.sig with wrTour := c.fab.tour + 1, wrRank := if c.sigWritten then Nat.max r c.sig.wrRank else r,
                               past := if c.sigWritten then c.sig.past else [] } }

/-- Signal i is about to change: its words as they stood at the end of the previous cycle are kept (R258). -/
def Chip.keepPast (c : Chip) (i : Nat) : Chip :=
  let c1 := c.sigBegin 0
  if c1.sig.past.any (fun p => p.1 = i) then c1
  else { c1 with sig := { c1.sig with past := (i, c1.sigSt i 0, c1.sigSt i 1, c1.sigSt i 2) :: c1.sig.past } }

/-- State words 0-2 of signals put in place. -/
def Chip.putSig (c : Chip) (l : List (Nat × Word64 × Word64 × Word64)) : Chip :=
  l.foldl (fun (c : Chip) p => ((c.setTword (sigStOff p.1 0) p.2.1).setTword (sigStOff p.1 1) p.2.2.1).setTword (sigStOff p.1 2) p.2.2.2) c

/-- The signals as every reader sees them in this core cycle: as they stood at the end of the previous one (R258). -/
def Chip.pastView (c : Chip) : Chip := if c.sigWritten then c.putSig c.sig.past else c

/-- STEP_GEN as it stands (R255). -/
def Chip.stepGen (c : Chip) : Nat := c.fldOf Reg.SIG.STATUS 15 8

/-- The rule of freshness, at Tempo now (R254). -/
def Chip.fresh (c : Chip) (e i : Nat) : Bool :=
  if c.checked e i then
    c.sigStatus i = 1 && decide (fld (c.sigSt i 2) 55 48 = c.stepGen) && decide (c.ns ≤ c.sigCapture i + c.maxAge e i)
  else c.sigStatus i != 3

/-- STATUS as evaluated under R254 (R275, R313). -/
def Chip.evalStatus (c : Chip) (e i : Nat) : Nat :=
  let st := c.sigStatus i
  if st = 1 && !c.fresh e i then 2 else st

/-- The age in microseconds rounded up, saturating, all ones for NEVER (R276, R313). -/
def Chip.ageUs (c : Chip) (i : Nat) : Nat :=
  if c.sigStatus i = 0 then 0xFFFFFFFF else Nat.min 0xFFFFFFFE (ceilDiv (c.ns - c.sigCapture i) 1000)

/-- LAST_ERR of the SIG page. -/
def Chip.sigErr (c : Chip) (reason layout : Nat) : Chip :=
  c.setReg Reg.SIG.LAST_ERR (BitVec.ofNat 32 (2 ^ 31 + reason * 2 ^ 16 + layout % 2 ^ 14))

/-- A layout found malformed (R264): reason 1 the layout, 2 one of its records. -/
def Chip.sigMalformed (c : Chip) (reason layout : Nat) : Chip :=
  ((c.incRaise Reg.SIG.MALFORMED 0x050 0).sigErr reason layout).setErr 0x050 7

/-- Word w of the entry of a program in an epoch (R285). -/
def Chip.progWord (c : Chip) (e p w : Nat) : Word64 := c.twordAt e (pawnBase + 0x1_0000 + 16 * p + 8 * w)

/-- A program is in use: VALID and LEN not 0 (R286). -/
def Chip.progEnabled (c : Chip) (e p : Nat) : Bool := bit (c.progWord e p 0) 63 && fld (c.progWord e p 0) 42 29 != 0

/-- A request is dropped (R293). -/
def Chip.queueDrop (c : Chip) (event : Nat) : Chip := c.incRaise (Reg.PAWN.QDROP 0 (event - 1)) 0x051 4

/-- The outcome of a request: 0 queued, 2 disabled, 3 the queue is full or GCTRL.EN is 0, 4 too deep a chain. -/
def Chip.requestFate (c : Chip) (r : PawnReq) : Nat :=
  if Nat.max 1 (fld (c.regAt r.epoch (Reg.PAWN.GCTRL 0)) 11 8) < r.depth then 4
  else if !bit (c.regAt r.epoch (Reg.PAWN.GCTRL 0)) 0 then 3
  else if !c.progEnabled r.epoch r.prog then 2
  else if 1024 ≤ c.pawn.queue.length then 3
  else 0

/-- A request enters the queue, or is discarded and counted (R286, R291, R293). -/
def Chip.pawnRequest (c : Chip) (r : PawnReq) : Chip :=
  match c.requestFate r with
  | 0 =>
    let c1 := { c with pawn := { c.pawn with queue := c.pawn.queue ++ [r] } }
    c1.peak (Reg.PAWN.QPEAK 0) c1.pawn.queue.length
  | 2 => c.inc (Reg.PAWN.DISABLED 0)
  | 3 => c.queueDrop r.event
  | _ => c.incRaise (Reg.PAWN.CHAIN_DROP 0) 0x051 4

/-- Word w of layout l in an epoch (R261). -/
def Chip.layout (c : Chip) (e l w : Nat) : Word64 := c.twordAt e (sigBase + 0x40_0000 + 64 * l + 8 * w)

/-- A layout is to be emitted at the end of this core cycle, once (R266). -/
def Chip.toEmit (c : Chip) (l : Nat) (e : Option Nat) : Chip :=
  if c.sig.trig.any (fun t => t.1 = l) then c else { c with sig := { c.sig with trig := c.sig.trig ++ [(l, e)] } }

/-- A trigger of the second or third kind of R266, of a Pawn's EMIT with its epoch: merged with a trigger of this core cycle, or deferred
while MIN_GAP has not passed since the last emission. PASS layouts have no such trigger (R272). -/
def Chip.trigger (c : Chip) (l : Nat) (e : Option Nat) : Chip :=
  let ep := e.getD c.epoch
  if bit (c.layout ep l 0) 59 || c.sig.trig.any (fun t => t.1 = l) then c else
  let due := match lookupKey c.sig.lastEmit l with
    | none => 0
    | some t => t + fld (c.layout ep l 1) 43 28 * 10 ^ 10
  if c.now < due then
    let first := ((c.sig.deferred.find? fun d => d.layout = l).map (·.tour)).getD c.fab.tour
    { c with sig := { c.sig with deferred := c.sig.deferred.filter (fun d => d.layout != l) ++ [{ layout := l, due := due, epoch := e, tour := first }] } }
  else c.toEmit l e

/-- A binary32 value as an integer in units of 2^-149; none for infinities and NaN. -/
def f32Scaled (v : Nat) : Option Int :=
  let ex := natBits v 30 23
  let m := v % 2 ^ 23
  if ex = 255 then none
  else
    let mag : Nat := if ex = 0 then m else (m + 2 ^ 23) * 2 ^ (ex - 1)
    some (if natBits v 31 31 = 1 then -(mag : Int) else mag)

/-- A binary32 NaN. -/
def f32Nan (v : Nat) : Bool := natBits v 30 23 = 255 && v % 2 ^ 23 != 0

/-- |new - old| > DEADBAND in the signal's TYPE (R252). -/
def beyondDeadband (type : Nat) (new old db : Word64) : Bool :=
  match type with
  | 0 => decide (db.toNat < (Int.natAbs ((new.toNat : Int) - (old.toNat : Int))))
  | 1 => decide (db.toNat < (Int.natAbs (new.toInt - old.toInt)))
  | 2 =>
    match f32Scaled (fld new 31 0), f32Scaled (fld old 31 0), f32Scaled (fld db 31 0) with
    | some a, some b, some d => decide (d < (Int.natAbs (a - b) : Int))
    | some _, some _, none => false
    | _, _, some _ => fld new 31 0 != fld old 31 0
    | _, _, none => false
  | _ => new != old

/-- The CHG condition of an accepted write (R252, R259). -/
def Chip.chgMet (c : Chip) (e i : Nat) (new old : Word64) (oldStatus newStatus : Nat) : Bool :=
  let chg := fld (c.sigCfg e i 0) 59 58
  let nan := c.sigType e i = 2 && (f32Nan (fld new 31 0) || f32Nan (fld old 31 0))
  if chg = 0 then false
  else if newStatus = 1 && oldStatus != 1 then true
  else if chg = 1 then true
  else if nan then true
  else if chg = 2 || c.sigType e i = 3 then new != old
  else beyondDeadband (c.sigType e i) new old (c.sigCfg e i 3)

/-- A change event (R259): its invocation and its emission. -/
def Chip.changeEvent (c : Chip) (e i depth : Nat) (new old : Word64) (status cap : Nat) : Chip :=
  let c1 := if bit (c.sigCfg e i 1) 63 then
      c.pawnRequest { prog := fld (c.sigCfg e i 1) 57 48, event := 3, epoch := e, depth := depth,
                      p1 := 3 * 2 ^ 56 + status * 2 ^ 16 + i, p2 := c.ns, p3 := cap, p5 := new.toNat, p6 := old.toNat }
    else c
  if bit (c.sigCfg e i 0) 57 then c1.trigger (fld (c.sigCfg e i 0) 55 42) none else c1

/-- A write of a signal (R256-R259): judged by its capture time, then accepted. `e` is the epoch of the write, `depth`
the chain depth of a request that it raises. -/
def Chip.sigWrite (c : Chip) (e i : Nat) (value : Word64) (cap0 : Nat) (inv : Bool) (layout depth : Nat) : Chip :=
  let c0 := if c.ns < cap0 then c.incRaise Reg.SIG.FUTURE_CLAMP 0x050 1 else c
  let cap := Nat.min cap0 c.ns
  let w2 := c.sigSt i 2
  let st := fld w2 63 62
  if st != 0 && decide (fld w2 55 48 = c.stepGen) && decide (cap < c.sigCapture i) then c0.inc Reg.SIG.OLDER_IN
  else
    let old := c.sigValue i
    let new := if inv then 3 else 1
    let n := Nat.min 0xFFFFFFFF (fld w2 31 0 + 1)
    let w2' : Word64 := BitVec.ofNat 64
      (new * 2 ^ 62 + c.tempoState * 2 ^ 60 + c.stepGen * 2 ^ 48 + layout % 2 ^ 14 * 2 ^ 32 + n)
    let c1 := (((c0.keepPast i).setTword (sigStOff i 0) value).setTword (sigStOff i 1) (BitVec.ofNat 64 cap)).setTword (sigStOff i 2) w2'
    if c.chgMet e i value old st new then c1.changeEvent e i depth value old new cap else c1

end Sys2Proof.Machine
end

