-- ==== Sys2Proof/Machine/Layouts.lean ====
section
/-! DEFINITION. Chapter 9: PDU bit fields, layouts and mappings, packing and emission, the byte formats of ACF messages,
signal containers and snapshot records. -/

/-
MARKS of the model choices coded here; the log rows say each in full.
DESIGN CHOICE (log 34, unsafe): a layout with a reserved DKIND has no destination.
PRESUMED (log 35, unsafe): AVTP and ACF byte layouts are those of IEEE 1722.
DESIGN CHOICE (log 41, unsafe): triggers and emissions of layouts.
DESIGN CHOICE (log 97, unsafe): signals: negative ages, F32 zeros, unconfigured signals, and state writes.
DESIGN CHOICE (log 98, unsafe): layouts: what is emitted in the corners.
DESIGN CHOICE (log 99, unsafe): a Pawn's EMIT and its epoch.
DESIGN CHOICE (log 105, safe): SRC of a frame that the signal gateway emitted is a free value.
DESIGN CHOICE (log 118, unsafe): the four steps of a snapshot record.
-/

namespace Sys2Proof.Machine

/-- Bit k of a PDU (R263). -/
def pduBit (b : List Byte) (k : Nat) : Bool := (byteAt b (k / 8)).getLsbD (k % 8)

/-- Bit k of a PDU set. -/
def setPduBit (b : List Byte) (k : Nat) (v : Bool) : List Byte :=
  b.set (k / 8) (setBit (byteAt b (k / 8)) (k % 8) v)

/-- The next less significant position of a big-endian field (R263). -/
def beNext (p : Nat) : Nat := if p % 8 = 0 then p + 15 else p - 1

/-- The positions of a big-endian field from its most significant bit. -/
def bePositions : Nat → Nat → List Nat
  | 0, _ => []
  | n + 1, p => p :: bePositions n (beNext p)

/-- The bit positions of a field, least significant first (R263). -/
def fieldPositions (be : Bool) (start w : Nat) : List Nat :=
  if be then (bePositions w start).reverse else (List.range w).map fun j => start + j

/-- A field read: bits by position, least significant first. -/
def readField (rd : Nat → Bool) (ps : List Nat) : Nat :=
  ps.foldr (fun p a => a * 2 + (if rd p then 1 else 0)) 0

/-- A field written into a PDU. -/
def writeField (b : List Byte) (v : Nat) : List Nat → List Byte
  | [] => b
  | p :: ps => writeField (setPduBit b p (v % 2 = 1)) (v / 2) ps

/-- All positions of a field lie below a bit count. -/
def fieldWithin (ps : List Nat) (bits : Nat) : Bool := ps.all fun p => decide (p < bits)

/-- A signal record (R262). -/
structure SigRec where
  be : Bool
  sat : Bool
  fb : Option Nat
  start : Nat
  width : Nat
  sig : Nat
  deriving DecidableEq, Repr

/-- A member record (R262). -/
structure MemRec where
  layout : Nat
  pdu : Nat
  deriving DecidableEq, Repr

/-- The mapping records of a layout in an epoch (R261, R262). -/
def Chip.records (c : Chip) (e l : Nat) : List Word64 :=
  let w := c.layout e l 0
  (List.range (fld w 14 6)).map fun j => c.twordAt e (sigBase + 0x50_0000 + 8 * (fld w 31 15 + j))

/-- A mapping word as a signal record. -/
def sigRecOf (w : Word64) : SigRec :=
  { be := bit w 61, sat := bit w 60, fb := if bit w 59 then some (fld w 58 45) else none, start := fld w 44 31,
    width := fld w 30 25 + 1, sig := fld w 15 0 }

/-- The positions of a record's field. -/
def SigRec.positions (r : SigRec) : List Nat := fieldPositions r.be r.start r.width

/-- KIND and LEN of a layout. -/
def Chip.kind (c : Chip) (e l : Nat) : Nat := fld (c.layout e l 0) 62 60
def Chip.pduLen (c : Chip) (e l : Nat) : Nat := fld (c.layout e l 0) 57 46

/-- A signal record of a layout of LEN bytes is well formed (R264). -/
def Chip.sigRecOk (c : Chip) (e len : Nat) (snap : Bool) (w : Word64) : Bool :=
  let r := sigRecOf w
  fld w 63 62 = 0 && (snap || (fieldWithin r.positions (8 * len) &&
    (match r.fb with | some p => decide (p < 8 * len) | none => true) &&
    !(c.sigType e r.sig = 2 && r.width != 32)))

/-- The size of a snapshot record (R276). -/
def snapSize (n : Nat) : Nat := 32 + 16 * n + 8

/-- What is wrong with a layout (R264, R271): 0 nothing, 1 the layout, 2 a record. -/
def Chip.layoutFault (c : Chip) (e l : Nat) : Nat :=
  let w := c.layout e l 0
  let kind := fld w 62 60
  let len := fld w 57 46
  let n := fld w 14 6
  if !bit w 63 || 6 ≤ kind || 2048 < len || 131072 < fld w 31 15 + n then 1
  else if kind = 3 then
    (if n = 0 || 32 < n then 1
     else if (c.records e l).all (fun r => fld r 63 62 = 3 && c.kind e (fld r 61 48) = 0) then 0 else 2)
  else if kind = 5 && 4 * 2 ^ 20 < fld (c.layout e l 2) 15 0 * 64 + snapSize n then 1
  else if (c.records e l).all (c.sigRecOk e len (decide (4 ≤ kind))) then 0 else 2

/-- What packing derives (R268): PDU capture, deadline, SUB, NOCHK. -/
structure PduMeta where
  cap : Option Nat := none
  dl : Option Nat := none
  sub : Bool := false
  nochk : Bool := true
  deriving DecidableEq, Repr

/-- The earlier of two times of which either may be missing. -/
def earlier (a b : Option Nat) : Option Nat :=
  match a, b with
  | some x, some y => some (Nat.min x y)
  | some x, none => some x
  | none, y => y

/-- A value reduced to its field (R267). -/
def reduceTo (type : Nat) (sat : Bool) (w : Nat) (v : Word64) : Nat :=
  if sat && type = 0 then Nat.min (2 ^ w - 1) v.toNat
  else if sat && type = 1 then
    let lo : Int := -(2 ^ (w - 1) : Nat)
    let hi : Int := (2 ^ (w - 1) : Nat) - 1
    (BitVec.ofInt 64 (if v.toInt < lo then lo else if hi < v.toInt then hi else v.toInt)).toNat % 2 ^ w
  else v.toNat % 2 ^ w

/-- One record packed (R267, R268). -/
def Chip.packRec (c : Chip) (e : Nat) (a : List Byte × PduMeta) (r : SigRec) : List Byte × PduMeta :=
  let valid := c.sigValid e r.sig
  let chk := c.checked e r.sig
  let ok := valid && c.fresh e r.sig
  let v := if ok then c.sigValue r.sig else c.sigCfg e r.sig 2
  let b1 := writeField a.1 (reduceTo (c.sigType e r.sig) r.sat r.width v) r.positions
  let b2 := match r.fb with | some p => setPduBit b1 p (!ok) | none => b1
  let cap := c.sigCapture r.sig
  (b2, { cap := if chk && c.sigStatus r.sig != 0 then earlier a.2.cap (some cap) else a.2.cap,
         dl := if chk && ok then earlier a.2.dl (some (cap + c.maxAge e r.sig)) else a.2.dl,
         sub := a.2.sub || !ok, nochk := a.2.nochk && !chk })

/-- A PDU packed (R267): FILL, then the records in order. -/
def Chip.packPdu (c : Chip) (e l : Nat) : List Byte × PduMeta :=
  let fill : Byte := BitVec.ofNat 8 (fld (c.layout e l 1) 7 0)
  ((c.records e l).map sigRecOf).foldl (c.packRec e) (List.replicate (c.pduLen e l) fill, {})

/-- DL of a layout in nanoseconds, as a deadline from now (R268). -/
def Chip.layoutDl (c : Chip) (e l : Nat) : Option Nat :=
  let d := fld (c.layout e l 1) 27 12
  if d = 0 then none else some (c.ns + d * 100000)

/-- Word of a 16-bit one's complement sum. -/
def onesSum : Nat → List Byte → Nat
  | a, [] => a
  | a, [x] => a + x.toNat * 256
  | a, x :: y :: rest => onesSum (a + x.toNat * 256 + y.toNat) rest

/-- The internet checksum of a sum. -/
def onesComplement (s : Nat) : Nat :=
  let f (n : Nat) : Nat := n % 65536 + n / 65536
  65535 - f (f (f s))

/-- The template of a layout: descriptor and header bytes (R270). -/
structure Template where
  len : Nat
  hdr : List Byte
  l3 : Nat
  l4 : Nat
  avtp : Nat
  sum4 : Bool
  deriving DecidableEq, Repr

/-- Template t in an epoch (R270). -/
def Chip.template (c : Chip) (e t : Nat) : Template :=
  let b := (List.range 16).flatMap fun j => bytesLE 8 (c.twordAt e (sigBase + 0x60_0000 + 128 * t + 8 * j)).toNat
  { len := (byteAt b 0).toNat, hdr := (b.drop 8).take (byteAt b 0).toNat, l3 := (byteAt b 1).toNat, l4 := (byteAt b 2).toNat, avtp := (byteAt b 3).toNat,
    sum4 := (byteAt b 4).getLsbD 0 }

/-- HDR_LEN and the offsets of a template fit a frame with a payload of n bytes (R270). -/
def Template.fits (t : Template) (n : Nat) : Bool :=
  let len := t.hdr.length + n
  14 ≤ t.len && t.len ≤ 120 &&
    (t.l3 = 0 || decide (t.l3 + (if (byteAt t.hdr t.l3).toNat / 16 = 6 then 40 else 20) ≤ len)) &&
    (t.l4 = 0 || decide (t.l4 + 8 ≤ len)) && (t.avtp = 0 || decide (t.avtp + 4 ≤ len))

/-- The AVTP fields of a frame: data length and sequence number, for NTSCF and TSCF (R270; layouts of IEEE 1722-2016). -/
def avtpFill (f : List Byte) (off seq : Nat) : List Byte :=
  if off = 0 then f
  else if (byteAt f off).toNat = 0x82 then
    let n := (f.length - off - 12) % 2048
    putBytes (putBytes f (off + 1) [BitVec.ofNat 8 ((byteAt f (off + 1)).toNat / 8 * 8 + n / 256), BitVec.ofNat 8 n]) (off + 3) [BitVec.ofNat 8 seq]
  else if (byteAt f off).toNat = 0x05 then
    putBytes (putBytes f (off + 2) [BitVec.ofNat 8 seq]) (off + 20) (bytesBE 2 (f.length - off - 24))
  else f

/-- The IP and UDP fields of a frame (R270). -/
def ipFill (t : Template) (f : List Byte) : List Byte :=
  let v6 := (byteAt f t.l3).toNat / 16 = 6
  let ihl := if v6 then 40 else (byteAt f t.l3).toNat % 16 * 4
  let f1 := if t.l3 = 0 then f
    else if v6 then putBytes f (t.l3 + 4) (bytesBE 2 (f.length - t.l3 - 40))
    else
      let g := putBytes (putBytes f (t.l3 + 2) (bytesBE 2 (f.length - t.l3))) (t.l3 + 10) [0, 0]
      putBytes g (t.l3 + 10) (bytesBE 2 (onesComplement (onesSum 0 (bytesAt g t.l3 ihl))))
  if t.l4 = 0 then f1
  else
    let n := f1.length - t.l4
    let f2 := putBytes (putBytes f1 (t.l4 + 4) (bytesBE 2 n)) (t.l4 + 6) [0, 0]
    if t.l3 != 0 && (v6 || t.sum4) then
      let addrs := if v6 then bytesAt f2 (t.l3 + 8) 32 else bytesAt f2 (t.l3 + 12) 8
      let s := onesComplement (onesSum (17 + n) (addrs ++ f2.drop t.l4))
      putBytes f2 (t.l4 + 6) (bytesBE 2 (if s = 0 then 0xFFFF else s))
    else f2

/-- A frame of a template and a payload. -/
def Template.frame (t : Template) (payload : List Byte) (seq : Nat) : List Byte :=
  ipFill t (avtpFill (t.hdr ++ payload) t.avtp seq)

/-- An ACF CAN or CAN Brief message (R271). -/
def acfMessage (brief mtv ide brs fdf : Bool) (busId id cap : Nat) (pdu : List Byte) : List Byte :=
  let pad := (4 - pdu.length % 4) % 4
  let quad := ((if brief then 8 else 16) + pdu.length + pad) / 4
  let m := mtv && !brief
  bytesBE 4 ((if brief then 2 else 1) * 2 ^ 25 + quad % 512 * 2 ^ 16 + pad * 2 ^ 14 + (if m then 2 ^ 13 else 0)
      + (if ide then 2 ^ 11 else 0) + (if brs then 2 ^ 10 else 0) + (if fdf then 2 ^ 9 else 0) + busId % 32) ++
    (if brief then [] else bytesBE 8 (if m then cap else 0)) ++ bytesBE 4 (id % 2 ^ 29) ++ pdu ++ List.replicate pad 0

/-- The length of an FD payload padded to a valid one (R269). -/
def fdPad (n : Nat) : Nat := ([0, 1, 2, 3, 4, 5, 6, 7, 8, 12, 16, 20, 24, 32, 48, 64].find? fun v => decide (n ≤ v)).getD n

/-- The DLC of a CAN payload of a format; the nearest code where the length is none. -/
def dlcCode (fmt n : Nat) : Nat := if fmt = 2 then 0 else (dlcOf fmt n).getD (if fmt = 1 then 15 else 8)

/-- The CAN frame of a layout (R269). -/
def layoutCan (w3 w4 : Word64) (fill : Byte) (pdu : List Byte) : CanFrame :=
  let fmt := fld w3 62 61
  let data := if fmt = 1 then pdu ++ List.replicate (fdPad pdu.length - pdu.length) fill else pdu
  { ide := bit w3 63, id := fld w3 58 30, fmt := fmt, brs := bit w3 60, dlc := dlcCode fmt data.length,
    sdt := fld w3 29 22, vcid := fld w3 21 14, af := fld w4 63 32, data := data }

/-- A copy of a layout's emission for one output. -/
def Chip.sgCopy (c : Chip) (e l : Nat) (kind : RecKind) (data : List Byte) (dl : Option Nat) (sub : Bool) (cls o ring : Nat) : Copy :=
  { input := 13, src := Config.gatewaySource.toNat, output := o, cls := cls, kind := kind, epoch := e, data := data, entry := c.ns, ring := ring,
    deadline := if o < 64 then dl else none, layout := l, sub := sub }

/-- An emitted frame enters the fabric at F_SG (R269): express admission, or the cipher complex first with SEAL. -/
def Chip.sgEnqueue (c : Chip) (e l : Nat) (kind : RecKind) (data : List Byte) (dl : Option Nat) (sub : Bool) : Chip :=
  let w0 := c.layout e l 0
  let w2 := c.layout e l 2
  let cls := fld w2 46 44
  let len := meteredLen kind data
  if bit w0 58 then
    let k : Copy := { c.sgCopy e l kind data dl sub cls 68 0 with deadline := dl, cxOp := 1, cxProfile := fld w2 43 34, next := 32768 + l }
    let r := c.expressCopies len [k]
    r.1.enqueueFrame none 0 r.2
  else
    let dw : Word64 := BitVec.ofNat 64 (fld w2 63 62 * 2 ^ 60 + fld w2 61 52 * 2 ^ 48 + fld w2 51 47 * 2 ^ 40)
    let dests := c.destinations e none dw
    let bad (o : Nat) : Bool := (kind = .can && isEth o) || (kind = .eth && decide (o < 40))
    let c1 := c.addTo Reg.CLS.KIND_DROP (dests.filter fun d => bad d.1).length
    let r := c1.expressCopies len ((dests.filter fun d => !bad d.1).map fun d =>
      { c1.sgCopy e l kind data dl sub cls d.1 d.2 with lb := d.1 = 71 })
    r.1.enqueueFrame none 0 r.2

/-- An Ethernet record for an emitted frame, with the Tempo state beside the stamp (R75); the ingress fields are of no use on
egress. -/
def sgEthRecord (now tstate : Nat) (frame : List Byte) : List Byte :=
  bytesLE 8 now ++ List.replicate 4 0 ++ bytesLE 4 (tstate % 4) ++ frame

/-- Layout state (R280): SEQ and EMITS. -/
def lstOff (l : Nat) : Nat := sigBase + 0x61_0000 + 8 * l

/-- An emission is counted: EMIT_CNT, EMITS, SEQ for a numbered KIND, and the time for MIN_GAP. -/
def Chip.countEmission (c : Chip) (l : Nat) (seq : Bool) : Chip :=
  let w := c.tword (lstOff l)
  let w1 := setFld w 31 0 (Nat.min 0xFFFFFFFF (fld w 31 0 + 1))
  let w2 := if seq then setFld w1 63 48 ((fld w1 63 48 + 1) % 65536) else w1
  let c1 := (c.inc Reg.SIG.EMIT_CNT).setTword (lstOff l) w2
  { c1 with sig := { c1.sig with lastEmit := insertKey c1.sig.lastEmit l c1.now } }

/-- CAN_PDU_EMIT and ACF_EMIT (R269, R271, R316): a PDU leaves through its layout. -/
def Chip.emitPdu (c : Chip) (e l : Nat) (pdu : List Byte) (cap : Nat) (dl : Option Nat) (sub : Bool) : Chip :=
  let w3 := c.layout e l 3
  let w4 := c.layout e l 4
  let fill : Byte := BitVec.ofNat 8 (fld (c.layout e l 1) 7 0)
  if c.kind e l = 1 then
    (c.countEmission l false).sgEnqueue e l .can (canRecord (layoutCan w3 w4 fill pdu) false c.ns) dl sub
  else
    let t := c.template e (fld (c.layout e l 2) 33 25)
    let msg := acfMessage (bit w4 1) (bit w4 0) (bit w3 63) (bit w3 60) (fld w3 62 61 = 1) (fld w4 12 8) (fld w3 58 30) cap pdu
    let subtype := (byteAt t.hdr t.avtp).toNat
    if fld w3 62 61 = 2 || !t.fits msg.length || t.avtp = 0 || !(subtype = 0x82 || subtype = 0x05) then c.sigMalformed 1 l
    else (c.countEmission l true).sgEnqueue e l .eth (sgEthRecord c.ns c.tempoState (t.frame msg (fld (c.tword (lstOff l)) 63 48))) dl sub

/-- A PDU record of a container (R273). -/
def contRecord (pduId now : Nat) (p : List Byte × PduMeta) : List Byte :=
  let cap := p.2.cap.getD now
  let n := p.1.length
  bytesBE 2 pduId ++ bytesBE 2 ((if p.2.nochk then 2 ^ 13 else 0) + (if p.2.sub then 2 ^ 12 else 0) + n % 4096) ++
    bytesBE 4 (Nat.min 0xFFFFFFFF (ceilDiv (now - cap) 1000)) ++ bytesBE 8 cap ++ p.1 ++ List.replicate ((8 - n % 8) % 8) 0

/-- CONTAINER_EMIT (R273): header and one record for each member. -/
def Chip.emitContainer (c : Chip) (e l : Nat) : Chip :=
  let ms := (c.records e l).map fun w => (fld w 47 32, fld w 61 48)
  if ms.any (fun m => c.layoutFault e m.2 != 0) then c.sigMalformed 1 l else
  let packed := ms.map fun m => (m.1, c.packPdu e m.2, c.layoutDl e m.2)
  let seq := fld (c.tword (lstOff l)) 63 48
  let hdr := [1, BitVec.ofNat 8 c.tempoState] ++ bytesBE 2 (fld (c.regAt e Reg.SIG.GWID) 15 0) ++ bytesBE 2 ms.length ++ bytesBE 2 seq ++ bytesBE 8 c.ns
  let payload : List Byte := hdr ++ packed.flatMap fun p => contRecord p.1 c.ns p.2.1
  let dl := packed.foldl (fun d p => earlier d (earlier p.2.1.2.dl p.2.2)) (c.layoutDl e l)
  let t := c.template e (fld (c.layout e l 2) 33 25)
  if !t.fits payload.length then c.sigMalformed 1 l
  else (c.countEmission l true).sgEnqueue e l .eth (sgEthRecord c.ns c.tempoState (t.frame payload seq)) dl (packed.any fun p => p.2.1.2.sub)

/-- One entry of a snapshot record (R276). -/
def Chip.snapEntry (c : Chip) (e i : Nat) : List Byte :=
  bytesLE 2 i ++ [BitVec.ofNat 8 (c.evalStatus e i),
    BitVec.ofNat 8 (fld (c.sigSt i 2) 61 60 + (if c.checked e i then 0 else 4))] ++ bytesLE 4 (c.ageUs i) ++ bytesLE 8 (c.sigValue i).toNat

/-- A snapshot record (R276). -/
def Chip.snapRecord (c : Chip) (e l seq : Nat) : List Byte :=
  let rs := (c.records e l).map fun w => fld w 15 0
  bytesLE 4 seq ++ bytesLE 2 l ++ bytesLE 2 rs.length ++ bytesLE 8 c.ns ++ [BitVec.ofNat 8 c.tempoState, 0] ++ bytesLE 2 e ++
    bytesLE 4 (c.reg Reg.TEMPO.ERR_EST).toNat ++ List.replicate 8 0 ++ rs.flatMap (c.snapEntry e) ++ bytesLE 4 seq ++ List.replicate 4 0

/-- Bytes written into a sparse memory of 64-bit words from a word index; the byte count is a multiple of 8. -/
def writeWords (m : Sparse Word64) (k : Nat) : List Byte → Nat → Sparse Word64
  | _, 0 => m
  | b, n + 1 => writeWords (sset 0 m k (BitVec.ofNat 64 (leAt b 0 8))) (k + 1) (b.drop 8) n

/-- The next step of a record into its slot (R277): SEQ odd, the body, SEQ_END, SEQ even. Bytes 0-3 of the first word are SEQ, the last
word is SEQ_END. -/
def slotStep (m : Sparse Word64) (j : SnapJob) : Sparse Word64 :=
  let n := j.rcd.length / 8
  let first : Word64 := BitVec.ofNat 64 (leAt j.rcd 0 8)
  match j.step with
  | 0 => sset 0 m j.key (setFld (sget 0 m j.key) 31 0 (j.seq / 2 * 2 + 1))
  | 1 => writeWords (sset 0 m j.key (setFld first 31 0 (fld (sget 0 m j.key) 31 0))) (j.key + 1) (j.rcd.drop 8) (n - 2)
  | 2 => sset 0 m (j.key + n - 1) (BitVec.ofNat 64 (leAt j.rcd (8 * (n - 1)) 8))
  | _ => sset 0 m j.key first

/-- The writes of a partition's snapshot memory wait in a switch-over gap and behind a disagreement, as its host DMA writes do (R384). -/
def Chip.slotHeld (c : Chip) (j : SnapJob) : Bool := c.itemHeld true (j.key / 2 ^ 19)

/-- Each record that is being written takes its next step; records of one slot follow one another. -/
def slotPass (held : SnapJob → Bool) : List Nat → List SnapJob → Sparse Word64 × List SnapJob → Sparse Word64 × List SnapJob
  | _, [], a => a
  | seen, j :: rest, a =>
    if held j || seen.contains j.key then slotPass held (j.key :: seen) rest (a.1, a.2 ++ [j])
    else slotPass held (j.key :: seen) rest
      (slotStep a.1 j, if 3 ≤ j.step then a.2 else a.2 ++ [{ j with step := j.step + 1 }])

/-- A core cycle of the snapshot writes (R277): each step is complete before the next starts. -/
def Chip.slotCycle (c : Chip) : Chip :=
  if c.sig.slots.isEmpty then c else
  let r := slotPass c.slotHeld [] c.sig.slots (c.sig.snap, [])
  { c with sig := { c.sig with snap := r.1, slots := r.2 } }

/-- The records that are being written are all brought to their end. -/
def Chip.slotFinish (c : Chip) : Chip :=
  let all (m : Sparse Word64) (j : SnapJob) : Sparse Word64 :=
    (List.range 4).foldl (fun m s => if j.step ≤ s then slotStep m { j with step := s } else m) m
  { c with sig := { c.sig with snap := c.sig.slots.foldl all c.sig.snap, slots := [] } }

/-- SNAP_SLOT (R277): the record is to be written with the next even SEQ; the first of its four steps is taken at once if nothing holds it
up. -/
def Chip.emitSlot (c : Chip) (e l : Nat) : Chip :=
  let w2 := c.layout e l 2
  let k := fld w2 24 23 * 2 ^ 19 + fld w2 15 0 * 8
  let mine := c.sig.slots.filter fun j => j.key = k
  let old := match mine.getLast? with | some j => leAt j.rcd 0 4 | none => fld (sget 0 c.sig.snap k) 31 0
  let j : SnapJob := { key := k, rcd := c.snapRecord e l ((old / 2 + 1) * 2 % 2 ^ 32), seq := old, epoch := e }
  let c1 := c.countEmission l false
  if mine.isEmpty && !c1.slotHeld j then
    { c1 with sig := { c1.sig with snap := slotStep c1.sig.snap j, slots := c1.sig.slots ++ [{ j with step := 1 }] } }
  else { c1 with sig := { c1.sig with slots := c1.sig.slots ++ [j] } }

/-- EMISSION (R267-R269): layout l is emitted under epoch e. -/
def Chip.emission (c : Chip) (e l : Nat) : Chip :=
  if !bit (c.regAt e Reg.SIG.CTRL) 0 || c.halted then c
  else
    let f := c.layoutFault e l
    if f ≠ 0 then c.sigMalformed f l
    else match c.kind e l with
      | 1 | 2 =>
        if bit (c.layout e l 0) 59 then c
        else if c.pduLen e l = 0 then c.sigErr 8 l
        else
          let p := c.packPdu e l
          c.emitPdu e l p.1 (p.2.cap.getD c.ns) (earlier p.2.dl (c.layoutDl e l)) p.2.sub
      | 3 => c.emitContainer e l
      | 4 =>
        let w2 := c.layout e l 2
        let k := c.sgCopy e l .snap (c.snapRecord e l 0) none false (fld w2 46 44) (64 + fld w2 24 23) (fld w2 51 47)
        let r := c.expressCopies k.data.length [k]
        (r.1.countEmission l false).enqueueFrame none 0 r.2
      | 5 => c.emitSlot e l
      | _ => c

/-- The emissions that the triggers of a core cycle call for, at its end (R266): they pack what all the writes of that cycle have left
(R258, R299). -/
def Chip.flushEmits (c : Chip) : Chip :=
  let ts := c.sig.trig
  ts.foldl (fun (c : Chip) t => c.emission (t.2.getD c.epoch) t.1) { c with sig := { c.sig with trig := [] } }

end Sys2Proof.Machine
end

