-- ==== Sys2Proof/Machine/Signals.lean ====
section
/-! DEFINITION. Chapter 9: unpacking, host writes of signal state, flag falls and the post-step sweep, cyclic and deferred
emission. -/

/-
MARKS of the model choices coded here; the log rows say each in full.
DESIGN CHOICE (log 41, unsafe): triggers and emissions of layouts.
DESIGN CHOICE (log 43, unsafe): what a PDU_IN request carries.
DESIGN CHOICE (log 97, unsafe): signals: negative ages, F32 zeros, unconfigured signals, and state writes.
DESIGN CHOICE (log 98, unsafe): layouts: what is emitted in the corners.
-/

namespace Sys2Proof.Machine

/-- The state of a signal's counters in word 3. -/
def Chip.staleIn (c : Chip) (i : Nat) : Chip := c.tcount (sigStOff i 3) false

/-- One signal record unpacked from the data of a PDU (R265). -/
def Chip.unpackRec (c : Chip) (e l depth : Nat) (data : List Byte) (cap : Nat) (r : SigRec) : Chip :=
  let bits := 8 * data.length
  let ps := r.positions
  let fbOut := match r.fb with | some p => decide (bits ≤ p) | none => false
  if !fieldWithin ps bits || fbOut then (c.inc Reg.SIG.SHORT_PDU).sigErr 3 l
  else if (match r.fb with | some p => pduBit data p | none => false) then c.staleIn r.sig
  else if !c.sigValid e r.sig then c
  else
    let raw := readField (pduBit data) ps
    let v : Word64 := if c.sigType e r.sig = 1 then BitVec.ofInt 64 (toSigned r.width raw) else BitVec.ofNat 64 raw
    c.sigWrite e r.sig v cap false l depth

/-- A PDU unpacked through a layout (R265), and its PDU_IN request (R287). -/
def Chip.unpackPdu (c : Chip) (e l src : Nat) (data : List Byte) (cap : Nat) : Chip :=
  let c1 := ((c.records e l).map sigRecOf).foldl (fun (c : Chip) r => c.unpackRec e l 0 data cap r) c
  let c2 := c1.inc Reg.SIG.UNPACK_CNT
  let b := c2.twordAt e (pawnBase + 0x1_8000 + 8 * l)
  if bit b 63 then
    let n := Nat.min 2048 data.length
    c2.pawnRequest { prog := fld b 9 0, event := 1, epoch := e, p1 := 2 ^ 56 + l * 2 ^ 32 + n * 2 ^ 16 + src % 128,
                     p2 := c2.ns, p3 := cap, data := data.take n }
  else c2

/-- The records of a signal container, at most as many as are left, read from an offset (R274). -/
def Chip.unpackMembers (c : Chip) (e l src stamp pad : Nat) (locked : Bool) (data : List Byte) (ms : List MemRec) :
    Nat → Nat → Chip
  | 0, _ => c
  | n + 1, off =>
    if data.length < off + 16 then (c.incRaise Reg.SIG.CONT_ERR 0x050 2).sigErr 5 l
    else
      let id := beAt data off 2
      let len := beAt data (off + 2) 2 % 4096
      if data.length < off + 16 + len then (c.incRaise Reg.SIG.CONT_ERR 0x050 2).sigErr 5 l
      else
        let age := beAt data (off + 4) 4
        let cap0 := stamp - age * 1000 - pad * 1000
        let cap := if locked then Nat.min cap0 (beAt data (off + 8) 8) else cap0
        let next := off + 16 + (len + 7) / 8 * 8
        let c1 := match ms.find? (fun m => m.pdu = id) with
          | none => (c.inc Reg.SIG.CONT_UNKNOWN).sigErr 6 l
          | some m =>
            let f := c.layoutFault e m.layout
            if f ≠ 0 then c.sigMalformed f m.layout
            else c.unpackPdu e m.layout src ((data.drop (off + 16)).take len) cap
        c1.unpackMembers e l src stamp pad locked data ms n next

/-- CONTAINER_UNPACK (R274): header, then the records. -/
def Chip.unpackContainer (c : Chip) (e l src stamp : Nat) (data : List Byte) : Chip :=
  if data.length < 16 then (c.incRaise Reg.SIG.CONT_ERR 0x050 2).sigErr 5 l
  else if (byteAt data 0).toNat ≠ 1 then (c.incRaise Reg.SIG.CONT_ERR 0x050 2).sigErr 4 l
  else
    let locked := (byteAt data 1).toNat % 4 = 2 && c.tempoState = 2
    let ms := (c.records e l).map fun w => ({ layout := fld w 61 48, pdu := fld w 47 32 } : MemRec)
    c.unpackMembers e l src stamp (fld (c.layout e l 5) 63 32) locked data ms (beAt data 4 2) 16

/-- PASS_EMIT (R272): the received PDU is sent unchanged. -/
def Chip.passEmit (c : Chip) (k : Copy) (data : List Byte) (stamp : Nat) : Chip :=
  let e := k.epoch
  let l := k.layout
  let d := fld (c.layout e l 1) 27 12
  let dl := if d = 0 then none else some (stamp + d * 100000)
  let w3 := c.layout e l 3
  let w4 := c.layout e l 4
  let fill : Byte := BitVec.ofNat 8 (fld (c.layout e l 1) 7 0)
  let f := canOfRecord k.data
  let isC := decide (k.kind = .can)
  let ide := if isC then f.ide else bit w3 63
  let id := if isC then f.id else fld w3 58 30
  let fmt := if isC then f.fmt else fld w3 62 61
  let brs := if isC then f.brs else bit w3 60
  if c.kind e l = 1 then
    let g := layoutCan w3 w4 fill data
    let body := if fmt = 1 then data ++ List.replicate (fdPad data.length - data.length) fill else data
    (c.countEmission l false).sgEnqueue e l .can
      (canRecord { g with ide := ide, id := id, fmt := fmt, brs := brs, data := body, dlc := dlcCode fmt body.length } false c.ns) dl false
  else
    let t := c.template e (fld (c.layout e l 2) 33 25)
    let msg := acfMessage (bit w4 1) (bit w4 0) ide brs (fmt = 1) (fld w4 12 8) id stamp data
    let sub := (byteAt t.hdr t.avtp).toNat
    if fmt = 2 || !t.fits msg.length || t.avtp = 0 || !(sub = 0x82 || sub = 0x05) then c.sigMalformed 1 l
    else (c.countEmission l true).sgEnqueue e l .eth (sgEthRecord c.ns c.tempoState (t.frame msg (fld (c.tword (lstOff l)) 63 48))) dl false

/-- A copy at output 69 is unpacked (R265). -/
def Chip.unpackCopy (c : Chip) (k : Copy) : Chip :=
  let e := k.epoch
  let l := k.layout
  if !bit (c.regAt e Reg.SIG.CTRL) 0 then c.inc Reg.SIG.DISABLED_DROP
  else
    let f := c.layoutFault e l
    if f ≠ 0 then c.sigMalformed f l
    else if c.kind e l = 4 || c.kind e l = 5 then (c.inc Reg.SIG.MALFORMED).sigErr 7 l
    else
      let off := fld (c.layout e l 0) 43 32
      let data := (if k.kind = .can then (canOfRecord k.data).data else frameBytes k.data).drop off
      let stamp := recStamp k.kind k.data
      if (c.kind e l = 1 || c.kind e l = 2) && bit (c.layout e l 0) 59 then (if c.halted then c else c.passEmit k data stamp)
      else if c.kind e l = 3 then c.unpackContainer e l k.src stamp data
      else c.unpackPdu e l k.src data stamp

/-- UNPACK_PDU (R265): the oldest whole copy at output 69, judged at the head of its queue (R349). -/
def doUnpackPdu (c : Chip) : Chip :=
  match c.fab.copies.find? (fun k => k.appended && k.output = 69) with
  | none => c
  | some k =>
    if k.aborted then Chip.fabDone c (c.delCopy k.id)
    else if c.residenceOver k then Chip.fabDone c (c.resDrop k)
    else if k.arrived < k.cells || !c.sigTurn 1 then c
    else (Chip.fabDone c (c.delCopy k.id) |>.sigBegin 1).unpackCopy k

/-- A refused host write of signal state (R256). -/
def Chip.sigHostRefuse (c : Chip) : Chip := (c.setErr 0x050 7).sigErr 9 0x3FFF

/-- The effect of a host write of state word w of signal i (R256). -/
def Chip.hostSigWrite (c : Chip) (i w : Nat) (v : Word64) (wide : Bool) : Chip :=
  if w = 0 then
    (if !wide || !c.sigValid c.epoch i then c.sigHostRefuse
     else (c.sigBegin 100).sigWrite c.epoch i v c.ns false 0x3FFF 0)
  else if w = 3 && v = 0 then c.setTword (sigStOff i 3) 0
  else c

/-- HOST_SIGNAL_WRITE (R256): partition k writes state word w of signal i; `wide` says 64 bits. -/
def doHostSignalWrite (k i w : Nat) (v : Word64) (wide : Bool) (c : Chip) : Chip :=
  if 65536 ≤ i || 4 ≤ w then c
  else if c.owner 0x050 ≠ k then c.deny k true true 0x050 (sigStOff i w)
  else if (lookupKey c.inReset 0x050).isSome then c.setErr 0x050 8
  else if (c.txn k).state = 1 then (c.setErr 0x050 2).rejectWrite k 1 true (sigStOff i w)
  else c.hostSigWrite i w v wide

/-- The signals that hold any state, in ascending order. -/
def Chip.listedSignals (c : Chip) : List Nat :=
  let base := sigBase / 8 + 0x20_0000 / 8
  (c.tbl.filterMap fun e => if base ≤ e.1 && e.1 < base + 65536 * 4 then some ((e.1 - base) / 4) else none).eraseDups

/-- A signal's flag has fallen: checked, CURRENT and not fresh (R255). -/
def Chip.flagDown (c : Chip) (i : Nat) : Bool := c.checked c.epoch i && c.sigStatus i = 1 && !c.fresh c.epoch i

/-- The FALL_WATCHes that name a signal. -/
def Chip.fallWatches (c : Chip) (i : Nat) : Chip :=
  (List.range 8).foldl (fun (c : Chip) w =>
    if c.bitOf (Reg.SIG.FALL_WATCH w) 31 && c.fldOf (Reg.SIG.FALL_WATCH w) 15 0 = i then c.raise 0x050 (4 + w) else c) c

/-- FLAG_FALL (R255): the sweeper meets signal i in this core cycle, and judges it after the writes of that cycle. -/
def doFlagFall (i : Nat) (c : Chip) : Chip :=
  if 65536 ≤ i || c.sig.falls.contains i then c else { c with sig := { c.sig with falls := c.sig.falls ++ [i] } }

/-- A flag fall up to its emission (R255): STATUS, FALLS, program and trigger, in this order. -/
def Chip.flagFalls (c : Chip) (i : Nat) : Chip :=
  let e := c.epoch
  let stepped := fld (c.sigSt i 2) 55 48 ≠ c.stepGen
  let cap := c.sigCapture i
  let c1 := (c.keepPast i).setTword (sigStOff i 2) (setFld (c.sigSt i 2) 63 62 2)
  let c2 := (c1.tcount (sigStOff i 3) true).inc Reg.SIG.FLAG_FALLS
  let c3 := if bit (c.sigCfg e i 1) 47 then
      c2.pawnRequest { prog := fld (c.sigCfg e i 1) 41 32, event := 4, epoch := e, p1 := 4 * 2 ^ 56 + i,
                       p2 := if stepped then c2.ns else cap + c.maxAge e i + 1, p3 := cap, p5 := (c.sigValue i).toNat }
    else c2
  if bit (c.sigCfg e i 0) 56 then c3.trigger (fld (c.sigCfg e i 0) 55 42) none else c3

/-- The flag falls that a core cycle judges, and which of them came about. -/
def Chip.judgeFalls (c : Chip) : Chip × List Nat :=
  c.sig.falls.foldl (fun (a : Chip × List Nat) i => if a.1.flagDown i then (a.1.flagFalls i, a.2 ++ [i]) else a)
    ({ c with sig := { c.sig with falls := [] } }, [])

/-- The end of a core cycle in the signal gateway (R255, R258, R266): flag falls are judged after the cycle's writes, every layout that was
triggered is emitted once, and the watches of the signals that fell are raised. -/
def Chip.sigCycle (c : Chip) : Chip :=
  let r := c.judgeFalls
  r.2.foldl (fun (c : Chip) i => c.fallWatches i) r.1.flushEmits

/-- SWEEP_DONE (R255): every signal has been processed after a step. -/
def doSweepDone (c : Chip) : Chip :=
  if !c.bitOf Reg.SIG.STATUS 0 || c.listedSignals.any (fun i => c.flagDown i && decide (fld (c.sigSt i 2) 55 48 ≠ c.stepGen)) then c
  else (c.setBitOf Reg.SIG.STATUS 0 false).raise 0x050 3

/-- PERIOD of a layout in nanoseconds in the epoch in force. -/
def Chip.layoutPeriod (c : Chip) (l : Nat) : Nat := fld (c.layout c.epoch l 1) 63 44 * 10000

/-- A layout that has been committed, or Tempo after a step: the next cyclic emission is at the next whole multiple. -/
def Chip.layoutCommit (c : Chip) (l : Nat) : Chip :=
  let p := c.layoutPeriod l
  { c with sig := { c.sig with cyc := if p = 0 then eraseKey c.sig.cyc l else insertKey c.sig.cyc l (c.ns / p) } }

/-- PDU_PERIOD_EMIT (R266): Tempo has reached a whole multiple of PERIOD; triggers of this core cycle that MIN_GAP deferred merge with
it. -/
def doPduPeriodEmit (l : Nat) (c : Chip) : Chip :=
  let p := c.layoutPeriod l
  if 16384 ≤ l || p = 0 || c.kind c.epoch l = 0 || bit (c.layout c.epoch l 0) 59 then c
  else if c.ns / p ≤ (lookupKey c.sig.cyc l).getD 0 then c
  else
    let c1 := c.layoutCommit l
    Chip.toEmit { c1 with sig := { c1.sig with deferred := c1.sig.deferred.filter fun d => !(d.layout = l && d.tour = c1.fab.tour) } } l none

/-- EMIT_DEFERRED (R266): MIN_GAP has passed since the last emission of a layout with a deferred trigger. -/
def doEmitDeferred (l : Nat) (c : Chip) : Chip :=
  match c.sig.deferred.find? (fun d => d.layout = l) with
  | none => c
  | some d =>
    if c.now < d.due then c
    else Chip.toEmit { c with sig := { c.sig with deferred := c.sig.deferred.filter fun d => d.layout != l } } l d.epoch

/-- A Tempo step begins the sweep of R255, and cyclic emissions continue on the new timescale. -/
def Chip.signalStep (c : Chip) : Chip :=
  let c1 := (c.setFldOf Reg.SIG.STATUS 15 8 ((c.stepGen + 1) % 256)).setBitOf Reg.SIG.STATUS 0 true
  (c1.sig.cyc.map (·.1)).foldl (fun (c : Chip) l => c.layoutCommit l) c1

end Sys2Proof.Machine
end

