-- ==== Sys2Proof/Machine/PawnCore.lean ====
section
/-! DEFINITION. Chapter 10: the issue of an instruction, its fields and legality, loops, faults, and the commit at END. -/

/-
MARKS of the model choices coded here; the log rows say each in full.
DESIGN CHOICE (log 8, safe): the two planes are modelled once.
DESIGN CHOICE (log 45, unsafe): Pawn execution: one command for each instruction, and what an invocation captures.
DESIGN CHOICE (log 46, unsafe): LOOP corners.
DESIGN CHOICE (log 47, unsafe): Pawn timers.
DESIGN CHOICE (log 100, unsafe): Pawn faults: where and when they are recorded.
DESIGN CHOICE (log 102, unsafe): adjudication: digests, sweeps, AUTO_REINT and proof swaps.
-/

namespace Sys2Proof.Machine

/-- PAWN page of engine n. -/
def pPawn (n : Nat) : Nat := 0x051 + n

/-- The invocation of an engine. -/
def Chip.invOf (c : Chip) (n : Nat) : Option Invocation := lookupKey c.pawn.run n

/-- The invocation of an engine set. -/
def Chip.setInv (c : Chip) (n : Nat) (v : Invocation) : Chip := { c with pawn := { c.pawn with run := insertKey c.pawn.run n v } }

/-- Register r: p0 reads as zero (R282). -/
def Invocation.reg (v : Invocation) (r : Nat) : Word64 := if r = 0 then 0 else sget 0 v.regs r

/-- Register r set: writes to p0 are discarded (R282). -/
def Invocation.setReg (v : Invocation) (r : Nat) (x : Word64) : Invocation := if r = 0 then v else { v with regs := sset 0 v.regs r x }

/-- Instruction i of the instruction memory in an epoch (R284). -/
def Chip.insn (c : Chip) (e i : Nat) : Word :=
  let w := c.twordAt e (pawnBase + 8 * (i / 2))
  BitVec.ofNat 32 (if i % 2 = 0 then fld w 31 0 else fld w 63 32)

/-- The fields that several formats share (R302). -/
def fOp (w : Word) : Nat := fld w 31 26
def fRd (w : Word) : Nat := fld w 25 22
def fRa (w : Word) : Nat := fld w 21 18
def fRb (w : Word) : Nat := fld w 17 14
def fImm18 (w : Word) : Word64 := BitVec.ofInt 64 (toSigned 18 (fld w 17 0))
def fOff14 (w : Word) : Nat := fld w 13 0

/-- WIDTH of CRC profile k in bits; none for the code that is illegal in use (R302, R320). -/
def Chip.crcWidth (c : Chip) (e k : Nat) : Option Nat :=
  match fld (c.regAt e (Reg.PAWN.CRC_MODE 0 k)) 5 4 with
  | 0 => some 8
  | 1 => some 16
  | 2 => some 32
  | _ => none

/-- An instruction word is legal (R302-R305, R320, R321). -/
def Chip.legal (c : Chip) (e : Nat) (w : Word) : Bool :=
  match fOp w with
  | 0x01 | 0x02 => fld w 25 0 = 0
  | 0x03 => fld w 25 8 = 0
  | 0x04 => fld w 25 14 = 0
  | 0x05 | 0x06 | 0x07 | 0x08 | 0x09 | 0x0A => fld w 17 14 = 0
  | 0x0B => fOff14 w != 0 && (fRd w = 0 || fld w 21 14 = 0)
  | 0x0C | 0x0D | 0x0E | 0x0F | 0x20 | 0x21 | 0x22 | 0x23 | 0x27 => true
  | 0x10 | 0x11 | 0x12 | 0x13 | 0x14 | 0x15 | 0x16 | 0x17 | 0x18 | 0x19 | 0x1A | 0x1B | 0x1C | 0x1D | 0x1E | 0x1F => fld w 13 0 = 0
  | 0x24 | 0x25 | 0x26 => fld w 17 6 = 0
  | 0x28 => fld w 21 18 = 0
  | 0x29 | 0x2A | 0x2B => fld w 5 0 = 0 && decide (fld w 17 12 + fld w 11 6 + 1 ≤ 64)
  | 0x2C => fld w 17 15 = 0 && fld w 11 0 = 0
  | 0x2D | 0x2E | 0x2F => fld w 17 16 = 0
  | 0x30 | 0x31 => true
  | 0x32 => !bit w 16
  | 0x34 | 0x35 | 0x36 => fld w 13 0 = 0
  | 0x37 | 0x38 => fld w 11 0 = 0
  | 0x39 => fld w 11 0 = 0 && (c.crcWidth e (fld w 17 15)).isSome
  | 0x3A => (c.crcWidth e (fld w 17 15)).isSome
  | 0x3B => fRb w = 0 && fld w 13 0 != 0
  | 0x3C => fld w 13 0 != 0
  | 0x3D => !bit w 16
  | 0x3E => fld w 19 14 = 0 && (fld w 21 20 = 1 || (fld w 21 20 = 0 && fRd w = 0))
  | 0x3F => fld w 15 12 = 0 && (fld w 17 16 = 0 || (fld w 17 16 = 1 && fRd w = 0))
  | _ => false

/-- SUB of an instruction that has one. -/
def fSub (w : Word) : Nat := if fOp w = 0x3E then fld w 21 20 else if fOp w = 0x3F then fld w 17 16 else 0

/-- What an instruction does: go on, continue at a target within the program, fault, or end with a commit. -/
inductive PawnStep where
  | go (v : Invocation)
  | jump (v : Invocation) (target : Nat)
  | stop (code : Nat)
  | abort (ucode : Nat)
  | finish

/-- Fault codes (R300). -/
def fltBudget : Nat := 0x01
def fltIllegal : Nat := 0x02
def fltNoEnd : Nat := 0x03
def fltLoop : Nat := 0x04
def fltDmem : Nat := 0x05
def fltSignal : Nat := 0x06
def fltBuf : Nat := 0x07
def fltFull : Nat := 0x08
def fltTimer : Nat := 0x09
def fltAbort : Nat := 0x0A
def fltEcc : Nat := 0x0B

/-- The digest of an invocation that ends (R301): with a fault's code and PC, or with the ordered commit buffer. -/
def Invocation.digest (v : Invocation) (fault : Option (Nat × Nat)) : PawnDigest :=
  match fault with
  | some f => { prog := v.prog, fault := some f, began := v.began }
  | none => { prog := v.prog, epoch := v.epoch, writes := v.writes, stores := v.stores, timers := v.timers, emits := v.emits, began := v.began }

/-- The engine is idle again: its digest is passed (R301), the invocation is counted, MAX_CYC follows (R325). -/
def Chip.invEnd (c : Chip) (n : Nat) (v : Invocation) (fault : Option (Nat × Nat)) : Chip :=
  let c1 := ({ c with pawn := { c.pawn with run := eraseKey c.pawn.run n, digests := insertKey c.pawn.digests n (v.digest fault) } }).inc
    (Reg.PAWN.INVOKED n)
  let cyc := Nat.min 0x3FFF v.cycles
  let c2 := if c1.fldOf (Reg.PAWN.MAX_CYC n) 13 0 < cyc then
      c1.setReg (Reg.PAWN.MAX_CYC n) (BitVec.ofNat 32 (v.prog * 2 ^ 20 + cyc)) else c1
  c2.setReg (Reg.PAWN.ENG_STAT n) 0

/-- A self-check flag of both planes, where the plane runs (R300, R301). -/
def Chip.bothFlag (c : Chip) (f : Nat) : Chip :=
  let runs (c : Chip) (x : Nat) : Bool := decide (c.plState x < 2) || c.plState x = 6
  let c1 := if runs c 0 then c.planeFlag 0 f else c
  if runs c1 1 then c1.planeFlag 1 f else c1

/-- The record of a fault (R300). -/
def Chip.faultRecord (c : Chip) (n : Nat) (v : Invocation) (code ucode : Nat) : Chip :=
  ((c.setReg (Reg.PAWN.LAST_FAULT n) (BitVec.ofNat 32 (2 ^ 31 + code * 2 ^ 24 + ucode % 256 * 2 ^ 16 + v.prog))).setReg
    (Reg.PAWN.LAST_FAULT_PC n) (BitVec.ofNat 32 (v.issued % 2 ^ 14 * 2 ^ 16 + v.pc % 2 ^ 14))).setReg (Reg.PAWN.LAST_FAULT_TIME n) c.ns41

/-- PAWN_FAULT (R300): nothing is committed; recorded, counted, raised and logged. Its digest waits like every other item of the engine
(R377). -/
def Chip.pawnFault (c : Chip) (n : Nat) (v : Invocation) (code ucode : Nat) : Chip :=
  if c.digestHeld n then c else
  let c1 := ((c.invEnd n v (some (code, v.pc))).faultRecord n v code ucode).inc (Reg.PAWN.FAULTS n)
  let c2 := if code = fltBudget then c1.incRaise (Reg.PAWN.OVERRUNS n) (pPawn n) 1 else c1.raise (pPawn n) 0
  let c3 := c2.scoreLog 0x0070 2 (pPawn n) ([BitVec.ofNat 8 n, BitVec.ofNat 8 code] ++ bytesLE 2 v.prog ++ bytesLE 2 v.pc)
  if code = fltBudget then c3.bothFlag 2 else c3

/-- Instruction or data memory is read (R300): plane memory u at a word address. Where it is uncorrectable in every plane that computes, the
invocation faults ECC, and each plane has raised its ECC flag (R470); in one plane alone, that plane's invocation ends with a digest
that differs from the other's (R301), with which the model goes on (log 8). -/
def Chip.pawnRead (c : Chip) (n : Nat) (v : Invocation) (u addr : Nat) (go : Chip → Chip) : Chip :=
  let xs := c.readFails (sget false c.mem.bad (memKey (0x40 + u) addr)) (sget false c.mem.bad (memKey (0x50 + u) addr))
  if xs.isEmpty then go c
  else
    let c1 := c.planesUe xs u addr
    let differs (c : Chip) : Chip := if c.digestHeld n then c else (c.inc Reg.ADJ.DIS_DIGEST).disagree 1 n 0 0
    if c1.allFail xs then
      (let c2 := c1.pawnFault n v fltEcc 0
       if c1.joinDiffers xs && decide (c1.adj.joinNs ≤ v.began) then differs c2 else c2)
    else if c1.lockstep then differs (go c1) else go c1

/-- The address of a data access in the program's region, if it is within it and aligned (R312). -/
def dmemAddr (v : Invocation) (w : Word) (size : Nat) : Option Nat :=
  let a := (v.reg (fRa w) + fImm18 w).toNat
  if a < v.dlen * 8 && a % size = 0 then some a else none

/-- The word of data memory that an instruction reads, if any: LD and LDW. -/
def dmemRead (v : Invocation) (w : Word) : Option Nat :=
  if fOp w = 0x0C then (dmemAddr v w 8).map fun a => v.dbase + a / 8
  else if fOp w = 0x0D then (dmemAddr v w 4).map fun a => v.dbase + a / 8
  else none

/-- After the last instruction of a loop body: another pass, or the loop is over, and so for every enclosing loop that
ends there too (R305). -/
def loopNext : List PawnLoop → Nat → List PawnLoop × Nat
  | [], pc => ([], pc)
  | l :: rest, pc =>
    if pc = l.last + 1 then (if l.left = 0 then loopNext rest pc else ({ l with left := l.left - 1 } :: rest, l.first))
    else (l :: rest, pc)

/-- A branch to a target beyond the end of a body ends that loop (R305). -/
def loopLeave (ls : List PawnLoop) (target : Nat) : List PawnLoop := ls.dropWhile fun l => decide (l.last < target)

/-- Pawn cycles of an instruction (R296). -/
def pawnCycles (w : Word) : Nat := if (0x2D ≤ fOp w && fOp w ≤ 0x2F) || fOp w = 0x3D then 2 else 1

/-- Timer j: its words (R317). -/
def timerOff (j : Nat) : Nat := pawnBase + 0x8_0000 + 16 * j

/-- NEXT of a timer that starts now (R318): aligned for a periodic timer, the next 10 microsecond boundary plus PHASE for
a one-shot. -/
def nextAligned (w0 : Word64) (ns : Nat) : Nat :=
  let p := fld w0 47 24
  let ph := fld w0 23 0
  let n0 := ns / 10000 + 1
  if p = 0 then n0 + ph else n0 + (ph % p + p - n0 % p) % p

/-- A timer runs to NEXT. -/
def Chip.timerRun (c : Chip) (j next : Nat) : Chip := c.setTword (timerOff j + 8) (BitVec.ofNat 64 (2 ^ 63 + next % 2 ^ 56))

/-- A timer stops. -/
def Chip.timerStop (c : Chip) (j : Nat) : Chip := c.setTword (timerOff j + 8) (setBit (c.tword (timerOff j + 8)) 63 false)

/-- A held timer operation takes effect (R319). -/
def Chip.timerOp (c : Chip) (e : Nat) (o : PawnTimerOp) : Chip :=
  if !o.start then c.timerStop o.timer
  else c.timerRun o.timer (if o.after = 0 then nextAligned (c.twordAt e (timerOff o.timer)) c.ns else ceilDiv c.ns 10000 + o.after)

/-- A held signal write takes effect (R314). -/
def Chip.commitWrite (c : Chip) (v : Invocation) (w : PawnWrite) : Chip :=
  if c.sigValid v.epoch w.sig then c.sigWrite v.epoch w.sig (BitVec.ofNat 64 w.value) w.cap w.inv 0x3FFF (v.depth + 1)
  else c.inc (Reg.PAWN.SIG_REFUSED 0)

/-- A word of data memory is uncorrectable in a plane's instance m, and a store of half of it comes: the result is stored with poison
(R473). -/
def Chip.storePoison (c : Chip) (m k : Nat) : Chip :=
  if sget false c.mem.bad (memKey m k) then (((c.memUe m k 2).inc Reg.MEM.POISON_WR).raise 0x080 2) else c

/-- A held store takes effect: a whole word clears poison (R474). -/
def Chip.commitStore (c : Chip) (s : Nat × Word64 × Word64) : Chip :=
  let off := pawnBase + 0x4_0000 + 8 * s.1
  let c1 := c.setTword off ((c.tword off &&& ~~~ s.2.2) ||| (s.2.1 &&& s.2.2))
  if s.2.2 = ~~~ 0 then (c1.memClean 0x49 s.1).memClean 0x59 s.1 else (c1.storePoison 0x49 s.1).storePoison 0x59 s.1

/-- SEND at the commit (R316). -/
def Chip.sendPdu (c : Chip) (v : Invocation) (l : Nat) (data : List Byte) (capmin dlmin : Option Nat) (sub : Bool) : Chip :=
  if !bit (c.regAt v.epoch Reg.SIG.CTRL) 0 || c.halted then c
  else if data.isEmpty then c.sigErr 8 l
  else
    let f := c.layoutFault v.epoch l
    if f ≠ 0 then c.sigMalformed f l
    else if c.kind v.epoch l ≠ 1 && c.kind v.epoch l ≠ 2 then c.sigMalformed 1 l
    else c.emitPdu v.epoch l data (capmin.getD c.ns) (earlier dlmin (c.layoutDl v.epoch l)) sub

/-- A held EMIT or SEND takes effect (R299, R315, R316). -/
def Chip.commitEmit (c : Chip) (v : Invocation) : PawnEmit → Chip
  | .emit l => c.trigger l (some v.epoch)
  | .send l data cm dm sub => c.sendPdu v l data cm dm sub

/-- PAWN_COMMIT (R258, R299): in the core cycle of its END, signal writes, stores, timer operations, EMIT and SEND, each in program order. -/
def Chip.pawnCommit (c : Chip) (n : Nat) (v : Invocation) : Chip :=
  let c1 := v.writes.foldl (fun (c : Chip) w => c.commitWrite v w) ((c.sigBegin (2 + n)).invEnd n v none)
  let c2 := v.stores.foldl Chip.commitStore c1
  let c3 := v.timers.foldl (fun (c : Chip) o => c.timerOp v.epoch o) c2
  v.emits.foldl (fun (c : Chip) o => c.commitEmit v o) c3

/-- What an instruction did becomes the state of the engine. An END waits while the Adjudicator holds the engine's digests (R377). -/
def Chip.pawnApply (c : Chip) (n : Nat) (v : Invocation) (w : Word) : PawnStep → Chip
  | .stop code => c.pawnFault n v code 0
  | .abort u => c.pawnFault n { v with cycles := v.cycles + 1, issued := v.issued + 1 } fltAbort u
  | .finish => if c.digestHeld n then c else c.pawnCommit n { v with cycles := v.cycles + 1, issued := v.issued + 1 }
  | .go v' =>
    let r := loopNext v'.loops (v'.pc + 1)
    c.setInv n { v' with loops := r.1, pc := r.2, issued := v.issued + 1, cycles := v.cycles + pawnCycles w }
  | .jump v' t =>
    let r := loopNext (loopLeave v'.loops t) t
    c.setInv n { v' with loops := r.1, pc := r.2, issued := v.issued + 1, cycles := v.cycles + pawnCycles w }

/-- The word that an engine issues next. -/
def Chip.nextInsn (c : Chip) (v : Invocation) : Word := c.insn v.epoch (v.start + v.pc)

/-- An engine issues its next instruction (R297, R300, R302). The command names opcode and SUB: where the next
instruction is another one, nothing happens. The instruction reads the signals as of the end of the previous core cycle (R258). -/
def Chip.issue (c : Chip) (n op sub : Nat) (f : Chip → Invocation → Word → PawnStep) : Chip :=
  match c.invOf n with
  | none => c
  | some v =>
    if v.budget ≤ v.issued then c.pawnFault n v fltBudget 0
    else if v.len ≤ v.pc then c.pawnFault n v fltNoEnd 0
    else
      let w := c.nextInsn v
      let run (c : Chip) : Chip := c.pawnApply n v w (f c.pastView v w)
      c.pawnRead n v 8 ((v.start + v.pc) / 2) fun c =>
        if !c.legal v.epoch w then c.pawnFault n v fltIllegal 0
        else if fOp w = op && fSub w = sub then
          (match dmemRead v w with
           | none => run c
           | some k => c.pawnRead n v 9 k run)
        else c

end Sys2Proof.Machine
end

