-- ==== Sys2Proof/Machine/PawnIsa.lean ====
section
/-! DEFINITION. The instruction set of the Pawn engines (R303). Each command makes engine n issue its next instruction,
which is the one named; operands come from the instruction word in the instruction memory. -/

/-
MARKS of the model choices coded here; the log rows say each in full.
DESIGN CHOICE (log 46, unsafe): LOOP corners.
DESIGN CHOICE (log 100, unsafe): Pawn faults: where and when they are recorded.
-/

namespace Sys2Proof.Machine

/-- A result for RD. -/
def put (v : Invocation) (w : Word) (x : Word64) : PawnStep := .go (v.setReg (fRd w) x)

/-- Format R: RD from RA and RB. -/
def rrr (f : Word64 → Word64 → Word64) (_ : Chip) (v : Invocation) (w : Word) : PawnStep :=
  put v w (f (v.reg (fRa w)) (v.reg (fRb w)))

/-- Format I: RD from RA and IMM18. -/
def rri (f : Word64 → Word64 → Word64) (imm : Word → Word64) (_ : Chip) (v : Invocation) (w : Word) : PawnStep :=
  put v w (f (v.reg (fRa w)) (imm w))

/-- Saturation of an exact signed result to 64 bits. -/
def satS64 (i : Int) : Word64 :=
  BitVec.ofInt 64 (if i < -(2 ^ 63 : Nat) then -(2 ^ 63 : Nat) else if (2 ^ 63 : Nat) - 1 < i then (2 ^ 63 : Nat) - 1 else i)

/-- IMM18, zero-extended. -/
def uImm18 (w : Word) : Word64 := BitVec.ofNat 64 (fld w 17 0)

/-- The shift amount in the low six bits. -/
def sh6 (x : Word64) : Nat := fld x 5 0

/-- Format B: a branch on RA and RB to PC + 1 + OFF (R304). -/
def branch (cond : Word64 → Word64 → Bool) (_ : Chip) (v : Invocation) (w : Word) : PawnStep :=
  if cond (v.reg (fRd w)) (v.reg (fRa w)) then .jump v (v.pc + 1 + fOff14 w) else .go v

/-- NOP. -/
def doNop (n : Nat) (c : Chip) : Chip := c.issue n 0x01 0 fun _ v _ => .go v
/-- END (R299): the invocation commits; in a core cycle in which an engine of a higher number or a host has already written, it waits for the
next (R258). -/
def doEnd (n : Nat) (c : Chip) : Chip := if c.sigTurn (2 + n) then c.issue n 0x02 0 fun _ _ _ => .finish else c
/-- ABORT: fault ABORT with CODE. -/
def doAbort (n : Nat) (c : Chip) : Chip := c.issue n 0x03 0 fun _ _ w => .abort (fld w 7 0)
/-- BR. -/
def doBr (n : Nat) (c : Chip) : Chip := c.issue n 0x04 0 (branch fun _ _ => true)
/-- BEQ. -/
def doBeq (n : Nat) (c : Chip) : Chip := c.issue n 0x05 0 (branch fun a b => a == b)
/-- BNE. -/
def doBne (n : Nat) (c : Chip) : Chip := c.issue n 0x06 0 (branch fun a b => a != b)
/-- BLT. -/
def doBlt (n : Nat) (c : Chip) : Chip := c.issue n 0x07 0 (branch fun a b => a.slt b)
/-- BGE. -/
def doBge (n : Nat) (c : Chip) : Chip := c.issue n 0x08 0 (branch fun a b => !a.slt b)
/-- BLTU. -/
def doBltu (n : Nat) (c : Chip) : Chip := c.issue n 0x09 0 (branch fun a b => a.ult b)
/-- BGEU. -/
def doBgeu (n : Nat) (c : Chip) : Chip := c.issue n 0x0A 0 (branch fun a b => !a.ult b)

/-- LOOP (R305). With a count of 0 execution goes on behind the body as at the end of a pass: an enclosing body that ends there
ends too. -/
def loopStep (_ : Chip) (v : Invocation) (w : Word) : PawnStep :=
  let cnt := if fRd w = 0 then fld w 21 14 else (v.reg (fRd w)).toNat
  let last := v.pc + fOff14 w
  let beyond := match v.loops with | [] => false | l :: _ => decide (l.last < last)
  if 255 < cnt || beyond then .stop fltLoop
  else if cnt = 0 then .go { v with pc := last }
  else if 4 ≤ v.loops.length then .stop fltLoop
  else .go { v with loops := { first := v.pc + 1, last := last, left := cnt - 1 } :: v.loops }

/-- LOOP. -/
def doLoop (n : Nat) (c : Chip) : Chip := c.issue n 0x0B 0 loopStep

/-- A word of data memory as committed, merged with the held stores (R298). -/
def Chip.dmemWord (c : Chip) (v : Invocation) (k : Nat) : Word64 :=
  let m := c.tword (pawnBase + 0x4_0000 + 8 * k)
  match v.stores.find? (fun s => s.1 = k) with
  | none => m
  | some s => (m &&& ~~~ s.2.2) ||| (s.2.1 &&& s.2.2)

/-- A load (R312). -/
def loadStep (wide : Bool) (c : Chip) (v : Invocation) (w : Word) : PawnStep :=
  match dmemAddr v w (if wide then 8 else 4) with
  | none => .stop fltDmem
  | some a =>
    let x := c.dmemWord v (v.dbase + a / 8)
    put v w (if wide then x else BitVec.ofNat 64 (if a % 8 = 0 then fld x 31 0 else fld x 63 32))

/-- A store held in the commit buffer: a later store to the same word replaces the earlier one in place (R298). -/
def holdStore (l : List (Nat × Word64 × Word64)) (k : Nat) (x m : Word64) : List (Nat × Word64 × Word64) :=
  if l.any (fun s => s.1 = k) then l.map fun s => if s.1 = k then (k, (s.2.1 &&& ~~~ m) ||| (x &&& m), s.2.2 ||| m) else s
  else l ++ [(k, x, m)]

/-- A store (R298, R312). -/
def storeStep (wide : Bool) (_ : Chip) (v : Invocation) (w : Word) : PawnStep :=
  match dmemAddr v w (if wide then 8 else 4) with
  | none => .stop fltDmem
  | some a =>
    let x := v.reg (fRd w)
    let hi := decide (a % 8 ≠ 0)
    let m : Word64 := if wide then ~~~ 0 else if hi then fieldMask 64 63 32 else fieldMask 64 31 0
    let y : Word64 := if hi then x <<< 32 else x
    let l := holdStore v.stores (v.dbase + a / 8) (y &&& m) m
    if 64 < l.length then .stop fltFull else .go { v with stores := l }

/-- LD. -/
def doLd (n : Nat) (c : Chip) : Chip := c.issue n 0x0C 0 (loadStep true)
/-- LDW. -/
def doLdw (n : Nat) (c : Chip) : Chip := c.issue n 0x0D 0 (loadStep false)
/-- ST. -/
def doSt (n : Nat) (c : Chip) : Chip := c.issue n 0x0E 0 (storeStep true)
/-- STW. -/
def doStw (n : Nat) (c : Chip) : Chip := c.issue n 0x0F 0 (storeStep false)
/-- ADD. -/
def doAdd (n : Nat) (c : Chip) : Chip := c.issue n 0x10 0 (rrr fun a b => a + b)
/-- SUB. -/
def doSub (n : Nat) (c : Chip) : Chip := c.issue n 0x11 0 (rrr fun a b => a - b)
/-- ADDS. -/
def doAdds (n : Nat) (c : Chip) : Chip := c.issue n 0x12 0 (rrr fun a b => satS64 (a.toInt + b.toInt))
/-- SUBS. -/
def doSubs (n : Nat) (c : Chip) : Chip := c.issue n 0x13 0 (rrr fun a b => satS64 (a.toInt - b.toInt))
/-- ADDUS. -/
def doAddus (n : Nat) (c : Chip) : Chip := c.issue n 0x14 0 (rrr fun a b => BitVec.ofNat 64 (Nat.min (2 ^ 64 - 1) (a.toNat + b.toNat)))
/-- SUBUS. -/
def doSubus (n : Nat) (c : Chip) : Chip := c.issue n 0x15 0 (rrr fun a b => BitVec.ofNat 64 (a.toNat - b.toNat))
/-- MUL. -/
def doMul (n : Nat) (c : Chip) : Chip := c.issue n 0x16 0 (rrr fun a b => a * b)
/-- MULS. -/
def doMuls (n : Nat) (c : Chip) : Chip := c.issue n 0x17 0 (rrr fun a b => satS64 (a.toInt * b.toInt))
/-- AND. -/
def doAnd (n : Nat) (c : Chip) : Chip := c.issue n 0x18 0 (rrr fun a b => a &&& b)
/-- OR. -/
def doOr (n : Nat) (c : Chip) : Chip := c.issue n 0x19 0 (rrr fun a b => a ||| b)
/-- XOR. -/
def doXor (n : Nat) (c : Chip) : Chip := c.issue n 0x1A 0 (rrr fun a b => a ^^^ b)
/-- SHL. -/
def doShl (n : Nat) (c : Chip) : Chip := c.issue n 0x1B 0 (rrr fun a b => a <<< sh6 b)
/-- SHR. -/
def doShr (n : Nat) (c : Chip) : Chip := c.issue n 0x1C 0 (rrr fun a b => a >>> sh6 b)
/-- SAR. -/
def doSar (n : Nat) (c : Chip) : Chip := c.issue n 0x1D 0 (rrr fun a b => a.sshiftRight (sh6 b))
/-- MIN. -/
def doMin (n : Nat) (c : Chip) : Chip := c.issue n 0x1E 0 (rrr fun a b => if a.slt b then a else b)
/-- MAX. -/
def doMax (n : Nat) (c : Chip) : Chip := c.issue n 0x1F 0 (rrr fun a b => if a.slt b then b else a)
/-- ADDI. -/
def doAddi (n : Nat) (c : Chip) : Chip := c.issue n 0x20 0 (rri (fun a i => a + i) fImm18)
/-- ANDI. -/
def doAndi (n : Nat) (c : Chip) : Chip := c.issue n 0x21 0 (rri (fun a i => a &&& i) uImm18)
/-- ORI. -/
def doOri (n : Nat) (c : Chip) : Chip := c.issue n 0x22 0 (rri (fun a i => a ||| i) uImm18)
/-- XORI. -/
def doXori (n : Nat) (c : Chip) : Chip := c.issue n 0x23 0 (rri (fun a i => a ^^^ i) uImm18)
/-- SHLI. -/
def doShli (n : Nat) (c : Chip) : Chip := c.issue n 0x24 0 (rri (fun a i => a <<< sh6 i) uImm18)
/-- SHRI. -/
def doShri (n : Nat) (c : Chip) : Chip := c.issue n 0x25 0 (rri (fun a i => a >>> sh6 i) uImm18)
/-- SARI. -/
def doSari (n : Nat) (c : Chip) : Chip := c.issue n 0x26 0 (rri (fun a i => a.sshiftRight (sh6 i)) uImm18)
/-- MOVI. -/
def doMovi (n : Nat) (c : Chip) : Chip := c.issue n 0x27 0 fun _ v w => put v w (BitVec.ofInt 64 (toSigned 22 (fld w 21 0)))
/-- MOVK. -/
def doMovk (n : Nat) (c : Chip) : Chip :=
  c.issue n 0x28 0 fun _ v w => put v w (setFld (v.reg (fRd w)) (16 * fld w 17 16 + 15) (16 * fld w 17 16) (fld w 15 0))
/-- BFX. -/
def doBfx (n : Nat) (c : Chip) : Chip :=
  c.issue n 0x29 0 fun _ v w => put v w (BitVec.ofNat 64 (fld (v.reg (fRa w)) (fld w 17 12 + fld w 11 6) (fld w 17 12)))
/-- BFXS. -/
def doBfxs (n : Nat) (c : Chip) : Chip :=
  c.issue n 0x2A 0 fun _ v w =>
    put v w (BitVec.ofInt 64 (toSigned (fld w 11 6 + 1) (fld (v.reg (fRa w)) (fld w 17 12 + fld w 11 6) (fld w 17 12))))
/-- BFI. -/
def doBfi (n : Nat) (c : Chip) : Chip :=
  c.issue n 0x2B 0 fun _ v w =>
    put v w (setFld (v.reg (fRd w)) (fld w 17 12 + fld w 11 6) (fld w 17 12) (v.reg (fRa w)).toNat)
/-- BSW. -/
def doBsw (n : Nat) (c : Chip) : Chip :=
  c.issue n 0x2C 0 fun _ v w => put v w (BitVec.ofNat 64 (natBE (bytesLE (fld w 14 12 + 1) (v.reg (fRa w)).toNat)))

/-- The signal that an instruction names: RA + IDX, none above 65,535 (R313). -/
def sigIndex (v : Invocation) (w : Word) : Option Nat :=
  let i := (v.reg (fRa w) + BitVec.ofNat 64 (fld w 15 0)).toNat
  if i < 65536 then some i else none

/-- SRD (R313): VALUE, and the accumulators of SEND. -/
def srdStep (c : Chip) (v : Invocation) (w : Word) : PawnStep :=
  match sigIndex v w with
  | none => .stop fltSignal
  | some i =>
    let e := v.epoch
    let chk := c.checked e i && c.sigStatus i != 0
    let fresh := c.sigValid e i && c.fresh e i
    let cap := c.sigCapture i
    put { v with capmin := if chk then earlier v.capmin (some cap) else v.capmin,
                 dlmin := if c.checked e i && fresh then earlier v.dlmin (some (cap + c.maxAge e i)) else v.dlmin,
                 sub := v.sub || !fresh } w (c.sigValue i)

/-- The SRS status word (R313). -/
def Chip.srsWord (c : Chip) (e i : Nat) : Word64 :=
  let st := if c.sigValid e i then c.evalStatus e i else 3
  BitVec.ofNat 64 (st * 2 ^ 62 + fld (c.sigSt i 2) 61 60 * 2 ^ 60 + (if c.checked e i then 0 else 2 ^ 59) + c.ageUs i)

/-- SRD. -/
def doSrd (n : Nat) (c : Chip) : Chip := c.issue n 0x2D 0 srdStep
/-- SRS. -/
def doSrs (n : Nat) (c : Chip) : Chip :=
  c.issue n 0x2E 0 fun c v w => match sigIndex v w with | none => .stop fltSignal | some i => put v w (c.srsWord v.epoch i)
/-- SRC. -/
def doSrc (n : Nat) (c : Chip) : Chip :=
  c.issue n 0x2F 0 fun c v w => match sigIndex v w with | none => .stop fltSignal | some i => put v w (BitVec.ofNat 64 (c.sigCapture i))

/-- The bit positions of EXT, EXTS and INS; none where a bit lies beyond byte 2,047 (R306). -/
def bufField (v : Invocation) (w : Word) : Option (List Nat) :=
  let s := (v.reg (fRa w) + BitVec.ofNat 64 (fld w 9 0)).toNat
  if 2048 * 8 ≤ s then none
  else
    let ps := fieldPositions (bit w 17) s (fld w 15 10 + 1)
    if fieldWithin ps (2048 * 8) then some ps else none

/-- EXT and EXTS (R306). -/
def extStep (signed : Bool) (_ : Chip) (v : Invocation) (w : Word) : PawnStep :=
  match bufField v w with
  | none => .stop fltBuf
  | some ps =>
    let x := readField (pduBit (if bit w 16 then v.out else v.inBuf)) ps
    put v w (if signed then BitVec.ofInt 64 (toSigned (fld w 15 10 + 1) x) else BitVec.ofNat 64 x)

/-- A buffer at least n bytes long. -/
def padTo (n : Nat) (b : List Byte) : List Byte := b ++ List.replicate (n - b.length) 0

/-- EXT. -/
def doExt (n : Nat) (c : Chip) : Chip := c.issue n 0x30 0 (extStep false)
/-- EXTS. -/
def doExts (n : Nat) (c : Chip) : Chip := c.issue n 0x31 0 (extStep true)
/-- INS (R306). -/
def doIns (n : Nat) (c : Chip) : Chip :=
  c.issue n 0x32 0 fun _ v w =>
    match bufField v w with
    | none => .stop fltBuf
    | some ps => .go { v with out := writeField (padTo (ps.foldl Nat.max 0 / 8 + 1) v.out) (v.reg (fRd w)).toNat ps }

/-- SCL (R309). -/
def sclValue (ra rb : Word64) : Word64 :=
  let m := toSigned 32 (fld rb 63 32)
  let b := toSigned 24 (fld rb 31 8)
  let s := fld rb 5 0
  let acc := ra.toInt * m + (if bit rb 7 && s != 0 then (2 ^ (s - 1) : Nat) else 0)
  satS64 (acc / (2 ^ s : Nat) + b)

/-- SCL. -/
def doScl (n : Nat) (c : Chip) : Chip := c.issue n 0x34 0 (rrr sclValue)
/-- RCHK (R310). -/
def doRchk (n : Nat) (c : Chip) : Chip :=
  c.issue n 0x35 0 (rrr fun a b => if a.toInt < toSigned 32 (fld b 63 32) then 1 else if toSigned 32 (fld b 31 0) < a.toInt then 2 else 0)
/-- CLAMP (R310). -/
def doClamp (n : Nat) (c : Chip) : Chip :=
  c.issue n 0x36 0 (rrr fun a b =>
    let lo := toSigned 32 (fld b 63 32)
    let hi := toSigned 32 (fld b 31 0)
    BitVec.ofInt 64 (max lo (min hi a.toInt)))

/-- i / 2^k, rounded to nearest with ties to even. -/
def roundShift (i : Int) (k : Nat) : Int :=
  let d : Int := (2 ^ k : Nat)
  let q := i / d
  let r := i % d
  if 2 * r < d then q else if d < 2 * r then q + 1 else if q % 2 = 0 then q else q + 1

/-- FTOX (R311). -/
def ftox (a f : Nat) : Word64 :=
  match f32Scaled a with
  | some i => satS64 (roundShift (i * (2 ^ f : Nat)) 149)
  | none => if f32Nan a then 0 else satS64 (if natBits a 31 31 = 1 then -(2 ^ 64 : Nat) else (2 ^ 64 : Nat))

/-- XTOF (R311). -/
def xtof (x : Int) (f : Nat) : Word64 :=
  if x = 0 then 0 else
  let m := x.natAbs
  let e := m.log2
  let mant : Nat := if e ≤ 23 then m * 2 ^ (23 - e) else (roundShift m (e - 23)).toNat
  let up := decide (2 ^ 24 ≤ mant)
  let ex := e + 127 - f + (if up then 1 else 0)
  BitVec.ofNat 64 ((if x < 0 then 2 ^ 31 else 0) + ex * 2 ^ 23 + (if up then mant / 2 else mant) % 2 ^ 23)

/-- FTOX. -/
def doFtox (n : Nat) (c : Chip) : Chip := c.issue n 0x37 0 fun _ v w => put v w (ftox (fld (v.reg (fRa w)) 31 0) (fld w 17 12))
/-- XTOF. -/
def doXtof (n : Nat) (c : Chip) : Chip := c.issue n 0x38 0 fun _ v w => put v w (xtof (v.reg (fRa w)).toInt (fld w 17 12))

/-- The low w bits of a number in reverse order. -/
def mirrorBits (w n : Nat) : Nat := (List.range w).foldl (fun a j => a * 2 + n / 2 ^ j % 2) 0

/-- One bit of the CRC of R320. -/
def crcBit (w poly : Nat) (reflect : Bool) (crc : Nat) : Nat :=
  if reflect then (if crc % 2 = 1 then (crc / 2) ^^^ mirrorBits w poly else crc / 2)
  else (if crc / 2 ^ (w - 1) % 2 = 1 then (crc * 2) ^^^ poly else crc * 2)

/-- One byte of the CRC of R320. -/
def crcByte (w poly : Nat) (reflect : Bool) (crc : Nat) (b : Byte) : Nat :=
  let x := if reflect then crc ^^^ b.toNat else crc ^^^ (b.toNat * 2 ^ (w - 8))
  (List.range 8).foldl (fun a _ => crcBit w poly reflect a) x % 2 ^ w

/-- Bytes folded into RD by a profile (R320). -/
def Chip.crcFold (c : Chip) (e prof : Nat) (acc : Nat) (bs : List Byte) : Nat :=
  let w := (c.crcWidth e prof).getD 8
  bs.foldl (crcByte w (c.regAt e (Reg.PAWN.CRC_POLY 0 prof)).toNat (bit (c.regAt e (Reg.PAWN.CRC_MODE 0 prof)) 0)) acc

/-- CRC (R320). -/
def doCrc (n : Nat) (c : Chip) : Chip :=
  c.issue n 0x39 0 fun c v w =>
    put v w (BitVec.ofNat 64 (c.crcFold v.epoch (fld w 17 15) (v.reg (fRd w)).toNat (bytesLE (fld w 14 12 + 1) (v.reg (fRa w)).toNat)))
/-- CRCB (R320). -/
def doCrcb (n : Nat) (c : Chip) : Chip :=
  c.issue n 0x3A 0 fun c v w =>
    let s := (v.reg (fRa w) + BitVec.ofNat 64 (fld w 10 0)).toNat
    let k := fld w 14 12 + 1
    if 2048 < s + k then .stop fltBuf
    else put v w (BitVec.ofNat 64 (c.crcFold v.epoch (fld w 17 15) (v.reg (fRd w)).toNat (bytesAt (if bit w 11 then v.out else v.inBuf) s k)))

/-- ALV (R321). -/
def doAlv (n : Nat) (c : Chip) : Chip :=
  c.issue n 0x3B 0 fun _ v w =>
    let a := v.reg (fRa w)
    put v w (if fld w 13 0 ≤ a.toNat then 0 else a + 1)
/-- ALVD (R321). -/
def doAlvd (n : Nat) (c : Chip) : Chip :=
  c.issue n 0x3C 0 fun _ v w =>
    let a := (v.reg (fRa w)).toNat
    let b := (v.reg (fRb w)).toNat
    let m := fld w 13 0
    put v w (if a ≤ m && b ≤ m then BitVec.ofNat 64 ((a + (m + 1) - b) % (m + 1)) else ~~~ 0)

/-- SWR (R314): held until END. -/
def doSwr (n : Nat) (c : Chip) : Chip :=
  c.issue n 0x3D 0 fun _ v w =>
    if 64 ≤ v.writes.length then .stop fltFull
    else
      let cap := if fRa w = 0 then v.ecap else (v.reg (fRa w)).toNat
      .go { v with writes := v.writes ++ [{ sig := fld w 15 0, value := (v.reg (fRd w)).toNat, cap := cap, inv := bit w 17 }] }

/-- EMIT (R315): held until END. -/
def doEmit (n : Nat) (c : Chip) : Chip :=
  c.issue n 0x3E 0 fun _ v w =>
    if 16 ≤ v.emits.length then .stop fltFull else .go { v with emits := v.emits ++ [.emit (fld w 13 0)] }

/-- SEND (R316): held until END. -/
def doSend (n : Nat) (c : Chip) : Chip :=
  c.issue n 0x3E 1 fun _ v w =>
    let k := (v.reg (fRd w)).toNat
    if 2048 < k then .stop fltBuf
    else if 16 ≤ v.emits.length then .stop fltFull
    else .go { v with emits := v.emits ++ [.send (fld w 13 0) (bytesAt v.out 0 k) v.capmin v.dlmin v.sub] }

/-- A timer operation held until END (R319). -/
def timerStep (start : Bool) (c : Chip) (v : Invocation) (w : Word) : PawnStep :=
  let j := (v.reg (fRa w) + BitVec.ofNat 64 (fld w 11 0)).toNat
  if 4096 ≤ j then .stop fltTimer
  else if fld (c.twordAt v.epoch (timerOff j)) 62 61 ≠ v.part then .stop fltTimer
  else if 16 ≤ v.timers.length then .stop fltFull
  else .go { v with timers := v.timers ++ [{ timer := j, start := start, after := if start then (v.reg (fRd w)).toNat else 0 }] }

/-- TSTART. -/
def doTstart (n : Nat) (c : Chip) : Chip := c.issue n 0x3F 0 (timerStep true)
/-- TSTOP. -/
def doTstop (n : Nat) (c : Chip) : Chip := c.issue n 0x3F 1 (timerStep false)

end Sys2Proof.Machine
end

