-- ==== Sys2Proof/Machine/Pawn.lean ====
section
/-! DEFINITION. Chapter 10: dispatch, kicks, timers, and the faults that no instruction names. -/

/-
MARKS of the model choices coded here; the log rows say each in full.
DESIGN CHOICE (log 44, unsafe): Pawn requests: CHAIN_MAX 0 and the order of the checks.
DESIGN CHOICE (log 45, unsafe): Pawn execution: one command for each instruction, and what an invocation captures.
DESIGN CHOICE (log 47, unsafe): Pawn timers.
DESIGN CHOICE (log 100, unsafe): Pawn faults: where and when they are recorded.
DESIGN CHOICE (log 117, unsafe): the hold of the Pawn engines while signals are copied.
-/

namespace Sys2Proof.Machine

/-- The dispatcher holds engine n (R295): in the step SNAPSHOT of a re-integration (R388) the engines are held one after another, in
ascending order, each for 5 microseconds and between two invocations. -/
def Chip.pawnHeld (c : Chip) (n : Nat) : Bool :=
  c.plState c.partner = 5 && decide ((c.now - c.adj.stepFrom) / (5 * fsUs) = n) && (c.invOf n).isNone

/-- An engine may take a request of a program (R292, R294, R295): idle, enabled, not held, admitted by AFFINITY. -/
def Chip.engineFor (c : Chip) (r : PawnReq) (n : Nat) : Bool :=
  let aff := fld (c.progWord r.epoch r.prog 0) 15 0
  (c.invOf n).isNone && !c.pawnHeld n && c.bitOf (Reg.PAWN.ENG_CTRL n) 0 && (aff = 0 || natBits aff n n = 1)

/-- The engine that would take a request: none while the same program runs (R292). -/
def Chip.dispatchTo (c : Chip) (r : PawnReq) : Option Nat :=
  if c.pawn.run.any (fun e => e.2.prog = r.prog) then none else (List.range 16).find? fun n => c.engineFor r n

/-- PRIO of a request's program. -/
def Chip.reqPrio (c : Chip) (r : PawnReq) : Nat := fld (c.progWord r.epoch r.prog 0) 60 59

/-- The oldest of the requests of highest PRIO, with its place in the queue and its engine. -/
def bestReq (c : Chip) : List PawnReq → Nat → Option (Nat × PawnReq × Nat)
  | [], _ => none
  | r :: rest, i =>
    match c.dispatchTo r, bestReq c rest (i + 1) with
    | some n, some b => if c.reqPrio r < c.reqPrio b.2.1 then some b else some (i, r, n)
    | some n, none => some (i, r, n)
    | none, b => b

/-- An invocation as it begins (R282, R290). -/
def Chip.newInvocation (c : Chip) (r : PawnReq) : Invocation :=
  let w0 := c.progWord r.epoch r.prog 0
  let w1 := c.progWord r.epoch r.prog 1
  let b := fld w0 28 16
  let regs := [(1, r.p1), (2, r.p2), (3, r.p3), (4, r.depth * 2 ^ 16 + r.epoch), (5, r.p5), (6, r.p6)]
  { prog := r.prog, epoch := r.epoch, prio := fld w0 60 59, part := fld w0 62 61, start := fld w0 56 43, len := fld w0 42 29,
    budget := if b = 0 then 512 else Nat.min 4096 b, dbase := fld w1 63 49, dlen := fld w1 47 33, depth := r.depth,
    regs := regs.foldl (fun (m : Sparse Word64) kv => sset 0 m kv.1 (BitVec.ofNat 64 kv.2)) [],
    inBuf := r.data, inLen := r.data.length, ecap := r.p3, began := c.ns }

/-- A program's extent or region exceeds its memory (R286). -/
def Chip.progBad (c : Chip) (e p : Nat) : Bool :=
  let w0 := c.progWord e p 0
  let w1 := c.progWord e p 1
  16384 < fld w0 56 43 + fld w0 42 29 || 32768 < fld w1 63 49 + fld w1 47 33

/-- PAWN_DISPATCH (R292): the best request that an idle engine can take starts there; none while an entry into ADJOURNED
runs (R551). -/
def doPawnDispatch (c : Chip) : Chip :=
  if c.power.entering.isSome then c else
  match bestReq c c.pawn.queue 0 with
  | none => c
  | some (i, r, n) =>
    let c1 := { c with pawn := { c.pawn with queue := c.pawn.queue.eraseIdx i } }
    if !c1.progEnabled r.epoch r.prog then c1.inc (Reg.PAWN.DISABLED 0)
    else if c1.progBad r.epoch r.prog then
      (c1.incRaise (Reg.PAWN.PROG_BAD 0) 0x051 3).scoreLog 0x0070 2 0x051 ([BitVec.ofNat 8 n, 0x0C] ++ bytesLE 2 r.prog ++ [0, 0])
    else
      let v := c1.newInvocation r
      (c1.setInv n v).setReg (Reg.PAWN.ENG_STAT n) (BitVec.ofNat 32 (2 ^ 31 + v.prio * 2 ^ 28 + v.prog * 2 ^ 16 + v.epoch % 2 ^ 16))

/-- The effect of KICK (R294). -/
def Chip.pawnKick (c : Chip) (n : Nat) (v : Word) : Chip :=
  let p := fld v 9 0
  let own := c.owner (pPawn n)
  let stat (c : Chip) (x : Nat) : Chip := c.setReg (Reg.PAWN.KICK_STAT n) (BitVec.ofNat 32 (2 ^ 31 + x))
  if fld (c.progWord c.epoch p 0) 62 61 ≠ own then (stat c 1).raise (pPawn n) 2
  else
    let r : PawnReq := { prog := p, event := 5, epoch := c.epoch, p1 := 5 * 2 ^ 56 + own * 2 ^ 16, p2 := c.ns, p3 := c.ns,
                         p5 := (c.reg (Reg.PAWN.KICK_ARG_HI n)).toNat * 2 ^ 32 + (c.reg (Reg.PAWN.KICK_ARG_LO n)).toNat }
    stat (c.pawnRequest r) (c.requestFate r)

/-- PAWN_KICK (R294): partition k writes KICK of engine n's page. -/
def doPawnKick (k n : Nat) (v : Word) (c : Chip) : Chip :=
  if 16 ≤ n then c else
  c.blockWrite k (Reg.PAWN.KICK n) v 0xFFFFFFFF fun c => c.pawnKick n v

/-- PAWN_TIMER_EXPIRY (R318, R319): a running timer reaches NEXT. -/
def doPawnTimerExpiry (j : Nat) (c : Chip) : Chip :=
  let w0 := c.tword (timerOff j)
  let w1 := c.tword (timerOff j + 8)
  let next := fld w1 55 0
  if decide (4096 ≤ j) || !bit w1 63 || c.ns < next * 10000 then c else
  let p := fld w0 47 24
  let others := if p = 0 then 0 else (c.ns / 10000 - next) / p
  let c1 := if p = 0 then c.timerStop j else c.timerRun j (next + (others + 1) * p)
  let mine (r : PawnReq) : Bool := decide (r.timer = some j)
  let merged := c1.pawn.queue.map fun r => if mine r then { r with p5 := r.p5 + others + 1 } else r
  if c1.pawn.queue.any mine then
    Chip.incRaise { c1 with pawn := { c1.pawn with queue := merged } } (Reg.PAWN.TIMER_MISS 0) 0x051 5
  else c1.pawnRequest { prog := fld w0 57 48, event := 2, epoch := c1.epoch, p1 := 2 * 2 ^ 56 + j, p2 := next * 10000,
                        p3 := next * 10000, p5 := others, timer := some j }

/-- A timer entry has been committed (R318). -/
def Chip.timerCommit (c : Chip) (j : Nat) (old : Word64) : Chip :=
  let w := c.tword (timerOff j)
  if bit w 63 then
    (if !bit old 63 || fld old 47 0 ≠ fld w 47 0 then c.timerRun j (nextAligned w c.ns) else c)
  else if bit old 63 then c.timerStop j else c

/-- BUDGET_EXHAUSTED (R297): engine n would issue an instruction beyond its budget. -/
def doBudgetExhausted (n : Nat) (c : Chip) : Chip :=
  match c.invOf n with
  | none => c
  | some v => if v.budget ≤ v.issued then c.pawnFault n v fltBudget 0 else c

/-- ILLEGAL_INSTRUCTION (R302): the next instruction of engine n is illegal, or lies beyond the program, or cannot be read. -/
def doIllegalInstruction (n : Nat) (c : Chip) : Chip :=
  match c.invOf n with
  | none => c
  | some v =>
    if v.budget ≤ v.issued then c
    else if v.len ≤ v.pc then c.pawnFault n v fltNoEnd 0
    else c.pawnRead n v 8 ((v.start + v.pc) / 2) fun c =>
      if c.legal v.epoch (c.nextInsn v) then c else c.pawnFault n v fltIllegal 0

/-- The extent of a program that is VALID in a live epoch covers an instruction of a code word (R284). -/
def Chip.codeBusy (c : Chip) (word : Nat) : Bool :=
  let covers (w0 : Word64) : Bool :=
    bit w0 63 && fld w0 42 29 != 0 && decide (fld w0 56 43 ≤ 2 * word + 1) && decide (2 * word < fld w0 56 43 + fld w0 42 29)
  let lo := (pawnBase + 0x1_0000) / 8
  let mine (k : Nat) : Bool := decide (lo ≤ k) && decide (k < lo + 2048) && (k - lo) % 2 = 0
  c.tbl.any (fun e => mine e.1 && covers e.2) || c.ep.oldTbl.any (fun e => mine e.1 && covers e.2)

/-- A refused write of an instruction word (R284). -/
def Chip.codeRefuse (c : Chip) : Chip := (c.incRaise (Reg.PAWN.CODE_BUSY 0) 0x051 6).setErr 0x051 7

end Sys2Proof.Machine
end

