-- ==== Sys2Proof/Machine/Tempo.lean ====
section
/-! DEFINITION. Chapter 3: the time base, its rate and states, steps, gPTP and the alarms. -/

/-
MARKS of the model choices coded here; the log rows say each in full.
DEDUCED (log 23, unsafe): the servo: its rate stays within SLEW_MAX, the value it chooses is an operand.
DESIGN CHOICE (log 24, unsafe): gPTP: who chooses the roles, and the receipt timeout.
DESIGN CHOICE (log 25, unsafe): Tempo across resets and sleep.
DESIGN CHOICE (log 53, unsafe): when a transaction command is late, and what its bits must be.
DESIGN CHOICE (log 91, unsafe): Tempo: RATE_LO, the start of ERR_EST, and when REF10_OK is set.
PRESUMED (log 123, unsafe): gPTP: the comparison of masters.
-/

namespace Sys2Proof.Machine

/-- The nominal increment in units of 2^-48 ns (R66), and 500 parts per million of it (R67). -/
def nominalRate : Nat := 0xA000_0000_0000
def rateLimit : Nat := nominalRate * 500 / 1000000

/-- An increment takes effect, clamped (R67). -/
def Chip.setRate (c : Chip) (r : Nat) : Chip :=
  let v := clampNat (nominalRate - rateLimit) (nominalRate + rateLimit) r
  let c1 := (((c.tempoMark.setReg Reg.TEMPO.RATE_LO (BitVec.ofNat 32 v)).setFldOf Reg.TEMPO.RATE_HI 15 0 (v / 2 ^ 32)).setBitOf
    Reg.TEMPO.STATE 2 (v ≠ r))
  if v = r then c1 else c1.raise 0x010 3

/-- SERVO_EN: the Arbiter's servo owns the rate word. -/
def Chip.servoOn (c : Chip) : Bool := c.bitOf Reg.TEMPO.CTRL 0

/-- SLEW_MAX in parts per million (R71). -/
def Chip.slewMax (c : Chip) : Nat := clampNat 1 500 (c.fldOf Reg.TEMPO.SLEW_MAX 9 0)

/-- A rate of the servo, which stays within SLEW_MAX of nominal (R71). -/
def Chip.servoRate (c : Chip) (r : Nat) : Chip :=
  let lim := nominalRate * c.slewMax / 1000000
  c.setRate (clampNat (nominalRate - lim) (nominalRate + lim) r)

/-- RATE_HI_WRITE (R67): partition k (0-3) commits the rate with the RATE_LO it wrote last; the servo (k = 4) writes both
words. -/
def doRateHiWrite (k : Nat) (hi lo : Word) (be : Nat) (c : Chip) : Chip :=
  if k = 4 then (if c.servoOn && c.arbRunning then c.servoRate (fld hi 15 0 * 2 ^ 32 + lo.toNat) else c)
  else
    c.blockWrite k Reg.TEMPO.RATE_HI hi (beMask be) fun c =>
      if c.servoOn then c
      else
        let h := (c.reg Reg.TEMPO.RATE_HI &&& ~~~ beMask be) ||| (hi &&& beMask be)
        c.setRate (fld h 15 0 * 2 ^ 32 + c.tempo.rateLoNext.toNat)

/-- A host's write of RATE_LO waits for RATE_HI (R67). -/
def Chip.rateLoWrite (c : Chip) (v mask : Word) : Chip :=
  if c.servoOn then c
  else { c with tempo := { c.tempo with rateLoNext := (c.tempo.rateLoNext &&& ~~~ mask) ||| (v &&& mask) } }

/-- The latches of CAPTURE (R68). -/
def Chip.capture (c : Chip) : Chip :=
  (((c.setReg Reg.TEMPO.NOW_FRAC (BitVec.ofNat 32 (natBits c.tempo.value 47 32))).setReg Reg.TEMPO.NOW_LO
    (BitVec.ofNat 32 c.ns)).setReg Reg.TEMPO.NOW_HI (BitVec.ofNat 32 (c.ns / 2 ^ 32))).setFldOf Reg.TEMPO.STATE 9 8 c.tempoState

/-- CAPTURE (R68): partition k writes 1. -/
def doCapture (k : Nat) (v : Word) (c : Chip) : Chip :=
  c.blockWrite k Reg.TEMPO.CAPTURE v 0xFFFFFFFF fun c => if bit v 0 then c.capture else c

/-- Tempo takes a state (R72): 0 FREE, 1 HOLDOVER, 2 LOCKED. -/
def Chip.setTempoState (c : Chip) (s : Nat) : Chip :=
  if c.tempoState = s then c else (c.tempoMark.setFldOf Reg.TEMPO.STATE 1 0 s).raise 0x010 0

/-- The lock count. -/
def Chip.setLock (c : Chip) (n : Nat) : Chip := { c with tempo := { c.tempo with lockCount := n } }

/-- What the core PLL follows (R74): in HOLDOVER the 10 MHz input where HOLD_SRC selects it and it is present, otherwise REFCLK. -/
def Chip.steer (c : Chip) : Chip :=
  let ref := c.tempoState = 1 && c.fldOf Reg.TEMPO.CTRL 5 4 = 1 && c.bitOf Reg.TEMPO.STATE 3
  if c.tempo.ref10 = ref then c
  else Chip.emit { c with tempo := { c.tempo with ref10 := ref } } { kind := .clock, unit := 2, arg := if ref then 1 else 0 }

/-- LOCKED passes to HOLDOVER (R72): ERR_EST grows from where it stands. -/
def Chip.toHoldover (c : Chip) : Chip :=
  let c1 := { c with tempo := { c.tempo with lockCount := 0, holdErr := (c.reg Reg.TEMPO.ERR_EST).toNat * 10 ^ 15 } }
  (c1.setTempoState 1).steer

/-- Tempo enters FREE (R72): ERR_EST reads all ones. -/
def Chip.toFree (c : Chip) (alarm : Bool) : Chip :=
  let c1 := (((c.setLock 0).setReg Reg.TEMPO.ERR_EST 0xFFFFFFFF).setTempoState 0).steer
  if alarm then c1.setAlarm 5 else c1

/-- A pending commit whose target Tempo has reached has reached it for good (R77). -/
def Chip.reachTargets (c : Chip) : Chip :=
  (List.range 5).foldl (fun (c : Chip) k =>
    if (c.txn k).state = 2 && ((c.txn k).mode ≠ 1 || (c.txn k).left = 0) && decide ((c.txn k).target ≤ c.ns) then c.setTxn k { c.txn k with reached := true } else c) c

/-- Tempo has jumped over the target of a pending commit: its switch falls after the target (R410). -/
def Chip.passTargets (c : Chip) : Chip :=
  (List.range 5).foldl (fun (c : Chip) k =>
    let t := c.txn k
    if t.state = 2 && t.mode = 2 && !t.reached && decide (t.target < c.ns) then c.setTxn k { t with late := true } else c) c

/-- TEMPO_STEP (R71, R76, R78): Tempo changes by d nanoseconds, all work on Tempo follows (R158, R234, R239, R255). -/
def Chip.tempoStep (c0 : Chip) (d : Int) (fraction : Bool) : Chip :=
  let c := c0.reachTargets.tempoMark
  let m : Int := (2 ^ 112 : Nat)
  let base : Int := if fraction then (c.tempo.value : Int) else (c.ns * 2 ^ 48 : Nat)
  let v := ((base + d * (2 ^ 48 : Nat)) % m).toNat
  let c1 := Chip.passTargets { c with tempo := { c.tempo with value := v } }
  let b : Word64 := BitVec.ofInt 64 d
  let c2 := ((c1.setReg Reg.TEMPO.STEP_LAST_LO (BitVec.ofNat 32 b.toNat)).setReg Reg.TEMPO.STEP_LAST_HI
    (BitVec.ofNat 32 (b.toNat / 2 ^ 32))).raise 0x010 1
  let eth' := smap {} (fun _ (e : EthSq) => { e with run := e.run.map fun r => r.step d }) c2.eth
  let gates' := c2.pol.gates.map fun (g : Nat × GateRun) => (g.1, g.2.step d)
  let can' := if d < 0 then smap {} (fun q (s : CanSq) => { s with syncNext := c2.tsMultiple q c2.ns }) c2.can else c2.can
  let c3 := { c2 with eth := eth', pol := { c2.pol with gates := gates' }, can := can' }
  c3.guardStep.signalStep

/-- |OFFSET| in nanoseconds, saturating. -/
def absNs (i : Int) : Nat := absSat i

/-- RECEIPT_TO sync intervals in femtoseconds (R69). -/
def Chip.syncInterval (c : Chip) : Nat :=
  let l := c.fldOf Reg.TEMPO.GPTP_CFG 15 12
  fsSec / 2 ^ (if l = 0 then 0 else if l < 8 then 0 else Nat.min 7 (16 - l))
def Chip.receiptTimeout (c : Chip) : Nat := Nat.max 1 (c.fldOf Reg.TEMPO.GPTP_CFG 19 16) * c.syncInterval

/-- A square is an enabled gPTP port (R69). -/
def Chip.gptpPort (c : Chip) (q : Nat) : Bool := 40 ≤ q && q < 64 && c.bitOf Reg.TEMPO.GPTP_PORTS (q - 40)

/-- The servo's reaction to an offset (R71-R73). A Sync that comes after a silence of the receipt timeout is the first of a new
count; in LOCKED the loss decides the next state. -/
def Chip.servoSync (c : Chip) (off : Int) (lost : Bool) : Chip :=
  let a := absNs off
  let thr := c.fldOf Reg.TEMPO.LOCK_CFG 15 0
  let need := Nat.max 1 (c.fldOf Reg.TEMPO.LOCK_CFG 23 16)
  if c.tempoState = 2 then
    (if lost then c.toHoldover
     else
       let c1 := c.setReg Reg.TEMPO.ERR_EST (sat32 a)
       if (c.reg Reg.TEMPO.UNLOCK_THRESH).toNat < a then c1.toHoldover else c1)
  else if c.bitOf Reg.TEMPO.CTRL 1 && (c.reg Reg.TEMPO.STEP_THRESH).toNat < a then (c.setLock 0).tempoStep (-off) true
  else if thr < a then c.setLock 0
  else
    let n := if lost then 1 else c.tempo.lockCount + 1
    if need ≤ n then (((c.setLock 0).setReg Reg.TEMPO.ERR_EST (sat32 a)).setTempoState 2).steer else c.setLock n

/-- The best master clock algorithm names port q the slave port for a priority vector (R69): no enabled port has announced a better
one within the receipt timeout, a port with a lower number winning a tie, and the part itself has no better priority1. -/
def Chip.bestPort (c : Chip) (q rank : Nat) : Bool :=
  let own := c.fldOf Reg.TEMPO.GPTP_CFG 27 20
  (own = 255 || rank / 2 ^ 104 ≤ own) &&
    c.tempo.ranks.all fun (e : Nat × Nat × Nat) =>
      e.1 = q || !c.gptpPort e.1 || decide (e.2.2 + c.receiptTimeout ≤ c.now) || decide (rank < e.2.1) || (rank = e.2.1 && decide (q < e.1))

/-- A message of the configured domain at an enabled port (R69). -/
def Chip.syncHeard (c : Chip) (q : Nat) (m : SyncMsg) : Bool :=
  c.gptpPort q && decide (m.domain = c.fldOf Reg.TEMPO.GPTP_CFG 7 0)

/-- A Sync counts at a port (R69): the port is enabled, the domain is the configured one, and the port is the slave port: the
one that the best master clock algorithm names, or under EXT_CFG the fixed one. -/
def Chip.syncCounts (c : Chip) (q : Nat) (m : SyncMsg) : Bool :=
  c.syncHeard q m &&
    (if c.bitOf Reg.TEMPO.GPTP_CFG 8 && c.bitOf Reg.TEMPO.SLAVE_PORT 7 then decide (c.fldOf Reg.TEMPO.SLAVE_PORT 5 0 = q)
     else c.bestPort q m.rank)

/-- The mean link delay of a port (R69): as the peer-to-peer delay mechanism last measured it; on file f against the node that
GPTP_T1S_PEER names only. -/
def Chip.linkDelay (c : Chip) (q : Nat) (m : SyncMsg) : Nat :=
  match m.pdelay with
  | some (node, d) => if 48 ≤ q || node = c.fldOf Reg.TEMPO.GPTP_T1S_PEER 7 0 then d else sget 0 c.tempo.linkDelay q
  | none => sget 0 c.tempo.linkDelay q

/-- What a message leaves at its port: the announced priority vector and the measured link. -/
def Chip.syncNote (c : Chip) (q : Nat) (m : SyncMsg) : Chip :=
  { c with tempo := { c.tempo with ranks := insertKey c.tempo.ranks q (m.rank, c.now), linkDelay := sset 0 c.tempo.linkDelay q (c.linkDelay q m) } }

/-- OFFSET of a Sync (R69, R72): Tempo at its ingress less its origin time and correction, less the link delay. -/
def Chip.syncOffset (c : Chip) (q : Nat) (m : SyncMsg) (raw : Int) : Int := raw - (c.linkDelay q m : Nat)

/-- SYNC_RECEIVED (R72): a Sync at port q with Tempo at its ingress less its origin time and correction, in nanoseconds. A Sync that
comes after the receipt timeout has passed meets the loss first (R73). -/
def doSyncReceived (q : Nat) (m : SyncMsg) (raw : Int) (c0 : Chip) : Chip :=
  if !c0.syncHeard q m || !c0.arbRunning then c0 else
  let off := c0.syncOffset q m raw
  let c := c0.syncNote q m
  if !c0.syncCounts q m then c else
  let lost := decide (c.tempo.lastSync + c.receiptTimeout ≤ c.now)
  let c1 := (((c.setReg Reg.TEMPO.OFFSET (satSigned32 off)).setReg Reg.TEMPO.GM_ID_LO (BitVec.ofNat 32 m.gm)).setReg
    Reg.TEMPO.GM_ID_HI (BitVec.ofNat 32 (m.gm / 2 ^ 32))).setReg Reg.TEMPO.SLAVE_PORT (BitVec.ofNat 32 (2 ^ 7 + q))
  let c2 := { c1 with tempo := { c1.tempo with lastSync := c1.now } }
  if c2.servoOn then c2.servoSync off lost else c2

/-- SYNC_RECEIPT_TIMEOUT (R72). -/
def doSyncReceiptTimeout (c : Chip) : Chip :=
  if c.tempoState ≠ 2 || c.now < c.tempo.lastSync + c.receiptTimeout then c else c.toHoldover

/-- HOLDOVER_EXPIRY (R72): ERR_EST exceeds HOLD_ERR_MAX. -/
def doHoldoverExpiry (c : Chip) : Chip :=
  if c.tempoState ≠ 1 || (c.reg Reg.TEMPO.ERR_EST).toNat ≤ (c.reg Reg.TEMPO.HOLD_ERR_MAX).toNat then c else c.toFree true

/-- HOLD_CFG_WRITE (R602): partition k writes HOLD_CFG, or with `max` HOLD_ERR_MAX; ERR_EST keeps the value it has
reached, and Tempo leaves HOLDOVER if that is beyond the limit. -/
def doHoldCfgWrite (k : Nat) (max : Bool) (v : Word) (be : Nat) (c : Chip) : Chip :=
  let a := if max then Reg.TEMPO.HOLD_ERR_MAX else Reg.TEMPO.HOLD_CFG
  c.blockWrite k a v (beMask be) fun c => doHoldoverExpiry (c.plainWrite a v (beMask be))

/-- The effect of a CTRL value (R72, R74, R603). DESIGN CHOICE (log 91): when STATE.REF10_OK becomes 1 is left open; here a write
of CTRL says with `present` whether the 10 MHz input is there, and nothing else sets the bit. -/
def Chip.tempoCtrl (c : Chip) (v mask : Word) (present : Bool) : Chip :=
  let was := c.servoOn
  let c1 := ((c.plainWrite Reg.TEMPO.CTRL v mask).setBitOf Reg.TEMPO.STATE 3 present).steer
  if was && !c1.servoOn then (if c1.tempoState = 2 then c1.toHoldover else c1.setLock 0)
  else if !was && c1.servoOn then c1.setLock 0 else c1

/-- TEMPO_CTRL_WRITE (R603): partition k writes TEMPO.CTRL. -/
def doTempoCtrlWrite (k : Nat) (v : Word) (be : Nat) (present : Bool) (c : Chip) : Chip :=
  c.blockWrite k Reg.TEMPO.CTRL v (beMask be) fun c => c.tempoCtrl v (beMask be) present

/-- The effect of SET_GO (R78). -/
def Chip.setGo (c : Chip) (v : Word) : Chip :=
  if fld v 15 0 ≠ 0x5345 || c.servoOn then c
  else
    let t : Nat := (c.reg Reg.TEMPO.SET_HI).toNat * 2 ^ 32 + (c.reg Reg.TEMPO.SET_LO).toNat
    (c.tempoStep (Int.ofNat t - Int.ofNat c.ns) false).toFree false

/-- SET_GO (R78): partition k sets Tempo. -/
def doSetGo (k : Nat) (v : Word) (c : Chip) : Chip :=
  c.blockWrite k Reg.TEMPO.SET_GO v 0xFFFFFFFF fun c => c.setGo v

/-- REF10_LOSS (R74): the 10 MHz input is lost. -/
def doRef10Loss (c : Chip) : Chip :=
  let c1 := (c.setBitOf Reg.TEMPO.STATE 3 false).steer
  if c.fldOf Reg.TEMPO.CTRL 5 4 ≠ 1 then c1
  else doHoldoverExpiry ((c1.setFldOf Reg.TEMPO.HOLD_CFG 15 0 500).raise 0x010 4)

/-- GPTP_SYNC_RELAY (R70): a Sync with its Follow_Up leaves on port q. `corr` is the received correctionField (2^-16 ns),
`rin` and `rout` the ingress and egress timestamps, `ratio` the cumulative rate ratio offset in units of 2^-41. -/
def doGptpSyncRelay (q : Nat) (corr : Int) (rin rout : Nat) (ratio : Int) (c : Chip) : Chip :=
  if !c.gptpPort q || c.reg Reg.TEMPO.SLAVE_PORT = BitVec.ofNat 32 (2 ^ 7 + q) || !c.arbRunning then c
  else if 10 * 10 ^ 6 < rout - rin then c.incRaise Reg.TEMPO.RES_DROP 0x010 2
  else
    let res : Int := ((rout - rin : Nat) : Int) * (((2 ^ 41 : Nat) : Int) + ratio) * (2 ^ 16 : Nat) / (2 ^ 41 : Nat)
    c.emit { kind := .gptp, unit := q, arg := 1, data := bytesBE 8 (BitVec.ofInt 64 (corr + res)).toNat }

/-- The NG6400 is the grandmaster (R69): PRIORITY1 is below 255, and no other master's Sync has come to a slave port within the
receipt timeout. -/
def Chip.grandmaster (c : Chip) : Bool :=
  c.fldOf Reg.TEMPO.GPTP_CFG 27 20 != 255 && (!c.bitOf Reg.TEMPO.SLAVE_PORT 7 || decide (c.tempo.lastSync + c.receiptTimeout ≤ c.now))

/-- GPTP_SYNC_TRANSMIT (R69): as grandmaster, a two-step Sync of the domain every sync interval on a master port, with its
egress stamp (R79, R134). Under EXT_CFG the fixed slave port is no master port. -/
def doGptpSyncTransmit (q : Nat) (c : Chip) : Chip :=
  let due := match lookupKey c.tempo.syncTx q with | none => 0 | some t => t + c.syncInterval
  let fixed := c.bitOf Reg.TEMPO.GPTP_CFG 8 && c.reg Reg.TEMPO.SLAVE_PORT = BitVec.ofNat 32 (2 ^ 7 + q)
  if !c.gptpPort q || !c.grandmaster || fixed || !c.arbRunning || c.now < due then c
  else
    let t := c.txStamp q
    Chip.emit { c with tempo := { c.tempo with syncTx := insertKey c.tempo.syncTx q c.now } }
      { kind := .gptp, unit := q, arg := 0,
        data := [BitVec.ofNat 8 (c.fldOf Reg.TEMPO.GPTP_CFG 7 0)] ++ bytesBE 6 (t / 10 ^ 9) ++ bytesBE 4 (t % 10 ^ 9) }

/-- The effect of ALM_CTRL(i) (R80). -/
def Chip.almCtrl (c : Chip) (i : Nat) (v mask : Word) : Chip :=
  let c1 := c.plainWrite (Reg.TEMPO.ALM_CTRL i) v mask
  let t := (c.reg (Reg.TEMPO.ALM_HI i)).toNat * 2 ^ 32 + (c.reg (Reg.TEMPO.ALM_LO i)).toNat
  let a := if bit v 0 then insertKey c1.tempo.alarmTarget i t else eraseKey c1.tempo.alarmTarget i
  if bit mask 0 then { c1 with tempo := { c1.tempo with alarmTarget := a } } else c1

/-- ALM_CTRL_WRITE (R80): partition k writes ALM_CTRL(i). -/
def doAlmCtrlWrite (k i : Nat) (v : Word) (be : Nat) (c : Chip) : Chip :=
  if 16 ≤ i then c else
  c.blockWrite k (Reg.TEMPO.ALM_CTRL i) v (beMask be) fun c => c.almCtrl i v (beMask be)

/-- An alarm whose target has been reached (R77, R80): raised, re-armed by ALM_PER or disarmed. -/
def Chip.alarmFires (c : Chip) (i t : Nat) : Chip :=
  let per := (c.reg (Reg.TEMPO.ALM_PER i)).toNat
  let c1 := c.raise 0x010 (5 + i)
  if per = 0 then
    Chip.setBitOf { c1 with tempo := { c1.tempo with alarmTarget := eraseKey c1.tempo.alarmTarget i } } (Reg.TEMPO.ALM_CTRL i) 0 false
  else { c1 with tempo := { c1.tempo with alarmTarget := insertKey c1.tempo.alarmTarget i (t + per) } }

/-- Ticks since the latch, up to an always-on count of 48 bits. -/
def Chip.aoTicks (c : Chip) (tick : Nat) : Nat := (tick + 2 ^ 48 - c.tempo.entryAo % 2 ^ 48) % 2 ^ 48

/-- Tempo at an always-on tick (R81), in units of 2^-48 ns; a tick is 30,517.578125 ns. A tick recorded before the latch lies that
far before it. -/
def Chip.aoTempo (c : Chip) (tick : Nat) : Nat :=
  let since : Int := if c.aoTicks tick < 2 ^ 47 then (c.aoTicks tick : Int) else (c.aoTicks tick : Int) - 2 ^ 48
  let cal : Int := 1000000000 - c.tempo.entryCal.toInt
  ((c.tempo.entryTempo : Int) + since * (1953125 * 2 ^ 42) * cal / 1000000000).toNat % 2 ^ 112

end Sys2Proof.Machine
end

