-- ==== Sys2Proof/Machine/CastleOps.lean ====
section
/-! DEFINITION. Chapter 15, what the Castle's commands, tamper and start-up share: slots and their attributes, blobs,
generations and orphans, regeneration of the Device Root, and RESIGN. -/

/-
MARKS of the model choices coded here; the log rows say each in full.
DESIGN CHOICE (log 6, safe): free values come from an opaque function of a counter in State.
DESIGN CHOICE (log 56, unsafe): Castle commands compute at once and end with CASTLE_COMMAND_DONE.
DESIGN CHOICE (log 57, unsafe): which error a Castle command reports where several apply.
DESIGN CHOICE (log 58, unsafe): generations of an Ed448 pair; the generation table.
DESIGN CHOICE (log 59, unsafe): ROOT_RETRY, autoload and the log of a failed autoload.
DESIGN CHOICE (log 60, unsafe): tamper responses.
DESIGN CHOICE (log 86, unsafe): the fuse counters of RESIGN.
-/

namespace Sys2Proof.Machine

/-- An ASCII label (R421). -/
def ascii (s : String) : List Byte := s.toList.map fun ch => BitVec.ofNat 8 ch.toNat

/-- The Castle replaced. -/
def Chip.setCastle (c : Chip) (k : CastleState) : Chip := { c with castle := k }

/-- STATE.ROOT (R443): 0 EMPTY, 1 REGENERATING, 2 READY, 3 FAILED, 4 RESIGNED. -/
def Chip.rootState (c : Chip) : Nat := c.fldOf Reg.CASTLE.STATE 2 0
def Chip.rootReady (c : Chip) : Bool := c.rootState = 2
def Chip.setRoot (c : Chip) (s : Nat) : Chip := c.setFldOf Reg.CASTLE.STATE 2 0 s

/-- The sleep hold of R438. -/
def Chip.sleepHold (c : Chip) : Bool := c.bitOf Reg.CASTLE.STATE 9

/-- n fresh random bytes: their value is not stated. -/
def Chip.fresh? (c : Chip) (n : Nat) : List Byte × Chip := (bytesLE n (Config.freeValue c.free), c.advanceFree)

/-- A slot's record, its generation, and the key it holds (R424, R432). -/
def Chip.slot? (c : Chip) (n : Nat) : Option KeySlot := lookupKey c.castle.slots n
def Chip.slotGen (c : Chip) (n : Nat) : Nat := sget 0 c.castle.gens n
def KeySlot.key (s : KeySlot) : List Byte := (s.mask.zip s.masked).map fun p => p.1 ^^^ p.2

/-- The key of slot n, of both slots for an Ed448 pair. -/
def Chip.slotKey (c : Chip) (n : Nat) : List Byte :=
  match c.slot? n with
  | none => []
  | some s => if s.ktype = 3 then s.key ++ (match c.slot? (n + 1) with | some t => t.key | none => []) else s.key

/-- Key types (R426): key length and permitted USAGE bits. -/
def keyLen (t : Nat) : Nat := [0, 16, 32, 57, 32, 32].getD t 0
def usageMask (t : Nat) : Nat := [0, 0x4F, 0x4F, 0x10, 0x20, 0x1C0].getD t 0

/-- The slots that the content of slot n occupies: itself, or the pair it belongs to. -/
def Chip.pairOf (c : Chip) (n : Nat) : List Nat :=
  match c.slot? n with
  | none => [n]
  | some s => if s.ktype ≠ 3 then [n] else if s.second then [n - 1, n] else [n, n + 1]

/-- Jobs that name a slot and wait for a core fail with a status (R434). -/
def Chip.failJobs (c : Chip) (ns : List Nat) (code : Nat) : Chip :=
  { c with cx := { c.cx with jobs := c.cx.jobs.map fun (j : CxJob) =>
      if !j.running && j.fail = 0 && j.usesKey && ns.contains j.slot then { j with fail := code } else j } }

/-- The copies of keys outside the Castle go with their slots (R463, R512): SAs and the keys of the Benolsia engine. -/
def Chip.revokeKeys (c : Chip) (gone : Nat → Bool) : Chip :=
  let squares := ((c.sas.filter fun (e : Nat × SaInst) => gone e.2.slot).map fun (e : Nat × SaInst) => e.1 / 128).eraseDups
  let c1 := { c with sas := c.sas.filter fun (e : Nat × SaInst) => !gone e.2.slot }
  let c2 := squares.foldl (fun (c : Chip) q => c.raise (pSec q) 1) c1
  let bnl := c2.host.bnlKeys.filter fun (e : Nat × SaInst) => !gone e.2.slot
  if bnl.length = c2.host.bnlKeys.length then c2
  else Chip.raise { c2 with host := { c2.host with bnlKeys := bnl } } 0x0B1 0

/-- Slots are emptied: queued jobs fail with a status, and copies of the keys are removed. -/
def Chip.clearSlots (c : Chip) (ns : List Nat) (code : Nat) : Chip :=
  let loaded := ns.filter fun n => (c.slot? n).isSome
  if loaded.isEmpty then c else
  let c1 := c.setCastle { c.castle with slots := loaded.foldl (fun (m : Sparse KeySlot) n => eraseKey m n) c.castle.slots }
  (c1.failJobs loaded code).revokeKeys fun n => loaded.contains n

/-- One masked slot (R432). -/
def Chip.putSlot (c : Chip) (n : Nat) (s : KeySlot) (key : List Byte) : Chip :=
  let r := c.fresh? key.length
  r.2.setCastle { r.2.castle with
    slots := insertKey r.2.castle.slots n { s with mask := r.1, masked := (r.1.zip key).map (fun p => p.1 ^^^ p.2), maskAt := c.now },
    orphaned := sset false r.2.castle.orphaned n false }

/-- A key is stored, an Ed448 key in two slots (R423). -/
def Chip.storeKey (c : Chip) (n : Nat) (s : KeySlot) (key : List Byte) : Chip :=
  if s.ktype = 3 then (c.putSlot n s (key.take 32)).putSlot (n + 1) { s with second := true } (key.drop 32)
  else c.putSlot n s key

/-- The header of a blob (R425). -/
structure BlobHeader where
  ktype : Nat
  len : Nat
  usage : Nat
  owner : Nat
  parent : Nat
  parentGen : Nat
  svn : Nat
  keyId : Nat
  deriving DecidableEq, Repr

def blobHeader (b : List Byte) : BlobHeader :=
  { ktype := leAt b 3 1, len := leAt b 4 2, usage := leAt b 6 2, owner := leAt b 8 1, parent := leAt b 10 2,
    parentGen := leAt b 12 4, svn := leAt b 16 4, keyId := leAt b 20 4 }

/-- The format of a header and the length that came with it (R425, R426): `extra` is what follows the header. -/
def blobFormatOk (b : List Byte) (klen : Nat) (extra : Nat → Nat) : Bool :=
  let h := blobHeader b
  leAt b 0 1 = 0x4B && leAt b 1 1 = 0x42 && leAt b 2 1 = 1 && 1 ≤ h.ktype && h.ktype ≤ 5 &&
    h.len = 52 + keyLen h.ktype && klen = extra h.ktype && h.usage &&& usageMask h.ktype = h.usage && h.owner < 4 &&
    leAt b 9 1 = 0

/-- A slot is valid for a key type (R423): step 3 of R431. -/
def slotValid (n t : Nat) : Bool := 4 ≤ n && n < 1024 && (t ≠ 3 || (n % 2 = 0 && n + 1 < 1024))

/-- The slots that a key of type t in slot n takes or displaces. -/
def Chip.targets (c : Chip) (n t : Nat) : List Nat :=
  ((if t = 3 then [n, n + 1] else [n]).flatMap fun m => c.pairOf m).eraseDups

/-- The parent of a key as a slot: the Storage KEK is slot 2. -/
def parentSlot (p : Nat) : Nat := if p = 0xFFFF then 2 else p

/-- The parent is loaded, a KEK-256 with WRAP, and partition k may use it (step 5 of R431). -/
def Chip.parentOk (c : Chip) (k p : Nat) : Bool :=
  if p = 0xFFFF then (c.slot? 2).isSome
  else 4 ≤ p && p < 1024 &&
    (match c.slot? p with
     | none => false
     | some s => s.ktype = 4 && s.owner = k && natBits s.usage 5 5 = 1)

/-- Steps 1 to 7 of R431, each with its result (R428). -/
def Chip.loadCheck (c : Chip) (k n : Nat) (b : List Byte) (klen : Nat) (extra : Nat → Nat) : Nat :=
  let h := blobHeader b
  if !c.rootReady then 0xC
  else if c.sleepHold then 0xD
  else if !blobFormatOk b klen extra then 0x4
  else if !slotValid n h.ktype then 0xA
  else if h.owner ≠ k || (c.targets n h.ktype).any (fun m => match c.slot? m with | some s => decide (s.owner ≠ k) | none => false) then 0x5
  else if !c.parentOk k h.parent then 0x6
  else if h.parentGen ≠ (if h.parent = 0xFFFF then 0 else c.slotGen h.parent) then 0x7
  else if h.svn < (c.reg (Reg.CASTLE.MIN_SVN k)).toNat then 0x9
  else 1

/-- A key with a checked header goes into its slot, replacing what was there as by UNLOAD. -/
def Chip.install (c : Chip) (n : Nat) (b : List Byte) (key : List Byte) : Chip :=
  let h := blobHeader b
  (c.clearSlots (c.targets n h.ktype) 3).storeKey n
    { mask := [], masked := [], owner := h.owner, ktype := h.ktype, usage := h.usage, parent := h.parent,
      parentGen := h.parentGen, svn := h.svn, keyId := h.keyId } key

/-- LOAD of a blob (R431): the result, and the slot loaded if it is OK. -/
def Chip.loadBlob (c : Chip) (k n : Nat) (b : List Byte) (klen : Nat) : Chip × Nat :=
  let r := c.loadCheck k n b klen (fun t => 52 + keyLen t)
  if r ≠ 1 then (c, r) else
  let h := blobHeader b
  let kl := keyLen h.ktype
  let kek := c.slotKey (parentSlot h.parent)
  let iv := bytesAt b 24 12
  let aad := bytesAt b 0 36
  let ct := bytesAt b 36 kl
  if Config.gcmTag kek iv aad ct ≠ bytesAt b (36 + kl) 16 then (c, 0x8)
  else (c.install n b (Config.gcmPlain kek iv aad ct), 1)

/-- A blob of a slot under its parent with a fresh nonce (R425, R428 WRAP). -/
def Chip.blobOf (c : Chip) (n : Nat) : List Byte × Chip :=
  match c.slot? n with
  | none => ([], c)
  | some s =>
    let kl := keyLen s.ktype
    let r := c.fresh? 12
    let hdr : List Byte := [0x4B, 0x42, 1, BitVec.ofNat 8 s.ktype] ++ bytesLE 2 (52 + kl) ++ bytesLE 2 s.usage ++
      [BitVec.ofNat 8 s.owner, 0] ++ bytesLE 2 s.parent ++
      bytesLE 4 (if s.parent = 0xFFFF then 0 else c.slotGen s.parent) ++ bytesLE 4 s.svn ++ bytesLE 4 s.keyId ++ r.1
    let kek := c.slotKey (parentSlot s.parent)
    let ct := Config.gcmCipher kek r.1 hdr (c.slotKey n)
    (hdr ++ ct ++ Config.gcmTag kek r.1 hdr ct, r.2)

/-- A generation rises by one. -/
def Chip.bumpGen (c : Chip) (n : Nat) : Chip :=
  c.setCastle { c.castle with gens := sset 0 c.castle.gens n ((c.slotGen n + 1) % 2 ^ 32), gtDirty := true }

/-- The loaded slots whose parent is p and whose PARENT_GEN is not GEN(p) any more (R429). -/
def Chip.staleChildren (c : Chip) (p : Nat) : List Nat :=
  (c.castle.slots.filter fun (e : Nat × KeySlot) => !e.2.sys && decide (e.2.parent = p) && decide (e.2.parentGen ≠ c.slotGen p)).map (·.1)

/-- The orphaning cascade (R429): children of the erased slots are wiped, their own GEN rises, and so on down. -/
def Chip.orphanAll (c : Chip) (count : Nat) : Nat → List Nat → Chip × Nat
  | 0, _ => (c, count)
  | _, [] => (c, count)
  | fuel + 1, p :: rest =>
    let kids := c.staleChildren p
    let c1 := kids.foldl (fun (c : Chip) n => c.bumpGen n) (c.clearSlots kids 4)
    let c2 := c1.setCastle { c1.castle with orphaned := kids.foldl (fun (m : Sparse Bool) n => sset false m n true) c1.castle.orphaned }
    c2.orphanAll (count + kids.length) fuel (rest ++ kids)

/-- ERASE of slots (R429). -/
def Chip.eraseSlots (c : Chip) (ns : List Nat) : Chip :=
  let c1 := ns.foldl (fun (c : Chip) n => c.bumpGen n) (c.clearSlots ns 3)
  let r := c1.orphanAll 0 2048 ns
  if r.2 = 0 then r.1 else (r.1.addTo Reg.CASTLE.ORPHANS r.2).raise 0x071 8

/-- RESIGN events in the part's life (R443 RESIGN_CNT). -/
def Chip.resignCnt (c : Chip) : Nat := c.otp.resignMark + c.castle.resignPending

/-- The RESIGN latch as a start or wake finds it (R437). -/
def Chip.resignLatched (c : Chip) : Bool := c.castle.aoLatch || c.otp.clearMark < c.otp.resignMark || c.otp.resignPerm

/-- A RESIGN is recorded in OTP (R437). -/
def Chip.fuseResign (c : Chip) : Chip :=
  { c with otp := if 32 ≤ c.otp.resignMark then { c.otp with resignPerm := true } else { c.otp with resignMark := c.otp.resignMark + 1 } }

/-- A new challenge (R441): 16 bytes that the spec does not state. -/
def Chip.drawChal (c : Chip) : Chip :=
  let r := c.fresh? 16
  (List.range 4).foldl (fun (c : Chip) j => c.setReg (Reg.CASTLE.CHAL j) (BitVec.ofNat 32 (leAt r.1 (4 * j) 4))) r.2

/-- The unit's identity registers (R422); zero while ROOT is not READY. -/
def Chip.showId (c : Chip) (pub : List Byte) : Chip :=
  let id := if pub.isEmpty then 0 else leAt (Config.shake256 (ascii "NG6400/UNIT" ++ [0] ++ pub) 8) 0 8
  let c1 := (List.range 15).foldl (fun (c : Chip) j => c.setReg (Reg.CASTLE.ID_PUB j) (BitVec.ofNat 32 (leAt pub (4 * j) 4))) c
  (c1.setReg Reg.CASTLE.UNIT_ID_LO (BitVec.ofNat 32 id)).setReg Reg.CASTLE.UNIT_ID_HI (BitVec.ofNat 32 (id / 2 ^ 32))

/-- The unit ID (R422). -/
def Chip.unitId (c : Chip) : Nat := (c.reg Reg.CASTLE.UNIT_ID_HI).toNat * 2 ^ 32 + (c.reg Reg.CASTLE.UNIT_ID_LO).toNat

/-- A secret derived from the Device Root (R421). -/
def derive (label : String) (root : List Byte) (n : Nat) : List Byte :=
  Config.shake256 (ascii label ++ [0] ++ root) n

/-- The Castle holds nothing: slots, root and identity are gone (R436, R440). -/
def Chip.zeroize (c : Chip) : Chip :=
  let c1 := { c with cx := { c.cx with jobs := c.cx.jobs.map fun (j : CxJob) => { j with fail := 5, out := [], tagOut := [] } } }
  let c2 := (c1.revokeKeys fun _ => true).showId []
  let cmds := c2.castle.cmds.map fun (e : Nat × CastleCmd) => (e.1, { e.2 with result := 0xC, out := none, undo := [] })
  c2.setCastle { c2.castle with slots := [], root := none, cmds := cmds }

/-- The Scoresheet ring is cleared and begins with SCORE_INIT (R436, R482, R493): cause 1 RESIGN, 2 life-cycle
transition. Entries that wait in the queue follow. -/
def Chip.scoreClear (c : Chip) (cause : Nat) : Chip :=
  let init : ScoreEntry := { code := 0x0001, sev := 1, page := 0x091, tempo := c.tempoState, time := c.ns, epoch := c.epoch, detail := [BitVec.ofNat 8 cause] }
  let c1 := { c with score := { c.score with ring := [], queue := init :: c.score.queue } }
  (((c1.setReg Reg.SCORE.WR_IDX 0).setReg Reg.SCORE.LAST_SEQ 0).setReg Reg.SCORE.FLUSHED_SEQ 0).setBitOf Reg.MEM.RET_STAT 0 false

/-- A TAMPER entry (R436, R492): severity 2 for LOG, 3 for ALARM, 4 for RESIGN. -/
def Chip.tamperScore (c : Chip) (s resp phase : Nat) : Chip :=
  c.scoreLog 0x0030 (2 + resp) 0x072 [BitVec.ofNat 8 s, BitVec.ofNat 8 resp, BitVec.ofNat 8 phase]

/-- RESIGN in PLAY or QUIET (R436, R437). -/
def Chip.resign (c : Chip) : Chip :=
  let c1 := (c.zeroize.fuseResign).setRoot 4
  let c2 := c1.setCastle { c1.castle with aoLatch := true, clearMarked := false }
  let c3 := ((c2.setBitOf Reg.CASTLE.STATE 8 true).raise 0x071 10).scoreClear 1
  c3.setAlarm 1

/-- Bytes 0 to 4,127 of the generation table (R430). -/
def genTableBytes (count : Nat) (svn gens : Sparse Nat) (nonce : List Byte) : List Byte :=
  bytesLE 4 count ++ (List.range 4).flatMap (fun k => bytesLE 4 (sget 0 svn k)) ++ nonce ++
    (List.range 1024).flatMap fun n => bytesLE 4 (if n < 4 then 0 else sget 0 gens n)

/-- The TAG of a generation table under the generation-table key of a Device Root (R421, R430). -/
def genTableTag (root : List Byte) (count : Nat) (svn gens : Sparse Nat) (nonce : List Byte) : List Byte :=
  Config.gcmTag (derive "NG6400/GTAB" root 32) nonce (genTableBytes count svn gens nonce) []

/-- The generation table is written to flash under a fresh NONCE (R430): COUNT rises, in the always-on copy too. -/
def Chip.writeGenTable (c : Chip) : Chip :=
  let n := (c.castle.gtCount + 1) % 2 ^ 32
  let svn := (List.range 4).foldl (fun (m : Sparse Nat) k => sset 0 m k (c.reg (Reg.CASTLE.MIN_SVN k)).toNat) []
  let r := c.fresh? 12
  r.2.setCastle { r.2.castle with
    gtCount := n, aoCount := some n, gtGen := c.castle.gens, gtSvn := svn, gtDirty := false,
    gtSeal := some (r.1, genTableTag (c.castle.root.getD []) n svn c.castle.gens r.1) }

/-- The table in flash carries the TAG of its contents under this unit's key (R430). A region that was never written since it was
wiped reads as an empty table. -/
def Chip.genTableGood (c : Chip) : Bool :=
  match c.castle.gtSeal with
  | none => true
  | some (nonce, tag) => tag = genTableTag (c.castle.root.getD []) c.castle.gtCount c.castle.gtSvn c.castle.gtGen nonce

/-- A write of the generation table that waits is made once the Arbiter runs and the table has been read (R430). -/
def Chip.genFlush (c : Chip) : Chip := if c.castle.gtDirty && c.arbRunning && c.rootReady then c.writeGenTable else c

/-- The generation table is read back at a regeneration (R430): accepted unverified where the always-on copy of COUNT is
lost; every value risen by one where the counts differ. DESIGN CHOICE (log 58): a TAG that does not verify counts as a difference. -/
def Chip.readGenTable (c : Chip) : Chip :=
  let load (up : Nat) (c : Chip) : Chip :=
    let gens := if up = 0 then c.castle.gtGen else
      (List.range 1020).foldl (fun (m : Sparse Nat) j => sset 0 m (4 + j) ((sget 0 c.castle.gtGen (4 + j) + up) % 2 ^ 32)) []
    let c1 := c.setCastle { c.castle with gens := gens, gtDirty := up != 0 }
    (List.range 4).foldl (fun (c : Chip) k => c.setReg (Reg.CASTLE.MIN_SVN k) (BitVec.ofNat 32 (sget 0 c.castle.gtSvn k + up))) c1
  match c.castle.aoCount with
  | none =>
    let c1 := ((load 0 c).setBitOf Reg.CASTLE.STATE 10 true).scoreLog 0x0032 3 0x071 []
    c1.setCastle { c1.castle with aoCount := some c1.castle.gtCount }
  | some n => if n = c.castle.gtCount && c.genTableGood then load 0 c else (((load 1 c).setBitOf Reg.CASTLE.STATE 10 true).raise 0x071 11).scoreLog 0x0032 3 0x071 []

/-- One autoload entry is loaded on behalf of its owner (R433): a load that fails is skipped and logged. The spec states
no event code for that log entry. -/
def Chip.autoloadOne (c : Chip) (e : Nat × List Byte) : Chip :=
  let r := c.loadBlob (leAt e.2 8 1 % 4) e.1 e.2 (leAt e.2 4 2)
  if r.2 = 1 then r.1.inc Reg.CASTLE.LOADS
  else
    let c1 := r.1.inc Reg.CASTLE.LOAD_FAILS
    (c1.advanceFree).scoreLog (Config.freeValue c1.free % 2 ^ 16) 2 0x071 (bytesLE 2 e.1 ++ [BitVec.ofNat 8 r.2])

/-- The autoload entries in ascending slot order (R433), or none of them while a sleep hold applies (R438). -/
def Chip.autoloadAll (c : Chip) : Chip :=
  if !c.rootReady then c
  else if c.sleepHold then c.setCastle { c.castle with deferred := !c.castle.autoload.isEmpty }
  else
    let c1 := c.castle.autoload.foldl (fun (c : Chip) (e : Nat × List Byte) => c.autoloadOne e) c
    c1.setCastle { c1.castle with deferred := false }

/-- Root regeneration (R419-R422, R437): skipped with the latch set; `good` says that the helper data's hash and the
extractor's check value hold. ROOT_TIME records how long it took, a failure too. -/
def Chip.regenerate (good : Bool) (c : Chip) : Chip :=
  let c0 := c.setCastle { c.castle with slots := [], root := none, rngBad := false }
  let c1 := (c0.setBitOf Reg.CASTLE.STATE 8 c.resignLatched).showId []
  if c.resignLatched then (c1.setRoot 4).setAlarm 1
  else
  let ct := (c1.advanceFree).setReg Reg.CASTLE.ROOT_TIME (BitVec.ofNat 32 (Config.freeValue c1.free % 3001))
  if !good || c.otp.lc = 4 then ((ct.setRoot 3).raise 0x071 9).scoreLog 0x0031 4 0x071 []
  else
    let root := Config.deviceRoot c.castle.helper
    let id := derive "NG6400/ID" root 57
    let c2 := (ct.setCastle { ct.castle with root := some root }).setRoot 2
    let sysKey (t u : Nat) : KeySlot := { mask := [], masked := [], owner := c.supervisor, ktype := t, usage := u, sys := true }
    let c3 := (c2.storeKey 0 (sysKey 3 0x10) id).storeKey 2 (sysKey 4 0x20) (derive "NG6400/SKEK" root 32)
    (c3.showId (Config.ed448Public id)).readGenTable

end Sys2Proof.Machine
end

