-- ==== Sys2Proof/Machine/Castle.lean ====
section
/-! DEFINITION. Chapter 15, the Castle's commands, re-masking, the random source, the tamper sensors and the sleep
latch. -/

/-
MARKS of the model choices coded here; the log rows say each in full.
DESIGN CHOICE (log 25, unsafe): Tempo across resets and sleep.
DESIGN CHOICE (log 56, unsafe): Castle commands compute at once and end with CASTLE_COMMAND_DONE.
DESIGN CHOICE (log 57, unsafe): which error a Castle command reports where several apply.
DESIGN CHOICE (log 58, unsafe): generations of an Ed448 pair; the generation table.
DESIGN CHOICE (log 59, unsafe): ROOT_RETRY, autoload and the log of a failed autoload.
DESIGN CHOICE (log 60, unsafe): tamper responses.
DESIGN CHOICE (log 79, unsafe): the always-on tamper log.
-/

namespace Sys2Proof.Machine

/-- KBUF of a bank (R443), byte 0 in bits [7:0] of word 0. -/
def Chip.kbuf (c : Chip) (k : Nat) : List Byte :=
  (List.range 64).flatMap fun j => bytesLE 4 (c.reg (Reg.CASTLE.KBUF k j)).toNat

/-- KBUF of a bank set; bytes beyond the data are zero. -/
def Chip.setKbuf (c : Chip) (k : Nat) (b : List Byte) : Chip :=
  (List.range 64).foldl (fun (c : Chip) j => c.setReg (Reg.CASTLE.KBUF k j) (BitVec.ofNat 32 (leAt b (4 * j) 4))) c

def Chip.kslot (c : Chip) (k : Nat) : Nat := c.fldOf (Reg.CASTLE.KSLOT k) 9 0
def Chip.klen (c : Chip) (k : Nat) : Nat := c.fldOf (Reg.CASTLE.KLEN k) 7 0

/-- A command word of bank k (R428): partition w writes key and OP; while BUSY it is rejected; otherwise the command
starts with what its work gives. -/
def Chip.castleStart (c : Chip) (w k op : Nat) (work : Chip → Chip × CastleCmd) : Chip :=
  if 4 ≤ k then c else
  c.blockWrite w (Reg.CASTLE.KCMD k) (BitVec.ofNat 32 (0x4B43_0000 + op)) 0xFFFFFFFF fun c =>
    if c.bitOf (Reg.CASTLE.KSTAT k) 31 then (c.setBitOf (Reg.CASTLE.KSTAT k) 30 true).setErr 0x071 7
    else
      let r := work c
      let c1 := r.1.setCastle { r.1.castle with cmds := insertKey r.1.castle.cmds k r.2 }
      c1.setReg (Reg.CASTLE.KSTAT k) (BitVec.ofNat 32 (2 ^ 31 + c1.fldOf (Reg.CASTLE.KSTAT k) 11 8 * 2 ^ 8 + op))

/-- A command that ends with a result and has no other effect. -/
def endsWith (op r : Nat) (c : Chip) : Chip × CastleCmd := (c, { op := op, result := r })

/-- A KCMD write with an unknown key or OP, or a supervisor's OP from another partition (R428). -/
def Chip.castleBad (c : Chip) (w k op : Nat) : Chip := c.castleStart w k op (endsWith op 3)

/-- The slots as they were, for a command that changes the targets of slot n. -/
def Chip.undoOf (c : Chip) (ns : List Nat) : List (Nat × Option KeySlot) := ns.map fun n => (n, c.slot? n)

/-- LOAD (R431): bank k's blob in KBUF goes into KSLOT. -/
def doLoad (w k : Nat) (c : Chip) : Chip :=
  c.castleStart w k 0x01 fun c =>
    let r := c.loadBlob k (c.kslot k) (c.kbuf k) (c.klen k)
    (r.1, { op := 0x01, result := r.2 })

/-- A partition's own loaded slot that is not a system slot (R423, R427, R431): the result that stops a command, or none. -/
def Chip.slotRefuse (c : Chip) (k n : Nat) (mustHold : Bool) : Option Nat :=
  if !c.rootReady then some 0xC
  else if n < 4 then some 0xA
  else match c.slot? n with
    | none => if mustHold then some 0xC else none
    | some s => if s.second then some 0xA else if s.owner ≠ k then some 0x5 else none

/-- A blob of KSLOT can be made (R428): loaded, owned, and its parent usable. -/
def Chip.wrapRefuse (c : Chip) (k n : Nat) : Option Nat :=
  match c.slotRefuse k n true with
  | some r => some r
  | none => if c.parentOk k ((c.slot? n).map (·.parent) |>.getD 0xFFFF) then none else some 0x6

/-- WRAP (R428). -/
def doWrap (w k : Nat) (c : Chip) : Chip :=
  c.castleStart w k 0x02 fun c =>
    match c.wrapRefuse k (c.kslot k) with
    | some r => endsWith 0x02 r c
    | none =>
      if c.castle.rngBad then endsWith 0x02 0xE c
      else
        let b := c.blobOf (c.kslot k)
        (b.2, { op := 0x02, result := 1, out := some b.1 })

/-- IMPORT is permitted (R428, R582). -/
def Chip.importAllowed (c : Chip) : Bool :=
  c.otp.lc = 0 || c.otp.lc = 1 || c.otp.lc = 3 || (c.otp.lc = 2 && c.bitOf Reg.CASTLE.POLICY 0)

/-- IMPORT (R428): header and clear key in KBUF, under steps 1 to 7 of R431. -/
def doImport (w k : Nat) (c : Chip) : Chip :=
  c.castleStart w k 0x03 fun c =>
    let b := c.kbuf k
    let n := c.kslot k
    if !c.rootReady then endsWith 0x03 0xC c
    else if c.sleepHold then endsWith 0x03 0xD c
    else if !c.importAllowed then endsWith 0x03 0xB c
    else
      let r := c.loadCheck k n b (c.klen k) (fun t => 24 + keyLen t)
      if r ≠ 1 then endsWith 0x03 r c
      else if c.castle.rngBad then endsWith 0x03 0xE c
      else (c.install n b (bytesAt b 24 (keyLen (blobHeader b).ktype)),
            { op := 0x03, result := 1, undo := c.undoOf (c.targets n (blobHeader b).ktype) })

/-- GENERATE (R428): a random key under a header in KBUF. -/
def doGenerate (w k : Nat) (c : Chip) : Chip :=
  c.castleStart w k 0x04 fun c =>
    let b := c.kbuf k
    let n := c.kslot k
    let r := c.loadCheck k n b (c.klen k) (fun _ => 24)
    if r ≠ 1 then endsWith 0x04 r c
    else if c.castle.rngBad then endsWith 0x04 0xE c
    else
      let key := c.fresh? (keyLen (blobHeader b).ktype)
      (key.2.install n b key.1, { op := 0x04, result := 1, undo := c.undoOf (c.targets n (blobHeader b).ktype) })

/-- UNLOAD (R428, R429): GEN unchanged, nothing orphaned. -/
def doUnload (w k : Nat) (c : Chip) : Chip :=
  c.castleStart w k 0x05 fun c =>
    match c.slotRefuse k (c.kslot k) false with
    | some r => endsWith 0x05 r c
    | none => (c.clearSlots (c.pairOf (c.kslot k)) 3, { op := 0x05, result := 1 })

/-- ERASE (R429): the command ends when the generation is in flash. -/
def doErase (w k : Nat) (c : Chip) : Chip :=
  c.castleStart w k 0x06 fun c =>
    match c.slotRefuse k (c.kslot k) false with
    | some r => endsWith 0x06 r c
    | none => (c.eraseSlots (c.pairOf (c.kslot k)), { op := 0x06, result := 1 })

/-- PUBKEY (R428) of an Ed448 pair. -/
def doPubkey (w k : Nat) (c : Chip) : Chip :=
  c.castleStart w k 0x07 fun c =>
    match c.slotRefuse k (c.kslot k) true with
    | some r => endsWith 0x07 r c
    | none =>
      if ((c.slot? (c.kslot k)).map (·.ktype)) ≠ some 3 then endsWith 0x07 0x4 c
      else (c, { op := 0x07, result := 1, out := some (Config.ed448Public (c.slotKey (c.kslot k))) })

/-- STORE (R433): the slot's blob goes to its autoload entry at the end of the command. -/
def doStore (w k : Nat) (c : Chip) : Chip :=
  c.castleStart w k 0x08 fun c =>
    match c.wrapRefuse k (c.kslot k) with
    | some r => endsWith 0x08 r c
    | none =>
      let b := c.blobOf (c.kslot k)
      (b.2, { op := 0x08, result := 1, slot := c.kslot k, out := some b.1 })

/-- UNSTORE (R428): the autoload entry is cleared at the end of the command. -/
def doUnstore (w k : Nat) (c : Chip) : Chip :=
  c.castleStart w k 0x09 fun c =>
    match c.slotRefuse k (c.kslot k) false with
    | some r => endsWith 0x09 r c
    | none => (c, { op := 0x09, result := 1, slot := c.kslot k })

/-- The signature of R441 and R580 in KBUF: the signature in bytes 0-113, the public key in bytes 114-170. -/
def kbufSigned (b : List Byte) (hash : List Byte) (msg : List Byte) : Bool :=
  Config.shake256 (bytesAt b 114 57) hash.length = hash && Config.ed448Verify (bytesAt b 114 57) msg (bytesAt b 0 114)

/-- UNIT_ID, RESIGN_CNT and CHAL as a signed message holds them. -/
def Chip.chal (c : Chip) : List Byte := (List.range 4).flatMap fun j => bytesLE 4 (c.reg (Reg.CASTLE.CHAL j)).toNat

/-- CLEAR_RESIGN (R441): each attempt draws a new challenge. -/
def doClearResign (w k : Nat) (c : Chip) : Chip :=
  c.castleStart w k 0x10 fun c =>
    if k ≠ c.supervisor then endsWith 0x10 3 c
    else
      let msg := bytesLE 8 c.unitId ++ bytesLE 4 c.resignCnt ++ c.chal
      let ok := c.otp.lc = 0 || (match c.otp.clearHash with | none => false | some h => kbufSigned (c.kbuf k) h msg)
      let c1 := c.drawChal
      (if ok then c1.setCastle { c1.castle with clearMarked := true } else c1, { op := 0x10, result := if ok then 1 else 0xF })

/-- ROOT_RETRY (R420): regeneration again after a failure. -/
def doRootRetry (w k : Nat) (good : Bool) (c : Chip) : Chip :=
  c.castleStart w k 0x11 fun c =>
    if k ≠ c.supervisor then endsWith 0x11 3 c
    else
      let c1 := if c.rootState = 3 then (c.regenerate good).autoloadAll else c
      (c1, { op := 0x11, result := if c1.rootReady then 1 else 0xC })

/-- The autoload entry of a slot is written or cleared in flash. -/
def Chip.setAutoload (c : Chip) (n : Nat) (b : Option (List Byte)) : Chip :=
  c.setCastle { c.castle with autoload := match b with | some x => insertKey c.castle.autoload n x | none => eraseKey c.castle.autoload n }

/-- OPs that end with a flash write by the Arbiter (R428, R442). -/
def flashOp (op : Nat) : Bool := op = 0x06 || op = 0x08 || op = 0x09

/-- CASTLE_COMMAND_DONE (R427, R428): the command of bank k ends. One that writes flash waits for the Arbiter. -/
def doCastleCommandDone (k : Nat) (c : Chip) : Chip :=
  match lookupKey c.castle.cmds k with
  | none => c
  | some m =>
    if 4 ≤ k || (flashOp m.op && m.result = 1 && !c.arbRunning) then c else
    let ok := m.result = 1
    let c1 := c.setCastle { c.castle with cmds := eraseKey c.castle.cmds k }
    let c2 :=
      if ok && m.op = 0x06 then c1.writeGenTable
      else if ok && m.op = 0x08 then c1.setAutoload m.slot m.out
      else if ok && m.op = 0x09 then c1.setAutoload m.slot none
      else if m.op = 0x01 || m.op = 0x03 || m.op = 0x04 then c1.inc (if ok then Reg.CASTLE.LOADS else Reg.CASTLE.LOAD_FAILS)
      else c1
    let c3 :=
      if m.op = 0x02 || m.op = 0x07 then
        (match m.out with
         | some b => (c2.setKbuf k b).setReg (Reg.CASTLE.KLEN k) (BitVec.ofNat 32 b.length)
         | none => c2)
      else c2.setKbuf k []
    let rejected := c3.bitOf (Reg.CASTLE.KSTAT k) 30
    let c4 := c3.setReg (Reg.CASTLE.KSTAT k) (BitVec.ofNat 32 ((if rejected then 2 ^ 30 else 0) + m.result % 16 * 2 ^ 8 + m.op % 256))
    c4.raise 0x071 (if ok then 2 * k else 2 * k + 1)

/-- REMASK in femtoseconds (R443). -/
def Chip.remaskFs (c : Chip) : Nat := clampNat 1 1000 (c.fldOf Reg.CASTLE.REMASK 9 0) * fsMs

/-- SLOT_REMASK (R432): slot n is given a fresh mask, once in each REMASK interval. -/
def doSlotRemask (n : Nat) (c : Chip) : Chip :=
  match c.slot? n with
  | none => c
  | some s =>
    if c.now / c.remaskFs ≤ s.maskAt / c.remaskFs then c
    else
      let key := s.key
      let r := c.fresh? key.length
      r.2.setCastle { r.2.castle with
        slots := insertKey r.2.castle.slots n { s with mask := r.1, masked := (r.1.zip key).map (fun p => p.1 ^^^ p.2), maskAt := c.now } }

/-- RNG_FAIL (R428): the health test of the random source fails; GENERATE, WRAP and IMPORT in progress end so, and what
they stored is undone. -/
def doRngFail (c : Chip) : Chip :=
  let affected (m : CastleCmd) : Bool := (m.op = 0x02 || m.op = 0x03 || m.op = 0x04) && m.result = 1
  let undo := c.castle.cmds.flatMap fun (e : Nat × CastleCmd) => if affected e.2 then e.2.undo else []
  let slots := undo.foldl (fun (m : Sparse KeySlot) (u : Nat × Option KeySlot) =>
    match u.2 with | none => eraseKey m u.1 | some s => insertKey m u.1 s) c.castle.slots
  let cmds := c.castle.cmds.map fun (e : Nat × CastleCmd) =>
    if affected e.2 then (e.1, { e.2 with result := 0xE, out := none, undo := [] }) else e
  Chip.raise (c.setCastle { c.castle with rngBad := true, slots := slots, cmds := cmds }) 0x071 12

/-- A sensor that the always-on domain evaluates (R435). -/
def aoSensor (s : Nat) : Bool := s = 2 || (9 ≤ s && s < 15)

/-- The response of a sensor (R435): 0 LOG, 1 ALARM, 2 RESIGN. -/
def Chip.tamperResp (c : Chip) (s : Nat) : Nat := Nat.min 2 (c.fldOf (Reg.TAMPER.TS_CFG s) 1 0)

/-- Tempo in nanoseconds at this moment: while the core clock stands, from the always-on counter (R81). -/
def Chip.nsNow (c : Chip) : Nat := if c.awake then c.ns else c.aoTempo c.tempo.ao / 2 ^ 48 % 2 ^ 64

/-- TAMPER.LAST and LAST_TIME (R444). -/
def Chip.tamperLast (c : Chip) (s resp phase : Nat) : Chip :=
  (c.setReg Reg.TAMPER.LAST (BitVec.ofNat 32 (2 ^ 31 + s * 2 ^ 16 + resp * 2 ^ 8 + phase))).setReg Reg.TAMPER.LAST_TIME
    (BitVec.ofNat 32 (c.nsNow / 1024))

/-- An entry of the always-on tamper log (R439). -/
def Chip.aoTamper (c : Chip) (s resp phase : Nat) : Chip :=
  if c.castle.aoLog.length < 16 then
    c.setCastle { c.castle with aoLog := c.castle.aoLog ++ [{ tick := c.tempo.ao % 2 ^ 48, sensor := s, resp := resp, phase := phase }] }
  else c.setCastle { c.castle with aoOvf := Nat.min 255 (c.castle.aoOvf + 1) }

/-- RESIGN with its entry directly after SCORE_INIT (R493); entries that waited follow. -/
def Chip.resignLogged (c : Chip) (s phase : Nat) : Chip :=
  let waiting := c.score.queue
  let c1 := (Chip.resign { c with score := { c.score with queue := [] } }).tamperScore s 2 phase
  { c1 with score := { c1.score with queue := c1.score.queue ++ waiting } }

/-- Start-up, before the Arbiter runs (R439): the root is EMPTY or REGENERATING, or the boot ROM has not gone on. -/
def Chip.starting (c : Chip) : Bool := c.rootState < 2 || c.fldOf Reg.GLB.BOOT_STAT 3 0 != 0

/-- The Arbiter copies the always-on tamper log into the Scoresheet and empties it (R439). -/
def Chip.copyAoLog (c : Chip) : Chip :=
  let put (c : Chip) (e : AoTamper) : Chip :=
    let c1 := c.tamperScore e.sensor e.resp e.phase
    let t := c1.aoTempo e.tick / 2 ^ 48 % 2 ^ 64
    let copied (x : ScoreEntry) : Bool := x.code = 0x0030 && x.cycle = c.fab.tour + 1
    { c1 with score := { c1.score with queue := c1.score.queue.map fun (x : ScoreEntry) => if copied x then { x with time := t, cycle := 0 } else x } }
  let c1 := c.castle.aoLog.foldl put c
  let c2 := c1.setCastle { c1.castle with aoLog := [], aoOvf := 0 }
  if c.castle.aoOvf = 0 then c2 else { c2 with score := { c2.score with lossNext := true } }

/-- A firing in PLAY or QUIET (R436, R440). One before the root is READY leaves the Castle empty; one of start-up
(phase 1) reaches the Scoresheet through the always-on log (R439). -/
def Chip.tamperIn (c : Chip) (s resp phase : Nat) : Chip :=
  let c1 := c.tamperLast s resp phase
  if resp = 0 then c1.tamperScore s 0 phase
  else
    let c2 :=
      if resp = 2 then (if phase = 1 then c1.resign else c1.resignLogged s phase)
      else
        let x := if c1.rootState = 2 || c1.rootState = 4 then c1 else (c1.zeroize.setRoot 4).setAlarm 1
        if phase = 1 then x else x.tamperScore s 1 phase
    let c3 := c2.setReg Reg.TAMPER.FIRED (c2.reg Reg.TAMPER.FIRED ||| oneBit 32 s)
    let c4 := if phase = 1 then c3.aoTamper s resp 1 else c3
    (c4.raise 0x072 s).setAlarm 0

/-- A firing in PLAY or QUIET, in start-up or after it. -/
def Chip.tamperRunning (c : Chip) (s resp : Nat) : Chip := c.tamperIn s resp (if c.starting then 1 else 0)

/-- A LOG response while the core stands (R436): DESIGN CHOICE (log 60): its entry, with the time of the firing, waits in the
writer's queue until the part runs. -/
def Chip.tamperLogLater (c : Chip) (s phase : Nat) : Chip :=
  let c1 := c.tamperScore s 0 phase
  let mark (x : ScoreEntry) : ScoreEntry := if x.cycle = c.fab.tour + 1 then { x with time := c.nsNow, cycle := 0 } else x
  { c1 with score := { c1.score with queue := c1.score.queue.map mark } }

/-- What an ALARM or RESIGN of the always-on domain does while the core stands (R436-R439): its entry in the always-on log, FIRED,
source s and ALARM_STAT[0]; a RESIGN latches too, and its marks, RESIGNED and the clearing of the ring follow at the next start or
wake (R437). -/
def Chip.tamperAo (c : Chip) (s resp phase : Nat) : Chip :=
  let c1 := (c.tamperLast s resp phase).aoTamper s resp phase
  let c2 :=
    if resp = 2 then c1.setCastle { c1.castle with aoLatch := true, resignPending := c1.castle.resignPending + 1, clearMarked := false }
    else c1
  ((c2.setReg Reg.TAMPER.FIRED (c2.reg Reg.TAMPER.FIRED ||| oneBit 32 s)).raise 0x072 s).setAlarm 0

/-- A firing of an always-on sensor while a reset holds the part (R439, R440): the Castle stays empty, resigned, when the part
starts. -/
def Chip.tamperHeld (c : Chip) (s resp : Nat) : Chip :=
  if resp = 0 then c.tamperLast s 0 1 |>.tamperLogLater s 1
  else ((c.tamperAo s resp 1).setRoot 4).setAlarm 1

/-- A firing in ADJOURNED (R438, R439, R64). -/
def Chip.tamperAsleep (c : Chip) (s resp : Nat) : Chip :=
  if resp = 0 then c.tamperLast s 0 2 |>.tamperLogLater s 2
  else (c.setReg Reg.TAMPER.SLEEP_LATCH (c.reg Reg.TAMPER.SLEEP_LATCH ||| oneBit 32 s)).tamperAo s resp 2

/-- A reading of sensor s is outside the window that TS_LIM(s) gives (R435). -/
def Chip.sensorOut (c : Chip) (s : Nat) (r : TamperReading) : Bool :=
  let lim := c.reg (Reg.TAMPER.TS_LIM s)
  if s = 9 || s = 11 || s = 12 then r.found
  else if s = 13 || s = 14 then r.found = bit lim 16 && fld lim 15 0 ≤ r.heldUs
  else r.value < ((lim.setWidth 16).toInt) || ((lim >>> 16).setWidth 16).toInt < r.value

/-- The supply and core-clock sensors are evaluated from 1 ms after power-on release (R435). -/
def Chip.sensorEvaluated (c : Chip) (s : Nat) : Bool := !(s < 7 || s = 8) || c.power.porAt + fsMs ≤ c.now

/-- Sensor s leaves its window, or with `out` false is back within it (R436). -/
def Chip.tamperEvent (s : Nat) (out : Bool) (c : Chip) : Chip :=
  if 15 ≤ s then c else
  match c.power.mode with
  | .off => c
  | .held =>
    if !aoSensor s then c
    else if !out then c.setBitOf Reg.TAMPER.LIVE s false
    else if c.bitOf Reg.TAMPER.LIVE s then c
    else (c.setBitOf Reg.TAMPER.LIVE s true).tamperHeld s (c.tamperResp s)
  | .adjournedWarm | .adjournedCold =>
    if !aoSensor s then c
    else if !out then c.setBitOf Reg.TAMPER.LIVE s false
    else if c.bitOf Reg.TAMPER.LIVE s then c
    else (c.setBitOf Reg.TAMPER.LIVE s true).tamperAsleep s (c.tamperResp s)
  | .play | .quiet =>
    if !out then c.setBitOf Reg.TAMPER.LIVE s false
    else if c.bitOf Reg.TAMPER.LIVE s then c
    else (c.setBitOf Reg.TAMPER.LIVE s true).tamperRunning s (c.tamperResp s)

/-- TAMPER_SENSOR_FIRE (R435, R436): a reading of sensor s, judged against its window. -/
def doTamperSensorFire (s : Nat) (r : TamperReading) (c : Chip) : Chip :=
  if c.sensorEvaluated s then c.tamperEvent s (c.sensorOut s r) else c

/-- SLEEP_LATCH_WRITE (R438): bits written 1 are cleared; with the last one the hold ends. -/
def doSleepLatchWrite (k : Nat) (v : Word) (be : Nat) (c : Chip) : Chip :=
  c.blockWrite k Reg.TAMPER.SLEEP_LATCH v (beMask be) fun c =>
    let c1 := c.setReg Reg.TAMPER.SLEEP_LATCH (c.reg Reg.TAMPER.SLEEP_LATCH &&& ~~~ (v &&& beMask be &&& 0x7FFF))
    if c1.reg Reg.TAMPER.SLEEP_LATCH = 0 then c1.setBitOf Reg.CASTLE.STATE 9 false else c1

/-- AUTOLOAD_DEFERRED (R433): the Arbiter runs the autoloads that the sleep hold refused. -/
def doAutoloadDeferred (c : Chip) : Chip :=
  if !c.castle.deferred || c.sleepHold || !c.arbRunning then c else c.autoloadAll

/-- A write of MIN_SVN (R430, R443): a lower value is discarded; a rise is written to flash by the Arbiter. -/
def Chip.minSvnWrite (c : Chip) (k : Nat) (v mask : Word) : Chip :=
  let old := c.reg (Reg.CASTLE.MIN_SVN k)
  let new := (old &&& ~~~ mask) ||| (v &&& mask)
  if new.toNat ≤ old.toNat then c
  else
    let c1 := c.setReg (Reg.CASTLE.MIN_SVN k) new
    (c1.setCastle { c1.castle with gtDirty := true }).genFlush

end Sys2Proof.Machine
end

