-- ==== Sys2Proof/Machine/BnlCore.lean ====
section
/-! DEFINITION. Chapter 19, the sending of Benolsia messages (R511, R512, R516), which the agent, the bridge and cipher
jobs share. -/

/-
MARKS of the model choices coded here; the log rows say each in full.
DESIGN CHOICE (log 66, unsafe): the window bridge: locks, failed atomics, dropped writes and stalls.
-/

namespace Sys2Proof.Machine

/-- The 16-byte header of a message (R511). -/
def bnlHeader (typ src dst tag seq len : Nat) (bcast keySel : Bool) : List Byte :=
  [1, BitVec.ofNat 8 typ] ++ bytesBE 2 src ++ bytesBE 2 dst ++ bytesBE 2 tag ++ bytesBE 4 seq ++ bytesBE 2 len ++
    [BitVec.ofNat 8 ((if bcast then 1 else 0) + (if keySel then 2 else 0)), 0]

/-- The Ethernet frame around a message: addresses, at most one VLAN tag, EtherType, padding to the minimum length. -/
def bnlFrame (dmac smac : Nat) (vlan : Option Nat) (etype : Nat) (msg : List Byte) : List Byte :=
  let f := bytesBE 6 dmac ++ bytesBE 6 smac ++ (match vlan with | some v => bytesBE 2 0x8100 ++ bytesBE 2 v | none => []) ++
    bytesBE 2 etype ++ msg
  f ++ List.replicate (60 - f.length) 0

/-- The address of this gateway's agent. -/
def Chip.bnlMac (c : Chip) : Nat := c.fldOf Reg.BNL.MAC_HI 15 0 * 2 ^ 32 + (c.reg Reg.BNL.MAC_LO).toNat

/-- The shared counter advances (R516). -/
def Chip.bnlSeqNext (c : Chip) : Chip :=
  let n := (c.reg Reg.BNL.TX_SEQ).toNat
  let c1 := c.setReg Reg.BNL.TX_SEQ (BitVec.ofNat 32 (n + 1))
  if n = 0xF0000000 then c1.raise 0x0B1 2 else c1

/-- A message may be sent: EN, a key in the engine, and a sequence number left (R512, R516, R528). -/
def Chip.bnlCanSend (c : Chip) : Bool :=
  c.bitOf Reg.BNL.CTRL 0 && (lookupKey c.host.bnlKeys (c.fldOf Reg.BNL.TX_SEL 0 0)).isSome && (c.reg Reg.BNL.TX_SEQ).toNat != 0xFFFFFFFF

/-- A message leaves through a square: it enters the fabric at F_MG in class BNL.CLASS (R515, R516). A square
that is no Ethernet square sends none. -/
def Chip.bnlSend (c : Chip) (dst mac square : Nat) (vlan : Option Nat) (typ tag : Nat) (body : List Byte) : Chip :=
  if !c.bnlCanSend || !isEth square then c else
  let sel := c.fldOf Reg.BNL.TX_SEL 0 0
  let key := match lookupKey c.host.bnlKeys sel with | some s => s.key | none => []
  let hdr := bnlHeader typ (c.fldOf Reg.BNL.GWID 15 0) dst tag (c.reg Reg.BNL.TX_SEQ).toNat body.length false (sel = 1)
  let ct := Config.gcmCipher key (hdr.take 12) hdr body
  let frame := bnlFrame mac c.bnlMac vlan (c.fldOf Reg.BNL.ETYPE 15 0) (hdr ++ ct ++ Config.gcmTag key (hdr.take 12) hdr ct)
  let c1 := (c.bnlSeqNext).inc Reg.BNL.TX_MSGS
  c1.enqueueFrame none 0 [{ input := 14, output := square, cls := c.fldOf Reg.BNL.CLASS 2 0, kind := .eth, epoch := c.epoch,
                            entry := c.ns, data := sgEthRecord c.ns c.tempoState frame }]

/-- The response to a request (R513, R515): TYPE with bit 7 set, to the request's source out of the square it came on. A
BCAST request receives none (R538). -/
def Chip.bnlRespond (c : Chip) (r : BnlReq) (body : List Byte) : Chip :=
  if r.bcast then c else c.bnlSend r.gwid r.mac r.square none (r.typ + 0x80) r.tag body

end Sys2Proof.Machine
end

