-- ==== Sys2Proof/Machine/CxJobs.lean ====
section
/-! DEFINITION. Chapter 16: the job queue of the cipher complex, its host rings, dispatch and key capture. -/

/-
MARKS of the model choices coded here; the log rows say each in full.
DESIGN CHOICE (log 61, unsafe): cipher jobs: which failure is reported, and when data are read.
-/

namespace Sys2Proof.Machine

/-- Cipher profile p (R455), its configuration words in an epoch. -/
def cxProfileOff (p : Nat) : Nat := 0x0390_0000 + 32 * p
def Chip.cxWord (c : Chip) (e p w : Nat) : Word64 := c.twordAt e (cxProfileOff p + 8 * w)

/-- Jobs replaced. -/
def Chip.setJobs (c : Chip) (l : List CxJob) : Chip := { c with cx := { c.cx with jobs := l } }
def Chip.modJob (c : Chip) (id : Nat) (f : CxJob → CxJob) : Chip := c.setJobs (c.cx.jobs.map fun j => if j.id = id then f j else j)

/-- A job enters the queue (R446, R447). -/
def Chip.addJob (c : Chip) (j : CxJob) : Chip :=
  { c with cx := { c.cx with jobs := c.cx.jobs ++ [{ j with id := c.cx.nextId }], nextId := c.cx.nextId + 1 } }

/-- The job queue holds 512 jobs: those that no core has. -/
def Chip.cxQueued (c : Chip) : Nat := (c.cx.jobs.filter fun j => !j.running).length

/-- The job of a copy at output 68 (R446): CX_OP 1 seals, 2 verifies; PRIO and PART come from the profile. -/
def Chip.fabricJob (c : Chip) (k : Copy) : CxJob :=
  let w := c.cxWord k.epoch k.cxProfile 0
  { id := 0, op := 0x100 + k.cxOp, copy := some k, part := fld w 61 60, prio := fld w 59 57, slot := fld w 41 32,
    profile := k.cxProfile, epoch := k.epoch,
    fail := if !bit (c.regAt k.epoch Reg.CX.CTRL) 0 then 6 else if !bit w 63 || decide (fld w 62 62 + 1 ≠ k.cxOp) then 2 else 0 }

/-- One copy at output 68 becomes a job, or is discarded when its residence is over (R349) or the queue is full (R447). -/
def Chip.intakeCopy (c : Chip) (k : Copy) : Chip :=
  if c.residenceOver k then Chip.fabDone c (c.resDrop k) else
  let c1 := Chip.fabDone c (c.delCopy k.id)
  if 512 ≤ c1.cxQueued then c1.incRaise Reg.CX.QFULL 0x070 12 else c1.addJob (c1.fabricJob k)

/-- Every copy at output 68 enters the job queue, the highest class first (R446). -/
def Chip.cxIntake (c : Chip) : Chip :=
  let ready := (List.range 8).reverse.flatMap fun cls => c.fab.copies.filter fun k => k.appended && k.output = 68 && k.cls = cls
  ready.foldl (fun (c : Chip) k => c.intakeCopy k) c

/-- The core that an operation needs (R445): 0 AEAD, 1 CMAC, 2 SHAKE256 and Ed448. -/
def cxCore (op : Nat) : Nat := if op ≤ 6 then 0 else if op = 7 || op = 8 || 0x100 ≤ op then 1 else 2
def cxCores (core : Nat) : Nat := [6, 2, 1].getD core 0

/-- A fabric job whose profile has a job on a core waits (R448). -/
def Chip.cxBlocked (c : Chip) (j : CxJob) : Bool :=
  j.copy.isSome && c.cx.jobs.any fun i => i.running && i.copy.isSome && i.profile = j.profile

/-- The job that a core dispatches next: highest PRIO, then oldest (R448). -/
def Chip.cxNext (c : Chip) (core : Nat) : Option CxJob :=
  let ready := c.cx.jobs.filter fun j => !j.running && j.fail = 0 && cxCore j.op = core && !c.cxBlocked j
  ((List.range 8).reverse.filterMap fun p => ready.find? fun j => j.prio = p).head?

/-- The USAGE bit that an operation needs and the key types that suit it (R449, R453, R455). -/
def cxUsage (op : Nat) : Nat :=
  if op = 1 || op = 5 then 0 else if op = 2 || op = 6 then 1 else if op = 3 || op = 7 || op = 0x101 then 2
  else if op = 4 || op = 8 || op = 0x102 then 3 else 4
def cxTypeOk (op t : Nat) : Bool := if op = 0x0A || op = 0x0C then t = 3 else t = 1 || t = 2

/-- The Arbiter as the partition of a job (R460). -/
def arbPart : Nat := 4

/-- The owner of a slot's key: the system slots serve the supervisor (R424). -/
def Chip.slotOwner (c : Chip) (s : KeySlot) : Nat := if s.sys then c.supervisor else s.owner

/-- What stops a job at dispatch (R434, R449, R453, R460): ORPHANED, BAD_DESC for a key type that the table of R453 does not give the operation
of a host job, or NO_KEY, which every fabric job gets while the root is not READY. DESIGN CHOICE (log 61): R449 names NO_KEY for a type that
does not suit, which the model takes for fabric jobs. -/
def Chip.cxKeyFail (c : Chip) (j : CxJob) : Nat :=
  if j.copy.isSome && !c.rootReady then 6
  else if !j.usesKey then 0
  else if sget false c.castle.orphaned j.slot then 4
  else match c.slot? j.slot with
    | none => 6
    | some s =>
      if s.second || !(c.slotOwner s = j.part || (j.part = arbPart && j.op = 0x0C)) || (j.op = 0x0C && !c.rootReady) then 6
      else if !cxTypeOk j.op s.ktype then (if j.copy.isSome then 6 else 2)
      else if natBits s.usage (cxUsage j.op) (cxUsage j.op) = 1 then 0 else 6

/-- Dispatch of the next job of a kind (R448, R449): it acts if that job has the operation; the work gets the captured
key and computes the outcome. -/
def Chip.cxDispatch (c : Chip) (op : Nat) (work : Chip → CxJob → List Byte → Chip × CxJob) : Chip :=
  let c0 := c.cxIntake
  let core := cxCore op
  if cxCores core ≤ (c0.cx.jobs.filter fun j => j.running && cxCore j.op = core).length then c0 else
  match c0.cxNext core with
  | none => c0
  | some j =>
    if j.op ≠ op then c0
    else if c0.cxKeyFail j ≠ 0 then c0.modJob j.id fun j => { j with fail := c0.cxKeyFail j }
    else
      let r := work c0 j (if j.usesKey then c0.slotKey j.slot else [])
      r.1.modJob j.id fun _ => { r.2 with running := true }

/-- The size of a job ring (R450), none where it is disabled. -/
def Chip.jrSize (c : Chip) (k : Nat) : Option Nat :=
  let n := c.fldOf (Reg.CX.JR_SIZE k) 12 0
  if [8, 16, 32, 64, 128, 256, 512, 1024, 2048, 4096].contains n then some n else none

def Chip.jrBase (c : Chip) (k : Nat) : Nat := (c.reg (Reg.CX.JR_BASE_HI k)).toNat * 2 ^ 32 + (c.reg (Reg.CX.JR_BASE_LO k)).toNat

/-- A host job may be fetched for partition k (R447). -/
def Chip.cxRoom (c : Chip) (k : Nat) : Bool :=
  let host := c.cx.jobs.filter fun j => j.copy.isNone
  decide ((host.filter fun j => !j.running).length < 512 - c.fldOf Reg.CX.FAB_RES 9 0) &&
    decide ((host.filter fun j => j.part = k).length < c.fldOf (Reg.CX.QUOTA k) 9 0) && decide (c.cxQueued < 512)

/-- TAGLEN and IVLEN that an operation admits (R451, R453). -/
def cxTagOk (op n : Nat) : Bool :=
  if 1 ≤ op && op ≤ 4 then n = 4 || n = 8 || (12 ≤ n && n ≤ 16)
  else if op = 5 || op = 6 then n = 4 || n = 6 || n = 8 || n = 10 || n = 12 || n = 14 || n = 16
  else if op = 7 || op = 8 then 4 ≤ n && n ≤ 16
  else n = 0
def cxIvOk (op n : Nat) : Bool :=
  if 1 ≤ op && op ≤ 4 then n = 12 else if op = 5 || op = 6 then 7 ≤ n && n ≤ 13 else n = 0

/-- Every header segment stands before every payload segment, KIND and reserved bytes are right (R452). -/
def segsOk : Bool → List (Nat × Nat × List Byte) → Bool
  | _, [] => true
  | pay, (kind, rsvd, _) :: rest => rsvd = 0 && (if kind = 1 then !pay && segsOk false rest else kind = 0 && segsOk true rest)

/-- A job from a descriptor and its segments, each with KIND, reserved bytes and data (R451-R453). -/
def cxParse (k : Nat) (desc : List Byte) (segs : List (Nat × Nat × List Byte)) (err : Bool) : CxJob :=
  let op := leAt desc 0 2
  let aad := segs.flatMap fun s => if s.1 = 1 then s.2.2 else []
  let pay := segs.flatMap fun s => if s.1 = 1 then [] else s.2.2
  let tl := leAt desc 3 1
  let bad := op = 0 || 0x0C < op || !cxTagOk op tl || !cxIvOk op (leAt desc 7 1) || 8 < leAt desc 6 1 || segs.length ≠ leAt desc 6 1 ||
    7 < leAt desc 2 1 || !segsOk false segs || 65535 < aad.length + pay.length || (op = 0x0B && aad.length ≠ 171) ||
    (op = 0x0C && (pay.length ≠ 32 || segs.length ≠ 1))
  { id := 0, op := op, part := k, prio := leAt desc 2 1 % 8, slot := if op = 0x0C then 0 else leAt desc 4 2, tagLen := tl,
    iv := bytesAt desc 32 (leAt desc 7 1), tagIn := bytesAt desc 48 tl, aad := aad, payload := pay,
    outAddr := leAt desc 16 8, outCap := leAt desc 24 4, usesKey := op != 0x09 && op != 0x0B,
    fail := if bad then 2 else if err then 8 else 0 }

/-- A job of the Arbiter (R460), which accepts ATTEST alone. DESIGN CHOICE (log 61): the Arbiter hands it over itself while it runs, beside the
rings, and keeps its record. -/
def Chip.arbJob (c : Chip) (desc : List Byte) (segs : List (Nat × Nat × List Byte)) : Chip :=
  let j := cxParse arbPart desc segs false
  if !c.arbRunning || j.op ≠ 0x0C || 512 - c.fldOf Reg.CX.FAB_RES 9 0 ≤ (c.cx.jobs.filter fun i => i.copy.isNone && !i.running).length || 512 ≤ c.cxQueued then c
  else c.addJob { j with index := 4096, fail := if j.fail != 0 then j.fail else if !c.bitOf Reg.CX.CTRL 0 then 6 else 0 }

/-- CX_DESCRIPTOR_FETCH (R447, R450-R453): the next descriptor of ring k with its segments as read from host memory;
`err` says that a segment read failed at PCIe. With k = 4 it is a job of the Arbiter. -/
def doCxDescriptorFetch (k : Nat) (desc : List Byte) (segs : List (Nat × Nat × List Byte)) (err : Bool) (c : Chip) : Chip :=
  let c0 := c.cxIntake
  if k = arbPart then c0.arbJob desc segs else
  match c0.jrSize k with
  | none => c0
  | some n =>
    let i := sget 0 c0.cx.fetch k
    if 4 ≤ k || !(c0.part k).linkUp || c0.bitOf (Reg.PART.SEAT k) 31 || i = c0.fldOf (Reg.CX.JR_TAIL k) 11 0 % n || !c0.cxRoom k then c0
    else
      let j := cxParse k desc segs err
      let fail := if j.fail != 0 then j.fail else if !c0.bitOf Reg.CX.CTRL 0 then 6 else 0
      let c1 := c0.addJob { j with index := i, descAddr := c0.jrBase k + 64 * i, fail := fail }
      { c1 with cx := { c1.cx with fetch := sset 0 c1.cx.fetch k ((i + 1) % n) } }

/-- JR_TAIL_WRITE (R450): partition w offers descriptors up to the index on ring k. -/
def doJrTailWrite (w k : Nat) (v : Word) (be : Nat) (c : Chip) : Chip :=
  if 4 ≤ k then c else
  c.blockWrite w (Reg.CX.JR_TAIL k) v (beMask be) fun c => c.plainWrite (Reg.CX.JR_TAIL k) v (beMask be)

end Sys2Proof.Machine
end

