-- ==== Sys2Proof/Machine/Cipher.lean ====
section
/-! DEFINITION. Chapter 16: what each job computes, sealed PDUs, attestation, and the end of jobs. -/

/-
MARKS of the model choices coded here; the log rows say each in full.
DESIGN CHOICE (log 61, unsafe): cipher jobs: which failure is reported, and when data are read.
DESIGN CHOICE (log 62, unsafe): cipher jobs: completion and counters.
-/

namespace Sys2Proof.Machine

/-- The message of a MAC, hash or signature: header and payload segments in order (R453). -/
def CxJob.msg (j : CxJob) : List Byte := j.aad ++ j.payload

/-- A job's outcome: output and tag. -/
def CxJob.gives (j : CxJob) (out tag : List Byte) : CxJob := { j with out := out, tagOut := tag }

/-- A verification (R453, R454): TAG_FAIL and no output where the tags differ. -/
def CxJob.verify (j : CxJob) (tag : List Byte) (out : List Byte) : CxJob :=
  if tag = j.tagIn then { j with out := out } else { j with fail := 1 }

/-- A host operation that does not change the chip. -/
def pureJob (f : CxJob → List Byte → CxJob) : Chip → CxJob → List Byte → Chip × CxJob := fun c j key => (c, f j key)

/-- GCM_ENCRYPT (R453). -/
def doGcmEncrypt (c : Chip) : Chip := c.cxDispatch 0x01 <| pureJob fun j key =>
  let ct := Config.gcmCipher key j.iv j.aad j.payload
  j.gives ct ((Config.gcmTag key j.iv j.aad ct).take j.tagLen)

/-- GCM_DECRYPT (R453). -/
def doGcmDecrypt (c : Chip) : Chip := c.cxDispatch 0x02 <| pureJob fun j key =>
  j.verify ((Config.gcmTag key j.iv j.aad j.payload).take j.tagLen) (Config.gcmPlain key j.iv j.aad j.payload)

/-- GMAC_GENERATE (R453). -/
def doGmacGenerate (c : Chip) : Chip := c.cxDispatch 0x03 <| pureJob fun j key =>
  j.gives [] ((Config.gcmTag key j.iv j.msg []).take j.tagLen)

/-- GMAC_VERIFY (R453). -/
def doGmacVerify (c : Chip) : Chip := c.cxDispatch 0x04 <| pureJob fun j key =>
  j.verify ((Config.gcmTag key j.iv j.msg []).take j.tagLen) []

/-- CCM_ENCRYPT (R453). -/
def doCcmEncrypt (c : Chip) : Chip := c.cxDispatch 0x05 <| pureJob fun j key =>
  j.gives (Config.ccmCipher key j.tagLen j.iv j.aad j.payload) ((Config.ccmTag key j.tagLen j.iv j.aad j.payload).take j.tagLen)

/-- CCM_DECRYPT (R453). -/
def doCcmDecrypt (c : Chip) : Chip := c.cxDispatch 0x06 <| pureJob fun j key =>
  let plain := Config.ccmPlain key j.tagLen j.iv j.aad j.payload
  j.verify ((Config.ccmTag key j.tagLen j.iv j.aad plain).take j.tagLen) plain

/-- CMAC_GENERATE (R453). -/
def doCmacGenerate (c : Chip) : Chip := c.cxDispatch 0x07 <| pureJob fun j key =>
  j.gives [] ((Config.cmac key j.msg).take j.tagLen)

/-- CMAC_VERIFY (R453). -/
def doCmacVerify (c : Chip) : Chip := c.cxDispatch 0x08 <| pureJob fun j key =>
  j.verify ((Config.cmac key j.msg).take j.tagLen) []

/-- SHAKE256 (R453): OUT_CAP bytes. -/
def doShake256 (c : Chip) : Chip := c.cxDispatch 0x09 <| pureJob fun j _ =>
  j.gives (Config.shake256 j.msg j.outCap) []

/-- ED448_SIGN (R453). -/
def doEd448Sign (c : Chip) : Chip := c.cxDispatch 0x0A <| pureJob fun j key =>
  j.gives (Config.ed448Sign key j.msg) []

/-- ED448_VERIFY (R453): header data is the public key followed by the signature. -/
def doEd448Verify (c : Chip) : Chip := c.cxDispatch 0x0B <| pureJob fun j _ =>
  if Config.ed448Verify (j.aad.take 57) j.payload (j.aad.drop 57) then j else { j with fail := 1 }

/-- The pointer record in force (R540): of two valid records the one whose COUNT is greater modulo 2^32; none on blank
flash, where slot A counts as active and CONFIRMED. -/
def Chip.pointer (c : Chip) : Option PtrRec :=
  match c.gambit.sec0, c.gambit.sec1 with
  | some a, some b => if (a.count + 2 ^ 32 - b.count % 2 ^ 32) % 2 ^ 32 < 2 ^ 31 then some a else some b
  | some a, none => some a
  | none, b => b

/-- The active set. -/
def Chip.activeSlot (c : Chip) : Nat := match c.pointer with | some p => p.active | none => 0
def Chip.setOf (c : Chip) (n : Nat) : FlashSet := if n = 0 then c.gambit.slotA else c.gambit.slotB
def Chip.activeSet (c : Chip) : FlashSet := c.setOf c.activeSlot

/-- The attestation record without its signature (R460). -/
def Chip.attestBody (c : Chip) (challenge setDigest : List Byte) : List Byte :=
  [0x41, 0x54, 1, BitVec.ofNat 8 c.otp.lc] ++ bytesLE 8 c.unitId ++ bytesLE 8 c.ns ++
    [BitVec.ofNat 8 c.tempoState, BitVec.ofNat 8 (c.plState 0 % 8 + c.plState 1 % 8 * 8)] ++ bytesLE 2 c.epoch ++ challenge ++
    setDigest ++ bytesLE 4 (c.reg Reg.ARB.FW_SVN).toNat ++ bytesLE 4 c.resignCnt ++
    bytesLE 4 ((if c.bitOf Reg.CASTLE.STATE 10 then 1 else 0) + (if c.bitOf Reg.CASTLE.STATE 8 then 2 else 0) + (if c.sleepHold then 4 else 0))

/-- ATTEST (R460), signed with the Device Identity key. -/
def doAttest (c : Chip) : Chip := c.cxDispatch 0x0C fun c j key =>
  let body := c.attestBody j.payload (Config.shake256 c.activeSet.manifest 32)
  (c, j.gives (body ++ Config.ed448Sign key body) [])

/-- Tempo milliseconds. -/
def Chip.tempoMs (c : Chip) : Nat := c.ns / 1000000

/-- Fields of a profile (R455). -/
def macLen (w0 : Word64) : Nat := if 4 ≤ fld w0 55 51 && fld w0 55 51 ≤ 16 then fld w0 55 51 else 16
def cxPlen (w1 : Word64) : Nat := fld w1 42 32

/-- The MAC of a sealed PDU (R456): DATA_ID, payload, freshness value. -/
def sealMac (key : List Byte) (w0 : Word64) (payload : List Byte) (fvt ctr : Nat) : List Byte :=
  (Config.cmac key (bytesBE 4 (fld w0 31 0) ++ payload ++ bytesBE 2 fvt ++ [BitVec.ofNat 8 ctr])).take (macLen w0)

/-- The next valid FD length. -/
def fdLength (n : Nat) : Nat :=
  if n ≤ 8 then n else ([12, 16, 20, 24, 32, 48, 64].find? fun m => decide (n ≤ m)).getD 64

/-- A CAN record with new data (R457, R459): LEN and DLC follow, an FD record is padded to a valid length. -/
def reRecord (r : List Byte) (data : List Byte) : List Byte :=
  let f := canOfRecord r
  let n := if f.fmt = 1 then fdLength data.length else data.length
  let d := data ++ List.replicate (n - data.length) 0
  canRecord { f with data := d, dlc := (dlcOf f.fmt n).getD f.dlc } (natBits (leAt r 4 4) 26 26 = 1) (leAt r 16 8)

/-- The data of a CAN record. -/
def canRecData (r : List Byte) : List Byte := (r.drop 24).take (canRecLen r)

/-- FREE with FREE_ACT 1 counts and raises (R457, R458). -/
def Chip.freeAccept (c : Chip) : Chip := c.incRaise Reg.CX.FREE_ACCEPT 0x070 11

/-- The length check of a seal job (R457). -/
def sealBadLen (k : Copy) (w0 w1 : Word64) : Bool :=
  k.kind != .can ||
    (let fmt := (canOfRecord k.data).fmt
     let n := cxPlen w1
     fmt = 0 || n = 0 || canRecLen k.data < n || (if fmt = 2 then 2048 else 64) < n + 3 + macLen w0)

/-- The work of a seal job (R457). -/
def Chip.sealWork (c : Chip) (j : CxJob) (key : List Byte) : Chip × CxJob :=
  match j.copy with
  | none => (c, j)
  | some k =>
    let w0 := c.cxWord j.epoch j.profile 0
    let w1 := c.cxWord j.epoch j.profile 1
    let w2 := c.tword (cxProfileOff j.profile + 16)
    let t := c.tempoMs
    let ctr := if bit w2 0 && fld w2 63 16 = t % 2 ^ 48 then fld w2 15 8 + 1 else 0
    if sealBadLen k w0 w1 then (c, { j with fail := 0x10 })
    else if c.tempoState = 0 && !bit w0 56 then (c, { j with fail := 0x14 })
    else if 255 < ctr then (c, { j with fail := 0x11 })
    else
      let payload := (canRecData k.data).take (cxPlen w1)
      let pdu := payload ++ bytesBE 2 (t % 65536) ++ [BitVec.ofNat 8 ctr] ++ sealMac key w0 payload (t % 65536) ctr
      let c1 := c.setTword (cxProfileOff j.profile + 16) (BitVec.ofNat 64 (t % 2 ^ 48 * 2 ^ 16 + ctr * 2 ^ 8 + 1))
      (if c.tempoState = 0 then c1.freeAccept else c1, { j with out := reRecord k.data pdu })

/-- The sender's time that FV_T stands for (R458): the nearest, a tie takes the earlier. -/
def sealTime (now fvt : Nat) : Int :=
  let d := (fvt + 65536 - now % 65536) % 65536
  if 32768 ≤ d then Int.ofNat now + Int.ofNat d - 65536 else Int.ofNat now + Int.ofNat d

/-- The work of a verify job (R458). -/
def Chip.verifyWork (c : Chip) (j : CxJob) (key : List Byte) : Chip × CxJob :=
  match j.copy with
  | none => (c, j)
  | some k =>
    let w0 := c.cxWord j.epoch j.profile 0
    let w1 := c.cxWord j.epoch j.profile 1
    let w2 := c.tword (cxProfileOff j.profile + 16)
    let n := cxPlen w1
    let data := canRecData k.data
    if k.kind ≠ .can || (canOfRecord k.data).fmt = 0 || data.length < n + 3 + macLen w0 then (c, { j with fail := 0x10 })
    else
      let payload := data.take n
      let fvt := beAt data n 2
      let ctr := beAt data (n + 2) 1
      let t := sealTime c.tempoMs fvt
      let win := (if fld w1 15 8 = 0 then 4 else fld w1 15 8) + (if c.tempoState = 1 then fld w1 7 0 else 0)
      if sealMac key w0 payload fvt ctr ≠ bytesAt data (n + 3) (macLen w0) then (c, { j with fail := 1 })
      else if c.tempoState = 0 && !bit w0 56 then (c, { j with fail := 0x14 })
      else if c.tempoState ≠ 0 && win < (t - Int.ofNat c.tempoMs).natAbs then (c, { j with fail := 0x12 })
      else
        let c1 := if c.tempoState = 0 then c.freeAccept else c
        if bit w2 0 && (t < Int.ofNat (fld w2 63 16) || (t = Int.ofNat (fld w2 63 16) && ctr ≤ fld w2 15 8)) then (c1, { j with fail := 0x13 })
        else
          (c1.setTword (cxProfileOff j.profile + 16) (BitVec.ofInt 64 (t % (2 ^ 48 : Nat) * (2 ^ 16 : Nat) + Int.ofNat ctr * 256 + 1)),
           { j with out := reRecord k.data payload })

/-- SEAL_JOB (R457). -/
def doSealJob (c : Chip) : Chip := c.cxDispatch 0x101 fun c j key => c.sealWork j key

/-- VERIFY_JOB (R458). -/
def doVerifyJob (c : Chip) : Chip := c.cxDispatch 0x102 fun c j key => c.verifyWork j key

/-- The frame of a cipher result as the rest of its route sees it (R219, R222): it keeps epoch, ENTRY and source. -/
def resultFlight (k : Copy) (r : List Byte) : Flight :=
  { rcd := r, kind := .can, src := k.src, sq := if k.src < 64 then some k.src else none, input := 12, lb := k.lb,
    group := k.group, epoch := k.epoch, entry := k.entry, origin := k.origin }

/-- A result routed by action NEXT (R219): steps 1, 4 and 5 of R210. -/
def Chip.cxByAction (c : Chip) (k : Copy) (r : List Byte) : Chip :=
  let w (n : Nat) : Word64 := c.actionWord k.epoch k.next n
  let src := c.srcEntry k.epoch k.src
  if !bit (w 0) 63 || malformed (w 0) (w 1) (w 3) false then c.incRaise Reg.CLS.INVALID_ACT 0x048 1
  else if fld (w 3) 63 62 ≠ 0 then c.incRaise Reg.CLS.CX_LOOP_CNT 0x048 4
  else c.routeFrame (resultFlight k r) { pcp := fld src 34 32 } (w 0) (w 0) (w 1) (w 2) (w 3) src true

/-- A result of the opening book or of a layout (R560, R561, R269). -/
def Chip.cxByPlace (c : Chip) (k : Copy) (r : List Byte) : Chip :=
  let fl := resultFlight k r
  if k.next < 32768 then
    (if isEth k.ring then c.inc Reg.CLS.KIND_DROP
     else
       let x := c.expressCopies (meteredLen .can r) [{ fl.copy k.ring k.cls with deadline := k.deadline }]
       x.1.enqueueFrame none 0 x.2)
  else
    let w2 := c.layout k.epoch (k.next - 32768) 2
    let dw : Word64 := BitVec.ofNat 64 (fld w2 63 62 * 2 ^ 60 + fld w2 61 52 * 2 ^ 48 + fld w2 51 47 * 2 ^ 40)
    let dests := c.destinations k.epoch none dw
    let c1 := c.addTo Reg.CLS.KIND_DROP (dests.filter fun d => isEth d.1).length
    let x := c1.expressCopies (meteredLen .can r) ((dests.filter fun d => !isEth d.1).map fun d =>
      { fl.copy d.1 k.cls with ring := d.2, deadline := if d.1 < 64 then k.deadline else none, lb := d.1 = 71 })
    x.1.enqueueFrame none 0 x.2

/-- A successful fabric job (R459). -/
def Chip.cxContinue (c : Chip) (j : CxJob) (k : Copy) : Chip :=
  let c1 := c.tcount (cxProfileOff j.profile + 24) true
  let c2 := c1.inc (if j.op = 0x101 then Reg.CX.SEALED else Reg.CX.VERIFIED)
  if k.next < 16384 then c2.cxByAction k j.out else c2.cxByPlace k j.out

/-- The CX counter and the source of a fabric job's failure (R459, R467). -/
def Chip.cxCount (c : Chip) (status : Nat) : Chip :=
  match status with
  | 0x01 => c.incRaise Reg.CX.TAG_FAIL 0x070 9
  | 0x12 => c.incRaise Reg.CX.WINDOW 0x070 9
  | 0x13 => c.incRaise Reg.CX.REPLAY 0x070 9
  | 0x14 => c.incRaise Reg.CX.FREE_DROP 0x070 10
  | 0x06 => c.incRaise Reg.CX.NO_KEY 0x070 8
  | 0x11 => c.inc Reg.CX.FV_EXH
  | 0x10 => c.inc Reg.CX.BAD_LEN
  | _ => c

/-- A fabric job that ends with any status but OK (R459). -/
def Chip.cxDiscard (c : Chip) (j : CxJob) (k : Copy) : Chip :=
  let c1 := (c.tcount (cxProfileOff j.profile + 24) false).cxCount j.fail
  let c2 := (c1.setReg Reg.CX.LAST_FAIL (BitVec.ofNat 32 (2 ^ 31 + j.fail * 2 ^ 16 + j.profile % 1024))).setReg Reg.CX.LAST_FAIL_TIME c1.ns41
  let smp := c2.regAt k.epoch Reg.CX.FAIL_SMP
  if bit smp 6 then c2.mirrorOffer (fld smp 5 0) 12 k.src k.next k.epoch k.entry k.kind k.data false else c2

/-- JR_HEAD moves past every descriptor that is complete (R454, R467). -/
def Chip.jrAdvance (c : Chip) (k size : Nat) : Nat → Chip
  | 0 => c
  | n + 1 =>
    let h := c.fldOf (Reg.CX.JR_HEAD k) 11 0
    if c.cx.done.contains (k, h) then
      let c1 := { c with cx := { c.cx with done := c.cx.done.filter fun e => e != (k, h) } }
      (c1.setReg (Reg.CX.JR_HEAD k) (BitVec.ofNat 32 ((h + 1) % size))).jrAdvance k size n
    else c

/-- The end of a host job (R454): output, tag, DONE_WORD. `dma` 1 says that a write failed at PCIe; 2, 3 or 4 that the Adjudicator
discarded the write of the output, of the tag or of DONE_WORD, which ends the writes. The Arbiter keeps what its job gives (R460). -/
def Chip.cxHostDone (c : Chip) (j : CxJob) (dma : Nat) : Chip :=
  let status := if j.fail = 0 && j.outCap < j.out.length then 7 else if j.fail = 0 && dma = 1 then 8 else j.fail
  let w (c : Chip) (a : Nat) (d : List Byte) : Chip := if d.isEmpty then c else c.emit { kind := .hostWrite, unit := j.part, arg := a, data := d }
  let output (c : Chip) : Chip := if status = 0 then w c j.outAddr j.out else c
  let tag (c : Chip) : Chip := if status = 0 then w c (j.descAddr + 48) j.tagOut else c
  if j.part = arbPart then c
  else if 2 ≤ dma then
    Chip.raise (if dma = 2 then c else if dma = 3 then output c else tag (output c)) 0x070 (2 * j.part + 1)
  else
    let c1 := tag (output c)
    let word := 2 ^ 31 + status * 2 ^ 16 + (if status = 0 then j.out.length % 65536 else 0)
    let c2 := w c1 (j.descAddr + 44) (bytesLE 4 word)
    let c3 := if 4096 ≤ j.index then c2 else { c2 with cx := { c2.cx with done := c2.cx.done ++ [(j.part, j.index)] } }
    (c3.jrAdvance j.part ((c3.jrSize j.part).getD 4096) 4096).raise 0x070 (2 * j.part)

/-- The response to a CX_JOB message (R513). -/
def Chip.cxBnlDone (c : Chip) (j : CxJob) (r : BnlReq) : Chip :=
  let status := if j.fail = 0 && 1004 < j.out.length then 7 else j.fail
  let out := if status = 0 then j.out else []
  let tag := if status = 0 then j.tagOut else []
  c.bnlRespond r ([0, BitVec.ofNat 8 status] ++ bytesBE 2 out.length ++ bytesAt tag 0 16 ++ out)

/-- CX_JOB_DONE (R454, R459): job `id` ends, one that a core has or that has failed in the queue. -/
def doCxJobDone (id dma : Nat) (c : Chip) : Chip :=
  match c.cx.jobs.find? (fun j => j.id = id && (j.running || j.fail != 0)) with
  | none => c
  | some j =>
    let c1 := (c.setJobs (c.cx.jobs.filter fun i => i.id != id)).inc Reg.CX.JOBS_DONE
    match j.copy with
    | some k => if j.fail = 0 then c1.cxContinue j k else c1.cxDiscard j k
    | none =>
      match j.bnl with
      | some r => c1.cxBnlDone j r
      | none => c1.cxHostDone j dma

/-- The key of an SA as its commit captures it (R463): the slot is loaded and owned by the SEC page's owner, with USAGE
MACSEC and a key type that matches CIPHER; a secret-256 serves as a 256-bit key. -/
def Chip.saKeyFor (c : Chip) (q slot : Nat) : Option (List Byte) :=
  match c.slot? slot with
  | none => none
  | some s =>
    let big := c.fldOf (Reg.SEC.CTRL q) 0 0 = 1
    if s.owner = c.owner (pSec q) && !s.sys && natBits s.usage 6 6 = 1 && (if big then s.ktype = 2 || s.ktype = 5 else s.ktype = 1) then
      some s.key
    else none

/-- A commit of SA word 3 (R463): an INUSE entry is installed or refused with KEY_ERR and PAGE_ERR.BLOCK; an entry
without INUSE is removed. -/
def Chip.saCommit (c : Chip) (q n a : Nat) : Chip :=
  let off := saOff q n a
  let w0 := c.tword off
  let id := saKey q n a
  let c1 := (c.setTword off (setBit w0 61 false))
  if !bit w0 63 then { c1 with sas := eraseKey c1.sas id }
  else match c.saKeyFor q (fld w0 57 48) with
    | some key => { c1 with sas := insertKey c1.sas id { slot := fld w0 57 48, key := key } }
    | none => Chip.setErr { c1.setTword off (setBit w0 61 true) with sas := eraseKey c1.sas id } (pSec q) 7

end Sys2Proof.Machine
end

