-- ==== Sys2Proof/Machine/Memory.lean ====
section
/-! DEFINITION. Chapter 17: memory errors, the scrubber, leaky buckets, retirement, BIST and the retention SRAM. -/

/-
MARKS of the model choices coded here; the log rows say each in full.
DESIGN CHOICE (log 12, safe): sizes the spec does not give are constants with no body.
DESIGN CHOICE (log 49, unsafe): a pool shrinks at once when its cells are retired.
DESIGN CHOICE (log 63, unsafe): memory: retire list, BIST and watchdog events.
-/

namespace Sys2Proof.Machine

/-- The size of an instance in ranges of 512 words, where R469 and the window maps give it. -/
def instPages (m : Nat) : Nat :=
  match planeMem m with
  | some (_, u) =>
    if u ≤ 3 then 256 else if u = 4 then 128 else if u = 5 then 2 else if u = 9 then 64 else if u = 10 then 4096 else Config.instPages m
  | none => if m = 0xA1 then 256 else if m = 0xA2 then 64 else Config.instPages m

/-- The leak interval in femtoseconds; 0 stops the leak (R478). -/
def Chip.leakFs (c : Chip) : Nat := c.fldOf Reg.MEM.BUCKET_CFG 31 16 * fsSec

/-- A correctable error (R470, R478): counted, recorded, and one more in the leaky bucket or an overflow of it. -/
def Chip.memCe (c : Chip) (m addr : Nat) : Chip :=
  let c1 := (c.inc Reg.MEM.CE_TOTAL).inc (Reg.MEM.INST_CE m)
  let c2 := if c.rangeRetired m (addr / 512) then c1
    else (c1.setReg Reg.MEM.LAST_CE (BitVec.ofNat 32 (2 ^ 31 + m * 2 ^ 16))).setReg Reg.MEM.LAST_CE_ADDR (BitVec.ofNat 32 addr)
  let level := c2.fldOf (Reg.MEM.INST_STAT m) 31 24
  if level < c2.fldOf Reg.MEM.BUCKET_CFG 7 0 then c2.setFldOf (Reg.MEM.INST_STAT m) 31 24 (level + 1)
  else
    let last := sget 0 c2.mem.ovfAt m
    if last != 0 && c2.now + 1 < last + c2.leakFs then c2
    else
      let c3 := Chip.raise { c2 with mem := { c2.mem with ovfAt := sset 0 c2.mem.ovfAt m (c2.now + 1) } } 0x080 0
      c3.scoreLog 0x0051 2 0x080 (memDetail m 0 (c3.reg Reg.MEM.LAST_CE_ADDR).toNat)

/-- Effective SCRUB_PASS in femtoseconds (R484). -/
def Chip.scrubPass (c : Chip) : Nat := clampNat 1 86400 (c.fldOf Reg.MEM.SCRUB_PASS 16 0) * fsSec
def Chip.persistN (c : Chip) : Nat := Nat.max 1 (c.fldOf Reg.MEM.PERSIST_N 3 0)

/-- The tracker of 4 addresses after a scrub correction (R477). -/
def Chip.trackCe (c : Chip) (m addr pass : Nat) : Chip :=
  let t := sget [] c.mem.track m
  let put (c : Chip) (l : List TrackEnt) : Chip := { c with mem := { c.mem with track := sset [] c.mem.track m l } }
  match t.find? (fun e => e.addr = addr) with
  | some e =>
    let e' : TrackEnt := { e with passes := e.passes + 1, lastPass := pass }
    let c1 := put c (t.filter (fun x => x.addr != addr) ++ [e'])
    if e'.passes % c1.persistN = 0 then
      ((c1.inc Reg.MEM.PERSIST_EVT).raise 0x080 3).scoreLog 0x0052 2 0x080 (memDetail m 0 addr)
    else c1
  | none =>
    let new : TrackEnt := { addr := addr, passes := 1, lastPass := pass }
    let c1 := if t.length < 4 then put c (t ++ [new]) else put (c.inc Reg.MEM.TRACK_OVF) (t.drop 1 ++ [new])
    if c1.persistN = 1 then ((c1.inc Reg.MEM.PERSIST_EVT).raise 0x080 3).scoreLog 0x0052 2 0x080 (memDetail m 0 addr) else c1

/-- The scrubber has read the last word of an instance: the pass is complete (R475, R477). -/
def Chip.passDone (c : Chip) (m : Nat) : Chip :=
  let pass := c.fldOf (Reg.MEM.INST_STAT m) 6 0
  let kept := (sget [] c.mem.track m).filter fun e => e.lastPass = pass
  let late := decide (sget 0 c.mem.passStart m + c.scrubPass < c.now)
  let c1 := { c with mem := { c.mem with track := sset [] c.mem.track m kept, passStart := sset 0 c.mem.passStart m c.now } }
  let c2 := c1.setFldOf (Reg.MEM.INST_STAT m) 6 0 ((pass + 1) % 128)
  if late then c2 else c2.setBitOf (Reg.MEM.INST_STAT m) 14 false

/-- A pass that takes longer than SCRUB_PASS is late (R475). -/
def Chip.passLate (c : Chip) (m : Nat) : Chip :=
  if sget 0 c.mem.passStart m + c.scrubPass < c.now && !c.bitOf (Reg.MEM.INST_STAT m) 14 then
    (c.setBitOf (Reg.MEM.INST_STAT m) 14 true).raise 0x080 5
  else c

/-- SCRUB_READ (R475-R477): the scrubber reads a word; res 0 no error, 1 a correctable one that is written back, 2 an
uncorrectable one, 3 a correctable one whose write-back a functional write cancelled. `last` says that it is the last
word of the pass. -/
def doScrubRead (m addr res : Nat) (last : Bool) (c : Chip) : Chip :=
  if !c.bitOf Reg.MEM.CTRL 0 || !memExists m || (m = 0xA2 && c.bitOf Reg.MEM.RET_STAT 0) || 2 ^ 22 ≤ addr then c else
  let c0 := c.passLate m
  let c1 :=
    if c.rangeRetired m (addr / 512) then c0
    else if res = 1 then (c0.memCe m addr).trackCe m addr (c.fldOf (Reg.MEM.INST_STAT m) 6 0)
    else if res = 2 then c0.memUe m addr 1
    else if res = 3 then c0.memCe m addr
    else c0
  if last then c1.passDone m else c1

/-- BUCKET_LEAK (R478): every LEAK seconds a level falls by one. -/
def doBucketLeak (m : Nat) (c : Chip) : Chip :=
  let level := c.fldOf (Reg.MEM.INST_STAT m) 31 24
  if !memExists m || c.leakFs = 0 || level = 0 || c.now / c.leakFs ≤ sget 0 c.mem.leakAt m / c.leakFs then c
  else Chip.setFldOf { c with mem := { c.mem with leakAt := sset 0 c.mem.leakAt m c.now } } (Reg.MEM.INST_STAT m) 31 24 (level - 1)

/-- The outcome of a RETIRE_GO (R479). -/
def Chip.retireResult (c : Chip) (m pg : Nat) : Nat :=
  if memKind m = 0 then 2 else if instPages m ≤ pg then 3 else if c.rangeRetired m pg then 5 else if 64 ≤ c.retireUsed then 4 else 1

/-- RETIRE_GO (R479, R480): the range in RETIRE_ARG is retired. -/
def doRetireGo (k : Nat) (v : Word) (c : Chip) : Chip :=
  c.blockWrite k Reg.MEM.RETIRE_GO v 0xFFFFFFFF fun c =>
    if fld v 15 0 ≠ 0x5254 then c
    else
      let m := c.fldOf Reg.MEM.RETIRE_ARG 23 16
      let pg := c.fldOf Reg.MEM.RETIRE_ARG 11 0
      let r := c.retireResult m pg
      let c1 := c.setFldOf Reg.MEM.RETIRE_STAT 27 24 r
      if r ≠ 1 then c1
      else
        let n := c1.retireUsed
        let c2 := (c1.setReg (Reg.MEM.RETIRED n) (BitVec.ofNat 32 (2 ^ 31 + m * 2 ^ 16 + pg))).setFldOf Reg.MEM.RETIRE_STAT 6 0 (n + 1)
        if memKind m = 2 then
          Chip.fabDone c (Chip.setBitOf { c2 with mem := { c2.mem with alloc := c2.mem.alloc ++ [pg] } } Reg.MEM.RETIRE_STAT 31 true)
        else c2

/-- ALLOC_RETIRE_COMPLETE (R480): every cell of the range is out of use. -/
def doAllocRetireComplete (c : Chip) : Chip := c.setBitOf Reg.MEM.RETIRE_STAT 31 false

/-- The page of the block that holds an instance, for squares and the Arbiter; the planes have their own state. -/
def memBlock (m : Nat) : Option Nat :=
  if m < 0x40 then some (0x100 + m) else if 0x60 ≤ m && m < 0xA0 then some (0x100 + (m - 0x60)) else none

/-- The block of an instance is held in reset (R481): a square in reset, a retired plane, the Arbiter restarting. -/
def Chip.memInReset (c : Chip) (m : Nat) : Bool :=
  match planeMem m with
  | some (x, _) => decide (c.plState x = 2)
  | none =>
    match memBlock m with
    | some p => (lookupKey c.inReset p).isSome
    | none => m = 0xA1 && c.fldOf Reg.ARB.STATUS 2 0 = 2

/-- BIST and remap of an instance that found `bad` failing words (R481). -/
def Chip.bist (c : Chip) (m bad : Nat) : Chip :=
  if 8 < bad then (c.setBitOf (Reg.MEM.INST_STAT m) 15 true).raise 0x080 4
  else (c.setFldOf (Reg.MEM.INST_STAT m) 19 16 bad).setBitOf (Reg.MEM.INST_STAT m) 15 false

/-- BIST_RUN (R481): for an instance whose block is held in reset. -/
def doBistRun (k : Nat) (v : Word) (bad : Nat) (c : Chip) : Chip :=
  c.blockWrite k Reg.MEM.BIST_RUN v 0xFFFFFFFF fun c =>
    if fld v 31 16 ≠ 0x4254 || !memExists (fld v 7 0) || !c.memInReset (fld v 7 0) then c else c.bist (fld v 7 0) bad

/-- The Arbiter's firmware prepares the retention SRAM after a rise of VDD_AO (R482, R493). -/
def Chip.retInit (c : Chip) : Chip := if c.bitOf Reg.MEM.RET_STAT 0 then c.scoreClear 0 else c

/-- RET_INIT (R482): partition k (0-3) clears INIT_NEEDED, or the Arbiter (4) does once it has written the ring. -/
def doRetInit (k : Nat) (v : Word) (c : Chip) : Chip :=
  if k = 4 then (if c.arbRunning && fld v 15 0 = 0x5249 then c.retInit else c)
  else
    c.blockWrite k Reg.MEM.RET_INIT v 0xFFFFFFFF fun c =>
      if fld v 15 0 = 0x5249 then c.setBitOf Reg.MEM.RET_STAT 0 false else c

end Sys2Proof.Machine
end

