-- ==== Sys2Proof/Machine/Arbiter.lean ====
section
/-! DEFINITION. Chapter 18: the Arbiter's restarts and its command mailbox, the sensors, and the Scoresheet's ring and
archive. -/

/-
MARKS of the model choices coded here; the log rows say each in full.
DESIGN CHOICE (log 64, unsafe): Arbiter: watchdog, archive, sensors and counters.
-/

namespace Sys2Proof.Machine

/-- The Arbiter's record replaced. -/
def Chip.setArb (c : Chip) (a : ArbState) : Chip := { c with arb := a }

/-- STATUS.STATE (R498): 0 BOOT, 1 RUNNING, 2 RESTARTING, 3 FAILED. -/
def Chip.arbState (c : Chip) : Nat := c.fldOf Reg.ARB.STATUS 2 0
def Chip.setArbState (c : Chip) (s : Nat) : Chip := c.setFldOf Reg.ARB.STATUS 2 0 s

/-- A command of bank k ends with a result (R488): DONE for OK, FAIL for any other. -/
def Chip.arbEnd (c : Chip) (k op result : Nat) : Chip :=
  let c1 := c.setArb { c.arb with cmds := eraseKey c.arb.cmds k }
  (c1.setReg (Reg.ARB.CSTAT k) (BitVec.ofNat 32 (result % 16 * 2 ^ 8 + op % 256))).raise 0x090 (if result = 1 then 2 * k else 2 * k + 1)

/-- A warm restart begins (R485, R486, R489): the cores stop, commands that were running end with RESTARTED, the Arbiter
SRAM's bucket and trackers are cleared. Cause: 0 command, 1 watchdog, 2 core-pair mismatch, 3 firmware activation. -/
def Chip.arbRestart (c : Chip) (cause : Nat) : Chip :=
  let running := c.arb.cmds
  let c1 := if c.arbRunning then running.foldl (fun (c : Chip) (e : Nat × ArbCmd) => c.arbEnd e.1 e.2.op 5) c else c
  let c2 := (c1.setArbState 2).setArb { c1.arb with restartFrom := c1.now, cause := cause }
  let c3 := (c2.inc Reg.ARB.RESTART_CNT).setReg Reg.ARB.LAST_RESTART (BitVec.ofNat 32 (2 ^ 31 + cause))
  let c4 := { c3 with mem := { c3.mem with track := eraseKey c3.mem.track 0xA1 }, host := { c3.host with agent := [] } }
  let c5 := (c4.setFldOf (Reg.MEM.INST_STAT 0xA1) 31 24 0).scoreLog 0x0010 3 0x090 [BitVec.ofNat 8 cause]
  if cause = 1 || cause = 2 then c5.setAlarm 7 else c5

/-- ARB_CORE_MISMATCH (R485). -/
def doArbCoreMismatch (c : Chip) : Chip := if c.arbRunning then c.arbRestart 2 else c

/-- ARB_WATCHDOG_EXPIRY (R485): firmware has not kicked the watchdog for WDOG_CFG milliseconds. -/
def doArbWatchdogExpiry (c : Chip) : Chip := if c.arbRunning then c.arbRestart 1 else c

/-- RESTART (R485): the supervisor's write of 0x4152. It also leaves FAILED (R487). -/
def doRestart (k : Nat) (v : Word) (c : Chip) : Chip :=
  c.blockWrite k Reg.ARB.RESTART v 0xFFFFFFFF fun c =>
    if fld v 15 0 = 0x4152 && c.arbState != 2 then c.arbRestart 0 else c

/-- The unknown-command check of a bank (R488, R489): the OPs of the table and those of Gambit. -/
def arbKnown (op : Nat) : Bool := (1 ≤ op && op ≤ 5) || (0x40 ≤ op && op ≤ 0x44)

/-- A CMD write (R488, R489): discarded while BUSY; answered at once with UNAVAILABLE while FAILED. -/
def Chip.arbStart (c : Chip) (w k op : Nat) (bad : Bool) : Chip :=
  if 4 ≤ k then c else
  c.blockWrite w (Reg.ARB.CMD k) (BitVec.ofNat 32 (0x4143_0000 + op)) 0xFFFFFFFF fun c =>
    if c.bitOf (Reg.ARB.CSTAT k) 31 then c.setErr 0x090 7
    else if c.arbState = 3 then c.arbEnd k op 6
    else
      let c1 := c.setReg (Reg.ARB.CSTAT k) (BitVec.ofNat 32 (2 ^ 31 + c.fldOf (Reg.ARB.CSTAT k) 11 8 * 2 ^ 8 + op))
      c1.setArb { c1.arb with cmds := insertKey c1.arb.cmds k { op := op, bad := bad } }

/-- PING, FLUSH, ARCH_READ, EYE_SCAN, MKA (R489): partition w writes the command of bank k. -/
def doPing (w k : Nat) (c : Chip) : Chip := c.arbStart w k 0x01 false
def doFlush (w k : Nat) (c : Chip) : Chip := c.arbStart w k 0x02 false
def doArchRead (w k : Nat) (c : Chip) : Chip := c.arbStart w k 0x03 false
def doEyeScan (w k : Nat) (c : Chip) : Chip := c.arbStart w k 0x04 false
def doMka (w k : Nat) (c : Chip) : Chip := c.arbStart w k 0x05 false

/-- The 32 bytes of a Scoresheet entry (R492). -/
def ScoreEntry.bytes (e : ScoreEntry) : List Byte :=
  bytesLE 4 e.seq ++ bytesLE 2 e.code ++
    [BitVec.ofNat 8 ((if e.loss then 128 else 0) + (match e.plane with | some x => 64 + x % 2 * 32 | none => 0) + e.tempo % 4 * 8 + e.sev % 8),
     BitVec.ofNat 8 (match e.part with | some k => 128 + k % 4 | none => 0)] ++
    bytesLE 8 e.time ++ bytesLE 2 e.page ++ bytesLE 2 e.epoch ++ bytesAt e.detail 0 12

/-- SEQ after a sequence number (R492). -/
def seqAfter (s : Nat) : Nat := if 0xFFFFFFFF ≤ s then 1 else s + 1

/-- SEQ s exceeds FLUSHED_SEQ (R495), on the circle of 32-bit numbers up to LAST_SEQ. -/
def Chip.seqUnflushed (c : Chip) (s : Nat) : Bool :=
  let f := (c.reg Reg.SCORE.FLUSHED_SEQ).toNat
  let ahead (x : Nat) : Nat := (x + 2 ^ 32 - f) % 2 ^ 32
  s != 0 && ahead s != 0 && decide (ahead s ≤ ahead (c.reg Reg.SCORE.LAST_SEQ).toNat)

/-- SCORE_ENTRY_WRITE (R492, R493, R495): the writer takes the oldest entry of its queue; entries wait while the retention
SRAM is not initialised. -/
def doScoreEntryWrite (c : Chip) : Chip :=
  if c.bitOf Reg.MEM.RET_STAT 0 then c else
  match c.score.queue with
  | [] => c
  | e :: rest =>
    let i := c.fldOf Reg.SCORE.WR_IDX 12 0
    let old := sget {} c.score.ring i
    let seq := seqAfter (c.reg Reg.SCORE.LAST_SEQ).toNat
    let c1 := { c with score := { c.score with
        queue := rest, lossNext := false, ring := sset {} c.score.ring i { e with seq := seq, loss := e.loss || c.score.lossNext },
        critAt := if e.sev = 4 then some c.now else c.score.critAt } }
    let c2 := if c.seqUnflushed old.seq then c1.incRaise Reg.SCORE.OVERWRITTEN 0x091 0 else c1
    let c3 := (c2.setReg Reg.SCORE.WR_IDX (BitVec.ofNat 32 ((i + 1) % 8192))).setReg Reg.SCORE.LAST_SEQ (BitVec.ofNat 32 seq)
    if c3.fldOf Reg.SCORE.SEV_IRQ 2 0 ≤ e.sev then c3.raise 0x091 2 else c3

/-- Pages of the archive region (R531). -/
def Chip.archPages (c : Chip) : Nat := Nat.max 1 ((c.fldOf Reg.XSPI.DEV0_SIZE 9 0 * 2 ^ 20 - 0x0613_0000) / 4096)

/-- One entry is copied to the archive (R495, R496): the first of a block erases the next page. -/
def Chip.archiveEntry (c : Chip) (e : ScoreEntry) : Chip :=
  let block := (e.seq - 1) / 128
  let slot := (e.seq - 1) % 128
  let fresh := match c.score.archPage with | none => true | some _ => slot = 0 || block != c.score.archBlock
  let page := match c.score.archPage with | none => 0 | some p => if fresh then (p + 1) % c.archPages else p
  let kept := if fresh then c.score.archive.filter (fun (x : Nat × ScoreEntry) => x.1 / 128 != page) else c.score.archive
  let c1 := { c with score := { c.score with archive := insertKey kept (page * 128 + slot) e, archPage := some page, archBlock := block } }
  if fresh then c1.inc Reg.XSPI.ERASES else c1

/-- The unflushed entries of the ring, oldest first. -/
def Chip.unflushed (c : Chip) : List ScoreEntry :=
  let w := c.fldOf Reg.SCORE.WR_IDX 12 0
  let all := c.score.ring.filter fun (x : Nat × ScoreEntry) => c.seqUnflushed x.2.seq
  ((all.filter fun x => decide (w ≤ x.1)) ++ all.filter fun x => decide (x.1 < w)).map (·.2)

/-- A flush (R495). -/
def Chip.scoreFlush (c : Chip) : Chip :=
  let c1 := c.unflushed.foldl (fun (c : Chip) e => c.archiveEntry e) c
  Chip.setReg { c1 with score := { c1.score with lastFlush := c1.now, critAt := none } } Reg.SCORE.FLUSHED_SEQ (c1.reg Reg.SCORE.LAST_SEQ)

/-- A trigger of R495 applies. -/
def Chip.flushDue (c : Chip) : Bool :=
  let s := c.fldOf Reg.SCORE.FLUSH_CFG 31 16
  let n := ((c.reg Reg.SCORE.LAST_SEQ).toNat + 2 ^ 32 - (c.reg Reg.SCORE.FLUSHED_SEQ).toNat) % 2 ^ 32
  decide (Nat.max 1 (c.fldOf Reg.SCORE.FLUSH_CFG 12 0) ≤ n) || (s != 0 && decide (c.score.lastFlush + s * fsSec ≤ c.now)) || c.score.critAt.isSome

/-- SCORE_FLUSH (R495). -/
def doScoreFlush (c : Chip) : Chip := if c.arbRunning && c.flushDue then c.scoreFlush else c

/-- ENT7_READ (R494): reader k; the owner's read advances CURSOR. -/
def doEnt7Read (k : Nat) (seen : Bool) (c : Chip) : Chip :=
  let cur := c.fldOf Reg.SCORE.CURSOR 12 0
  let w := leAt (sget ({} : ScoreEntry) c.score.ring cur).bytes 28 4
  c.volatileRead k Reg.SCORE.ENT7 seen (BitVec.ofNat 32 w) fun c => c.setReg Reg.SCORE.CURSOR (BitVec.ofNat 32 ((cur + 1) % 8192))

/-- The period of a sensor channel (R490): temperatures every 10 ms, rails and clocks every 1 ms. -/
def sensPeriod (ch : Nat) : Nat := if ch < 8 then 10 * fsMs else fsMs

/-- A 16-bit signed field of a register. -/
def Chip.s16 (c : Chip) (a hi : Nat) : Int := toSigned 16 (c.fldOf a hi (hi - 15))

/-- A SENS_CROSS entry (R490, R492): side 0 below LO, 1 above HI, 2 back within. -/
def Chip.sensLog (c : Chip) (ch side val lim : Nat) : Chip :=
  c.scoreLog 0x0020 (if side = 2 then 1 else 2) 0x092
    ([BitVec.ofNat 8 ch, BitVec.ofNat 8 side, 0, 0] ++ bytesLE 2 val ++ bytesLE 2 lim)

/-- The window check of a sample (R490). -/
def Chip.sensCheck (c : Chip) (ch val : Nat) : Chip :=
  let v := toSigned 16 val
  let lim := Reg.SENS.LIM ch
  let hi := c.s16 lim 31
  let lo := c.s16 lim 15
  let hy : Int := Int.ofNat (c.fldOf (Reg.SENS.HYST ch) 15 0)
  let side := sget 0 c.arb.side ch
  let now := if v < lo then 1 else if hi < v then 2 else 0
  let put (c : Chip) (s : Nat) : Chip := c.setArb { c.arb with side := sset 0 c.arb.side ch s }
  let limOf (s : Nat) : Nat := if s = 1 then c.fldOf lim 15 0 else c.fldOf lim 31 16
  if now ≠ 0 && now ≠ side then
    let c1 := ((put c now).setBitOf Reg.SENS.FIRED ch true).setBitOf Reg.SENS.LIVE ch true
    ((c1.raise 0x092 0).setAlarm 10).sensLog ch (now - 1) val (limOf now)
  else if side ≠ 0 && lo + hy ≤ v && v ≤ hi - hy then
    ((put c 0).setBitOf Reg.SENS.LIVE ch false).sensLog ch 2 val (limOf side)
  else c

/-- SENS_SAMPLE (R490): channel ch reads val. -/
def doSensSample (ch val : Nat) (c : Chip) : Chip :=
  let due := match lookupKey c.arb.sampled ch with | none => 0 | some t => t + sensPeriod ch
  if 24 ≤ ch || c.now < due then c else
  let c1 := (c.setArb { c.arb with sampled := insertKey c.arb.sampled ch c.now }).setReg (Reg.SENS.VAL ch) (BitVec.ofNat 32 (val % 65536))
  let mx := c1.s16 (Reg.SENS.MINMAX ch) 31
  let mn := c1.s16 (Reg.SENS.MINMAX ch) 15
  let v := toSigned 16 val
  let c2 := if mx < v then c1.setFldOf (Reg.SENS.MINMAX ch) 31 16 (val % 65536) else c1
  let c3 := if v < mn then c2.setFldOf (Reg.SENS.MINMAX ch) 15 0 (val % 65536) else c2
  if c3.bitOf Reg.SENS.CTRL 0 then c3.sensCheck ch val else c3

/-- An eye has been measured on a SerDes square (R491): height in mV, width in 1/1,000 UI. -/
def Chip.eyeMeasured (c : Chip) (q eye : Nat) : Chip :=
  let c1 := c.setReg (Reg.SDS.EYE q) (BitVec.ofNat 32 eye)
  if eye / 2 ^ 16 % 2 ^ 16 < c1.fldOf Reg.SENS.EYE_CFG 15 0 then
    ((c1.setBitOf Reg.SENS.EYE_LOW (q - 48) true).raise 0x092 1).scoreLog 0x0021 2 0x092
      ([BitVec.ofNat 8 q, 0, 0, 0] ++ bytesLE 2 (eye / 2 ^ 16))
  else c1

/-- EYE_SCAN_PERIODIC (R491): every EYE_S seconds, every SerDes square whose link is up; `eyes` are the values measured on
squares 48 onwards. -/
def doEyeScanPeriodic (eyes : List Nat) (c : Chip) : Chip :=
  let s := c.fldOf Reg.SENS.EYE_CFG 31 16
  if s = 0 || !c.arbRunning || c.now < c.arb.eyeAt + s * fsSec then c else
  (List.range 16).foldl (fun (c : Chip) i => if c.bitOf (Reg.ETH.STATUS (48 + i)) 0 then c.eyeMeasured (48 + i) (eyes.getD i 0) else c)
    (c.setArb { c.arb with eyeAt := c.now })

/-- What an Arbiter command of partition k answers (R489): the result and the response words. `eye` is what an EYE_SCAN
measures. -/
def Chip.arbExec (c : Chip) (k op : Nat) (args : List Nat) (eye : Nat) : Chip × Nat × List Nat :=
  let a0 := args.getD 0 0
  let serdes := 48 ≤ a0 && a0 < 64
  if op = 0x01 then (c, 1, [(c.reg Reg.ARB.FW_VER).toNat, (c.reg Reg.ARB.HEARTBEAT).toNat])
  else if op = 0x02 then
    let c1 := c.scoreFlush
    (c1, 1, [(c1.reg Reg.SCORE.FLUSHED_SEQ).toNat])
  else if op = 0x03 then
    (match c.score.archive.find? (fun (e : Nat × ScoreEntry) => a0 != 0 && e.2.seq = a0) with
     | none => (c, 4, [])
     | some e => (c, 1, (List.range 8).map fun j => leAt e.2.bytes (4 * j) 4))
  else if op = 0x04 then
    (if !serdes then (c, 2, [])
     else
       let c1 := c.eyeMeasured a0 eye
       (c1, 1, [(c1.reg (Reg.SDS.EYE a0)).toNat]))
  else if op = 0x05 then
    (if !serdes then (c, 2, [])
     else if c.owner (pSec a0) ≠ k then (c, 3, [])
     else (c.setArb { c.arb with mka := sset false c.arb.mka a0 (args.getD 1 0 % 2 = 1) }, 1, []))
  else (c, 2, [])

end Sys2Proof.Machine
end

