-- ==== Sys2Proof/Machine/Bridge.lean ====
section
/-! DEFINITION. Chapter 19, remote windows: BAR4 accesses, tags, AtomicOps, semaphores and the window error log. -/

/-
MARKS of the model choices coded here; the log rows say each in full.
PRESUMED (log 65, unsafe): byte order of Benolsia bodies.
DESIGN CHOICE (log 66, unsafe): the window bridge: locks, failed atomics, dropped writes and stalls.
-/

namespace Sys2Proof.Machine

/-- The bridge's part of the state replaced. -/
def Chip.setHost (c : Chip) (h : HostState) : Chip := { c with host := h }
def Chip.setBrg (c : Chip) (l : List BrgReq) : Chip := c.setHost { c.host with brg := l }

/-- Completion codes of PCIe: 0 successful, 1 Unsupported Request, 4 Completer Abort. -/
def Chip.complete (c : Chip) (k code : Nat) (data : List Byte) : Chip :=
  let c1 := c.emit { kind := .hostDone, unit := k, arg := code, data := data }
  if code = 4 then c1.inc Reg.BRG.CA_CNT else c1

/-- Fields of WIN_CFG(w) (R527). -/
def Chip.winOwner (c : Chip) (w : Nat) : Nat := c.fldOf (Reg.BRG.WIN_CFG w) 29 28
def Chip.winSize (c : Chip) (w : Nat) : Nat := (c.fldOf (Reg.BRG.WIN_CFG w) 27 24 + 1) * 2 ^ 20
def Chip.winBase (c : Chip) (w : Nat) : Nat := (c.reg (Reg.BRG.WIN_RBASE_HI w)).toNat * 2 ^ 32 + (c.reg (Reg.BRG.WIN_RBASE_LO w)).toNat
def Chip.faulted (c : Chip) (w : Nat) : Bool := c.bitOf Reg.BRG.FAULTED w

/-- The access of partition k to BAR4 is mapped (R517, R527). -/
def Chip.winMapped (c : Chip) (k off len : Nat) : Bool :=
  let w := off / 2 ^ 24
  decide (w < 16) && c.bitOf Reg.BRG.CTRL 0 && c.bitOf (Reg.BRG.WIN_CFG w) 31 && decide (c.winOwner w = k) &&
    decide (off % 2 ^ 24 + len ≤ c.winSize w)

/-- A message of window w to its agent (R517, R519). -/
def Chip.winSend (c : Chip) (w typ tag : Nat) (body : List Byte) : Chip :=
  let hi := c.reg (Reg.BRG.WIN_MAC_HI w)
  c.bnlSend (c.fldOf (Reg.BRG.WIN_CFG w) 15 0) (fld hi 15 0 * 2 ^ 32 + (c.reg (Reg.BRG.WIN_MAC_LO w)).toNat)
    (c.fldOf (Reg.BRG.WIN_CFG w) 21 16) (if bit hi 31 then some (fld hi 27 16) else none) typ (w * 64 + tag) body

/-- Bodies of the window messages (R513). -/
def readBody (addr len : Nat) : List Byte := bytesBE 8 addr ++ bytesBE 2 len
def writeBody (addr : Nat) (lease : Bool) (d : List Byte) : List Byte := bytesBE 8 addr ++ [if lease then 1 else 0, 0] ++ d
def lockBody (addr len : Nat) (renew : Bool) : List Byte := bytesBE 8 addr ++ bytesBE 4 len ++ [if renew then 1 else 0]

/-- A window error log entry (R527): 16 deep, a further one is counted. -/
def Chip.werrLog (c : Chip) (kind win status tag off : Nat) : Chip :=
  if c.host.werr.length < 16 then
    c.setHost { c.host with werr := c.host.werr ++ [{ kind := kind, win := win, status := status, tag := tag, off := off, time := c.ns }] }
  else c.inc Reg.BRG.WERR_LOST

/-- A window becomes FAULTED (R521). -/
def Chip.faultWin (c : Chip) (w : Nat) : Chip := (c.setBitOf Reg.BRG.FAULTED w true).raise 0x0B0 w

/-- Tags of window w in use, and the lowest free one (R519). -/
def Chip.winTags (c : Chip) (w : Nat) : List Nat := (c.host.brg.filter fun r => r.win = w && r.stage != 0).map (·.tag)
def Chip.freeTag (c : Chip) (w : Nat) : Option Nat := (List.range 64).find? fun t => !(c.winTags w).contains t

/-- The message that a request sends now (R520, R521, R524). -/
def Chip.sendReq (c : Chip) (r : BrgReq) : Chip :=
  let a := c.winBase r.win + r.off
  match r.atomic with
  | some m =>
    if m.step = 1 then c.winSend r.win 0x12 r.tag (lockBody (a / 64 * 64) 64 false)
    else if m.step = 2 then c.winSend r.win 0x10 r.tag (readBody a r.len)
    else c.winSend r.win 0x11 r.tag (writeBody a true r.data)
  | none => if r.write then c.winSend r.win 0x11 r.tag (writeBody a false r.data) else c.winSend r.win 0x10 r.tag (readBody a r.len)

/-- A request with a tag is in flight. -/
def Chip.replaceReq (c : Chip) (r : BrgReq) : Chip :=
  c.setBrg (c.host.brg.map fun x => if x.stage != 0 && x.win = r.win && x.tag = r.tag then r else x)
def Chip.dropReq (c : Chip) (r : BrgReq) : Chip :=
  c.setBrg (c.host.brg.filter fun x => !(x.stage != 0 && x.win = r.win && x.tag = r.tag))
def Chip.reqOf (c : Chip) (w t : Nat) : Option BrgReq := c.host.brg.find? fun x => x.stage != 0 && x.win = w && x.tag = t

/-- The first request without a tag that may go now: the first of its window, with a free tag; an AtomicOp needs the
window's semaphore (R519, R524). -/
def Chip.nextReq (c : Chip) : List Nat → List BrgReq → Option (BrgReq × Nat)
  | _, [] => none
  | seen, r :: rest =>
    if r.stage ≠ 0 then c.nextReq seen rest
    else if seen.contains r.win then c.nextReq seen rest
    else match c.freeTag r.win with
      | none => c.nextReq (r.win :: seen) rest
      | some t => if r.atomic.isSome && (lookupKey c.host.sems r.win).isSome then c.nextReq (r.win :: seen) rest else some (r, t)

/-- The first request without a tag of window w takes its new form. -/
def startReq (w : Nat) (r' : BrgReq) : List BrgReq → List BrgReq
  | [] => []
  | x :: rest => if x.stage = 0 && x.win = w then r' :: rest else x :: startReq w r' rest

/-- Requests that can go leave, in order (R519). -/
def Chip.pump (c : Chip) : Nat → Chip
  | 0 => c
  | n + 1 =>
    match c.nextReq [] c.host.brg with
    | none => c
    | some (r, t) =>
      let m := r.atomic.map fun (a : AtomicReq) => { a with step := 1 }
      let r' : BrgReq := { r with tag := t, stage := 1, since := c.now, atomic := m }
      let c1 := c.setBrg (startReq r.win r' c.host.brg)
      let c2 := if m.isSome then
          c1.setHost { c1.host with sems := insertKey c1.host.sems r.win { part := 4, since := c.now, renewed := c.now } } else c1
      (c2.sendReq r').pump n

/-- Every request that can go. -/
def Chip.pumpAll (c : Chip) : Chip := c.pump c.host.brg.length

/-- A request of endpoint k is accepted, refused, aborted, or stalled when the endpoint's queue of 64 is full
(R517, R519, R521). -/
def Chip.bar4 (c : Chip) (k off len : Nat) (posted : Bool) (r : BrgReq) : Chip :=
  if 4 ≤ k || !(c.part k).linkUp then c
  else if !c.winMapped k off len then (if posted then c else c.complete k 1 [])
  else if c.faulted (off / 2 ^ 24) then (if posted then c.inc Reg.BRG.CA_CNT else c.complete k 4 [])
  else if 64 ≤ (c.host.brg.filter fun x => x.ep = k && x.stage = 0).length then c
  else (c.setBrg (c.host.brg ++ [r])).pumpAll

/-- BAR4_READ (R520): endpoint k reads len bytes at a BAR4 offset. -/
def doBar4Read (k off len : Nat) (c : Chip) : Chip :=
  if len = 0 || 512 < len then (if k < 4 && (c.part k).linkUp then c.complete k 1 [] else c)
  else c.bar4 k off len false { win := off / 2 ^ 24, ep := k, write := false, off := off % 2 ^ 24, len := len }

/-- BAR4_WRITE (R521): endpoint k writes data at a BAR4 offset. -/
def doBar4Write (k off : Nat) (d : List Byte) (c : Chip) : Chip :=
  if d.isEmpty || 256 < d.length then c
  else c.bar4 k off d.length true { win := off / 2 ^ 24, ep := k, write := true, off := off % 2 ^ 24, len := d.length, data := d }

/-- BAR4_ATOMIC_OP (R501, R502, R524): op 0 FetchAdd, 1 Swap, 2 CAS (compare a, swap b) on 4 or 8 bytes; other sizes are
unsupported. -/
def doBar4AtomicOp (k off op size a b : Nat) (c : Chip) : Chip :=
  if 2 < op || (size ≠ 4 && size ≠ 8) then (if k < 4 && (c.part k).linkUp then c.complete k 1 [] else c)
  else c.bar4 k off size false
    { win := off / 2 ^ 24, ep := k, write := true, off := off % 2 ^ 24, len := size, atomic := some { op := op, a := a, b := b } }

/-- The semaphore of a window is released and UNLOCK is sent (R523). -/
def Chip.semRelease (c : Chip) (w addr : Nat) : Chip :=
  let c1 := c.setHost { c.host with sems := eraseKey c.host.sems w }
  (c1.winSend w 0x13 0 (bytesBE 8 addr)).pumpAll

/-- The result of an AtomicOp (R524): none where a CAS does not match. -/
def atomicResult (m : AtomicReq) (size old : Nat) : Option Nat :=
  match m.op with
  | 0 => some ((old + m.a) % 2 ^ (8 * size))
  | 1 => some (m.a % 2 ^ (8 * size))
  | _ => if old = m.a % 2 ^ (8 * size) then some (m.b % 2 ^ (8 * size)) else none

/-- An AtomicOp ends: the tag and the semaphore return, with UNLOCK, and the request completes. -/
def Chip.atomicEnd (c : Chip) (r : BrgReq) (code : Nat) (data : List Byte) : Chip :=
  ((c.dropReq r).semRelease r.win ((c.winBase r.win + r.off) / 64 * 64)).complete r.ep code data

/-- A response to a step of an AtomicOp (R524). -/
def Chip.atomicStep (c : Chip) (r : BrgReq) (m : AtomicReq) (status : Nat) (data : List Byte) : Chip :=
  let go (r' : BrgReq) : Chip := (c.replaceReq r').sendReq r'
  if status ≠ 0 then
    (if m.step = 3 && status ≠ 5 then ((c.werrLog 1 r.win status r.tag r.off).faultWin r.win).atomicEnd r 4 []
     else (c.werrLog 4 r.win status r.tag r.off).atomicEnd r 4 [])
  else if m.step = 1 then go { r with stage := 1, atomic := some { m with step := 2 } }
  else if m.step = 2 then
    let old := leAt data 0 r.len
    match atomicResult m r.len old with
    | none => c.atomicEnd r 0 (bytesLE r.len old)
    | some v => go { r with stage := 1, data := bytesLE r.len v, atomic := some { m with step := 3, got := old } }
  else c.atomicEnd r 0 (bytesLE r.len m.got)

/-- The TYPE of the message that a request waits for. -/
def BrgReq.waitsFor (r : BrgReq) : Nat :=
  match r.atomic with
  | some m => if m.step = 1 then 0x12 else if m.step = 2 then 0x10 else 0x11
  | none => if r.write then 0x11 else 0x10

/-- BNL_RESPONSE_RECEIVED (R520-R522): the bridge takes the oldest response. -/
def doBnlResponseReceived (c : Chip) : Chip :=
  match c.host.responses with
  | [] => c
  | m :: rest =>
    let c0 := c.setHost { c.host with responses := rest }
    let w := m.tag / 64 % 16
    let t := m.tag % 64
    let typ := m.typ % 128
    let status := leAt m.body 0 1
    match c0.reqOf w t with
    | none => if typ = 0x10 || typ = 0x11 then (c0.werrLog 3 w status t 0).incRaise Reg.BRG.LATE_RSP 0x0B0 16 else c0
    | some r =>
      if r.waitsFor ≠ typ then c0
      else if r.stage = 2 then c0
      else if status = 4 then c0.replaceReq { r with stage := 2, retryAt := c0.now + 50 * fsUs }
      else match r.atomic with
        | some a => c0.atomicStep r a status (m.body.drop 4)
        | none =>
          if r.write then
            (if status = 0 then (c0.dropReq r).pumpAll
             else (((c0.dropReq r).werrLog 1 w status t r.off).faultWin w).pumpAll)
          else if status = 0 then ((c0.dropReq r).complete r.ep 0 (bytesAt m.body 4 r.len)).pumpAll
          else (((c0.dropReq r).werrLog 4 w status t r.off).complete r.ep 4 []).pumpAll

/-- TIMEOUT in femtoseconds (R527). -/
def Chip.brgTimeout (c : Chip) : Nat := clampNat 100 50000 (c.fldOf Reg.BRG.TIMEOUT 15 0) * fsUs

/-- BRIDGE_TAG_TIMEOUT (R520, R521, R524): the tag t of window w has no response within TIMEOUT. -/
def doBridgeTagTimeout (w t : Nat) (c : Chip) : Chip :=
  match c.reqOf w t with
  | none => c
  | some r =>
    if c.now < r.since + c.brgTimeout then c else
    let c1 := c.inc Reg.BRG.TIMEOUTS
    match r.atomic with
    | some m =>
      if m.step = 3 then ((c1.werrLog 2 w 0 t r.off).faultWin w).atomicEnd r 4 []
      else (c1.werrLog 5 w 0 t r.off).atomicEnd r 4 []
    | none =>
      if r.write then (((c1.dropReq r).werrLog 2 w 0 t r.off).faultWin w).pumpAll
      else (((c1.dropReq r).werrLog 5 w 0 t r.off).complete r.ep 4 []).pumpAll

/-- BRIDGE_BUSY_RETRY (R520): 50 microseconds after BUSY the request goes again, with a new SEQ and the same TAG. -/
def doBridgeBusyRetry (w t : Nat) (c : Chip) : Chip :=
  match c.reqOf w t with
  | none => c
  | some r =>
    if r.stage ≠ 2 || c.now < r.retryAt then c
    else
      let r' : BrgReq := { r with stage := 1 }
      (c.replaceReq r').sendReq r'

/-- SEM_ACQUIRE_READ (R523): partition k reads SEM(w). -/
def doSemAcquireRead (k w : Nat) (seen : Bool) (c : Chip) : Chip :=
  if 16 ≤ w || (lookupKey c.inReset 0x0B0).isSome || c.winOwner w ≠ k then c
  else match lookupKey c.host.sems w with
    | some _ => c.echo k (Reg.BRG.SEM w) 0 seen
    | none =>
      let c1 := c.setHost { c.host with sems := insertKey c.host.sems w { part := k, since := c.now, renewed := c.now } }
      (c1.winSend w 0x12 0 (lockBody (c1.winBase w) (c1.winSize w) false)).echo k (Reg.BRG.SEM w) 1 seen

/-- SEM_RELEASE (R523): partition k writes SEM(w). -/
def doSemRelease (k w : Nat) (c : Chip) : Chip :=
  if 16 ≤ w then c
  else if c.winOwner w ≠ k then c.deny k true false 0x0B0 (Reg.BRG.SEM w)
  else if (lookupKey c.inReset 0x0B0).isSome then c.setErr 0x0B0 8
  else if (lookupKey c.host.sems w).any (fun s => s.part = k) then c.semRelease w (c.winBase w) else c

/-- SEM_LEASE_RENEW (R523). -/
def doSemLeaseRenew (w : Nat) (c : Chip) : Chip :=
  match lookupKey c.host.sems w with
  | none => c
  | some s =>
    if s.part = 4 || c.now < s.renewed + 500 * fsUs then c
    else
      let c1 := c.setHost { c.host with sems := insertKey c.host.sems w { s with renewed := c.now } }
      c1.winSend w 0x12 0 (lockBody (c1.winBase w) (c1.winSize w) true)

/-- SEM_HOLD_TIMEOUT (R523). -/
def doSemHoldTimeout (w : Nat) (c : Chip) : Chip :=
  match lookupKey c.host.sems w with
  | none => c
  | some s =>
    if s.part = 4 || c.now < s.since + c.fldOf Reg.BRG.SEM_HOLD 15 0 * fsUs then c
    else (c.semRelease w (c.winBase w)).raise 0x0B0 17

/-- WERR_POP as it reads (R527). -/
def WErr.word (e : WErr) : Word :=
  BitVec.ofNat 32 (2 ^ 31 + e.kind % 8 * 2 ^ 28 + e.win % 16 * 2 ^ 24 + e.status % 256 * 2 ^ 16 + e.tag % 64)

/-- WERR_POP (R527): reader k; the owner's read pops the oldest entry. -/
def doWerrPop (k : Nat) (seen : Bool) (c : Chip) : Chip :=
  match c.host.werr with
  | [] => c.volatileRead k Reg.BRG.WERR_POP seen 0 id
  | e :: rest =>
    c.volatileRead k Reg.BRG.WERR_POP seen e.word fun c =>
      ((c.setHost { c.host with werr := rest }).setReg Reg.BRG.WERR_ADDR (BitVec.ofNat 32 e.off)).setReg Reg.BRG.WERR_TIME
        (BitVec.ofNat 32 (e.time / 1024))

/-- Open requests end with Completer Abort and semaphores are released, without messages (R525). -/
def Chip.brgAbort (c : Chip) : Chip :=
  let c1 := c.host.brg.foldl (fun (c : Chip) r => if r.write && r.atomic.isNone then c else c.complete r.ep 4 []) c
  c1.setHost { c1.host with brg := [], sems := [] }

end Sys2Proof.Machine
end

