-- ==== Sys2Proof/Machine/Hosts.lean ====
section
/-! DEFINITION. Chapter 19, host partitions: attachment, Function Level Reset and the DMA rings (R503-R510, R588). -/

/-
MARKS of the model choices coded here; the log rows say each in full.
DESIGN CHOICE (log 89, safe): electrical, thermal and mechanical data have no state.
DESIGN CHOICE (log 90, unsafe): interrupt messages: which vectors a write repeats, and the message of a mask write.
PRESUMED (log 121, unsafe): the function's MSI-X state as PCI Express has it.
-/

namespace Sys2Proof.Machine

/-- HDMA page of endpoint k. -/
def pHdma (k : Nat) : Nat := 0x0C0 + k

/-- The queue of ring signalling forgets endpoint k. -/
def Chip.hdmaForget (c : Chip) (k : Nat) : Chip :=
  c.setHost { c.host with
    rx := c.host.rx.filter (fun (e : Nat × RxPend) => e.1 / 32 != k),
    txLast := c.host.txLast.filter (fun (e : Nat × Nat) => e.1 / 4 != k),
    done := eraseKey c.host.done k }

/-- The HDMA page back at its reset values; STATUS follows the link (R503, R525). -/
def Chip.hdmaReset (c : Chip) (k : Nat) : Chip :=
  let st := c.reg (Reg.HDMA.STATUS k)
  (((c.resetPage (pHdma k)).setReg (Reg.HDMA.STATUS k) st).hdmaForget k).pbaSettle

/-- Every semaphore that partition k holds is released, with UNLOCK (R503, R523). -/
def Chip.semsRelease (c : Chip) (k : Nat) : Chip :=
  (c.host.sems.filter fun (e : Nat × SemHold) => e.2.part = k).foldl
    (fun (c : Chip) (e : Nat × SemHold) => c.semRelease e.1 (c.winBase e.1)) c

/-- PRESUMED (log 121): as PCI Express Base 4.0 has it, a reset of the function masks every MSI-X vector and clears its
pending-bit array (R62). -/
def Chip.msixReset (c : Chip) (k : Nat) : Chip :=
  Chip.setPart { c with pba := c.pba.filter fun e => e.1 != k } k { c.part k with unmasked := [] }

/-- A Function Level Reset of HPk (R503). -/
def Chip.flr (c : Chip) (k : Nat) : Chip :=
  let c1 := (c.hdmaReset k).msixReset k
  let c2 := c1.setBrg (c1.host.brg.filter fun (r : BrgReq) => !(decide (r.ep = k) && decide (r.stage = 0)))
  c2.semsRelease k

/-- FUNCTION_LEVEL_RESET (R503). -/
def doFunctionLevelReset (k : Nat) (c : Chip) : Chip := if 4 ≤ k then c else c.flr k

/-- The link of endpoint k goes down (R504, R54). -/
def Chip.linkOff (c : Chip) (k : Nat) : Chip :=
  let p := c.part k
  let c1 := c.setPart k { p with linkUp := false, absentSince := if p.linkUp then some c.now else p.absentSince }
  (c1.msixReset k).setReg (Reg.HDMA.STATUS k) 0

/-- PERST_ASSERT (R588). -/
def doPerstAssert (k : Nat) (c : Chip) : Chip :=
  if 4 ≤ k then c else
  let c1 := c.linkOff k
  (c1.setPart k { c1.part k with perst := true }).flr k

/-- PERST_N_RELEASE (R588): the endpoint leaves link-training disable. -/
def doPerstNRelease (k : Nat) (c : Chip) : Chip := if 4 ≤ k then c else c.setPart k { c.part k with perst := false }

/-- Messages for the vectors that are pending when partition k becomes attached (R62). -/
def Chip.sendPending (c : Chip) (k : Nat) : Chip :=
  (c.activeVecs.eraseDups.filter fun (kv : Nat × Nat) => kv.1 = k).foldl (fun (c : Chip) (kv : Nat × Nat) => c.sendVec kv.1 kv.2) c

/-- The host's writes of its MSI-X table leave these vectors unmasked; a message held for a vector that is now unmasked and still
active goes out (R62). -/
def Chip.msixWrite (c : Chip) (k : Nat) (unmasked : List Nat) : Chip :=
  let due (e : Nat × Nat) : Bool := e.1 = k && unmasked.contains e.2
  let c1 := Chip.setPart { c with pba := c.pba.filter fun e => !due e } k { c.part k with unmasked := unmasked }
  (c.pba.filter fun e => due e && c.activeVecs.contains e).foldl (fun (c : Chip) (e : Nat × Nat) => c.sendVec k e.2) c1

/-- PCIE_LINK_UP (R59, R62): the link of endpoint k trained at a width of x1 or x2 and a speed of Gen1-Gen4. -/
def doPcieLinkUp (k width speed : Nat) (c : Chip) : Chip :=
  if 4 ≤ k || (c.part k).perst || c.bitOf (Reg.PART.SEAT k) 31 || (c.part k).linkUp || width = 0 || 2 < width || speed = 0 || 4 < speed then c else
  let c1 := c.setPart k { c.part k with linkUp := true, absentSince := none }
  (c1.setReg (Reg.HDMA.STATUS k) (BitVec.ofNat 32 (2 ^ 16 + width * 2 ^ 8 + speed))).sendPending k

/-- DL_DOWN (R504). -/
def doDlDown (k : Nat) (c : Chip) : Chip := if 4 ≤ k then c else c.linkOff k

/-- HDMA_TX_TAIL_WRITE (R505): partition w offers descriptors of transmit ring t of HDMA(k). -/
def doHdmaTxTailWrite (w k t : Nat) (v : Word) (be : Nat) (c : Chip) : Chip :=
  if 4 ≤ k || 32 ≤ t then c else
  c.blockWrite w (Reg.HDMA.TX_TAIL k t) v (beMask be) fun c => c.plainWrite (Reg.HDMA.TX_TAIL k t) v (beMask be)

/-- Transmit ring t of endpoint k has a descriptor; the ring's size. -/
def Chip.txRing (c : Chip) (k t : Nat) : Option Nat :=
  match ringSize (c.fldOf (Reg.HDMA.TX_SIZE k t) 12 0) with
  | none => none
  | some n => if c.fldOf (Reg.HDMA.TX_HEAD k t) 11 0 = c.fldOf (Reg.HDMA.TX_TAIL k t) 11 0 % n then none else some n

/-- The ring of one PRIO that is served next: round robin after the ring served last (R506). -/
def Chip.txRingOf (c : Chip) (k prio : Nat) : Option Nat :=
  let last := sget 31 c.host.txLast (4 * k + prio)
  ((List.range 32).map fun i => (last + 1 + i) % 32).find? fun t =>
    decide (c.fldOf (Reg.HDMA.TX_CFG k t) 9 8 = prio) && (c.txRing k t).isSome

/-- The ring served next: the highest PRIO that has a descriptor (R506). -/
def Chip.txRingNext (c : Chip) (k : Nat) : Option Nat := ([3, 2, 1, 0].filterMap fun p => c.txRingOf k p).head?

/-- The checks of a transmit descriptor in their order: a STATUS, 0 for OK (R506). -/
def Chip.txCheck (c : Chip) (k : Nat) (desc rec : List Byte) (err : Bool) : Nat :=
  let kind := leAt desc 10 1
  let flags := leAt desc 11 1
  let dest := leAt desc 12 1
  let len := leAt desc 8 2
  if (kind ≠ 1 && kind ≠ 2) || 2 ≤ flags || 8 ≤ leAt desc 13 1 ||
      (flags = 0 && (64 ≤ dest || decide (dest < 40) != decide (kind = 1))) then 1
  else if flags = 0 && c.owner (pSq dest) ≠ k then 2
  else if kind = 2 && (len < 30 || 9228 < len) then 3
  else if kind = 1 && 24 ≤ rec.length && (natBits (leAt rec 4 4) 31 30 = 3 || len ≠ 24 + (canRecLen rec + 7) / 8 * 8) then 3
  else if err then 4
  else if kind = 1 && rec.length < 24 then 3
  else 0

/-- The record as it enters the fabric: STAMP is the Tempo of the fetch; SQ, MACSEC and PREEMPT are cleared (R506). -/
def Chip.stampRecord (c : Chip) (kind : RecKind) (rec : List Byte) : List Byte :=
  match kind with
  | .can => putBytes rec 16 (bytesLE 8 c.ns)
  | _ => bytesLE 8 c.ns ++ List.replicate 4 0 ++ bytesLE 4 c.tempoState ++ rec.drop 16

/-- A record that passed enters classification or admission (R506). -/
def Chip.txInject (c : Chip) (k : Nat) (desc rec : List Byte) : Chip :=
  let kind : RecKind := if leAt desc 10 1 = 1 then .can else .eth
  let data := c.stampRecord kind (bytesAt rec 0 (leAt desc 8 2))
  if leAt desc 11 1 = 1 then
    c.classify { rcd := data, kind := kind, src := 0x60 + k, sq := none, input := 8 + k, lb := false, group := 0,
                 epoch := c.epoch, entry := c.ns } 0
  else
    let dl := leAt desc 14 2
    let r := c.expressCopies (meteredLen kind data)
      [{ input := 8 + k, output := leAt desc 12 1, cls := leAt desc 13 1, kind := kind, epoch := c.epoch, entry := c.ns,
         data := data, src := 0x60 + k, deadline := if dl = 0 then none else some (c.ns + dl * 100000) }]
    r.1.enqueueFrame none 0 r.2

/-- A transmit descriptor ends (R506): its DONE_WORD goes to the Adjudicator (R372). -/
def Chip.txEnds (c : Chip) (k t n status ns : Nat) : Chip :=
  c.setHost { c.host with done := insertKey c.host.done k { ring := t, size := n, status := status, stamp := ns } }

/-- The DONE_WORD of a transmit descriptor is released (R372, R506, R510): the write, with STAMP for an accepted record, then TX_HEAD and
TX_IRQ. -/
def Chip.txDone (c : Chip) (k t n status ns : Nat) : Chip :=
  let head := c.fldOf (Reg.HDMA.TX_HEAD k t) 11 0
  let base := (c.reg (Reg.HDMA.TX_BASE_HI k t)).toNat * 2 ^ 32 + (c.reg (Reg.HDMA.TX_BASE_LO k t)).toNat
  let word := bytesLE 4 (2 ^ 31 + status * 2 ^ 16)
  let c1 := c.emit { kind := .hostWrite, unit := k, arg := base + 32 * head + 20,
                     data := if status = 0 then word ++ bytesLE 8 ns else word }
  let c2 := c1.setReg (Reg.HDMA.TX_HEAD k t) (BitVec.ofNat 32 ((head + 1) % n))
  Chip.irqEdge c2 (c2.setBitOf (Reg.HDMA.TX_IRQ k) t true)

/-- The DONE_WORDs that the Adjudicator does not hold are released at the end of a core cycle (R372, R377, R384); that of an endpoint whose
rings no longer run is given up. -/
def Chip.dmaRelease (c : Chip) : Chip :=
  c.host.done.foldl (fun (c : Chip) (e : Nat × HdmaDone) =>
    if c.itemHeld true e.1 then c
    else
      let c1 := c.setHost { c.host with done := eraseKey c.host.done e.1 }
      if c.hdmaOn e.1 then c1.txDone e.1 e.2.ring e.2.size e.2.status e.2.stamp else c1) c

/-- HDMA_TX_FETCH (R506): the next descriptor of endpoint k as fetched, with the record as read; `err` says that the
record could not be read whole. An endpoint fetches none while its last DONE_WORD waits for its release. -/
def doHdmaTxFetch (k : Nat) (desc rec : List Byte) (err : Bool) (c : Chip) : Chip :=
  if !c.hdmaOn k || (lookupKey c.host.done k).isSome then c else
  match c.txRingNext k with
  | none => c
  | some t =>
    let n := (c.txRing k t).getD 8
    let c0 := c.setHost { c.host with txLast := sset 31 c.host.txLast (4 * k + c.fldOf (Reg.HDMA.TX_CFG k t) 9 8) t }
    match c0.txCheck k desc rec err with
    | 0 => ((c0.txInject k desc rec).inc (Reg.HDMA.TX_RECORDS k)).txEnds k t n 0 c.ns
    | st =>
      let c1 := c0.incRaise (Reg.HDMA.TX_ERR k t) (pHdma k) 1
      let c2 := if st = 4 then c1.incRaise (Reg.HDMA.DMA_ERR_CNT k) (pHdma k) 2 else c1
      c2.txEnds k t n st 0

/-- A receive ring's interrupt bit is set and its completions are signalled (R510). -/
def Chip.rxSignal (c : Chip) (k r : Nat) : Chip :=
  let c1 := c.setHost { c.host with rx := sset {} c.host.rx (32 * k + r) {} }
  Chip.irqEdge c1 (c1.setBitOf (Reg.HDMA.RX_IRQ k) r true)

/-- One more completion of a receive ring (R510). -/
def Chip.rxComplete (c : Chip) (k r : Nat) : Chip :=
  let p := sget {} c.host.rx (32 * k + r)
  let lim := Nat.max 1 (c.fldOf (Reg.HDMA.RX_CFG k r) 15 8)
  if lim ≤ p.count + 1 then c.rxSignal k r
  else c.setHost { c.host with
    rx := sset {} c.host.rx (32 * k + r) { count := p.count + 1, since := if p.count = 0 then c.now else p.since } }

/-- KIND of a receive descriptor. -/
def rxKind (k : Copy) : Nat :=
  if k.mirror then 4 else match k.kind with | .can => 1 | .eth => 2 | .snap => 3 | .mirror => 4

/-- A copy is written to receive ring r, whose next descriptor is posted as `desc` (R507, R509). -/
def Chip.rxWrite (c : Chip) (p : Nat) (k : Copy) (r n : Nat) (desc : List Byte) : Chip :=
  let head := c.fldOf (Reg.HDMA.RX_HEAD p r) 11 0
  let base := (c.reg (Reg.HDMA.RX_BASE_HI p r)).toNat * 2 ^ 32 + (c.reg (Reg.HDMA.RX_BASE_LO p r)).toNat
  let len := k.data.length
  let room := leAt desc 8 2
  let bytes := if k.discarded then 0 else Nat.min len room
  let status := if k.discarded then 2 else if room < len then 1 else 0
  let src := if k.kind = .snap then 0x7F else k.src
  let c1 := if bytes = 0 then c else c.emit { kind := .hostWrite, unit := p, arg := leAt desc 0 8, data := k.data.take bytes }
  let tail := bytesLE 4 (2 ^ 31 + status * 2 ^ 16 + bytes) ++
    [BitVec.ofNat 8 (rxKind k), BitVec.ofNat 8 src, BitVec.ofNat 8 k.cls, 0] ++ bytesLE 2 k.epoch ++ bytesLE 2 len ++ bytesLE 8 c.ns
  let c2 := c1.emit { kind := .hostWrite, unit := p, arg := base + 32 * head + 12, data := tail }
  let c3 := c2.setReg (Reg.HDMA.RX_HEAD p r) (BitVec.ofNat 32 ((head + 1) % n))
  let c4 := if k.discarded then c3 else c3.inc (Reg.HDMA.RX_COPIES p)
  let c5 := if status = 1 then c4.inc (Reg.HDMA.RX_TRUNC p) else c4
  c5.rxComplete p r

/-- The first class, 7 first, whose head can be taken: aged heads that the Adjudicator has not seen are discarded (R349), a head
without a posted descriptor is dropped or waits (R508). -/
def Chip.rxTake (c : Chip) (p : Nat) (desc : List Byte) : List Nat → Nat → Chip
  | [], _ => c
  | _, 0 => c
  | cls :: rest, fuel + 1 =>
    match c.egrHead (64 + p) cls with
    | none => c.rxTake p desc rest fuel
    | some k =>
      if !k.ready then c.rxTake p desc rest fuel
      else if !k.passed && c.residenceOver k then (c.resDrop k).rxTake p desc (cls :: rest) fuel
      else match c.rxRing p k.ring with
        | some n => (c.delCopy k.id).rxWrite p k k.ring n desc
        | none =>
          if c.bitOf (Reg.HDMA.RX_CFG p k.ring) 7 then c.rxTake p desc rest fuel
          else (c.delCopy k.id).incRaise (Reg.HDMA.RX_FULL_DROP p k.ring) (pHdma p) 0

/-- HDMA_RX_DELIVER (R504, R507-R509): output 64 + p takes its next copy; `desc` is the next descriptor of the ring that
the copy names, as the host posted it. -/
def doHdmaRxDeliver (p : Nat) (desc : List Byte) (c : Chip) : Chip :=
  if 4 ≤ p then c
  else if !c.hdmaOn p then
    let mine := c.fab.copies.filter fun (k : Copy) => k.appended && decide (k.output = 64 + p)
    let c1 := c.setCopies (c.fab.copies.filter fun (k : Copy) => !(k.appended && decide (k.output = 64 + p)))
    Chip.fabDone c (c1.addTo (Reg.HDMA.UNATTACHED_DROP p) mine.length)
  else if c.itemHeld true p then c
  else Chip.fabDone c (c.rxTake p desc [7, 6, 5, 4, 3, 2, 1, 0] (c.fab.copies.length + 8))

/-- RX_IRQ_TIMER (R510): IRQ_US after the first completion of ring r that is not signalled. -/
def doRxIrqTimer (k r : Nat) (c : Chip) : Chip :=
  if 4 ≤ k || 32 ≤ r then c else
  let p := sget {} c.host.rx (32 * k + r)
  if p.count = 0 || c.now < p.since + c.fldOf (Reg.HDMA.RX_CFG k r) 31 16 * fsUs then c else c.rxSignal k r

end Sys2Proof.Machine
end

