-- ==== Sys2Proof/Machine/Benolsia.lean ====
section
/-! DEFINITION. Chapter 19, Benolsia: the checks of a received message, the agent's own requests, leases and the BNL
page (R511-R516, R522, R528). -/

/-
MARKS of the model choices coded here; the log rows say each in full.
DESIGN CHOICE (log 13, safe): EVENT messages and low responses that the Benolsia agent receives have no effect.
DESIGN CHOICE (log 61, unsafe): cipher jobs: which failure is reported, and when data are read.
PRESUMED (log 65, unsafe): byte order of Benolsia bodies.
DESIGN CHOICE (log 67, unsafe): Benolsia reception: what is counted and when a peer was last heard.
DESIGN CHOICE (log 68, unsafe): Benolsia READ and WRITE beyond what R57 and R58 permit.
-/

namespace Sys2Proof.Machine

/-- The TYPEs of R513, without the response bit. -/
def bnlTypes : List Nat := [1, 2, 3, 4, 5, 0x10, 0x11, 0x12, 0x13]

/-- The offset of the message in a frame: after addresses, at most two tags and the EtherType (R511). -/
def bnlOffset (fb : List Byte) : Nat :=
  if !isTpid (beAt fb 12 2) then 14 else if isTpid (beAt fb 16 2) then 22 else 18

/-- The bucket of received messages, full when it is first used (R514, R229). -/
def Chip.bnlLevel (c : Chip) : Level :=
  let burst := c.fldOf Reg.BNL.RATE 15 0
  (c.host.bnlBucket.getD { tokens := burst * oneToken, at_ := c.now }).fill c.now (c.fldOf Reg.BNL.RATE 31 16) burst

/-- The peer entry of a GWID (R515). -/
def Chip.bnlPeer (c : Chip) (gwid : Nat) : Option Nat :=
  (List.range 64).find? fun n => c.bitOf (Reg.BNL.PEER_CFG n) 31 && c.fldOf (Reg.BNL.PEER_CFG n) 15 0 = gwid

/-- The partition whose rights a peer carries, and its WRITE bit (R515). -/
def Chip.peerPart (c : Chip) (n : Nat) : Nat := c.fldOf (Reg.BNL.PEER_CFG n) 29 28
def Chip.peerWrite (c : Chip) (n : Nat) : Bool := c.bitOf (Reg.BNL.PEER_CFG n) 30

/-- The replay state of a peer reset (R516, R528). -/
def Chip.peerReset (c : Chip) (n : Nat) : Chip :=
  (((c.setReg (Reg.BNL.PEER_SEQ n) 0).setReg (Reg.BNL.PEER_MAP_LO n) 0).setReg (Reg.BNL.PEER_MAP_HI n) 0).setHost
    { c.host with peerKey := eraseKey c.host.peerKey n }

/-- The seen bits of a peer: bit i for SEQ - 1 - i. -/
def Chip.peerMap (c : Chip) (n : Nat) : Nat :=
  (c.reg (Reg.BNL.PEER_MAP_HI n)).toNat * 2 ^ 32 + (c.reg (Reg.BNL.PEER_MAP_LO n)).toNat
def Chip.setPeerMap (c : Chip) (n v : Nat) : Chip :=
  (c.setReg (Reg.BNL.PEER_MAP_LO n) (BitVec.ofNat 32 v)).setReg (Reg.BNL.PEER_MAP_HI n) (BitVec.ofNat 32 (v / 2 ^ 32))

/-- The replay check (R516): accepted when above the highest SEQ, or within the 64 below it and not yet seen. -/
def Chip.replay (c : Chip) (n seq : Nat) : Option Chip :=
  let hi := (c.reg (Reg.BNL.PEER_SEQ n)).toNat
  let m := c.peerMap n
  if hi < seq then
    let d := seq - hi
    some ((c.setReg (Reg.BNL.PEER_SEQ n) (BitVec.ofNat 32 seq)).setPeerMap n
      (if d ≤ 64 then (m * 2 ^ d + if hi = 0 then 0 else 2 ^ (d - 1)) % 2 ^ 64 else 0))
  else
    let d := hi - seq
    if d = 0 || 64 < d || natBits m (d - 1) (d - 1) = 1 then none else some (c.setPeerMap n (m + 2 ^ (d - 1)))

/-- The TYPEs that the agent serves (R513). -/
def agentTypes : List Nat := [2, 3, 4, 5, 0x10, 0x11, 0x12, 0x13]

/-- An authentic message passes to the bridge or to the agent (R514, R54). The agent takes an EVENT and a response of a TYPE
below 0x10 without an effect: the spec gives it none (log entry 13). -/
def Chip.bnlAccept (c : Chip) (req : BnlReq) : Chip :=
  let part := c.peerPart req.peer
  let c1 := c.inc Reg.BNL.RX_OK
  let c2 := if c1.bitOf (Reg.PART.SEAT part) 31 && c1.fldOf (Reg.PART.SEAT part) 15 0 = req.gwid then
      c1.setPart part { c1.part part with lastBnl := some c1.now } else c1
  if 0x90 ≤ req.typ && req.typ ≤ 0x93 then c2.setHost { c2.host with responses := c2.host.responses ++ [req] }
  else if !agentTypes.contains req.typ then c2
  else if c2.arbRunning then c2.setHost { c2.host with agent := c2.host.agent ++ [req] }
  else c2.inc Reg.BNL.RX_UNAVAILABLE

/-- The checks of a message after the bucket, in their order (R514). -/
def Chip.bnlCheck (c : Chip) (sq : Nat) (fb : List Byte) : Chip :=
  let m := fb.drop (bnlOffset fb)
  let typ := leAt m 1 1
  let len := beAt m 12 2
  let flags := leAt m 14 1
  if m.length < 32 || leAt m 0 1 ≠ 1 || 1024 < len || m.length < 32 + len || !bnlTypes.contains (typ % 128) then c.inc Reg.BNL.RX_BAD_MSG
  else match c.bnlPeer (beAt m 2 2) with
    | none => c.inc Reg.BNL.RX_UNKNOWN_PEER
    | some n =>
      let bcast := decide (flags % 2 = 1)
      if !(if bcast then decide (typ = 4) else decide (beAt m 4 2 = c.fldOf Reg.BNL.GWID 15 0)) then c.inc Reg.BNL.RX_BAD_MSG else
      let sel := flags / 2 % 2
      let hdr := m.take 16
      let ct := (m.drop 16).take len
      match lookupKey c.host.bnlKeys sel with
      | none => c.incRaise Reg.BNL.RX_BAD_TAG 0x0B1 1
      | some k =>
        if Config.gcmTag k.key (hdr.take 12) hdr ct ≠ (m.drop (16 + len)).take 16 then c.incRaise Reg.BNL.RX_BAD_TAG 0x0B1 1 else
        let last := sget 0 c.host.peerKey n
        let c1 := if last ≠ 0 && last ≠ sel + 1 then c.peerReset n else c
        let c2 := c1.setHost { c1.host with peerKey := sset 0 c1.host.peerKey n (sel + 1) }
        match c2.replay n (beAt m 8 4) with
        | none => c2.incRaise Reg.BNL.RX_REPLAY 0x0B1 1
        | some c3 =>
          c3.bnlAccept { typ := typ, peer := n, gwid := beAt m 2 2, mac := beAt fb 6 6, square := sq, tag := beAt m 6 2,
                         bcast := bcast, body := Config.gcmPlain k.key (hdr.take 12) hdr ct }

/-- BNL_MESSAGE_RECEIVED (R514): the oldest diverted frame at output 70, judged at the head of its queue (R349). -/
def doBnlMessageReceived (c : Chip) : Chip :=
  match ((List.range 8).reverse.filterMap fun cls => c.egrHead 70 cls).find? (fun k => k.kind = .eth && !k.mirror && k.arrived = k.cells) with
  | none => c
  | some k =>
    if c.residenceOver k then Chip.fabDone c (c.resDrop k) else
    let c0 := Chip.fabDone c (c.delCopy k.id)
    let l := c0.bnlLevel
    if l.tokens < oneToken then (c0.setHost { c0.host with bnlBucket := some l }).inc Reg.BNL.RX_RATE_DROP
    else (c0.setHost { c0.host with bnlBucket := some { l with tokens := l.tokens - oneToken } }).bnlCheck k.src (frameBytes k.data)

/-- The agent serves its oldest request when that has the TYPE; a body that does not fit ends with BAD_MSG (R513, R515). -/
def Chip.serve (c : Chip) (typ : Nat) (fits : List Byte → Bool) (act : Chip → BnlReq → Chip) : Chip :=
  match c.host.agent with
  | [] => c
  | r :: rest =>
    if r.typ ≠ typ || !c.arbRunning then c else
    let c1 := c.setHost { c.host with agent := rest }
    if fits r.body then act c1 r else c1.bnlRespond r [1]

/-- Leases in force (R522). -/
def Chip.liveLeases (c : Chip) : List Lease := c.host.leases.filter fun l => decide (c.now < l.until_)

/-- Two ranges touch. -/
def touches (a n b m : Nat) : Bool := decide (a < b + m) && decide (b < a + n)

/-- Another peer's lease holds part of a range (R522). -/
def Chip.leased (c : Chip) (peer a n : Nat) : Bool := c.liveLeases.any fun l => l.peer != peer && touches a n l.base l.len

/-- A range lies in the agent's address space (R518): in BAR0 or in BAR2. -/
def bnlSpace (a n : Nat) : Bool :=
  decide (a + n ≤ 0x100_0000) || (decide (0x1_0000_0000 ≤ a) && decide (a + n ≤ 0x1_0400_0000))

/-- LOCK (R522, R523): body address, length, RENEW. -/
def doLock (c : Chip) : Chip :=
  c.serve 0x12 (fun b => b.length = 13) fun c r =>
    let a := beAt r.body 0 8
    let n := beAt r.body 8 4
    if !c.peerWrite r.peer then c.bnlRespond r [3]
    else if !bnlSpace a n then c.bnlRespond r [2]
    else if c.leased r.peer a n then c.bnlRespond r [4]
    else
      let others := c.liveLeases.filter fun l => !(l.peer = r.peer && l.base = a && l.len = n)
      if 16 ≤ others.length then c.bnlRespond r [4]
      else (c.setHost { c.host with leases := others ++ [{ peer := r.peer, base := a, len := n, until_ := c.now + fsMs }] }).bnlRespond r [0]

/-- UNLOCK (R522): the lease of the peer at an address ends. -/
def doUnlock (c : Chip) : Chip :=
  c.serve 0x13 (fun b => b.length = 8) fun c r =>
    let a := beAt r.body 0 8
    if !c.peerWrite r.peer then c.bnlRespond r [3]
    else if !bnlSpace a 0 then c.bnlRespond r [2]
    else (c.setHost { c.host with leases := c.liveLeases.filter fun l => !(l.peer = r.peer && l.base = a) }).bnlRespond r [0]

/-- LEASE_EXPIRY (R522). -/
def doLeaseExpiry (c : Chip) : Chip := c.setHost { c.host with leases := c.liveLeases }

/-- CX_JOB (R513): the agent queues a cipher job for the peer's partition. -/
def doCxJob (c : Chip) : Chip :=
  c.serve 0x03 (fun b => 36 ≤ b.length && 36 + beAt b 6 2 ≤ b.length) fun c r =>
    let k := c.peerPart r.peer
    let h := beAt r.body 6 2
    let op := leAt r.body 0 2
    let hdr := (r.body.drop 36).take h
    let pay := r.body.drop (36 + h)
    let segs := (if h = 0 then [] else [(1, 0, hdr)]) ++ (if pay.isEmpty then [] else [(0, 0, pay)])
    let desc := r.body.take 4 ++ bytesLE 2 (beAt r.body 4 2) ++
      [BitVec.ofNat 8 segs.length, if 1 ≤ op && op ≤ 6 then 12 else 0] ++ List.replicate 16 0 ++ bytesLE 4 1004 ++
      List.replicate 4 0 ++
      bytesAt r.body 8 12 ++ List.replicate 4 0 ++ bytesAt r.body 20 16
    let c0 := c.cxIntake
    if !c0.cxRoom k then c0.bnlRespond r [7]
    else
      let j := cxParse k desc segs false
      c0.addJob { j with bnl := some r, fail := if j.fail != 0 then j.fail else if !c0.bitOf Reg.CX.CTRL 0 then 6 else 0 }

/-- Up to n ring entries in order from SEQ s (R513, R492). -/
def Chip.scoreFrom (c : Chip) : Nat → Nat → List ScoreEntry
  | _, 0 => []
  | s, n + 1 =>
    match (c.score.ring.map fun (e : Nat × ScoreEntry) => e.2).find? (fun e => e.seq = s && s != 0) with
    | none => []
    | some e => e :: c.scoreFrom (seqAfter s) n

/-- SCORE_READ (R513): up to 31 entries, as the peer's partition may read them (R48, R49). -/
def doScoreRead (c : Chip) : Chip :=
  c.serve 0x05 (fun b => b.length = 5 && 1 ≤ leAt b 4 1 && leAt b 4 1 ≤ 31) fun c r =>
    let k := c.peerPart r.peer
    let es := c.scoreFrom (beAt r.body 0 4) (leAt r.body 4 1)
    let may := decide (k = c.owner 0x091) || decide (k = c.supervisor) || c.bitOf (hOwner 0x091) 16
    let body (bs : List Byte) : List Byte := [0, BitVec.ofNat 8 es.length, 0, 0] ++ bs
    if may then c.bnlRespond r (body (es.flatMap ScoreEntry.bytes))
    else (c.deny k false true 0x091 0).bnlRespond r (body (List.replicate (32 * es.length) 0))

/-- The key that a KEY register names may enter the engine (R512). -/
def Chip.bnlKeyOf (c : Chip) (v : Word) : Option SaInst :=
  match c.slot? (fld v 9 0) with
  | none => none
  | some s =>
    if s.ktype = 2 && !s.sys && s.owner = c.owner 0x0B1 && natBits s.usage 1 0 = 3 then some { slot := fld v 9 0, key := s.key } else none

/-- BNL_KEY_WRITE (R512): partition w writes KEY0 or KEY1. -/
def doBnlKeyWrite (w x : Nat) (v : Word) (be : Nat) (c : Chip) : Chip :=
  if 2 ≤ x then c else
  let a := if x = 0 then Reg.BNL.KEY0 else Reg.BNL.KEY1
  c.blockWrite w a v (beMask be) fun c =>
    let c1 := c.plainWrite a v (beMask be)
    if !c1.bitOf a 31 then c1.setHost { c1.host with bnlKeys := eraseKey c1.host.bnlKeys x }
    else match c1.bnlKeyOf (c1.reg a) with
      | some s => c1.setHost { c1.host with bnlKeys := insertKey c1.host.bnlKeys x s }
      | none => (c1.setHost { c1.host with bnlKeys := eraseKey c1.host.bnlKeys x }).setErr 0x0B1 7

/-- TX_SEL_WRITE (R516). -/
def doTxSelWrite (w : Nat) (v : Word) (be : Nat) (c : Chip) : Chip :=
  c.blockWrite w Reg.BNL.TX_SEL v (beMask be) fun c =>
    (c.plainWrite Reg.BNL.TX_SEL v (beMask be)).setReg Reg.BNL.TX_SEQ 1

/-- PEER_CFG_WRITE (R528). -/
def doPeerCfgWrite (w n : Nat) (v : Word) (be : Nat) (c : Chip) : Chip :=
  if 64 ≤ n then c else
  c.blockWrite w (Reg.BNL.PEER_CFG n) v (beMask be) fun c =>
    (c.plainWrite (Reg.BNL.PEER_CFG n) v (beMask be)).peerReset n

end Sys2Proof.Machine
end

