-- ==== Sys2Proof/Machine/RegEffects.lean ====
section
/-! DEFINITION. What an accepted write does to a register that has no command of its own: the plain write, and where a
chapter says so a refusal of the value or a further effect. -/

/-
MARKS of the model choices coded here; the log rows say each in full.
DESIGN CHOICE (log 27, unsafe): CAN schedules: the position from which entries act.
DESIGN CHOICE (log 94, unsafe): Ethernet: link corner cases and field values outside their ranges.
DESIGN CHOICE (log 101, unsafe): the fabric: HOLD_RECLAIM and the minima.
-/

namespace Sys2Proof.Machine

/-- The value that a write leaves in the writable bits of a register; reserved ones keep reading 0 (R12). -/
def Chip.newValue (c : Chip) (a : Nat) (v mask : Word) : Word :=
  match rowOf a with
  | none => c.reg a
  | some r => let m := mask &&& BitVec.ofNat 32 r.rw; (c.reg a &&& ~~~ m) ||| (v &&& m)

/-- A register that a write of 0 clears; other values are ignored. -/
def Chip.clearOnZero (c : Chip) (a : Nat) (v mask : Word) : Chip := if c.newValue a v mask = 0 then c.setReg a 0 else c

/-- A record whose VALID bit is written 1 to clear. -/
def Chip.clearOnValid (c : Chip) (a : Nat) (v mask : Word) : Chip := if bit (v &&& mask) 31 then c.setReg a 0 else c

/-- The write, or PAGE_ERR.BLOCK where the value is refused. -/
def Chip.writeUnless (c : Chip) (a : Nat) (v mask : Word) (bad : Bool) : Chip :=
  if bad then c.setErr (a / 0x1000) 7 else c.plainWrite a v mask

/-- The sources of ALARM_STAT whose condition persists (R63). -/
def Chip.alarmLive (c : Chip) : Word :=
  BitVec.ofNat 32 <|
    (if (List.range 15).any (fun s => c.bitOf Reg.TAMPER.LIVE s && decide (1 ≤ c.fldOf (Reg.TAMPER.TS_CFG s) 1 0)) then 1 else 0) +
    (if c.rootState = 4 then 2 else 0) + (if c.halted || !c.lockstep then 8 else 0) +
    (if c.absent c.supervisor then 2 ^ 8 else 0) + (if c.reg Reg.SENS.LIVE != 0 then 2 ^ 10 else 0)

/-- Writes to the GLB page. -/
def Chip.glbEffect (c : Chip) (off a : Nat) (v mask : Word) : Chip :=
  let w := c.plainWrite a v mask
  if off = 0x40 then (w.setReg a (w.reg a ||| w.alarmLive)).alarmLevel
  else if off = 0x44 then w.alarmLevel
  else w

/-- SEAT written (R59): a network seat holds its endpoint in link-training disable; what is pending reaches the seat. -/
def Chip.seatWrite (c : Chip) (k a : Nat) (v mask : Word) : Chip :=
  let c1 := c.plainWrite a v mask
  if !c1.bitOf a 31 then c1
  else if c.bitOf a 31 then c1
  else (c1.linkOff k).sendPending k

/-- A register that says which vector a source uses, or whether a ring's bits do (R62, R100, R403, R443, R467, R498, R510). -/
def vecReg (a : Nat) : Bool :=
  let off := a % 0x1000
  match pageKind (a / 0x1000) with
  | some .epoch => 0x100 ≤ off && off < 0x200 && off % 0x40 = 0x28
  | some .castle => 0x200 ≤ off && off < 0xA00 && off % 0x200 = 0x10
  | some .cx => 0x100 ≤ off && off < 0x200 && off % 0x40 = 0x18
  | some .arb => 0x100 ≤ off && off < 0x300 && off % 0x80 = 0x60
  | some .can => 0x1A0 ≤ off && off < 0x1B0
  | some .hdma => (0x48 ≤ off && off ≤ 0x54) || (0x100 ≤ off && off % 0x20 = 0x14)
  | _ => false

/-- A write of the schedule's registers (R112, R113): a schedule that stands still or has another base or cycle starts afresh, with
everything open. -/
def Chip.schedWrite (c : Chip) (q : Nat) : Chip :=
  if c.schedOn q && c.schedFresh q then c
  else (c.setCan q { c.canSq q with schedPos := none }).setFldOf (Reg.CAN.SCHED_STAT q) 8 0 0x1FF

/-- TX_DONE AND TX_DONE_IE becoming non-zero raises TX_DONE (R125). -/
def Chip.txDoneIe (before c : Chip) (q : Nat) : Chip :=
  let on (c : Chip) : Bool := (c.reg (Reg.CAN.TX_DONE q) &&& c.reg (Reg.CAN.TX_DONE_IE q)) != 0
  if !on before && on c then c.raise (pSq q) 5 else c

/-- Writes to a CAN square's page (R88, R112, R121, R122). -/
def Chip.canEffect (c : Chip) (q off a : Nat) (v mask : Word) : Chip :=
  if (off = 0x50 || off = 0x54 || off = 0x58) && c.fldOf (Reg.CAN.CTRL q) 2 0 ≠ 0 then (c.setStatus q 11 11 1).setErr (pSq q) 7
  else
    let w := c.plainWrite a v mask
    if off = 0x68 then w.setCan q { w.canSq q with
      idleFrom := (w.canSq q).idleFrom.map fun _ => w.now, idleHeld := (w.canSq q).idleHeld.map fun _ => 0 }
    else if off = 0x4C then w.warnLevels q
    else if off = 0x64 then c.stbEdge w
    else if off = 0x90 then c.txDoneIe w q
    else if 0xA8 ≤ off && off ≤ 0xB4 then w.schedWrite q
    else w

/-- Writes to CTRL of an Ethernet square (R131, R140, R147): verification starts when MM_EN changes, and again when it is written 1
after a failure. -/
def Chip.ethCtrlEffect (c : Chip) (q a : Nat) (v mask : Word) : Chip :=
  let nv := c.newValue a v mask
  let old := c.reg a
  if fld nv 9 8 = 3 || (q < 48 && (nv &&& 0x13300) != 0) then c.setErr (pSq q) 7
  else
    let c1 := c.plainWrite a v mask
    let c2 := if bit nv 16 != bit old 16 || (bit (v &&& mask) 16 && c.fldOf (Reg.ETH.STATUS q) 17 16 = 3) then c1.mmStart q else c1
    let c3 := if fld nv 9 8 ≠ fld old 9 8 then
        let c2 := c2.pauseAccount q
        (c2.setEth q { c2.ethSq q with pauseEnd := [], pauseWait := [], pausePend := [], cond := 0, txPauseNext := [] }).pauseStatus q else c2
    if q < 48 then c3.t1sLink q else c3

/-- PLCA_CFG or PLCA_NODE written (R129, R130): with EN 1 node 0 is the coordinator, whose PLCA status is true; a square that
stops being the coordinator waits for a BEACON, and with EN 0 there is no PLCA. `was` says that it was the coordinator. DESIGN CHOICE
(log 94): a follower that has never heard a BEACON has PLCA status 0, counts no loss and does not fall back, with FALLBACK 1 too. -/
def Chip.plcaRole (c : Chip) (q : Nat) (was : Bool) : Chip :=
  if q ≥ 48 then c
  else
    let en := c.bitOf (Reg.ETH.PLCA_CFG q) 31
    let coord := en && c.fldOf (Reg.ETH.PLCA_NODE q) 2 0 = 0
    let c1 := if coord then (c.setEthStat q 18 true).setEthStat q 19 false
      else if !en then (c.setEthStat q 18 false).setEthStat q 19 false
      else if was then c.setEthStat q 18 false else c
    let c2 := if en then c1 else c1.setEth q { c1.ethSq q with plcaFrom := none, plcaId := 0, burst := 0 }
    c2.t1sLink q

/-- FC_CFG written (R143): a channel that is no longer enabled sends no more pause frames. DESIGN CHOICE (log 94): none with time 0
either. -/
def Chip.fcNarrow (c : Chip) (q : Nat) : Chip :=
  let e := c.ethSq q
  let on := c.fcChannels q
  c.setEth q { e with pausePend := e.pausePend.filter (fun x => on.contains x.1), txPauseNext := e.txPauseNext.filter (fun x => on.contains x.1),
                      cond := ((List.range 9).filter fun ch => on.contains ch && natBits e.cond ch ch = 1).foldl (fun a ch => a + 2 ^ ch) 0 }

/-- MM_CFG written (R147): verification starts where VERIFY_DIS goes to 0, and ends where it goes to 1. -/
def Chip.mmCfg (before c : Chip) (q : Nat) : Chip :=
  if before.bitOf (Reg.ETH.MM_CFG q) 0 = c.bitOf (Reg.ETH.MM_CFG q) 0 then c else c.mmStart q

/-- Writes to an Ethernet square's page. -/
def Chip.ethEffect (c : Chip) (q off a : Nat) (v mask : Word) : Chip :=
  let nv := c.newValue a v mask
  if off = 0x40 then c.ethCtrlEffect q a v mask
  else if off = 0x48 then c.writeUnless a v mask (fld nv 13 0 < 64 || 9216 < fld nv 13 0)
  else if off = 0x58 then (c.plainWrite a v mask).fcNarrow q
  else if off = 0x6C then c.mmCfg ((c.plainWrite a v mask).setBitOf a 15 false) q
  else if 0x70 ≤ off && off ≤ 0x84 then (c.plainWrite a v mask).gateLoad q
  else if 0x90 ≤ off && off < 0xB0 then (c.creditUpdate q).plainWrite a v mask
  else if 0xB0 ≤ off && off < 0xCC then (c.creditUpdate q).writeUnless a v mask (c.lineRate q < nv.toNat * 1000)
  else if off = 0xD4 then
    (if fld nv 11 8 = 0 || 8 < fld nv 11 8 then c.setErr (pSq q) 7
     else (c.plainWrite a v mask).plcaRole q (fld (c.reg a) 2 0 = 0))
  else if off = 0xD0 then (c.plainWrite a v mask).plcaRole q (bit (c.reg a) 31 && c.fldOf (Reg.ETH.PLCA_NODE q) 2 0 = 0)
  else c.plainWrite a v mask

/-- Writes to a staging page (R185): CT_EN and CT_WORDS belong to SerDes squares. -/
def Chip.stgEffect (c : Chip) (q off a : Nat) (v mask : Word) : Chip :=
  if off ≠ 0x40 then c.plainWrite a v mask
  else if q < 48 then c.plainWrite a v (mask &&& 1)
  else
    let n := fld (c.newValue a v mask) 6 4
    c.writeUnless a v mask (n = 0 || 4 < n)

/-- Writes to the POL page (R237): tokens are kept, capped at the new burst. -/
def Chip.polEffect (c : Chip) (off a : Nat) (v mask : Word) : Chip :=
  if 0x100 ≤ off && off < 0x180 then
    let p := (off - 0x100) / 8
    let c1 := (c.setExpress p (c.expressLevel p)).plainWrite a v mask
    c1.setExpress p (c1.expressLevel p)
  else c.plainWrite a v mask

/-- Writes to the SMP page (R245): the sampler counts anew. -/
def Chip.smpEffect (c : Chip) (off a : Nat) (v mask : Word) : Chip :=
  if 0x100 ≤ off && off % 16 = 0 then
    let s := (off - 0x100) / 16
    if fld (c.newValue a v mask) 26 24 = 7 then c.setErr 0x04B 7
    else
      let c1 := ((c.plainWrite a v mask).setReg (Reg.SMP.SMP_OFFERED s) 0).setReg (Reg.SMP.SMP_SAMPLED s) 0
      { c1 with guard := { c1.guard with smp := eraseKey c1.guard.smp s } }
  else c.plainWrite a v mask

/-- Writes to the BUF page (R351, R359). -/
def Chip.bufEffect (c : Chip) (off a : Nat) (v mask : Word) : Chip :=
  let nv := c.newValue a v mask
  if off = 0x50 then (if nv = 0 then c.setReg a (c.reg Reg.BUF.ING_FREE) else c)
  else if off = 0x54 then (if nv = 0 then c.setReg a (c.reg Reg.BUF.EGR_FREE) else c)
  else if off = 0x68 || (0x180 ≤ off && off < 0x1A0) then
    (if fld nv 31 16 ≤ fld nv 15 0 then c.setErr 0x041 7 else (c.plainWrite a v mask).pauseChecks)
  else c.plainWrite a v mask

/-- Writes to ADJ.CTRL (R394): with PROOF_EN 0 no swap waits for PROOF_EN to be set again. -/
def Chip.adjCtrl (c : Chip) (a : Nat) (v mask : Word) : Chip :=
  let c1 := c.plainWrite a v mask
  if c1.bitOf a 0 then c1 else { c1 with adj := { c1.adj with proofDue := false } }

/-- What an accepted write of a register does beside the vectors that it makes active (R58 and the page maps). -/
def Chip.regEffectIn (c : Chip) (a : Nat) (v mask : Word) : Chip :=
  let p := a / 0x1000
  let off := a % 0x1000
  let nv := c.newValue a v mask
  match pageKind p with
  | some .glb => c.glbEffect off a v mask
  | some .part => if off = 0x44 then c.seatWrite (p - 8) a v mask else c.plainWrite a v mask
  | some .tempo => if off = 0x58 then c.rateLoWrite v mask else c.plainWrite a v mask
  | some .epoch => if off = 0x54 then c.clearOnZero a v mask else c.plainWrite a v mask
  | some .adj =>
    if off = 0x40 then c.adjCtrl a v mask
    else if off = 0x64 then c.clearOnZero a v mask else if off = 0x70 then c.clearOnValid a v mask else c.plainWrite a v mask
  | some .fab =>
    if off = 0x40 then
      (let c1 := c.plainWrite a v mask
       Chip.fabDone c1 (c1.appendReady c1.fab.copies.length))
    else if off = 0x50 || off = 0x54 then c.clearOnZero a v mask else c.plainWrite a v mask
  | some .buf => c.bufEffect off a v mask
  | some .pol => c.polEffect off a v mask
  | some .guard =>
    if off = 0x40 then
      Chip.guardCtrl c (c.plainWrite a v mask)
    else if 0x100 ≤ off && off % 16 = 8 then c.writeUnless a v mask (100 < fld nv 6 0)
    else c.plainWrite a v mask
  | some .smp => c.smpEffect off a v mask
  | some .sig => if off = 0x4C then c.clearOnValid a v mask else c.plainWrite a v mask
  | some .pawn =>
    if off = 0x8C || off = 0x208 then c.clearOnZero a v mask
    else if off = 0x90 then c.clearOnValid a v mask else c.plainWrite a v mask
  | some .cx => if off = 0x50 then c.clearOnValid a v mask else c.plainWrite a v mask
  | some .castle =>
    if 0x200 ≤ off && off < 0xA00 && off % 0x200 = 0x14 then c.minSvnWrite ((off - 0x200) / 0x200) v mask else c.plainWrite a v mask
  | some .tamper =>
    if off = 0x40 then (if bit (v &&& mask) 31 then c.setBitOf a 31 true else c)
    else if 0x100 ≤ off then c.writeUnless a v mask (c.bitOf Reg.TAMPER.CTRL 31) else c.plainWrite a v mask
  | some .mem => if off = 0x70 || off = 0x78 then c.clearOnValid a v mask else c.plainWrite a v mask
  | some .sens =>
    if 0x100 ≤ off && off % 16 = 12 then
      (if nv = 0 then
        let x := c.fldOf (Reg.SENS.VAL ((off - 0x100) / 16)) 15 0
        c.setReg a (BitVec.ofNat 32 (x * 2 ^ 16 + x)) else c)
    else c.plainWrite a v mask
  | some .bnl => if off = 0x6C then c.writeUnless a v mask (fld nv 2 0 = 7) else c.plainWrite a v mask
  | some .can => c.canEffect (p - 0x100) off a v mask
  | some .eth => c.ethEffect (p - 0x100) off a v mask
  | some .stg => c.stgEffect (p - 0x140) off a v mask
  | _ => c.plainWrite a v mask

/-- What an accepted write of a register does (R58 and the page maps); one that gives a pending source its vector makes that
active (R62). -/
def Chip.regEffect (c : Chip) (a : Nat) (v mask : Word) : Chip :=
  if vecReg a then (c.irqEdge (c.regEffectIn a v mask)).pbaSettle else c.regEffectIn a v mask

end Sys2Proof.Machine
end

