-- ==== Sys2Proof/Machine/Tables.lean ====
section
/-! DEFINITION. The BAR2 table windows: their regions and entry layouts, the entry buffer, the commit word, and what the
commit of an entry does (R40, R205-R208, R228-R236, R251, R283, R284, R405-R407, R455, R463, R471-R474, R480, R563). -/

/-
MARKS of the model choices coded here; the log rows say each in full.
DESIGN CHOICE (log 16, unsafe): byte enables on command registers; what a reserved bit does on a write.
DESIGN CHOICE (log 18, unsafe): where a denial is recorded when a request covers several registers or pages.
DESIGN CHOICE (log 54, unsafe): the entry buffer, partial words and poisoned words of tables.
-/

namespace Sys2Proof.Machine

/-- The regions of the table windows. -/
inductive Tbl where
  | source | frerGen | group | masked | recovery | hits | action | tcam | ethHash | canHash
  | bucket | filter | meter | gate | gatePool | masq
  | sigCfg | sigState | layout | mapping | template | layoutState
  | code | prog | binding | dmem | timer
  | slots | profile | ring | transfer
  | sc | sa | mailbox | sched | gateList
  | wakeRule | wakePattern | wakeSquare | bookCan | bookEth | bookProfile
  deriving DecidableEq, Repr

/-- A region: its BAR2 base, entries and their size in words, the commit word (none: every word acts on its own), whether
it is shadowable, and for each word the bits that a write changes. -/
structure Region where
  tag : Tbl
  base : Nat
  n : Nat
  words : Nat
  commit : Option Nat := none
  shadow : Bool := true
  masks : List Nat
  deriving DecidableEq, Repr

/-- A word whose bits all change. -/
def allBits : Nat := 0xFFFF_FFFF_FFFF_FFFF

/-- Regions of the CLS window (R200, R205, R207, R209, R211, R161). -/
def clsRegions : List Region := [
  { tag := .source, base := 0x0100_0000, n := 128, words := 1, commit := some 0, masks := [allBits] },
  { tag := .frerGen, base := 0x0100_2000, n := 1024, words := 1, commit := some 0, masks := [0x8000_0000_0000_FFFF] },
  { tag := .group, base := 0x0101_0000, n := 1024, words := 2, commit := some 1, masks := [allBits, 0x0FFF_FF0F] },
  { tag := .masked, base := 0x0102_0000, n := 2048, words := 4, commit := some 2, masks := [allBits, allBits, 0x8000_0000_0000_3FFF, 0] },
  { tag := .recovery, base := 0x0103_0000, n := 1024, words := 8, commit := some 0, masks := [allBits, 0, 0, 0, 0, 0, 0, 0] },
  { tag := .hits, base := 0x0104_0000, n := 16384, words := 1, shadow := false, masks := [allBits] },
  { tag := .action, base := 0x0108_0000, n := 16384, words := 4, commit := some 3,
    masks := [0xF3FF_1FF8_0000_0000, 0xFFFF_FFFF_1FFF_0000, 0xFFFF_FFFF_FFFF_F000, 0xFFF0_3FFF_0000_0000] },
  { tag := .tcam, base := 0x0110_0000, n := 4096, words := 16, commit := some 8,
    masks := List.replicate 8 allBits ++ [0x8000_0000_0000_3FFF] ++ List.replicate 7 0 },
  { tag := .ethHash, base := 0x0120_0000, n := 65536, words := 2, commit := some 1, masks := [allBits, 0x8000_0000_0000_3FFF] },
  { tag := .canHash, base := 0x0130_0000, n := 65536, words := 2, commit := some 1, masks := [allBits, 0x8000_0000_0000_3FFF] }]

/-- Regions of the POL and GUARD windows (R228-R236, R241). -/
def polRegions : List Region := [
  { tag := .bucket, base := 0x0140_0000, n := 8192, words := 2, commit := some 0, masks := [0xF7FF_FFFF_FFFF_FFFF, 0] },
  { tag := .filter, base := 0x0142_0000, n := 4096, words := 4, commit := some 0, masks := [0xFDFF_8FFF_8000_3FFF, 0, 0, 0] },
  { tag := .meter, base := 0x0144_0000, n := 4096, words := 4, commit := some 1, masks := [0xF0FF_FFFF_FFFF_FFFF, 0x00FF_FFFF_FFFF_FFFF, 0, 0] },
  { tag := .gate, base := 0x0146_0000, n := 512, words := 4, commit := some 3, masks := [0xDF00_0000_01FF_0FFF, 0xFFFF_FFFF, allBits, 0] },
  { tag := .gatePool, base := 0x0146_8000, n := 4096, words := 1, commit := some 0, masks := [0xF800_0000_FFFF_FFFF] },
  { tag := .masq, base := 0x0148_0000, n := 256, words := 4, commit := some 3, masks := [0xE000_0000_0000_0000, allBits, allBits, allBits] }]

/-- Regions of the SIG window (R251-R256, R261, R262, R280). -/
def sigRegions : List Region := [
  { tag := .sigCfg, base := 0x0180_0000, n := 65536, words := 4, commit := some 3,
    masks := [0xFFFF_FCFF_FFFF_0000, 0x83FF_83FF_0000_0000, allBits, allBits] },
  { tag := .sigState, base := 0x01A0_0000, n := 65536, words := 4, shadow := false, masks := [allBits, 0, 0, 0] },
  { tag := .layout, base := 0x01C0_0000, n := 16384, words := 8, commit := some 0,
    masks := [0xFFFF_CFFF_FFFF_FFC0, 0xFFFF_FFFF_FFFF_F0FF, 0xFFFF_FFFF_FF80_FFFF, 0xF7FF_FFFF_FFFF_C000, 0xFFFF_FFFF_0000_1F03,
              0xFFFF_FFFF_0000_0000, 0, 0] },
  { tag := .mapping, base := 0x01D0_0000, n := 131072, words := 1, commit := some 0, masks := [0xFFFF_FFFF_FE00_FFFF] },
  { tag := .template, base := 0x01E0_0000, n := 512, words := 16, commit := some 0,
    masks := 0x0000_0001_FFFF_FFFF :: List.replicate 15 allBits },
  { tag := .layoutState, base := 0x01E1_0000, n := 16384, words := 1, shadow := false, masks := [0] }]

/-- Regions of the PAWN window (R283-R288, R317). -/
def pawnRegions : List Region := [
  { tag := .code, base := 0x0200_0000, n := 8192, words := 1, commit := some 0, masks := [allBits] },
  { tag := .prog, base := 0x0201_0000, n := 1024, words := 2, commit := some 0, masks := [0xF9FF_FFFF_FFFF_FFFF, 0xFFFE_FFFE_0000_0000] },
  { tag := .binding, base := 0x0201_8000, n := 16384, words := 1, commit := some 0, masks := [0x8000_0000_0000_03FF] },
  { tag := .dmem, base := 0x0204_0000, n := 32768, words := 1, shadow := false, masks := [allBits] },
  { tag := .timer, base := 0x0208_0000, n := 4096, words := 2, commit := some 0, masks := [0xE3FF_FFFF_FFFF_FFFF, 0] }]

/-- Regions of the CASTLE, CX, SCORE and GAMBIT windows (R424, R455, R492, R544). -/
def systemRegions : List Region := [
  { tag := .slots, base := 0x0388_0000, n := 1024, words := 4, shadow := false, masks := [0, 0, 0, 0] },
  { tag := .profile, base := 0x0390_0000, n := 1024, words := 4, commit := some 1, masks := [0xFFF8_03FF_FFFF_FFFF, 0x07FF_0000_FFFF, 0, 0] },
  { tag := .ring, base := 0x03A0_0000, n := 8192, words := 4, shadow := false, masks := [0, 0, 0, 0] },
  { tag := .transfer, base := 0x03A4_0000, n := 1024, words := 1, shadow := false, masks := [allBits] }]

/-- Regions of the WAKE window (R554, R166, R558, R560, R563). -/
def wakeRegions : List Region := [
  { tag := .wakeRule, base := 0x03A8_0000, n := 64, words := 4, commit := some 3,
    masks := [0xEF00_0000_1FFF_FFFF, 0x1FFF_FFFF, allBits, 0xFFFF_FFFF_FFFF] },
  { tag := .wakePattern, base := 0x03A8_0800, n := 32, words := 4, commit := some 2, masks := [allBits, allBits, 0x00FF_FFFF_0001_FFFF, 0] },
  { tag := .wakeSquare, base := 0x03A8_1000, n := 64, words := 8, commit := some 7,
    masks := [0xFC00_0000_01FF_1FFF, 0, allBits, allBits, allBits, allBits, 0xFFFF_FFFF, 0] },
  { tag := .bookCan, base := 0x03A8_2000, n := 256, words := 4, commit := some 3, masks := [allBits, allBits, 0xFF7F_C000_0000_FFFF, 0xFF_FFFF] },
  { tag := .bookEth, base := 0x03A8_4000, n := 64, words := 4, commit := some 3, masks := [allBits, allBits, 0xFF7F_C000_0000_FFFF, 0xFF_FFFF] },
  { tag := .bookProfile, base := 0x03A8_4800, n := 16, words := 4, commit := some 1, masks := [0xFFF8_03FF_FFFF_FFFF, 0x07FF_0000_FFFF, 0, 0] }]

/-- The mailbox entry of R104: word 0 is bytes 0-7, words 1-8 the data. -/
def mailboxMasks : List Nat := [0xE00F_FFFF_DFFF_FFFF] ++ List.replicate 8 allBits ++ List.replicate 7 0

/-- Regions of the windows that each square has (R104, R111, R153, R468): every word of a CAN window and of a gate list acts on
its own; an SA's PN and counters are live. -/
def squareRegions (off : Nat) : List Region :=
  if off < 0x0088_0000 then
    (let q := (off - 0x0080_0000) / 0x2000
     let b := sqWindow q
     if q < 40 then
       [{ tag := .mailbox, base := b, n := 32, words := 16, masks := mailboxMasks },
        { tag := .sched, base := b + 0x1000, n := 256, words := 1, masks := [0xC1FF_1F00_FFFF_FFFF] }]
     else [{ tag := .gateList, base := b, n := 1024, words := 1, commit := some 0, masks := [0xF000_00FF_FFFF_FFFF] }])
  else
    (let b := 0x0398_0000 + (off - 0x0398_0000) / 0x4000 * 0x4000
     [{ tag := .sc, base := b, n := 32, words := 4, commit := some 1, masks := [0xF000_0000_0000_0000, allBits, 0, 0] },
      { tag := .sa, base := b + 0x1000, n := 128, words := 8, commit := some 3,
        masks := [0x83FF_0000_FFFF_FFFF, allBits, allBits, 0xFFFF_FFFF_0000_0000, 0, 0, 0, 0] }])

/-- The regions of the window that holds a BAR2 offset. -/
def windowRegions (off : Nat) : List Region :=
  match windowPage off with
  | none => []
  | some (p, _) =>
    if p = 0x048 then clsRegions else if p = 0x049 || p = 0x04A then polRegions else if p = 0x050 then sigRegions
    else if p = 0x051 then pawnRegions else if p = 0x002 then wakeRegions
    else if p = 0x071 || p = 0x070 || p = 0x091 || p = 0x0A0 then systemRegions else squareRegions off

/-- The region of a BAR2 offset, with the entry and the word within it. -/
def regionAt (off : Nat) : Option (Region × Nat × Nat) :=
  ((windowRegions off).find? fun r => decide (r.base ≤ off) && decide (off < r.base + 8 * r.n * r.words)).map fun r =>
    (r, (off - r.base) / (8 * r.words), (off - r.base) / 8 % r.words)

/-- The first byte of an entry. -/
def Region.entryOff (r : Region) (i : Nat) : Nat := r.base + 8 * r.words * i

/-- The memory instance behind a BAR2 offset with the word's address in it (R469): White's for a plane memory. -/
def instanceOf (off : Nat) : Option (Nat × Nat) :=
  if off < 0x0085_0000 then some (0x60 + (off - 0x0080_0000) / 0x2000, (off - 0x0080_0000) % 0x2000 / 8)
  else if off < 0x0088_0000 then some (0x4E, (off - 0x0085_0000) / 8)
  else if off < 0x0110_0000 then some (0x40, (off - 0x0100_0000) / 8)
  else if off < 0x0120_0000 then some (0x41, (off - 0x0110_0000) / 8)
  else if off < 0x0130_0000 then some (0x42, (off - 0x0120_0000) / 8)
  else if off < 0x0140_0000 then some (0x43, (off - 0x0130_0000) / 8)
  else if off < 0x0148_0000 then some (0x44, (off - 0x0140_0000) / 8)
  else if off < 0x0148_2000 then some (0x45, (off - 0x0148_0000) / 8)
  else if 0x01A0_0000 ≤ off && off < 0x01C0_0000 then some (0x47, (off - 0x01A0_0000) / 8)
  else if 0x01E1_0000 ≤ off && off < 0x01F0_0000 then some (0x47, (off - 0x0180_0000) / 8)
  else if 0x0180_0000 ≤ off && off < 0x01E1_0000 then some (0x46, (off - 0x0180_0000) / 8)
  else if 0x0204_0000 ≤ off && off < 0x0208_0000 then some (0x49, (off - 0x0204_0000) / 8)
  else if 0x0200_0000 ≤ off && off < 0x0209_0000 then some (0x48, (off - 0x0200_0000) / 8)
  else if 0x0390_0000 ≤ off && off < 0x0390_8000 then some (0x4D, (off - 0x0390_0000) / 8)
  else if 0x0398_0000 ≤ off && off < 0x039C_0000 then some (0x90 + (off - 0x0398_0000) / 0x4000, (off - 0x0398_0000) % 0x4000 / 8)
  else if 0x03A4_0000 ≤ off && off < 0x03A4_2000 then some (0xA1, (off - 0x03A4_0000) / 8)
  else if 0x03A8_0000 ≤ off && off < 0x03A8_5000 then some (0xAA, (off - 0x03A8_0000) / 8)
  else none

/-- The range of a BAR2 word is retired, in a memory of kind TABLE (R480). -/
def Chip.tableRetired (c : Chip) (off : Nat) : Bool :=
  match instanceOf off with
  | some (m, a) => decide (0x40 ≤ m) && decide (m < 0x50) && c.rangeRetired m (a / 512)
  | none => false

/-- A whole write of a word clears poison (R474). -/
def Chip.cleanWord (c : Chip) (off : Nat) : Chip :=
  if c.mem.bad.isEmpty then c else
  match instanceOf off with
  | some (m, a) => if 0x40 ≤ m && m < 0x50 then (c.memClean m a).memClean (m + 0x10) a else c.memClean m a
  | none => c

/-- A partial write reads the word first (R471-R473): `ecc` 1 finds a correctable error, 2 an uncorrectable one. -/
def Chip.mergeRead (c : Chip) (off p ecc : Nat) : Chip :=
  match instanceOf off with
  | none => c
  | some (m, a) =>
    if ecc = 2 || sget false c.mem.bad (memKey m a) then c.memPoison m a p
    else if ecc = 1 then c.memCe m a else c

/-- Byte enables of a 64-bit write as a bit mask. -/
def beMask64 (be : Nat) : Word64 := (beMask (be / 16 % 16)).setWidth 64 <<< 32 ||| (beMask (be % 16)).setWidth 64

/-- A member record has other reserved bits than a signal record (R262). -/
def Region.maskFor (r : Region) (w : Nat) (v : Word64) : Word64 :=
  if r.tag = .mapping && fld v 63 62 = 3 then 0xFFFF_FFFF_0000_0000 else BitVec.ofNat 64 (r.masks.getD w 0)

/-- What an entry that has been written does beyond holding its words; `old` is word 0 as it was. -/
def Chip.entryEffect (c : Chip) (r : Region) (i : Nat) (old : Word64) : Chip :=
  match r.tag with
  | .recovery => c.frerCommit i
  | .bucket => c.bucketCommit i
  | .filter =>
    let o := r.entryOff i
    (((c.setTword o (setBit (c.tword o) 30 false)).setTword (o + 8) 0).setTword (o + 16) 0).setTword (o + 24) 0
  | .meter => c.meterCommit i
  | .gate => c.streamGateCommit i
  | .gatePool =>
    ((List.range 512).filter fun g =>
      let w := c.tword (polBase + 0x6_0000 + 32 * g)
      bit w 63 && decide (fld w 11 0 ≤ i) && decide (i < fld w 11 0 + fld w 24 16)).foldl (fun (c : Chip) g => c.streamGateLoad g) c
  | .layout => c.layoutCommit i
  | .timer => c.timerCommit i old
  | .profile => (c.setTword (r.entryOff i + 16) 0).setTword (r.entryOff i + 24) 0
  | .sa => c.saCommit (48 + (r.base - 0x0398_1000) / 0x4000) (i / 4) (i % 4)
  | .gateList => c.gateLoad ((r.base - 0x0080_0000) / 0x2000)
  | _ => c

/-- A word that is not journalled: a region without shadow, a timer's NEXT (R325), or an SA's PN and counters (R468). -/
def liveWord (r : Region) (w : Nat) : Bool :=
  !r.shadow || (r.tag = .timer && w = 1) || (r.tag = .sa && (w = 1 || 4 ≤ w))

/-- The words of an entry written: writable bits change, others stay, except the bits that are reserved in the one kind of mapping record and
not in the other (R262); whole words clear poison. Its live words stay as they are (R325, R468). -/
def Chip.putEntry (c : Chip) (r : Region) (i : Nat) (ws : List Word64) : Chip :=
  let step (c : Chip) (wv : Nat × Word64) : Chip :=
    if r.shadow && liveWord r wv.1 then c else
    let o := r.entryOff i + 8 * wv.1
    let m := r.maskFor wv.1 wv.2
    let old := if r.tag = .mapping then 0 else c.tword o &&& ~~~ m
    (c.setTword o (old ||| (wv.2 &&& m))).cleanWord o
  ((List.range r.words).zip ws).foldl step c

/-- An entry takes effect (R206, R402), with what its commit does. -/
def Chip.commitEntry (c : Chip) (r : Region) (i : Nat) (ws : List Word64) : Chip :=
  let old := c.tword (r.entryOff i)
  (c.putEntry r i ws).entryEffect r i old

/-- The words of an entry before a write: those of the partition's journal, or as committed (R405, R206). -/
def Chip.entryBase (c : Chip) (k : Nat) (r : Region) (i : Nat) : List Word64 :=
  let f := r.entryOff i
  let found := if (c.txn k).state = 1 then (c.txn k).journal.findSome? fun j => match j with
      | .entry g ws => if g = f then some ws else none
      | .reg _ _ _ => none else none
  found.getD (c.twords f r.words)

/-- The entry buffer of partition k (R206). -/
def Chip.entryBuf (c : Chip) (k : Nat) : Option EntryBuf := c.ep.bufs.lookup k
def Chip.setBuf (c : Chip) (k : Nat) (b : Option EntryBuf) : Chip :=
  let rest := c.ep.bufs.filter fun e => e.1 != k
  { c with ep := { c.ep with bufs := match b with | none => rest | some x => (k, x) :: rest } }

/-- A buffer of another entry is abandoned (R206). -/
def Chip.abandonOther (c : Chip) (k first : Nat) : Chip :=
  match c.entryBuf k with
  | none => c
  | some b =>
    if b.first = first then c
    else
      let p := match windowPage b.first with | some (p, _) => p | none => 0
      let c1 := (c.setBuf k none).setErr p 7
      if p = 0x048 then c1.incRaise Reg.CLS.ENTRY_ABANDON 0x048 5 else c1

/-- A shadowable entry reaches the journal of an open transaction, or the tables (R402, R405). -/
def Chip.acceptEntry (c : Chip) (k off : Nat) (r : Region) (i : Nat) (ws : List Word64) : Chip :=
  if (c.txn k).state = 1 then c.journalWrite k true off (.entry (r.entryOff i) ws) else c.commitEntry r i ws

/-- A write of one word of a shadowable entry (R206): held in the entry buffer, or with the commit word the whole entry. -/
def Chip.entryWrite (c : Chip) (k off : Nat) (r : Region) (i w : Nat) (v m : Word64) : Chip :=
  let base := c.entryBase k r i
  match r.commit with
  | none =>
    let old := base.getD w 0
    let one : Region := { tag := r.tag, base := r.base, n := r.n * r.words, words := 1, masks := [r.masks.getD w 0] }
    let j := r.words * i + w
    let cur := (c.entryBase k one j).getD 0 old
    c.acceptEntry k off one j [(cur &&& ~~~ m) ||| (v &&& m)]
  | some cw =>
    let first := r.entryOff i
    let c1 := c.abandonOther k first
    let held := match c1.entryBuf k with | some b => b.words | none => []
    let now := ((held.lookup w).getD (base.getD w 0) &&& ~~~ m) ||| (v &&& m)
    if w ≠ cw then c1.setBuf k (some { first := first, words := (w, now) :: held.filter fun e => e.1 != w })
    else
      let ws := (List.range r.words).map fun j => if j = w then now else (held.lookup j).getD (base.getD j 0)
      (c1.setBuf k none).acceptEntry k off r i ws

/-- The code word of an instruction entry lies inside a program in use (R284). -/
def Chip.entryBusy (c : Chip) (r : Region) (i : Nat) : Bool := decide (r.tag = .code) && c.codeBusy i

/-- A live region word written at once (R256, R288, R208): the merge of a narrower write is done by hardware. A write of data memory follows
the commits of its core cycle (R258, R288). -/
def Chip.liveWrite (c : Chip) (r : Region) (i w : Nat) (v m : Word64) (wide : Bool) : Chip :=
  if r.tag = .sigState then c.hostSigWrite i w v wide
  else
    let o := r.entryOff i + 8 * w
    let mm := m &&& BitVec.ofNat 64 (r.masks.getD w 0)
    let c0 := if r.tag = .dmem then c.sigBegin 100 else c
    let c1 := c0.setTword o ((c.tword o &&& ~~~ mm) ||| (v &&& mm))
    if wide then c1.cleanWord o else c1

/-- A write of partition k to one 64-bit word of BAR2 (R38, R40, R43, R47, R49, R206, R405-R407, R480). `be` enables its
bytes, `ecc` says what the read of a partial write finds. -/
def Chip.tableWrite (c : Chip) (k off : Nat) (v : Word64) (be ecc : Nat) : Chip :=
  match windowPage off with
  | none => c
  | some (p, base) =>
    if !c.implemented p then c
    else if c.owner p ≠ k then c.deny k true true p (off - base)
    else match regionAt off with
      | none => c
      | some (r, i, w) =>
        let mine := decide ((c.txn k).state = 1)
        let m := beMask64 be
        let wide := decide (be % 256 = 255)
        if liveWord r w then
          (if mine && (pageKind p).any isShadow then (c.setErr p 2).rejectWrite k 1 true off
           else if c.tableRetired off then c.setErr p 7
           else (if wide then c else c.mergeRead off p ecc).liveWrite r i w v m wide)
        else
          let busy := match c.journalOwner p with | none => false | some j => !(decide (j = k) && mine)
          if busy then (let c1 := c.setErr p 3; if mine then c1.rejectWrite k 2 true off else c1)
          else if c.tableRetired off then c.setErr p 7
          else if c.entryBusy r i then c.codeRefuse
          else (if wide then c else c.mergeRead off p ecc).entryWrite k off r i w v m

/-- TABLE_ENTRY_WRITE (R206). -/
def doTableEntryWrite (k off : Nat) (v : Word64) (be ecc : Nat) (c : Chip) : Chip :=
  if 4 ≤ k || off % 8 ≠ 0 then c else c.tableWrite k off v be ecc

end Sys2Proof.Machine
end

