-- ==== Sys2Proof/Machine/Epochs.lean ====
section
/-! DEFINITION. Chapter 14: transactions, commits, the epoch switch and the retirement of the old epoch (R398-R418). -/

/-
MARKS of the model choices coded here; the log rows say each in full.
DESIGN CHOICE (log 53, unsafe): when a transaction command is late, and what its bits must be.
DESIGN CHOICE (log 55, unsafe): a direct write while an old epoch is still in use.
DESIGN CHOICE (log 99, unsafe): a Pawn's EMIT and its epoch.
DEDUCED (log 103, unsafe): transactions: reserved bits and read-only registers.
-/

namespace Sys2Proof.Machine

/-- RESULT of partition k's transaction (R415); Gambit's transaction has no register. -/
def Chip.txnResult (c : Chip) (k r : Nat) : Chip := if k < 4 then c.setFldOf (Reg.EPOCH.TXN_STAT k) 27 24 r else c

/-- STATE of partition k's transaction, as TXN_STAT shows it. -/
def Chip.txnState (c : Chip) (k s : Nat) : Chip :=
  let c1 := c.setTxn k { c.txn k with state := s }
  if k < 4 then c1.setFldOf (Reg.EPOCH.TXN_STAT k) 30 28 s else c1

/-- A bank source of the EPOCH page (R417): 0 DONE, 1 FAIL, 2 ABORTED, 3 LATE. -/
def Chip.txnRaise (c : Chip) (k b : Nat) : Chip := if k < 4 then c.raise 0x020 (4 * k + b) else c

/-- A transaction is discarded with a RESULT: its pages are freed (R409, R413). -/
def Chip.txnDiscard (c : Chip) (k r : Nat) : Chip :=
  ((c.setTxn k { c.txn k with journal := [] }).txnState k 0).txnResult k r

/-- A commit is discarded: FAIL is raised and FAIL_CNT counts it (R409). -/
def Chip.txnFail (c : Chip) (k r : Nat) : Chip := ((c.txnDiscard k r).inc Reg.EPOCH.FAIL_CNT).txnRaise k 1

/-- The sequence count after n: counts whose low 16 bits would be 0xFFFF are skipped (R404). -/
def nextCount (n : Nat) : Nat :=
  let m := (n + 1) % 2 ^ 30
  if m % 65536 = 65535 then (m + 1) % 2 ^ 30 else m

/-- A transaction opens (R404). -/
def Chip.txnOpen (c : Chip) (k : Nat) : Chip :=
  let n := nextCount (c.txn k).seq
  let c1 := c.setTxn k { state := 1, seq := n, timer := c.now }
  if k < 4 then
    let st := c1.fldOf (Reg.EPOCH.TXN_STAT k) 15 0
    ((c1.setReg (Reg.EPOCH.TXN_STAT k) (BitVec.ofNat 32 (2 ^ 28 + 2 ^ 24 + st))).setReg (Reg.EPOCH.TXN_ID k)
      (BitVec.ofNat 32 (k * 2 ^ 30 + n))).setReg (Reg.EPOCH.LAST_REJECT k) 0
  else c1

/-- BEGIN on a transaction record (R404). -/
def Chip.txnBegin (c : Chip) (k : Nat) : Chip :=
  if (c.txn k).state ≠ 0 then c.txnResult k 8 else c.txnOpen k

/-- A journal item is an instruction word that R284 refuses now. -/
def Chip.itemBusy (c : Chip) : JItem → Bool
  | .reg _ _ _ => false
  | .entry f _ => match regionAt f with | some (r, i, _) => c.entryBusy r i | none => false

/-- A commit is accepted (R409, R410): its entries are written at one per core cycle, and the target of mode 2 is latched; that
of mode 1 is taken when the writing has ended. -/
def Chip.txnPend (c : Chip) (k mode : Nat) : Chip :=
  let t := c.txn k
  let target :=
    if mode = 2 then (c.reg (Reg.EPOCH.TXN_AT_HI k)).toNat * 2 ^ 32 + (c.reg (Reg.EPOCH.TXN_AT_LO k)).toNat else 0
  (c.setTxn k { t with
    mode := mode, target := target, left := t.journal.length,
    wait := if k < 4 then c.bitOf (Reg.EPOCH.TXN_CFG k) 31 else true, late := false }).txnState k 2

/-- The entry writing of a pending commit in one core cycle (R410): with its last entry a mode 1 commit takes its boundary, the
first whole microsecond of Tempo at or after the end of that cycle (R409), and a mode 2 commit whose target Tempo reached in an
earlier core cycle is late. -/
def Txn.write (t : Txn) (value rate : Nat) : Txn :=
  if t.state ≠ 2 || t.left = 0 then t
  else if t.left ≠ 1 then { t with left := t.left - 1 }
  else
    { t with
      left := 0,
      target := if t.mode = 1 then ceilDiv (value + rate) (1000 * 2 ^ 48) * 1000 else t.target,
      late := t.late || (decide (t.mode = 2) && (t.reached || decide (t.target * 2 ^ 48 ≤ value))) }

/-- The entry writing of every pending commit in a core cycle. -/
def Chip.txnCycle (c : Chip) : Chip :=
  (List.range 5).foldl (fun (c : Chip) k =>
    if (c.txn k).state = 2 then c.setTxn k ((c.txn k).write c.tempo.value c.cycleRate) else c) c

/-- Every instruction word of a journal that R284 refuses at its commit is counted. -/
def Chip.codeRefuseAll (c : Chip) (items : List JItem) : Chip :=
  (items.filter c.itemBusy).foldl (fun (c : Chip) _ => c.codeRefuse) c

/-- COMMIT in a mode (R409, R412). -/
def Chip.txnCommit (c : Chip) (k mode : Nat) : Chip :=
  let t := c.txn k
  if t.state ≠ 1 then c.txnResult k 7
  else if t.taint ≠ 0 then c.txnFail k (if t.taint = 1 then 4 else if t.taint = 2 then 3 else 5)
  else if t.journal.any c.itemBusy then (c.codeRefuseAll t.journal).txnFail k 9
  else if t.journal.isEmpty then
    let c1 := ((c.txnDiscard k 1).inc Reg.EPOCH.EMPTY_COMMITS)
    (if k < 4 then c1.setFldOf (Reg.EPOCH.TXN_STAT k) 15 0 c1.epoch else c1).txnRaise k 0
  else c.txnPend k mode

/-- ROLLBACK (R413). -/
def Chip.txnRollback (c : Chip) (k : Nat) : Chip :=
  if (c.txn k).state = 0 then c.txnResult k 7 else c.txnDiscard k 0xA

/-- The command words that R404, R409 and R413 define, reserved bits left out of account. -/
def txnWord (v : Word) : Option (Nat × Nat) :=
  let op := fld v 3 0
  let m := fld v 9 8
  if fld v 31 16 ≠ 0x5458 then none
  else if op = 2 && m ≠ 3 then some (op, m)
  else if (op = 1 || op = 3) && m = 0 then some (op, 0) else none

/-- A write of TXN_CMD(k) by partition w. -/
def Chip.txnCmd (c : Chip) (w k : Nat) (v : Word) : Chip :=
  if 4 ≤ k then c else
  c.blockWrite w (Reg.EPOCH.TXN_CMD k) v 0xFFFFFFFF fun c =>
    match txnWord v with
    | none => c.txnResult k 0xB
    | some (1, _) => c.txnBegin k
    | some (2, m) => c.txnCommit k m
    | some _ => c.txnRollback k

/-- BEGIN (R404): partition w writes 0x5458_0001 to TXN_CMD(k). -/
def doBegin (w k : Nat) (c : Chip) : Chip := c.txnCmd w k 0x5458_0001
/-- COMMIT_IMMEDIATE (R409). -/
def doCommitImmediate (w k : Nat) (c : Chip) : Chip := c.txnCmd w k 0x5458_0002
/-- COMMIT_NEXT_BOUNDARY (R409). -/
def doCommitNextBoundary (w k : Nat) (c : Chip) : Chip := c.txnCmd w k 0x5458_0102
/-- COMMIT_AT_TIME (R409). -/
def doCommitAtTime (w k : Nat) (c : Chip) : Chip := c.txnCmd w k 0x5458_0202
/-- ROLLBACK (R413). -/
def doRollback (w k : Nat) (c : Chip) : Chip := c.txnCmd w k 0x5458_0003

/-- TXN_BAD_CMD (R415): a word that no other command gives. -/
def doTxnBadCmd (w k : Nat) (v : Word) (c : Chip) : Chip := if (txnWord v).isSome then c else c.txnCmd w k v

/-- TXN_JOURNAL_WRITE (R405-R408): while its transaction is open, partition k writes a shadowable register (BAR0) or the
word of a shadowable entry (BAR2). -/
def doTxnJournalWrite (k : Nat) (bar2 : Bool) (addr : Nat) (v : Word64) (be ecc : Nat) (c : Chip) : Chip :=
  if 4 ≤ k || (c.txn k).state ≠ 1 then c
  else if bar2 then
    (match regionAt addr with
     | some (r, _, w) => if addr % 8 = 0 && !liveWord r w then c.tableWrite k addr v be ecc else c
     | none => c)
  else if addr % 4 = 0 && (rowOf addr).any (fun r => r.shadow) then
    c.blockWrite k addr (v.setWidth 32) (beMask be) fun c => c.regEffect addr (v.setWidth 32) (beMask be)
  else c

/-- A pending transaction is due: its entries are written and its target is reached (R410). -/
def Chip.txnDue (c : Chip) (k : Nat) : Bool :=
  let t := c.txn k
  t.state = 2 && t.left = 0 && (t.reached || decide (t.target ≤ c.ns))

/-- The old version of an item stays for the old epoch (R401, R402). -/
def Chip.keepOld (c : Chip) : JItem → Chip
  | .reg a _ _ => { c with ep := { c.ep with oldRegs := c.ep.oldRegs ++ [(a, c.reg a)] } }
  | .entry f ws =>
    { c with ep := { c.ep with oldTbl := c.ep.oldTbl ++ (List.range ws.length).map fun j => (f / 8 + j, c.tword (f + 8 * j)) } }

/-- The square whose gate list a register belongs to: GATE_CTRL to GATE_INIT (R171). -/
def gateSquare (a : Nat) : Option Nat :=
  if pageKind (a / 0x1000) = some .eth && 0x70 ≤ a % 0x1000 && a % 0x1000 ≤ 0x84 then some (a / 0x1000 - 0x100) else none

/-- The square whose gate list an item changes. -/
def JItem.gates : JItem → Option Nat
  | .reg a _ _ => gateSquare a
  | .entry f _ =>
    match regionAt f with
    | some (r, _, _) => if r.tag = .gateList then some ((r.base - 0x0080_0000) / 0x2000) else none
    | none => none

/-- An item takes effect; the parts of a new gate list wait for the others of their commit (R157). -/
def Chip.applyItem (c : Chip) : JItem → Chip
  | .reg a v m => if (gateSquare a).isSome then c.plainWrite a v m else c.regEffect a v m
  | .entry f ws =>
    match regionAt f with
    | none => c
    | some (r, i, w) =>
      if r.tag = .gateList then c.putEntry r i ws
      else if r.commit.isSome then c.commitEntry r i ws
      else
        let m := BitVec.ofNat 64 (r.masks.getD w 0)
        (c.setTword f ((c.tword f &&& ~~~ m) ||| (ws.headD 0 &&& m))).cleanWord f

/-- Partition k's transaction has switched (R410). -/
def Chip.txnSwitched (c : Chip) (k : Nat) : Chip :=
  let late := (c.txn k).late
  let c1 := c.txnDiscard k 1
  if 4 ≤ k then c1 else
  let c2 := (c1.setFldOf (Reg.EPOCH.TXN_STAT k) 15 0 c1.epoch).setBitOf (Reg.EPOCH.TXN_STAT k) 22 late
  let c3 := (c2.setReg (Reg.EPOCH.TXN_SW_LO k) (BitVec.ofNat 32 c2.ns)).setReg (Reg.EPOCH.TXN_SW_HI k) (BitVec.ofNat 32 (c2.ns / 2 ^ 32))
  let c4 := c3.txnRaise k 0
  if late then c4.txnRaise k 3 else c4

/-- A commit's items take effect: all of them, then the gate lists that they make (R157, R410). -/
def Chip.applyItems (c : Chip) (items : List JItem) : Chip :=
  (items.filterMap JItem.gates).eraseDups.foldl (fun (c : Chip) q => c.gateLoad q) (items.foldl Chip.applyItem c)

/-- Transactions switch together into one new epoch (R410, R411). -/
def Chip.switchEpoch (c : Chip) (ks : List Nat) : Chip :=
  let items := ks.flatMap fun k => (c.txn k).journal
  let old := c.epoch
  let c0 := { c with ep := { c.ep with oldRegs := [], oldTbl := [], switchAt := c.now } }
  let c1 := items.foldl Chip.keepOld c0
  let c2 := (c1.setFldOf Reg.EPOCH.CUR 15 0 ((old + 1) % 65536)).setReg Reg.EPOCH.OLD (BitVec.ofNat 32 (2 ^ 31 + old))
  let c3 := (c2.setReg Reg.EPOCH.SWITCH_LO (BitVec.ofNat 32 c2.ns)).setReg Reg.EPOCH.SWITCH_HI (BitVec.ofNat 32 (c2.ns / 2 ^ 32))
  let c4 := (c3.inc Reg.EPOCH.COMMITS).applyItems items
  ks.foldl (fun (c : Chip) k => c.txnSwitched k) c4

/-- A due commit meets a live old epoch (R411): discarded, or it waits, and then its switch falls after its target (R410). -/
def Chip.txnBusy (c : Chip) (k : Nat) : Chip :=
  let t := c.txn k
  if t.wait then (if t.met then c else (c.setTxn k { t with met := true, late := t.late || decide (t.mode = 2) }).raise 0x020 17)
  else (((c.txnDiscard k 2).inc Reg.EPOCH.BUSY_CNT).raise 0x020 17).txnRaise k 1

/-- The transactions that are due, in ascending order with Gambit's last. -/
def Chip.dueTxns (c : Chip) : List Nat := (List.range 5).filter fun k => c.txnDue k

/-- Every due commit switches, or meets a live old epoch (R410, R411). -/
def Chip.switchDue (c : Chip) : Chip :=
  let ks := c.dueTxns
  if ks.isEmpty then c
  else if c.bitOf Reg.EPOCH.OLD 31 then ks.foldl (fun (c : Chip) k => c.txnBusy k) c
  else c.switchEpoch ks

/-- A copy has been handed whole to its egress controller (R401). -/
def Copy.handed (k : Copy) : Bool := k.txCells != 0 && k.compared = k.cells

/-- Items that carry epoch e (R401): packets classified before their end, copies until they are handed over whole, Pawn requests and invocations, waiting emissions, snapshot
records being written, cipher jobs. -/
def Chip.usersOf (c : Chip) (e : Nat) : Nat :=
  let taken (h : Option (Nat × Nat)) : Bool := h.any fun x => decide (x.1 = e)
  (c.stg.filter fun (s : Nat × StgSq) => s.2.pkts.any (fun k => taken k.head) || s.2.prog.any (fun g => taken g.head) || s.2.cut.any (fun k => taken k.head)).length +
    (c.fab.copies.filter fun (k : Copy) => k.epoch = e && !k.handed).length + (c.sig.slots.filter fun (j : SnapJob) => j.epoch = e).length + (c.pawn.queue.filter fun (r : PawnReq) => r.epoch = e).length +
    (c.pawn.run.filter fun (x : Nat × Invocation) => x.2.epoch = e).length +
    (c.sig.deferred.filter fun (d : DeferredEmit) => d.epoch = some e).length +
    (c.sig.trig.filter fun (d : Nat × Option Nat) => d.2 = some e).length +
    (c.cx.jobs.filter fun (j : CxJob) => j.copy.isSome && decide (j.epoch = e)).length

/-- The old epoch retires (R401). -/
def Chip.retireOld (c : Chip) : Chip :=
  let us := (c.now - c.ep.switchAt) / fsUs
  let c1 := { c with ep := { c.ep with oldRegs := [], oldTbl := [], oldBook := false } }
  let c2 := (c1.setBitOf Reg.EPOCH.OLD 31 false).raise 0x020 16
  if c2.fldOf Reg.EPOCH.DRAIN_MAX 23 0 < us then c2.setReg Reg.EPOCH.DRAIN_MAX (BitVec.ofNat 32 (Nat.min us 0xFFFFFF)) else c2

/-- The old epoch may retire: it is valid and nothing carries it. -/
def Chip.oldDone (c : Chip) : Bool := c.bitOf Reg.EPOCH.OLD 31 && decide (c.usersOf (c.fldOf Reg.EPOCH.OLD 15 0) = 0)

/-- An open transaction ends without its partition's word (R414, R416). -/
def Chip.txnAbort (c : Chip) (k : Nat) : Chip := ((c.txnDiscard k 6).inc Reg.EPOCH.ABORT_CNT).txnRaise k 2

/-- TXN_AUTO_ABORT (R414): the auto-abort timer of partition k. -/
def doTxnAutoAbort (k : Nat) (c : Chip) : Chip :=
  let s := Nat.min 3600 (c.fldOf (Reg.EPOCH.TXN_CFG k) 11 0)
  if 4 ≤ k || (c.txn k).state ≠ 1 || s = 0 || c.now < (c.txn k).timer + s * fsSec then c
  else (c.txnAbort k).scoreAs 0x0080 2 0x020 (some k) none ([0, 0, 0, 0] ++ bytesLE 4 (c.reg (Reg.EPOCH.TXN_ID k)).toNat)

end Sys2Proof.Machine
end

