-- ==== Sys2Proof/Machine/Gambit.lean ====
section
/-! DEFINITION. Chapter 20, Gambit: manifests, load records and chunks, its commands, pointer records, activation,
trial and fall-back; with it the completion of Arbiter commands, of an Arbiter restart, and the epoch switch that ends
a Gambit transaction. -/

/-
MARKS of the model choices coded here; the log rows say each in full.
DESIGN CHOICE (log 21, unsafe): in RECOVERY the partition's own Arbiter bank is readable and writes of it are taken for OPs 0x40 to 0x42.
DESIGN CHOICE (log 71, unsafe): Gambit staging and its checks.
DESIGN CHOICE (log 72, unsafe): Gambit activation.
DESIGN CHOICE (log 73, unsafe): Gambit trials, limits and fall-back.
DESIGN CHOICE (log 74, unsafe): firmware that does not verify.
DESIGN CHOICE (log 108, unsafe): what a lane and a flash report.
-/

namespace Sys2Proof.Machine

/-- Gambit's record replaced. -/
def Chip.setGambit (c : Chip) (g : GambitState) : Chip := { c with gambit := g }

/-- The first n bytes of the transfer buffer (R536). -/
def Chip.transfer (c : Chip) (n : Nat) : List Byte :=
  ((c.twords 0x03A4_0000 (ceilDiv n 8)).flatMap fun w => bytesLE 8 w.toNat).take n

/-- A part entry of a manifest (R533). -/
structure PartEntry where
  typ : Nat
  svnIdx : Nat
  svn : Nat
  start : Nat
  len : Nat
  digest : List Byte
  deriving DecidableEq, Repr

/-- Fields of a manifest (R532). -/
def manParts (m : List Byte) : Nat := leAt m 3 1
def manChunks (m : List Byte) : Nat := leAt m 16 4
def manCosigned (m : List Byte) : Bool := leAt m 20 4 % 2 = 1
def manBuild (m : List Byte) : Nat := leAt m 24 8
def manRoot (m : List Byte) : List Byte := bytesAt m 32 32
def manBodyLen (m : List Byte) : Nat := 64 + 48 * manParts m
def manLen (m : List Byte) : Nat := manBodyLen m + (if manCosigned m then 171 else 0) + 114

/-- Part entry n (R533). -/
def manPart (m : List Byte) (n : Nat) : PartEntry :=
  let o := 64 + 48 * n
  { typ := leAt m o 1, svnIdx := leAt m (o + 1) 1, svn := leAt m (o + 2) 1, start := leAt m (o + 4) 4, len := leAt m (o + 8) 4,
    digest := bytesAt m (o + 16) 32 }
def manEntries (m : List Byte) : List PartEntry := (List.range (manParts m)).map fun n => manPart m n

/-- No two parts share a TYPE or a byte (R533). -/
def partsApart : List PartEntry → Bool
  | [] => true
  | p :: rest => rest.all (fun q => p.typ != q.typ && !touches p.start p.len q.start q.len) && partsApart rest

/-- The format of a manifest of n bytes (R532, R533). -/
def manFormatOk (m : List Byte) (n : Nat) : Bool :=
  decide (64 ≤ n) && n ≤ 1117 && leAt m 0 2 = 0x4D47 && leAt m 2 1 = 1 && 1 ≤ manParts m && manParts m ≤ 16 && n = manLen m &&
    1 ≤ manChunks m && manChunks m ≤ 8192 && leAt m 20 4 < 2 &&
    (List.range (manParts m)).all (fun i => leAt m (64 + 48 * i + 3) 1 = 0 && leAt m (64 + 48 * i + 12) 4 = 0) &&
    (manEntries m).all (fun p => 1 ≤ p.typ && p.typ ≤ 6 && p.svnIdx < 64 && 1 ≤ p.len && p.start + p.len ≤ 4096 * manChunks m) &&
    partsApart (manEntries m)

/-- CUST_SIG and SKV_SIG (R532). -/
def Chip.manSigned (c : Chip) (m : List Byte) : Bool :=
  let n := manBodyLen m
  let b := m.take n
  let pub := bytesAt m n 57
  let cust := manCosigned m
  let extra := if cust then bytesAt m n 171 else []
  (match c.otp.custKey with | none => true | some h => cust && Config.shake256 pub h.length = h) &&
    (!cust || Config.ed448Verify pub b (bytesAt m (n + 57) 114)) &&
    Config.ed448Verify Config.manifestKey (b ++ extra) (bytesAt m (n + extra.length) 114)

/-- The OTP counter i (R545). -/
def Chip.svnOf (c : Chip) (i : Nat) : Nat := sget 0 c.gambit.svn i

/-- The checks of STAGE in their order (R537); 0 where all hold. -/
def Chip.stageCheck (c : Chip) (m : List Byte) (n : Nat) : Nat :=
  let unit := leAt m 8 8
  if !manFormatOk m n then 1
  else if leAt m 4 4 ≠ (c.reg Reg.GAMBIT.DEV_CLASS).toNat then 3
  else if unit ≠ 0 && unit ≠ c.unitId then 4
  else if !c.manSigned m then 2
  else if (manEntries m).any (fun p => p.svn < c.svnOf p.svnIdx) then 5 else 0

/-- The leaf of a chunk and a node of the tree (R534). -/
def merkleLeaf (i : Nat) (data : List Byte) : List Byte := Config.shake256 (0x00 :: bytesLE 4 i ++ data) 32
def merkleNode (l r : List Byte) : List Byte := Config.shake256 (0x01 :: l ++ r) 32

/-- The path from a leaf to the top. -/
def merklePath : Nat → List Byte → List (List Byte) → List Byte
  | _, h, [] => h
  | i, h, s :: rest => merklePath (i / 2) (if i % 2 = 0 then merkleNode h s else merkleNode s h) rest

/-- The depth of the tree over n chunks (R534): the least D with n at most 2^D. -/
def merkleDepth (n : Nat) : Nat := ((List.range 14).find? fun d => n ≤ 2 ^ d).getD 14

/-- A chunk of n bytes is accepted (R535): its index and data. -/
def chunkOf (man b : List Byte) (n : Nat) : Option (Nat × List Byte) :=
  let i := leAt b 0 4
  let len := leAt b 4 2
  let d := merkleDepth (manChunks man)
  let sibs := (List.range d).map fun j => bytesAt b (16 + 32 * j) 32
  let data := bytesAt b (16 + 32 * d) len
  if i < manChunks man && leAt b 6 1 = d && n = 16 + 32 * d + len &&
      (if i + 1 = manChunks man then 1 ≤ len && len ≤ 4096 else len = 4096) && merklePath i (merkleLeaf i data) sibs = manRoot man
  then some (i, data) else none

/-- The image of a set: its chunks in order, the rest of a chunk's place as erased (R531). -/
def FlashSet.image (s : FlashSet) : List Byte :=
  (List.range (manChunks s.manifest)).flatMap fun i =>
    let d := sget [] s.chunks i
    d ++ List.replicate (4096 - d.length) 0xFF

/-- The bytes of a part. -/
def FlashSet.part (s : FlashSet) (p : PartEntry) : List Byte := bytesAt s.image p.start p.len

/-- The entry of a part TYPE in a set. -/
def FlashSet.entry (s : FlashSet) (t : Nat) : Option PartEntry :=
  if s.manifest.isEmpty then none else (manEntries s.manifest).find? fun p => p.typ = t

/-- Every chunk has arrived (R539). -/
def FlashSet.complete (s : FlashSet) : Bool := (List.range (manChunks s.manifest)).all fun i => (lookupKey s.chunks i).isSome

/-- Every part has its digest. -/
def FlashSet.digestsOk (s : FlashSet) : Bool := (manEntries s.manifest).all fun p => Config.shake256 (s.part p) 32 = p.digest

/-- What the load records of a set have given so far (R533): journal items, the entry being assembled, and the entry
whose commit word this record has given. -/
structure LoadAcc where
  ok : Bool := true
  items : List JItem := []
  buf : Option EntryBuf := none
  done : Option Nat := none
  deriving DecidableEq, Repr

/-- The words of an entry as the items hold it. -/
def itemWords (items : List JItem) (f : Nat) : Option (List Word64) :=
  items.findSome? fun j => match j with
    | .entry g ws => if g = f then some ws else none
    | .reg _ _ _ => none

/-- A word for the tables (R206, R533): shadowable entries only, the commit word after the others. -/
def Chip.loadTable (c : Chip) (a : LoadAcc) (off : Nat) (v : Word64) : LoadAcc :=
  match regionAt off with
  | none => { a with ok := false }
  | some (r, i, w) =>
    if liveWord r w then { a with ok := false }
    else match r.commit with
      | none => { a with items := mergeItem a.items (.entry off [v]) }
      | some cw =>
        let first := r.entryOff i
        let held := match a.buf with | some b => if b.first = first then b.words else [] | none => []
        let base := (itemWords a.items first).getD (c.twords first r.words)
        if a.done = some first then { a with ok := false }
        else if w ≠ cw then { a with buf := some { first := first, words := (w, v) :: held.filter fun e => e.1 != w } }
        else
          let ws := (List.range r.words).map fun j => if j = w then v else (held.lookup j).getD (base.getD j 0)
          { a with items := mergeItem a.items (.entry first ws), buf := none, done := some first }

/-- A word for a shadowable register. -/
def loadReg (a : LoadAcc) (addr : Nat) (v : Word) : LoadAcc :=
  if (rowOf addr).any (fun r => r.shadow) && (pageKind (addr / 0x1000)).any isShadow then
    { a with items := mergeItem a.items (.reg addr v 0xFFFFFFFF) }
  else { a with ok := false }

/-- The load records of a part (R533). -/
def Chip.loadRecords (c : Chip) : Nat → List Byte → LoadAcc → LoadAcc
  | 0, _, a => a
  | fuel + 1, b, a =>
    if b.isEmpty then a else
    let w := leAt b 0 4
    let n := leAt b 4 2
    let bar0 := natBits w 31 31 = 1
    let size := if bar0 then 4 else 8
    let at_ := w % 2 ^ 26
    if b.length < 8 || natBits w 30 26 ≠ 0 || n = 0 || 512 < n || leAt b 6 2 ≠ 0 || at_ % size ≠ 0 || b.length < 8 + n * size then
      { a with ok := false }
    else
      let put (a : LoadAcc) (j : Nat) : LoadAcc :=
        let v := leAt b (8 + size * j) size
        if bar0 then loadReg a (at_ + size * j) (BitVec.ofNat 32 v) else c.loadTable a (at_ + size * j) (BitVec.ofNat 64 v)
      c.loadRecords fuel (b.drop (8 + n * size)) ((List.range n).foldl put { a with done := none })

/-- The load records of a set: cipher policy, table set and Pawn bundle (R533). -/
def Chip.setLoad (c : Chip) (s : FlashSet) : LoadAcc :=
  (if s.manifest.isEmpty then [] else (manEntries s.manifest).filter fun p => p.typ = 2 || p.typ = 3 || p.typ = 6).foldl
    (fun (a : LoadAcc) p => let b := s.part p; c.loadRecords b.length b a) {}

/-- An item would change what is committed (R539). -/
def Chip.itemDiffers (c : Chip) : JItem → Bool
  | .reg a v m => match rowOf a with | none => false | some r => r.apply (c.reg a) v m != c.reg a
  | .entry f ws =>
    match regionAt f with
    | none => false
    | some (r, _, w0) =>
      ((List.range ws.length).zip ws).any fun (x : Nat × Word64) =>
        let m := r.maskFor (w0 + x.1) x.2
        (c.tword (f + 8 * x.1) &&& m) != (x.2 &&& m)

/-- The entries of a set that differ from what is committed (R539). -/
def Chip.setDiff (c : Chip) (s : FlashSet) : List JItem := (c.setLoad s).items.filter fun j => c.itemDiffers j

/-- STATUS.PHASE (R545). -/
def Chip.phase (c : Chip) : Nat := c.fldOf Reg.GAMBIT.STATUS 31 28
def Chip.setPhase (c : Chip) (n : Nat) : Chip := c.setFldOf Reg.GAMBIT.STATUS 31 28 n

/-- A 64-bit value in a pair of registers. -/
def Chip.setPair (c : Chip) (lo hi v : Nat) : Chip :=
  (c.setReg lo (BitVec.ofNat 32 v)).setReg hi (BitVec.ofNat 32 (v / 2 ^ 32))

/-- The registers that show the pointer record, staging and the OTP counters (R545). -/
def Chip.gambitShow (c : Chip) : Chip :=
  let c1 := match c.pointer with
    | none => c
    | some p =>
      (((c.setBitOf Reg.GAMBIT.STATUS 24 (p.active = 1)).setBitOf Reg.GAMBIT.STATUS 23 p.prevValid).setFldOf Reg.GAMBIT.STATUS 22 20
        (p.trials % 8)).setPair Reg.GAMBIT.BUILD_ACT_LO Reg.GAMBIT.BUILD_ACT_HI p.buildAct
  let st := c.gambit.staging
  let n := if st.manifest.isEmpty then 0 else manChunks st.manifest * 2 ^ 16 + st.chunks.length
  let c2 := (c1.setReg Reg.GAMBIT.STAGED (BitVec.ofNat 32 n)).setPair Reg.GAMBIT.BUILD_STG_LO Reg.GAMBIT.BUILD_STG_HI
    (if st.manifest.isEmpty then 0 else manBuild st.manifest)
  c.gambit.svn.foldl (fun (c : Chip) (e : Nat × Nat) => if e.1 < 64 then c.setReg (Reg.GAMBIT.SVN e.1) (BitVec.ofNat 32 e.2) else c) c2

/-- A pointer record is written (R540): the sector not in force is erased and takes it. -/
def Chip.writePointer (c : Chip) (p : PtrRec) : Chip :=
  let n := match c.pointer with | none => 1 | some q => (q.count + 1) % 2 ^ 32
  let rec1 := some { p with count := n }
  let g := if c.pointer.isSome && c.pointer = c.gambit.sec0 then { c.gambit with sec1 := rec1 } else { c.gambit with sec0 := rec1 }
  ((c.setGambit g).inc Reg.XSPI.ERASES).gambitShow

/-- A set slot's content replaced. -/
def Chip.setSlot (c : Chip) (n : Nat) (s : FlashSet) : Chip :=
  c.setGambit (if n = 0 then { c.gambit with slotA := s } else { c.gambit with slotB := s })

/-- The mirror can serve (R530). -/
def Chip.mirrorAlive (c : Chip) : Bool := c.bitOf Reg.XSPI.STATUS 1 && !c.gambit.dev1Fail && c.bitOf Reg.XSPI.CTRL 0

/-- A flash device serves: the primary, or the mirror (R530). -/
def Chip.flashAlive (c : Chip) : Bool := !c.gambit.dev0Fail || c.mirrorAlive

/-- A program or erase fails: counted and logged with the address (R530, R543). -/
def Chip.flashError (c : Chip) (addr : Nat) : Chip :=
  (c.inc Reg.XSPI.PROG_ERR).scoreLog 0x0094 3 0x0A0
    ([if c.gambit.dev0Fail then 1 else 0, 0, 0, 0] ++ bytesLE 4 addr)

/-- The build identifier as a Scoresheet detail. -/
def buildDetail (first b : Nat) : List Byte := [BitVec.ofNat 8 first, 0, 0, 0] ++ bytesLE 8 b

/-- Staging is erased, with its 8,208 sectors. -/
def Chip.eraseStaging (c : Chip) : Chip := ((c.setGambit { c.gambit with staging := {} }).addTo Reg.XSPI.ERASES 8208).gambitShow

/-- STAGE (R537): the manifest in the transfer buffer. -/
def Chip.gStage (c : Chip) (n : Nat) : Chip × Nat :=
  let m := c.transfer (Nat.min n 8192)
  let r := c.stageCheck m n
  if r ≠ 0 then (c, r)
  else if !c.flashAlive then (c.flashError 0x0412_0000, 0xB)
  else
    let st := c.gambit.staging
    let same := !st.manifest.isEmpty && manBuild st.manifest = manBuild m
    let c1 := if same then c else c.addTo Reg.XSPI.ERASES 8208
    let c2 := (c1.setGambit { c1.gambit with staging := { manifest := m, chunks := if same then st.chunks else [] } }).gambitShow
    (c2.scoreLog 0x0090 1 0x0A0 (buildDetail 0 (manBuild m)), 0)

/-- CHUNK (R535): the chunk in the transfer buffer. -/
def Chip.gChunk (c : Chip) (n : Nat) : Chip × Nat :=
  let st := c.gambit.staging
  let b := c.transfer (Nat.min n 8192)
  if st.manifest.isEmpty then (c, 6)
  else if leAt b 8 8 ≠ manBuild st.manifest then (c, 8)
  else match chunkOf st.manifest b n with
    | none => (c, 7)
    | some (i, data) =>
      if (lookupKey st.chunks i).isSome then (c, 0)
      else if !c.flashAlive then (c.flashError (0x0413_0000 + 4096 * i), 0xB)
      else ((c.setGambit { c.gambit with staging := { st with chunks := insertKey st.chunks i data } }).gambitShow, 0)

/-- A slot holds a set that has not failed (R540). -/
def Chip.slotUsable (c : Chip) (n : Nat) : Bool :=
  !(c.setOf n).manifest.isEmpty && !(match c.pointer with | none => false | some p => if n = 0 then p.aBad else p.bBad)

/-- The record in force, or what blank flash stands for (R540). -/
def Chip.record (c : Chip) : PtrRec := c.pointer.getD {}

/-- ACTIVATE (R539): the checks of steps 1 to 3; the copy then runs until ACT_DONE. -/
def Chip.gActivate (c : Chip) : Chip × Nat :=
  let st := c.gambit.staging
  let a := c.setLoad st
  if c.phase ≠ 0 then (c, 0xC)
  else if st.manifest.isEmpty then (c, 6)
  else if !st.complete then (c, 9)
  else if !c.slotUsable c.activeSlot && 2 ≤ c.otp.lc then (c.advanceFree, 1 + Config.freeValue c.free % 14)
  else if !st.digestsOk then (c, 0xA)
  else if !a.ok then (c, 1)
  else if c.journalFree < (c.setDiff st).length then (c, 0xE)
  else if !c.flashAlive then (c.flashError 0, 0xB)
  else
    let c1 := c.writePointer { c.record with trial := false, prevValid := false, buildPrev := 0 }
    let c2 := (c1.setSlot (1 - c1.activeSlot) {}).addTo Reg.XSPI.ERASES 8208
    ((c2.setGambit { c2.gambit with copy := some st }).setPhase 1, 0)

/-- CONFIRM (R542). -/
def Chip.gConfirm (c : Chip) : Chip × Nat :=
  let p := c.record
  if c.phase ≠ 3 || !p.trial then (c, 0xD)
  else
    let svn := (manEntries c.activeSet.manifest).foldl
      (fun (m : Sparse Nat) e => if sget 0 m e.svnIdx < e.svn then sset 0 m e.svnIdx e.svn else m) c.gambit.svn
    let c1 := c.setGambit { c.gambit with svn := svn, trialEnd := none }
    let c2 := (c1.writePointer { p with trial := false }).setPhase 0
    ((c2.scoreLog 0x0092 1 0x0A0 (buildDetail 0 p.buildAct)).raise 0x0A0 0, 0)

/-- ABANDON (R536). -/
def Chip.gAbandon (c : Chip) : Chip × Nat :=
  if c.phase = 1 || c.phase = 2 then (c, 0xC)
  else if !c.flashAlive then (c.flashError 0x0412_0000, 0xB)
  else (c.eraseStaging, 0)

/-- A Gambit command of partition k (R536): the result, and its response words. -/
def Chip.gambitExec (c : Chip) (k op arg0 : Nat) : Chip × Nat × List Nat :=
  if c.owner 0x0A0 ≠ k then (c, 3, []) else
  let r := if op = 0x40 then c.gStage arg0 else if op = 0x41 then c.gChunk arg0 else if op = 0x42 then c.gActivate
    else if op = 0x43 then c.gConfirm else c.gAbandon
  (r.1.setReg Reg.GAMBIT.LAST_RESULT (BitVec.ofNat 32 (op * 256 + r.2)), 1, [r.2, r.1.gambit.staging.chunks.length])

/-- RECOVERY (R576). -/
def Chip.inRecovery (c : Chip) : Bool := c.fldOf Reg.GLB.BOOT_STAT 3 0 = 0xF

/-- A Gambit command word of bank k by partition w; in RECOVERY the boot ROM takes OPs 0x40 to 0x42 (R576). -/
def Chip.gambitStart (c : Chip) (w k op : Nat) : Chip :=
  if c.inRecovery then
    (if op ≤ 0x42 && w = k && k < 4 && (lookupKey c.arb.cmds k).isNone then
      c.setArb { c.arb with cmds := insertKey c.arb.cmds k { op := op } } else c)
  else c.arbStart w k op false

/-- STAGE, CHUNK, ACTIVATE, CONFIRM, ABANDON (R536): partition w writes the command word of bank k. -/
def doStage (w k : Nat) (c : Chip) : Chip := c.gambitStart w k 0x40
def doChunk (w k : Nat) (c : Chip) : Chip := c.gambitStart w k 0x41
def doActivate (w k : Nat) (c : Chip) : Chip := c.gambitStart w k 0x42
def doConfirm (w k : Nat) (c : Chip) : Chip := c.gambitStart w k 0x43
def doAbandon (w k : Nat) (c : Chip) : Chip := c.gambitStart w k 0x44

/-- The work of an Arbiter command of partition k: result and response words (R489, R536). -/
def Chip.arbWork (c : Chip) (k op : Nat) (args : List Nat) (eye : Nat) : Chip × Nat × List Nat :=
  if 0x40 ≤ op && op ≤ 0x44 then c.gambitExec k op (args.getD 0 0) else c.arbExec k op args eye

/-- ARB_COMMAND_DONE (R488): the command of bank k ends; `eye` is what an EYE_SCAN measured. -/
def doArbCommandDone (k eye : Nat) (c : Chip) : Chip :=
  match lookupKey c.arb.cmds k with
  | none => c
  | some m =>
    if 4 ≤ k || !(c.arbRunning || c.inRecovery) then c
    else if m.bad then c.arbEnd k m.op 2
    else
      let r := c.arbWork k m.op ((List.range 8).map fun j => (c.reg (Reg.ARB.ARG k j)).toNat) eye
      let c1 := (List.range 8).foldl (fun (c : Chip) j => c.setReg (Reg.ARB.RSP k j) (BitVec.ofNat 32 (r.2.2.getD j 0))) r.1
      c1.arbEnd k m.op r.2.1

/-- Gambit's transaction is rolled back if it is open or pending. -/
def Chip.gambitRollback (c : Chip) : Chip := if (c.txn 4).state = 0 then c else c.txnRollback 4

/-- A fall-back (R543); its application follows as in steps 5 and 6 of R539. -/
def Chip.fallBack (c : Chip) (cause : Nat) : Chip :=
  let p := c.record
  if !p.prevValid then c else
  let c1 := c.gambitRollback
  let c2 := c1.writePointer { p with
    trial := false, active := 1 - p.active, prevValid := false, aBad := p.aBad || p.active = 0, bBad := p.bBad || p.active = 1,
    applyPend := true, buildAct := p.buildPrev, buildPrev := 0 }
  let c3 := c2.setGambit { c2.gambit with applyFrom := c2.now, retryAt := c2.now, trialEnd := none, copy := none }
  (((c3.setPhase 4).setAlarm 9).raise 0x0A0 4).scoreLog 0x0093 3 0x0A0 (buildDetail cause p.buildAct)

/-- A trial start (R542). -/
def Chip.trialStart (c : Chip) : Chip :=
  let p := c.record
  if !p.trial then c
  else if Nat.max 1 (c.fldOf Reg.GAMBIT.CTRL 14 12) < p.trials + 1 then c.fallBack 1
  else
    let c1 := c.writePointer { p with trials := p.trials + 1 }
    (c1.setGambit { c1.gambit with trialEnd := some (c1.now + Nat.max 1 (c1.fldOf Reg.GAMBIT.CTRL 31 16) * fsSec) }).raise 0x0A0 3

/-- The digest of a set's part of a TYPE. -/
def Chip.partDigest (c : Chip) (t : Nat) : Option (List Byte) := (c.activeSet.entry t).map (·.digest)

/-- Squares whose code is not that of the active set (R541): T1S PHY code on file f, microcode on files g and h. -/
def Chip.ucodePend (c : Chip) : Chip :=
  let mark (c : Chip) (t lo n : Nat) : Chip :=
    match c.partDigest t with
    | none => c
    | some d =>
      if sget [] c.gambit.code t = d then c
      else Chip.setReg (c.setGambit { c.gambit with code := insertKey c.gambit.code t d }) Reg.GAMBIT.UCODE_PEND
        (c.reg Reg.GAMBIT.UCODE_PEND ||| BitVec.ofNat 32 ((2 ^ n - 1) * 2 ^ lo))
  mark (mark c 5 0 8) 4 8 16

/-- Step 6 of R539, and what follows it: the Arbiter restarts into other firmware, or APPLY_PEND is cleared. -/
def Chip.gambitFinish (c : Chip) : Chip :=
  let c1 := c.ucodePend
  let newer := match c1.partDigest 1 with | none => none | some d => if sget [] c1.gambit.code 1 = d then none else some d
  match newer with
  | some d => Chip.arbRestart (c1.setGambit { c1.gambit with code := insertKey c1.gambit.code 1 d }) 3
  | none =>
    let p := c1.record
    let c2 := (c1.writePointer { p with applyPend := false }).raise 0x0A0 2
    let e := c2.now + Nat.max 1 (c2.fldOf Reg.GAMBIT.CTRL 31 16) * fsSec
    if p.trial then (c2.setGambit { c2.gambit with trialEnd := some (c2.gambit.trialEnd.getD e) }).setPhase 3
    else c2.setPhase 0

/-- The pages of Gambit's entries that a partition has journalled: each such write is discarded and sets PAGE_ERR.CONFLICT (R407). -/
def Chip.gambitConflicts (c : Chip) (items : List JItem) : Chip :=
  ((items.map JItem.page).eraseDups.filter fun p => (c.journalOwner p).any (fun k => k != 4)).foldl (fun (c : Chip) p => c.setErr p 3) c

/-- The journal of Gambit's transaction takes the entries, unless a partition has journalled a page of theirs (R407,
R541). -/
def Chip.gambitJournal (c : Chip) (items : List JItem) : Option Chip :=
  if items.any (fun j => (c.journalOwner j.page).any (fun k => k != 4)) || c.journalFree < items.length then none
  else
    let c1 := c.gambitRollback.txnBegin 4
    some (c1.setTxn 4 { c1.txn 4 with journal := items })

/-- The next attempt comes 100 ms later (R541). -/
def Chip.gambitLater (c : Chip) : Chip := c.setGambit { c.gambit with retryAt := c.now + 100 * fsMs }

/-- Step 5 of R539: the entries that differ are committed in mode 0. R284's refusal makes an activation fall back. -/
def Chip.gambitAttempt (c : Chip) : Chip :=
  let items := c.setDiff c.activeSet
  if items.isEmpty then c.gambitFinish
  else match c.gambitJournal items with
    | none => (c.gambitConflicts items).gambitLater
    | some c1 =>
      let c2 := c1.txnCommit 4 0
      if (c2.txn 4).state = 2 then c2.gambitLater
      else if c.phase = 2 then c2.fallBack 2 else c2.gambitLater

/-- APPLY_TO in femtoseconds (R541). -/
def Chip.applyFs (c : Chip) : Nat := clampNat 1 3600 (c.fldOf Reg.GAMBIT.CTRL 11 0) * fsSec

/-- GAMBIT_APPLY_RETRY (R541). -/
def doGambitApplyRetry (c : Chip) : Chip :=
  if !c.record.applyPend || !(c.phase = 2 || c.phase = 4) || !c.arbRunning || c.now < c.gambit.retryAt then c
  else if c.phase = 2 && c.gambit.applyFrom + c.applyFs ≤ c.now && c.record.prevValid then c.fallBack 2
  else if (c.txn 4).state = 2 then c.gambitLater
  else c.gambitAttempt

/-- TRIAL_WINDOW_EXPIRY (R543). -/
def doTrialWindowExpiry (c : Chip) : Chip :=
  match c.gambit.trialEnd with
  | none => c
  | some t => if c.now < t || !c.record.trial then c else c.fallBack 0

/-- The copy of an activation ends (R539, steps 3 and 4): `good` says that it hashed right. An activation with no previous
set is CONFIRMED (R543). -/
def Chip.actDone (c : Chip) (good : Bool) : Chip :=
  match c.gambit.copy with
  | none => c
  | some st =>
    let c1 := c.setGambit { c.gambit with copy := none }
    if !good || !c.flashAlive then
      ((c1.flashError 0).setReg Reg.GAMBIT.LAST_RESULT (BitVec.ofNat 32 (0x42 * 256 + 0xB))).setPhase 0
    else
      let p := c1.record
      let new := 1 - p.active
      let prev := c1.slotUsable p.active
      let b := manBuild st.manifest
      let c2 := (c1.setSlot new st).writePointer { p with
        trial := prev, active := new, prevValid := prev, aBad := p.aBad && new != 0, bBad := p.bBad && new != 1, applyPend := true,
        trials := 0, buildAct := b, buildPrev := if prev then p.buildAct else 0 }
      let c3 := c2.setGambit { c2.gambit with applyFrom := c2.now, retryAt := c2.now, trialEnd := none }
      ((c3.setPhase 2).raise 0x0A0 1).scoreLog 0x0091 1 0x0A0 (buildDetail new b)

/-- FLASH_DEVICE_FAIL (R530): the primary fails entirely; or one read of it fails and the mirror, where it can serve,
repairs it. -/
def doFlashDeviceFail (whole : Bool) (c : Chip) : Chip :=
  if c.gambit.dev0Fail then c else
  if !whole then
    let c1 := c.inc Reg.XSPI.READ_ERR
    if c1.mirrorAlive then c1.incRaise Reg.XSPI.MIRROR_REPAIR 0x0A1 0 else c1
  else
  ((c.setGambit { c.gambit with dev0Fail := true }).setBitOf Reg.XSPI.STATUS 0 false).raise 0x0A1 1

/-- The firmware of a slot starts: FW_VER and FW_SVN are its own (R498). -/
def Chip.firmwareStart (c : Chip) : Chip :=
  let s := c.activeSet
  let c1 := Chip.genFlush ((c.setArbState 1).setArb { c.arb with beatAt := c.now })
  match s.entry 1 with
  | none => c1
  | some p =>
    ((c1.setReg Reg.ARB.FW_VER (BitVec.ofNat 32 (Config.firmwareVersion (s.part p)))).setReg Reg.ARB.FW_SVN (BitVec.ofNat 32 p.svn)).setGambit
      { c1.gambit with code := insertKey c1.gambit.code 1 p.digest }

/-- The boot ROM chooses the firmware (R539, R542, R543): a trial start is counted, and a set whose firmware does not
verify is left for the previous one. None: no set has firmware that verifies. `okA` and `okB` say whose does. -/
def Chip.chooseFirmware (c : Chip) (okA okB : Bool) : Option Chip :=
  let ok (c : Chip) : Bool := if c.activeSlot = 0 then okA else okB
  let c1 := c.trialStart
  if ok c1 then some c1
  else
    let c2 := c1.fallBack 3
    if ok c2 then some c2 else none

/-- An activation that a restart of the Arbiter or a start of the part found between steps (R32, R539, R540): a reset gives a copy up,
which a restart of the Arbiter only pauses; steps 5 and 6 resume. -/
def Chip.resumeActivation (c : Chip) (reset : Bool) : Chip :=
  let c1 := if c.phase = 1 && reset then (c.setGambit { c.gambit with copy := none }).setPhase 0 else c
  let p := c1.record
  if c1.phase = 1 then c1
  else if p.applyPend then
    (c1.setGambit { c1.gambit with applyFrom := c1.now, retryAt := c1.now }).setPhase (if c1.phase = 4 || !(p.trial || p.prevValid) then 4 else 2)
  else if p.trial then c1.setPhase 3 else c1.setPhase 0

/-- The Arbiter is held in the boot ROM (R487, R489). -/
def Chip.arbFailed (c : Chip) : Chip :=
  let waiting := c.arb.cmds
  let c1 := ((((c.setArbState 3).raise 0x090 9).setAlarm 7).scoreLog 0x0011 4 0x090 [])
  waiting.foldl (fun (c : Chip) (e : Nat × ArbCmd) => c.arbEnd e.1 e.2.op 6) c1

/-- ARB_RESTART_DONE (R486, R487, R395): `okA` and `okB` say whose firmware verifies. -/
def doArbRestartDone (okA okB : Bool) (c : Chip) : Chip :=
  if c.arbState ≠ 2 then c else
  let recent := (c.arb.restartFrom :: c.arb.restarts).filter fun t => decide (c.now < t + 600 * fsSec)
  let c1 := c.setArb { c.arb with restarts := recent }
  if 3 ≤ recent.length then c1.arbFailed
  else match c1.chooseFirmware okA okB with
    | none => c1.arbFailed
    | some c2 =>
      let us := (c2.now - c2.arb.restartFrom) / fsUs
      let c3 := (c2.firmwareStart.setReg Reg.ARB.RESTART_TIME (BitVec.ofNat 32 (Nat.min us 0x1FFFF))).raise 0x090 8
      (c3.copyAoLog.resumeActivation false).planesResume

/-- The opening book is in use (R204, R562). -/
def Chip.onBook (c : Chip) : Bool := c.bitOf Reg.CLS.STATUS 0

/-- The handover has switched (R562): the book ends, and T_BOOK_END is the time since the wake. -/
def Chip.bookEnd (c : Chip) : Chip :=
  let c0 := c.setBitOf Reg.CLS.STATUS 0 false
  let c1 := { c0 with ep := { c0.ep with oldBook := true } }
  let us := (c1.now - c1.power.wokeAt) / fsUs
  c1.setReg Reg.PWR.T_BOOK_END (BitVec.ofNat 32 (Nat.min us 0xFFFFF))

/-- Gambit's transaction has switched. -/
def Chip.gambitSwitched (c : Chip) : Chip :=
  let c1 := if c.onBook then c.bookEnd else c
  if c1.record.applyPend && (c1.phase = 2 || c1.phase = 4) then c1.gambitFinish else c1

/-- Due transactions switch, and Gambit's work goes on after its own. -/
def Chip.epochSwitch (c : Chip) : Chip :=
  let c1 := c.switchDue
  if (c.txn 4).state = 2 && (c1.txn 4).state ≠ 2 then c1.gambitSwitched else c1

/-- EPOCH_SWITCH (R410). -/
def doEpochSwitch (c : Chip) : Chip := c.epochSwitch

/-- OLD_EPOCH_RETIRE (R401, R411): a commit that waited for it switches in the same cycle. -/
def doOldEpochRetire (c : Chip) : Chip := if c.oldDone then c.retireOld.epochSwitch else c

/-- The CX profiles 0 to 15 that the opening book gave and the active set does not: the handover's commit ends them (R562). -/
def Chip.bookProfiles (c : Chip) : List JItem :=
  let given := (c.setLoad c.activeSet).items
  (List.range 16).filterMap fun n =>
    let off := cxProfileOff n
    if (itemWords given off).isSome || (c.tword off = 0 && c.tword (off + 8) = 0) then none
    else some (.entry off [0, 0, c.tword (off + 16), c.tword (off + 24)])

/-- The handover to the full tables (R562), after ARB has started: the whole of the active set's tables in one commit,
even where nothing differs; the book's profiles end with it. -/
def Chip.handover (c : Chip) : Chip :=
  let items := c.setDiff c.activeSet ++ c.bookProfiles
  match c.gambitJournal items with
  | none => (c.gambitConflicts items).gambitLater
  | some c1 => if (c1.txn 4).journal.any c1.itemBusy then (c1.codeRefuseAll (c1.txn 4).journal).gambitRollback.gambitLater else c1.txnPend 4 0

/-- BOOK_HANDOVER (R562). -/
def doBookHandover (c : Chip) : Chip := if !c.onBook || !c.arbRunning || (c.txn 4).state = 2 then c else c.handover

/-- BOOK_LATE (R562): t_BOOK, 120 ms after the wake event, has passed without the handover. -/
def doBookLate (c : Chip) : Chip :=
  if !c.onBook || c.power.bookLate || c.now < c.power.wokeAt + 120 * fsMs then c
  else
    let c1 := Chip.raise { c with power := { c.power with bookLate := true } } 0x002 2
    doBookHandover c1

end Sys2Proof.Machine
end

