-- ==== Sys2Proof/Machine/Resets.lean ====
section
/-! DEFINITION. Chapter 22, the narrower resets: square resets with their BIST, the wipe of a rejoining plane, and block
resets page by page (R566, R568, R46, R483 and the reset tables of the chapters). -/

/-
MARKS of the model choices coded here; the log rows say each in full.
DEDUCED (log 9, unsafe): the common header of a page survives block and square resets.
DESIGN CHOICE (log 47, unsafe): Pawn timers.
DESIGN CHOICE (log 62, unsafe): cipher jobs: completion and counters.
DESIGN CHOICE (log 75, unsafe): what block resets keep beyond their tables.
DESIGN CHOICE (log 76, safe): BIST outcomes of squares and planes are operands.
DEDUCED (log 103, unsafe): transactions: reserved bits and read-only registers.
DESIGN CHOICE (log 104, unsafe): the instant of a block reset.
-/

namespace Sys2Proof.Machine

/-- The buckets and trackers of memory instances cleared (R483). -/
def Chip.memForget (c : Chip) (ms : List Nat) : Chip :=
  ms.foldl (fun (c : Chip) m =>
    Chip.setFldOf { c with mem := { c.mem with track := eraseKey c.mem.track m } } (Reg.MEM.INST_STAT m) 31 24 0) c

/-- BIST of a square's two instances found `a` failing words in its staging FIFO and `b` in its controller (R481). -/
def Chip.squareBist (c : Chip) (q a b : Nat) : Chip := ((c.memForget [q, 0x60 + q]).bist q a).bist (0x60 + q) b

/-- CAN_SQUARE_RESET (R124, R481): a requested reset takes effect once the controller's own frame has ended. A square
whose BIST fails stays in reset. -/
def doCanSquareReset (q bistStg bistSq : Nat) (c : Chip) : Chip :=
  if !isCan q || !(c.canSq q).resetReq || (c.canSq q).onBus.isSome then c
  else if 8 < bistStg || 8 < bistSq then c.squareBist q bistStg bistSq
  else (c.squareBist q bistStg bistSq).canReset q

/-- ETH_SQUARE_RESET (R170, R481): at the end of the frame being sent, or 10 microseconds after the request, when that
frame is cut off. A square whose BIST fails stays in reset. -/
def doEthSquareReset (q bistStg bistSq : Nat) (c : Chip) : Chip :=
  if !isEth q then c else
  match (c.ethSq q).resetAt with
  | none => c
  | some t =>
    if (c.ethSq q).tx.isSome && c.now < t + 10 * fsUs then c
    else if 8 < bistStg || 8 < bistSq then
      let c1 := (c.squareBist q bistStg bistSq).ethClear q
      c1.setEth q { c1.ethSq q with resetAt := some t }
    else (c.squareBist q bistStg bistSq).ethReset q

/-- REINT_WIPE_DONE (R388, R481): the rejoining plane is wiped and its 16 instances have run BIST, which found `bad`
failing words in the worst of them, instance u. The plane of a memory that fails stays RETIRED. -/
def doReintWipeDone (u bad : Nat) (c : Chip) : Chip :=
  if c.plState c.partner ≠ 3 || !c.arbRunning then c else
  let base := 0x40 + 16 * c.partner
  let c1 := (c.memForget ((List.range 16).map (base + ·))).bist (base + u % 16) bad
  if 8 < bad then c1.reintFail else c1.reintWiped

/-- Block registers of a page at their reset values, but for the offsets that are kept. -/
def Chip.resetExcept (c : Chip) (p : Nat) (keep : Nat → Bool) : Chip :=
  { c with regs := c.regs.filter fun e => !(e.1 / 0x1000 = p && 0x30 ≤ e.1 % 0x1000) || keep (e.1 % 0x1000) }

/-- A square reset is requested: its pages are in reset until it completes (R124, R170, R568). A CAN square that transmits nothing
is reset at once. -/
def Chip.requestSquareReset (c : Chip) (q : Nat) : Chip :=
  let pages := [pSq q, pStg q] ++ (if 48 ≤ q then [pSec q, pSds q] else [])
  let c1 := { c with inReset := pages.foldl (fun (m : Sparse Nat) p => insertKey m p c.now) c.inReset }
  if q < 40 then
    let c2 := c1.setCan q { c1.canSq q with resetReq := true }
    if (c2.canSq q).onBus.isSome then c2 else c2.canHalt q
  else c1.setEth q { c1.ethSq q with resetAt := some ((c1.ethSq q).resetAt.getD c1.now) }

/-- A TEMPO block reset (R83). -/
def Chip.tempoReset (c : Chip) : Chip :=
  let st := c.tempoState
  let kept : List Nat := [0x58, 0x5C, 0x60, 0x7C, 0x80, 0x84, 0x9C, 0xA8]
  let c1 := c.resetExcept 0x010 fun o => kept.contains o
  (Chip.setFldOf { c1 with tempo := { c1.tempo with lockCount := 0, alarmTarget := [], rateLoNext := 0 } } Reg.TEMPO.STATE 1 0 st).steer

/-- A TSYNC block reset: every square's time distribution as its registers then say (R84). -/
def Chip.tsyncReset (c : Chip) : Chip :=
  let c1 := c.resetExcept 0x011 fun _ => false
  (List.range 40).foldl (fun (x : Chip) q => Chip.tsReconfigure c x q) c1

/-- An EPOCH block reset (R416): open transactions end ABORTED, pending ones go on. -/
def Chip.epochReset (c : Chip) : Chip :=
  let c1 := c.resetExcept 0x020 fun o => o = 0x40 || o = 0x44
  (List.range 4).foldl (fun (c : Chip) k =>
    if (c.txn k).state = 1 then (c.txnDiscard k 6).txnRaise k 2
    else if (c.txn k).state = 2 then c.txnState k 2 else c) c1

/-- An ADJ block reset (R395): the move and the planes' states stay. -/
def Chip.adjReset (c : Chip) : Chip :=
  let c1 := c.resetExcept 0x030 fun o => o = 0x44
  c1.setProofNext (c1.ns + c1.proofInt)

/-- A POL block reset (R247): counters of the entries read 0, buckets and meters are full, latched states are cleared. -/
def Chip.polReset (c : Chip) : Chip :=
  let c1 := c.resetPage 0x049
  let touch (c : Chip) (e : Nat × Word64) : Chip :=
    match regionAt (8 * e.1) with
    | none => c
    | some (r, i, w) =>
      if r.tag = .bucket || r.tag = .filter || r.tag = .meter then c.entryEffect r i 0
      else if r.tag = .gate && w = 0 then c.setTword (8 * e.1) (setBit (c.tword (8 * e.1)) 61 false) else c
  (c.tbl.filter fun e => decide (polBase / 8 ≤ e.1) && decide (e.1 < (polBase + 0x8_0000) / 8)).foldl touch
    { c1 with pol := { c1.pol with express := c1.expressAll true } }

/-- A GUARD block reset (R247): no square stays in quarantine. -/
def Chip.guardReset (c : Chip) : Chip :=
  let c1 := c.resetPage 0x04A
  { c1 with guard := { c1.guard with sq := [], skip := true } }

/-- A SIG block reset (R279): signal state and layout state are wiped, snapshots kept. -/
def Chip.sigReset (c : Chip) : Chip :=
  let c1 := ((c.resetPage 0x050).wipeTable 0x01A0_0000 0x20_0000).wipeTable 0x01E1_0000 0x2_0000
  { c1 with sig := { snap := c1.slotFinish.sig.snap, cyc := c1.sig.cyc } }

/-- A PAWN(n) block reset (R324): the engine's invocation ends with fault RESET; PAWN(0) empties the queue, restarts
the periodic timers with EN and stops the one-shot timers. -/
def Chip.pawnReset (c : Chip) (n : Nat) : Chip :=
  let c1 := match c.invOf n with | none => c | some v => c.pawnFault n v 0x0D 0
  let c2 := c1.resetPage (pPawn n)
  if n ≠ 0 then c2 else
  let c3 := c2.pawn.queue.foldl (fun (c : Chip) r => c.queueDrop r.event) { c2 with pawn := { c2.pawn with queue := [] } }
  (List.range 4096).foldl (fun (c : Chip) j =>
    let w := c.tword (timerOff j)
    if fld w 47 24 = 0 then (if bit (c.tword (timerOff j + 8)) 63 then c.timerStop j else c)
    else if bit w 63 then c.timerRun j (nextAligned w c.ns) else c) c3

/-- A CX block reset (R466): running jobs complete, queued ones end with BAD_DESC, the rings are reset. The jobs that
were there have no place in the new rings: 4,096 stands for none. -/
def Chip.cxReset (c : Chip) : Chip :=
  let c1 := c.resetPage 0x070
  { c1 with cx := { c1.cx with
      jobs := c1.cx.jobs.map fun (j : CxJob) =>
        if j.running || j.fail != 0 then { j with index := 4096 } else { j with fail := 2, index := 4096 },
      fetch := [],
      done := [] } }

/-- A CASTLE block reset (R442): the root, generations and MIN_SVN stay; slots are unloaded and commands end. -/
def Chip.castleReset (c : Chip) : Chip :=
  let mine := (c.castle.slots.filter fun (e : Nat × KeySlot) => !e.2.sys).map (·.1)
  let c1 := c.clearSlots mine 3
  let c2 := c1.setCastle { c1.castle with cmds := [] }
  (c2.resetExcept 0x071 fun o => o = 0x40 || (0x50 ≤ o && o < 0x68) || (0x80 ≤ o && o < 0xC0) || (0x200 ≤ o && o % 0x200 = 0x14)).genFlush

/-- A TAMPER block reset (R442): nothing while LOCK is 1; SLEEP_LATCH and LIVE stay. -/
def Chip.tamperReset (c : Chip) : Chip :=
  if c.bitOf Reg.TAMPER.CTRL 31 then c else c.resetExcept 0x072 fun o => o = 0x48 || o = 0x4C

/-- A MEM block reset (R483): buckets and trackers cleared, the scrubber restarts, the retire list and remaps stay. -/
def Chip.memReset (c : Chip) : Chip :=
  let c1 := c.resetExcept 0x080 fun o =>
    o = 0x50 || o = 0x68 || (0x200 ≤ o && o < 0x300) || (0x400 ≤ o && o % 16 = 4)
  let c2 := (c1.memForget (List.range 0xC0)).setFldOf Reg.MEM.RETIRE_STAT 31 8 0
  { c2 with mem := { c2.mem with track := [], leakAt := [], ovfAt := [], passStart := [] } }

/-- An ARB block reset (R497): the cores keep running, commands end with RESTARTED. -/
def Chip.arbBlockReset (c : Chip) : Chip :=
  let waiting := c.arb.cmds
  let c1 := c.resetExcept 0x090 fun o => o = 0x40 || o = 0x44 || o = 0x48
  waiting.foldl (fun (c : Chip) (e : Nat × ArbCmd) => c.arbEnd e.1 e.2.op 5) c1

/-- A GAMBIT block reset (R544): what the registers show of the flash and of the phase is shown again. -/
def Chip.gambitReset (c : Chip) : Chip :=
  let ph := c.phase
  ((c.resetExcept 0x0A0 fun o => o = 0x68).setPhase ph).gambitShow

/-- A BNL block reset (R525): keys removed, TX_SEQ 1. -/
def Chip.bnlReset (c : Chip) : Chip :=
  let c1 := c.resetPage 0x0B1
  c1.setHost { c1.host with bnlKeys := [], peerKey := [], bnlBucket := none }

/-- A SEC block reset (R466): the square's SAs are removed. -/
def Chip.secReset (c : Chip) (q : Nat) : Chip :=
  let c1 := c.resetPage (pSec q)
  { c1 with sas := c1.sas.filter fun (e : Nat × SaInst) => e.1 / 128 != q }

/-- The reset of a page (R566, R568); the header stays. -/
def Chip.blockReset (c : Chip) (p : Nat) : Chip :=
  match pageKind p with
  | none | some .glb | some .part => c
  | some .can => c.requestSquareReset (p - 0x100)
  | some .eth => c.requestSquareReset (p - 0x100)
  | some .stg => c.stgReset (p - 0x140)
  | some .sec => c.secReset (48 + (p - 0x180))
  | some .sds => ((c.resetPage p).sdsReport (48 + (p - 0x190)) 0).linkFall (48 + (p - 0x190))
  | some .tempo => c.tempoReset
  | some .tsync => c.tsyncReset
  | some .epoch => c.epochReset
  | some .adj => c.adjReset
  | some .pl => let st := c.plState (p - 0x031); (c.resetPage p).setPlState (p - 0x031) st
  | some .fab => Chip.fabDone c (c.resetPage p)
  | some .buf => Chip.fabDone c (c.resetPage p)
  | some .cls => let b := c.onBook; (c.resetPage p).setBitOf Reg.CLS.STATUS 0 b
  | some .pol => c.polReset
  | some .guard => c.guardReset
  | some .smp => let c1 := c.resetPage p; { c1 with guard := { c1.guard with smp := [] } }
  | some .sig => c.sigReset
  | some .pawn => c.pawnReset (p - 0x051)
  | some .cx => c.cxReset
  | some .castle => c.castleReset
  | some .tamper => c.tamperReset
  | some .mem => c.memReset
  | some .arb => c.arbBlockReset
  | some .sens => let c1 := c.resetPage p; c1.setArb { c1.arb with side := [] }
  | some .score => c.resetExcept p fun o => o = 0x48 || o = 0x4C || o = 0x50
  | some .gambit => c.gambitReset
  | some .xspi => c.resetExcept p fun o => 0x44 ≤ o && o ≤ 0x50
  | some .brg => let c1 := c.brgAbort.resetPage p; c1.setHost { c1.host with werr := [] }
  | some .bnl => c.bnlReset
  | some .hdma => c.hdmaReset (p - 0x0C0)
  | some .pwr => c.resetExcept p fun o => o = 0x44
  | some .wake => c.resetExcept p fun o => 0x80 ≤ o

/-- A page that BLK_RST does not reset (R568). -/
def Chip.resetRefused (c : Chip) (p : Nat) : Bool :=
  !c.implemented p || p = 0 || (0x008 ≤ p && p ≤ 0x00B) || (c.journalOwner p).isSome

/-- BLK_RST (R568): partition w writes v; the owner of the named page may. A page that a wider reset holds takes no reset of its
own (R569). -/
def doBlkRst (w : Nat) (v : Word) (c : Chip) : Chip :=
  let p := fld v 11 0
  if fld v 31 16 ≠ 0x4252 then c
  else if c.implemented p && c.owner p ≠ w then c.deny w true false 0 0x050
  else if c.resetRefused p then c.setErr 0 7
  else if c.held p then c
  else c.blockReset p

end Sys2Proof.Machine
end

