-- ==== Sys2Proof/Machine/Start.lean ====
section
/-! DEFINITION. Chapter 22, resets that stop the core clock and the start-up that follows them: what each keeps (R566,
R571), Tempo across them (R81-R83), and the steps of R573 as far as chapters 15, 17, 18 and 20 describe them. -/

/-
MARKS of the model choices coded here; the log rows say each in full.
DESIGN CHOICE (log 14, unsafe): a start-up and a wake are one atomic step.
DESIGN CHOICE (log 22, unsafe): ALARM_N while boot has stopped.
DESIGN CHOICE (log 25, unsafe): Tempo across resets and sleep.
DESIGN CHOICE (log 29, unsafe): when a CAN square's mode takes effect.
DESIGN CHOICE (log 60, unsafe): tamper responses.
DESIGN CHOICE (log 72, unsafe): Gambit activation.
DESIGN CHOICE (log 74, unsafe): firmware that does not verify.
DESIGN CHOICE (log 77, unsafe): resets: when the core is wiped, and what survives.
DESIGN CHOICE (log 78, unsafe): squares that start from the WAKE window.
DESIGN CHOICE (log 82, unsafe): a warm wake does not run the Tempo step's guard.
DESIGN CHOICE (log 89, safe): electrical, thermal and mechanical data have no state.
-/

namespace Sys2Proof.Machine

/-- The kinds of reset that stop the core clock and wipe what it holds (R566). -/
inductive ResetKind where
  | powerOn | cold | lifeCycle | wakeCold
  deriving DecidableEq, Repr

/-- The power record replaced. -/
def Chip.setPower (c : Chip) (p : PowerState) : Chip := { c with power := p }

/-- Tempo is latched with the always-on counter at a tick edge, with what its restoration needs (R81). -/
def Chip.latchTempo (c : Chip) : Chip :=
  { c with tempo := { c.tempo with
      aoFs := 0,
      latched := true,
      entryTempo := c.tempo.value,
      entryAo := c.tempo.ao,
      entryState := c.tempoState,
      entryErr := (c.reg Reg.TEMPO.ERR_EST).toNat,
      entryCal := c.reg Reg.TEMPO.AO_CAL,
      entryHold := c.reg Reg.TEMPO.HOLD_CFG,
      entryMax := c.reg Reg.TEMPO.HOLD_ERR_MAX } }

/-- ERR_EST after the time since the latch (R82). -/
def Chip.aoErr (c : Chip) (tick : Nat) : Nat :=
  c.tempo.entryErr + ceilDiv (c.aoTicks tick * fld c.tempo.entryHold 31 16) 32768 + 30518

/-- The state in which Tempo resumes (R82): 1 HOLDOVER, 0 FREE. -/
def Chip.aoState (c : Chip) (tick : Nat) : Nat := if c.aoErr tick ≤ c.tempo.entryMax.toNat then 1 else 0

/-- Tempo resumes (R81, R82); after power-on it starts at 0 in FREE (R83). -/
def Chip.restoreTempo (c : Chip) : Chip :=
  let err := c.aoErr c.tempo.ao
  let st := c.aoState c.tempo.ao
  let v := if c.tempo.latched then c.aoTempo c.tempo.ao else 0
  let c1 := { c with tempo := { c.tempo with value := v, lockCount := 0, holdErr := err * 10 ^ 15, past := [] } }
  let c2 := (c1.setFldOf Reg.TEMPO.STATE 1 0 c.tempo.entryState).setTempoState st
  let c3 := c2.setReg Reg.TEMPO.ERR_EST (if st = 0 then 0xFFFFFFFF else sat32 err)
  (if st = 0 && c.tempo.entryState = 2 then c3.setAlarm 5 else c3).steer.guardResume

/-- The registers that a reset keeps (R571, R583, R565, R442, R482, R493): the causes and counters that power-on alone
clears; what the references and the retention SRAM are; the sleep latch, and on a wake the whole TAMPER page; the place in
the Scoresheet. -/
def keepReg (kind : ResetKind) (a : Nat) : Bool :=
  match kind with
  | .powerOn => false
  | .lifeCycle =>
    [Reg.GLB.RST_CAUSE, Reg.GLB.REF_SWITCHES, Reg.GLB.REF_STAT, Reg.MEM.RET_STAT, Reg.WAKE.WAKES, Reg.WAKE.WAKE_LOST,
      Reg.WAKE.SKIP_CNT].contains a
  | .cold =>
    [Reg.GLB.RST_CAUSE, Reg.GLB.REF_SWITCHES, Reg.GLB.REF_STAT, Reg.MEM.RET_STAT, Reg.WAKE.WAKES, Reg.WAKE.WAKE_LOST,
      Reg.WAKE.SKIP_CNT, Reg.TAMPER.SLEEP_LATCH, Reg.SCORE.WR_IDX, Reg.SCORE.LAST_SEQ, Reg.SCORE.FLUSHED_SEQ].contains a
  | .wakeCold =>
    (a / 0x1000 = 0x072 && a ≠ hOwner 0x072) ||
    [Reg.GLB.RST_CAUSE, Reg.GLB.REF_SWITCHES, Reg.GLB.REF_STAT, Reg.MEM.RET_STAT, Reg.WAKE.WAKES, Reg.WAKE.WAKE_LOST,
      Reg.WAKE.SKIP_CNT, Reg.WAKE.CAUSE, Reg.WAKE.CAUSE_TIME, Reg.WAKE.PEND, Reg.SCORE.WR_IDX, Reg.SCORE.LAST_SEQ,
      Reg.SCORE.FLUSHED_SEQ].contains a

/-- The reset keeps the WAKE window (R563, R571). -/
def keepWindow (kind : ResetKind) : Bool := kind = .cold || kind = .wakeCold

/-- A table word lies in the WAKE window. -/
def wakeWord (k : Nat) : Bool := 0x03A8_0000 / 8 ≤ k && k < 0x03A8_5000 / 8

/-- Whether HOLD_RATE is raised because both references are lost (R579). -/
def Chip.bothLost (c : Chip) : Bool := c.bitOf Reg.GLB.REF_STAT 3

/-- Tempo's record after a reset: cleared with VDD_AO, otherwise its latch and the always-on counter stay (R83). -/
def TempoState.kept (t : TempoState) (kind : ResetKind) : TempoState :=
  if kind = .powerOn then {}
  else
    { value := t.value,
      ao := t.ao,
      aoFs := t.aoFs,
      entryTempo := t.entryTempo,
      entryAo := t.entryAo,
      entryState := t.entryState,
      entryErr := t.entryErr,
      entryCal := t.entryCal,
      entryHold := t.entryHold,
      entryMax := t.entryMax,
      latched := t.latched }

/-- The Scoresheet's record after a reset: the ring lies in the retention SRAM and the archive in flash (R571). -/
def Chip.keptScore (c : Chip) (kind : ResetKind) : ScoreState :=
  { ring := if kind = .powerOn then [] else c.score.ring,
    archive := c.score.archive,
    archPage := c.score.archPage,
    archBlock := c.score.archBlock,
    queue := if kind = .wakeCold then c.score.queue else [],
    lastFlush := c.now }

/-- The Castle's record after a reset: what lies in flash stays, and what the always-on domain holds unless VDD_AO was
lost (R437, R439, R442). -/
def CastleState.kept (k : CastleState) (kind : ResetKind) : CastleState :=
  let ao := kind != .powerOn
  { helper := k.helper,
    aoLatch := ao && k.aoLatch,
    resignPending := if ao then k.resignPending else 0,
    clearMarked := k.clearMarked,
    gtCount := k.gtCount,
    gtSvn := k.gtSvn,
    gtGen := k.gtGen,
    gtSeal := k.gtSeal,
    orphaned := if kind = .wakeCold then k.orphaned else [],
    aoCount := if ao then k.aoCount else none,
    autoload := k.autoload,
    aoLog := if ao then k.aoLog else [],
    aoOvf := if ao then k.aoOvf else 0 }

/-- Partitions after a reset: no link, an empty DENY log; PERST_N is a ball. -/
def Chip.keptParts (c : Chip) : Sparse PartState :=
  (List.range 4).foldl (fun (m : Sparse PartState) k => sset {} m k { perst := (c.part k).perst, absentSince := some c.now }) []

/-- Words recorded as uncorrectable that a reset does not wipe: those of the retention SRAM and of the always-on memory
(R571, R572). -/
def Chip.keptBad (c : Chip) (kind : ResetKind) : Sparse Bool :=
  c.mem.bad.filter fun (e : Nat × Bool) =>
    (e.1 / 2 ^ 22 = 0xA2 && kind != .powerOn) || (e.1 / 2 ^ 22 = 0xAA && keepWindow kind)

/-- The power record of a part held in reset (R570): its mode, and what the balls and the always-on domain hold. -/
def Chip.keptPower (c : Chip) (kind : ResetKind) : PowerState :=
  { mode := .held,
    wakeOut := false,
    captured := if kind = .wakeCold then c.power.captured else [],
    wokeAt := c.power.wokeAt,
    wakeTick := c.power.wakeTick,
    refASince := c.power.refASince,
    resetLow := c.power.resetLow,
    testMode := c.power.testMode,
    brownout := c.power.brownout,
    porAt := if kind = .powerOn then c.now else c.power.porAt,
    holdRateSaved := none }

/-- Every page but PART and HDMA belongs to the supervisor (R51). -/
def Chip.ownPages (c : Chip) : Chip :=
  if c.supervisor = 0 then c
  else
    (List.range 0x1A0).foldl (fun (c : Chip) p =>
      match pageKind p with
      | none | some .part | some .hdma => c
      | some _ => c.setFldOf (hOwner p) 1 0 c.supervisor) c

/-- A reset wipes the core (R571): every register, memory and record at its reset value but for what the kind keeps. The
part is then held until it starts. -/
def Chip.resetCore (c : Chip) (kind : ResetKind) : Chip :=
  let c0 := if c.awake then c.latchTempo else c
  let latched := (kind = .cold || kind = .wakeCold) && c.reg Reg.TAMPER.SLEEP_LATCH != 0
  let fresh : Chip :=
    { regs := c0.regs.filter fun e => keepReg kind e.1,
      tbl := if keepWindow kind then c0.tbl.filter fun e => wakeWord e.1 else [],
      now := c0.now,
      out := c0.out,
      free := c0.free,
      supervisor := c0.otp.supervisor,
      alarmLow := c0.alarmLow,
      parts := c0.keptParts,
      tempo := c0.tempo.kept kind,
      pol := { express := c0.expressAll false },
      score := c0.keptScore kind,
      castle := c0.castle.kept kind,
      otp := c0.otp,
      power := c0.keptPower kind,
      mem := { bad := c0.keptBad kind },
      gambit := { c0.gambit with copy := none, trialEnd := none, code := [] },
      arb := { eyeAt := c0.now, beatAt := c0.now } }
  let owned := fresh.ownPages
  let c1 := if kind = .powerOn then owned.setBitOf Reg.MEM.RET_STAT 0 true else owned
  let c2 := if c1.bothLost then
      (Chip.setPower c1 { c1.power with holdRateSaved := some (c1.fldOf Reg.TEMPO.HOLD_CFG 15 0) }).setFldOf Reg.TEMPO.HOLD_CFG 15 0 20000
    else c1
  let c3 := if latched then c2.setBitOf Reg.GLB.ALARM_STAT 0 true else c2
  (c0.stbEdge (if c0.power.wakeOut then c3.emit { kind := .wakeOut, unit := 0, arg := 0 } else c3)).alarmLevel

/-- A cause is recorded in RST_CAUSE (R583); power-on clears every other. -/
def Chip.resetCause (c : Chip) (b : Nat) : Chip :=
  if b = 0 then c.setReg Reg.GLB.RST_CAUSE 1 else c.setBitOf Reg.GLB.RST_CAUSE b true

/-- The core runs again: WAKE_OUT high (R548). -/
def Chip.coreRuns (c : Chip) : Chip :=
  let c1 := c.setPower { c.power with mode := .play, wakeOut := true }
  if c.power.wakeOut then c1 else c1.emit { kind := .wakeOut, unit := 0, arg := 1 }

/-- GLB.BOOT_STAT.PHASE. -/
def Chip.setBoot (c : Chip) (n : Nat) : Chip := c.setFldOf Reg.GLB.BOOT_STAT 3 0 n

/-- The wipes of a life-cycle transition (R581), steps 2 to 4, and what a transition into RETURN or DECOMMISSIONED adds. -/
def Chip.lcWipe (c : Chip) : Chip :=
  if !c.otp.wipePending then c else
  let k := c.castle
  let ret := c.otp.lc = 3
  let c1 := { c with tbl := [], mem := {} }
  let c2 := c1.setCastle { helper := if ret then k.helper + 1 else k.helper, aoCount := some 0 }
  let c3 := { c2 with otp := { c2.otp with
      clearMark := if c2.otp.resignPerm then c2.otp.clearMark else c2.otp.resignMark,
      wipePending := false,
      helperHashes := if ret then c2.otp.helperHashes + 1 else c2.otp.helperHashes } }
  let c4 := c3.setReg Reg.TAMPER.SLEEP_LATCH 0
  let c5 := if ret || c.otp.lc = 4 then c4.setGambit { c4.gambit with staging := {} } else c4
  c5.scoreClear 2

/-- A flash device is there and within the limits of R529. -/
def Chip.flashFits (c : Chip) (n : Nat) : Bool :=
  let s := Config.flashSize n
  128 ≤ s && s ≤ 512 && (n = 0 || s = Config.flashSize 0) && !(if n = 0 then c.gambit.dev0Fail else c.gambit.dev1Fail)

/-- The flash devices as the boot ROM finds them (R529, R546). -/
def Chip.flashProbe (c : Chip) : Chip :=
  let s0 := Config.flashSize 0
  let s1 := Config.flashSize 1
  let c1 := (c.setReg Reg.XSPI.DEV0_SIZE (BitVec.ofNat 32 (s0 % 1024))).setReg Reg.XSPI.DEV1_SIZE (BitVec.ofNat 32 (s1 % 1024))
  let st := (if c.flashFits 0 then 1 else if s0 = 0 then 0 else 4) + (if c.flashFits 1 then 2 else if s1 = 0 then 0 else 8)
  (c1.setReg Reg.XSPI.STATUS (BitVec.ofNat 32 st)).setReg Reg.XSPI.CLK (BitVec.ofNat 32 (Config.flashClock % 256))

/-- n RESIGNs are programmed (R437). -/
def Chip.fuseMany (c : Chip) : Nat → Chip
  | 0 => c
  | n + 1 => c.fuseResign.fuseMany n

/-- The RESIGN latch before regeneration (R436, R437, R441): RESIGNs latched while the core stood are programmed, RESIGNED is raised
and the retention SRAM cleared; a mark for clearing acts
at a cold reset or power-on. -/
def Chip.resignMarks (c : Chip) (clear : Bool) : Chip :=
  let c0 := (c.fuseMany c.castle.resignPending).setCastle { c.castle with resignPending := 0 }
  let c1 := if c.castle.resignPending = 0 then c0 else (c0.raise 0x071 10).scoreClear 1
  if clear && c1.castle.clearMarked then
    Chip.setCastle { c1 with otp := { c1.otp with clearMark := c1.otp.resignMark } }
      { c1.castle with clearMarked := false, aoLatch := c1.otp.resignPerm }
  else c1

/-- Root regeneration with a tamper sensor that may fire during it (R419, R440), and the sleep hold (R438). After a firing
that came while a reset held the part the Castle is left empty. -/
def Chip.bootRoot (env : StartEnv) (c : Chip) : Chip :=
  let c1 := if c.rootState = 4 then c.drawChal else c.drawChal.setRoot 1
  let c2 := match env.tamper with
    | none => c1
    | some s => if 15 ≤ s then c1 else (c1.setBitOf Reg.TAMPER.LIVE s true).tamperIn s (c1.tamperResp s) 1
  let c3 :=
    if c2.rootState = 4 then
      (c2.setBitOf Reg.CASTLE.STATE 8 c2.resignLatched).setAlarm 1
    else c2.regenerate env.rootGood
  if c3.reg Reg.TAMPER.SLEEP_LATCH = 0 then c3
  else ((c3.setBitOf Reg.CASTLE.STATE 9 true).raise 0x072 15).setAlarm 0

/-- The firmware that boots, where a flash device serves (R539, R543, R576). -/
def Chip.bootFirmware (env : StartEnv) (c : Chip) : Option Chip :=
  if c.flashFits 0 || c.flashFits 1 then c.chooseFirmware env.fwA env.fwB else none

/-- BIST of the instances that run it found failing words (R481). -/
def Chip.bootBist (c : Chip) (bist : List (Nat × Nat)) : Chip :=
  bist.foldl (fun (c : Chip) (x : Nat × Nat) => if memExists x.1 then c.bist x.1 x.2 else c) c

/-- A failure that stops boot (R481): Arbiter SRAM, retention SRAM, Castle slot store. -/
def bootStops (bist : List (Nat × Nat)) : Bool :=
  bist.any fun x => 8 < x.2 && (x.1 = 0xA0 || x.1 = 0xA1 || x.1 = 0xA2)

/-- What a failed BIST leaves out of service (R481): the plane of a plane memory, the square of its two instances. -/
def Chip.bistOut (c : Chip) (bist : List (Nat × Nat)) : Chip :=
  (bist.filter fun x => decide (8 < x.2)).foldl (fun (c : Chip) (x : Nat × Nat) =>
    match planeMem x.1 with
    | some (p, _) =>
      if c.plState p = 2 then c
      else if c.plState (1 - p) = 2 then c.haltPlanes
      else (if p = c.move then (c.setFldOf Reg.ADJ.STATUS 0 0 (1 - p)).setPlState (1 - p) 0 else c).retirePlane p 6
    | none =>
      match memBlock x.1 with
      | some p => c.requestSquareReset (p - 0x100)
      | none => c) c

/-- The tables of the active set are written directly into both planes (R573, R575). -/
def Chip.loadTables (c : Chip) : Chip :=
  let code (c : Chip) (t : Nat) : Chip :=
    match c.partDigest t with
    | none => c
    | some d => c.setGambit { c.gambit with code := insertKey c.gambit.code t d }
  Chip.applyItems (code (code c 4) 5) (c.setLoad c.activeSet).items

/-- A square's wake configuration entry (R558). -/
def Chip.wakeCfg (c : Chip) (q w : Nat) : Word64 := c.tword (0x03A8_1000 + 64 * q + 8 * w)

/-- CTRL of a CAN square as the wake configuration gives it, refused as a write of it would be (R558, R605). -/
def Chip.startCanCtrl (c : Chip) (q : Nat) (v : Word) : Chip :=
  let nv := RegRow.apply { off := 0x40, rw := 0xF3F7 } (c.reg (Reg.CAN.CTRL q)) v 0xFFFFFFFF
  let m := fld nv 2 0
  if 6 ≤ m || (m ≠ 0 && !c.timingOk q nv) || (m ≠ 0 && m ≠ 4 && c.bitOf (Reg.CAN.TRX q) 0) then c.setErr (pSq q) 7
  else c.canCtrl q nv false

/-- STG.CTRL as the wake configuration gives it; a refusal shows on the square's page. -/
def Chip.startStg (c : Chip) (q : Nat) (v : Word) : Chip :=
  if 48 ≤ q && (fld v 6 4 = 0 || 4 < fld v 6 4) then c.setErr (pSq q) 7 else c.stgEffect q 0x40 (Reg.STG.CTRL q) v 0xFFFFFFFF

/-- The wake configuration of square q with START is written to its registers (R558, R573). -/
def Chip.startSquare (c : Chip) (q : Nat) : Chip :=
  if !bit (c.wakeCfg q 0) 58 then c else
  let lo (w : Nat) : Word := (c.wakeCfg q w).setWidth 32
  let hi (w : Nat) : Word := (c.wakeCfg q w >>> 32).setWidth 32
  let all : Word := 0xFFFFFFFF
  if q < 40 then
    let regs : List (Nat × Word) := [(Reg.CAN.NBT q, hi 2), (Reg.CAN.DBT q, lo 3), (Reg.CAN.XBT q, hi 3), (Reg.CAN.TDC q, lo 4),
      (Reg.CAN.TRX q, hi 4), (Reg.CAN.ERR_WARN q, lo 5), (Reg.CAN.LIMITS q, hi 5)]
    let c1 := regs.foldl (fun (c : Chip) (x : Nat × Word) => c.regEffect x.1 x.2 all) c
    (c1.startCanCtrl q (lo 2)).startStg q (lo 6)
  else
    let mode (c : Chip) : Chip :=
      if q < 48 then c
      else
        let c1 := if sdsModeBad q (lo 3) then c.setErr (pSq q) 7 else c.plainWrite (Reg.SDS.SDS_MODE q) (lo 3) all
        c1.plainWrite (Reg.SDS.TX_EQ q) (hi 3) all
    let regs : List (Nat × Word) := [(Reg.ETH.MAX_LEN q, hi 2), (Reg.ETH.LINK_CFG q, lo 4), (Reg.ETH.MM_CFG q, hi 4),
      (Reg.ETH.FC_CFG q, lo 5), (Reg.ETH.FC_DUTY q, hi 5), (Reg.ETH.CTRL q, lo 2)]
    let c1 := regs.foldl (fun (c : Chip) (x : Nat × Word) => c.regEffect x.1 x.2 all) (mode c)
    c1.startStg q (lo 6)

/-- Every square's wake configuration. -/
def Chip.startSquares (c : Chip) : Chip := (List.range 64).foldl (fun (c : Chip) q => c.startSquare q) c

/-- Lockstep starts (R573): PROOF_NEXT counts from here (R395), and ADJ.STATUS shows the partner. -/
def Chip.lockstepStart (c : Chip) : Chip := (c.setProofNext (c.ns + c.proofInt)).showPartner

/-- The times measured since the start (R574): not stated. -/
def Chip.bootTimes (c : Chip) : Chip :=
  let c1 := (c.setReg Reg.GLB.BOOT_T_CAN (BitVec.ofNat 32 (Config.freeValue c.free % 2 ^ 20))).advanceFree
  (c1.setReg Reg.GLB.BOOT_T_ALL (BitVec.ofNat 32 (Config.freeValue c1.free % 2 ^ 20))).advanceFree

/-- Boot stops in the boot ROM (R481, R576). -/
def Chip.bootStop (c : Chip) (phase : Nat) : Chip := (c.setBoot phase).alarmLevel

/-- The start-up sequence after power-on, a cold reset or a life-cycle transition (R573). -/
def Chip.startUp (c : Chip) (env : StartEnv) : Chip :=
  let c1 := ((c.coreRuns.restoreTempo).lcWipe).expressEmpty.flashProbe.resignMarks true
  let c2 := (c1.bootRoot env).autoloadAll
  match c2.bootFirmware env with
  | none => c2.gambitShow.bootStop 0xF
  | some c3 =>
    let c4 := c3.bootBist env.bist
    if bootStops env.bist then c4.bootStop 0xE
    else
      let c5 := ((c4.firmwareStart.loadTables).startSquares).lockstepStart
      let c6 := ((c5.bistOut env.bist).copyAoLog.resumeActivation true).gambitShow
      (c6.bootTimes.setBoot 0).alarmLevel

/-- Something holds the part in reset (R566, R567, R589). -/
def Chip.resetHeld (c : Chip) : Bool := c.power.resetLow || c.power.brownout || (c.power.testMode && c.otp.lc ≠ 0)

/-- The part starts if nothing holds it any longer. -/
def Chip.startIfFree (c : Chip) (env : StartEnv) : Chip :=
  if c.power.mode = .held && !c.resetHeld then c.startUp env else c

/-- The part is off: VDD_AO is removed (R547). -/
def Chip.isOff (c : Chip) : Bool := c.power.mode = .off

/-- A cold reset with its cause (R566), after which the part starts unless something holds it. -/
def Chip.coldReset (c : Chip) (cause : Nat) (env : StartEnv) : Chip := ((c.resetCore .cold).resetCause cause).startIfFree env

/-- POWER_ON_RESET (R566, R573): VDD_AO rises. -/
def doPowerOnReset (env : StartEnv) (c : Chip) : Chip := ((c.resetCore .powerOn).resetCause 0).startIfFree env

/-- RESET_N_ASSERT (R566): RESET_N has been low for t_RST. -/
def doResetNAssert (c : Chip) : Chip :=
  let low (c : Chip) : Chip := c.setPower { c.power with resetLow := true }
  if c.isOff || c.power.resetLow then low c else low ((c.resetCore .cold).resetCause 2)

/-- RESET_N_RELEASE (R573): RESET_N is high again. -/
def doResetNRelease (env : StartEnv) (c : Chip) : Chip :=
  if !c.power.resetLow then c else (c.setPower { c.power with resetLow := false }).startIfFree env

/-- RST_CMD (R566): partition w writes v; the supervisor's key causes a cold reset. -/
def doRstCmd (w : Nat) (v : Word) (env : StartEnv) (c : Chip) : Chip :=
  c.blockWrite w Reg.GLB.RST_CMD v 0xFFFFFFFF fun c => if v = 0x52530001 then c.coldReset 3 env else c

/-- BROWNOUT (R566, R567): a rail other than VDD_AO leaves its range in PLAY or QUIET. -/
def doBrownout (c : Chip) : Chip :=
  if !c.awake then c
  else
    let c1 := (c.resetCore .cold).resetCause 4
    c1.setPower { c1.power with brownout := true }

/-- BROWNOUT_RELEASE (R567): every rail has been back in range for 1 ms. -/
def doBrownoutRelease (env : StartEnv) (c : Chip) : Chip :=
  if !c.power.brownout then c else (c.setPower { c.power with brownout := false }).startIfFree env

/-- TEST_MODE_HIGH (R589): the level of TEST_MODE; high outside MANUFACTURE holds the part in cold reset. In ADJOURNED the
ball is ignored (R587). -/
def doTestModeHigh (high : Bool) (env : StartEnv) (c : Chip) : Chip :=
  let put (c : Chip) : Chip := c.setPower { c.power with testMode := high }
  if !high then (put c).startIfFree env
  else if c.awake && c.otp.lc ≠ 0 then put (c.resetCore .cold)
  else put c

/-- VDD_AO_LOSS (R547, R437, R439, R482): the part is OFF; the always-on counter, latch and tamper log are lost. -/
def doVddAoLoss (c : Chip) : Chip :=
  let c1 := c.resetCore .powerOn
  c1.setPower { c1.power with mode := .off }

/-- ACT_DONE (R539, R576): the copying of staging into the inactive slot has ended; in RECOVERY an accepted activation
ends with a cold reset. -/
def doActDone (good : Bool) (env : StartEnv) (c : Chip) : Chip :=
  if c.gambit.copy.isNone || !(c.arbRunning || c.inRecovery) then c
  else
    let c1 := c.actDone good
    if c.inRecovery && c1.phase = 2 then (c1.resetCore .cold).startIfFree env else c1

end Sys2Proof.Machine
end

