-- ==== Sys2Proof/Machine/Sleep.lean ====
section
/-! DEFINITION. Chapter 21: the PWR commands, entry into ADJOURNED, the wake detectors, and waking up. -/

/-
MARKS of the model choices coded here; the log rows say each in full.
DESIGN CHOICE (log 14, unsafe): a start-up and a wake are one atomic step.
DESIGN CHOICE (log 27, unsafe): CAN schedules: the position from which entries act.
DESIGN CHOICE (log 52, unsafe): items that wait when a disagreement, a switch-over or a discard comes.
DESIGN CHOICE (log 80, unsafe): entry into ADJOURNED.
DESIGN CHOICE (log 81, unsafe): wake events and capture.
DESIGN CHOICE (log 82, unsafe): a warm wake does not run the Tempo step's guard.
-/

namespace Sys2Proof.Machine

/-- ADJOURNED, either depth. -/
def Chip.asleep (c : Chip) : Bool := c.power.mode = .adjournedWarm || c.power.mode = .adjournedCold

/-- The wake detectors are armed: in ADJOURNED, and from step 1 of an entry (R551). -/
def Chip.armed (c : Chip) : Bool := c.asleep || c.power.entering.isSome

/-- PWR.STATUS.RESULT (R550): 1 OK, 2 BAD_CMD, 3 BUSY, 4 NO_WAKE, 5 ABANDONED. -/
def Chip.pwrResult (c : Chip) (r : Nat) : Chip := c.setFldOf Reg.PWR.STATUS 19 16 r

/-- Wake rule and pattern words (R554, R166). -/
def Chip.wakeRule (c : Chip) (n w : Nat) : Word64 := c.tword (0x03A8_0000 + 32 * n + 8 * w)
def Chip.wakePat (c : Chip) (n w : Nat) : Word64 := c.tword (0x03A8_0800 + 32 * n + 8 * w)

/-- A wake source is enabled (R550, R553). -/
def Chip.wakeEnabled (c : Chip) : Bool :=
  let en := c.bitOf Reg.WAKE.CTRL 0
  (en && ((List.range 64).any (fun n => bit (c.wakeRule n 0) 63) || (List.range 32).any (fun n => bit (c.wakePat n 2) 16) ||
    (List.range 64).any (fun q => (40 ≤ q && q < 48 && bit (c.wakeCfg q 0) 62) || (48 ≤ q && bit (c.wakeCfg q 0) 61)))) ||
  (List.range 16).any (fun i => c.bitOf (Reg.TEMPO.ALM_CTRL i) 0 && c.bitOf (Reg.TEMPO.ALM_CTRL i) 1) ||
  c.reg Reg.WAKE.GPIO_EN != 0 || c.fldOf Reg.WAKE.HOST_EN 3 0 != 0 ||
  (List.range 40).any (fun q => bit (c.wakeCfg q 0) 59)

/-- A write of PWR.CMD (R550): the outcome, and the change that an accepted one begins. -/
def Chip.pwrCmd (c : Chip) (v : Word) : Chip :=
  let t := fld v 2 0
  if fld v 31 16 ≠ 0x5057 || 3 < t || (2 ≤ t && c.power.mode ≠ .play) then c.pwrResult 2
  else if c.power.switchTo.isSome || c.power.entering.isSome || c.phase = 1 || c.phase = 2 then c.pwrResult 3
  else if 2 ≤ t && !c.wakeEnabled then c.pwrResult 4
  else
    let c1 := c.pwrResult 1
    if t < 2 then
      (if c.power.mode = (if t = 0 then PowerMode.play else PowerMode.quiet) then c1
       else c1.setPower { c1.power with switchTo := some (if t = 0 then PowerMode.play else PowerMode.quiet) })
    else
      let c2 := c1.setPower { c1.power with
        entering := some (if t = 2 then PowerMode.adjournedWarm else PowerMode.adjournedCold), woken := false, captured := [] }
      c2.setBitOf Reg.PWR.STATUS 8 true

/-- Partition w writes a word to PWR.CMD. -/
def Chip.pwrWrite (c : Chip) (w : Nat) (v : Word) : Chip := c.blockWrite w Reg.PWR.CMD v 0xFFFFFFFF fun c => c.pwrCmd v

/-- PLAY, QUIET, ADJOURNED_WARM, ADJOURNED_COLD (R550): partition w writes the command. -/
def doPlay (w : Nat) (c : Chip) : Chip := c.pwrWrite w 0x50570000
def doQuiet (w : Nat) (c : Chip) : Chip := c.pwrWrite w 0x50570001
def doAdjournedWarm (w : Nat) (c : Chip) : Chip := c.pwrWrite w 0x50570002
def doAdjournedCold (w : Nat) (c : Chip) : Chip := c.pwrWrite w 0x50570003

/-- A waiting switch between PLAY and QUIET takes effect (R549). -/
def Chip.powerSwitch (c : Chip) : Chip :=
  match c.power.switchTo with
  | none => c
  | some m =>
    let c0 := c.tempoMark
    let c1 := c0.setPower { c0.power with mode := m, switchTo := none }
    (c1.setFldOf Reg.PWR.STATUS 2 0 (if m = .quiet then 1 else 0)).raise 0x001 0

/-- What still runs holds up an entry (R551): a CAN frame on the bus, a frame that an Ethernet MAC sends, an invocation,
a host job, a fabric job that a core has (R466). DESIGN CHOICE (log 52): in HALTED, where no commit is released (R387), invocations do not, and are dropped. -/
def Chip.entryHeldUp (c : Chip) : Bool :=
  (!c.pawn.run.isEmpty && !c.halted) || c.can.any (fun (e : Nat × CanSq) => e.2.onBus.isSome) ||
    c.eth.any (fun (e : Nat × EthSq) => e.2.tx.isSome) || c.cx.jobs.any (fun j => j.copy.isNone || j.running)

/-- A staging FIFO is emptied: its pointers are equal, every credit is free (R192, R551). -/
def Chip.stgEmpty (c : Chip) (q : Nat) : Chip :=
  if c.stgSq q = {} && !c.bitOf (Reg.STG.MARK_STAT q) 31 && !c.bitOf (Reg.STG.MARK_STAT q) 30 then c
  else (c.stgClear q).setFldOf (Reg.STG.MARK_STAT q) 31 30 0

/-- The old epoch retires in an entry (R416, R551): nothing carries it. A commit that waited for it switches in the same cycle
(R411), and then the epoch it replaced retires likewise. -/
def Chip.entryRetire (c : Chip) : Nat → Chip
  | 0 => c
  | n + 1 => if c.bitOf Reg.EPOCH.OLD 31 then c.retireOld.epochSwitch.entryRetire n else c

/-- Steps 3 and 4 of an entry (R551): queued requests are counted, open transactions end, the old epoch retires, and every
copy is discarded without being counted. -/
def Chip.entryDrain (c : Chip) : Chip :=
  let c1 := c.pawn.queue.foldl (fun (c : Chip) r => c.queueDrop r.event) { c with pawn := { c.pawn with queue := [], run := [] } }
  let c2 := (List.range 5).foldl (fun (c : Chip) k => if (c.txn k).state = 1 then c.txnAbort k else c) c1
  let c3 : Chip := Chip.fabDone c2 { c2 with
    fab := { tour := c2.fab.tour, nextId := c2.fab.nextId, nextFrame := c2.fab.nextFrame, lastAge := c2.fab.lastAge },
    can := smap {} (fun _ (s : CanSq) => { s with cls := [] }) c2.can,
    eth := smap {} (fun _ (s : EthSq) => { s with preempted := none }) c2.eth,
    cx := { c2.cx with jobs := c2.cx.jobs.filter fun j => j.copy.isNone },
    sig := { c2.slotFinish.sig with deferred := [], trig := [], falls := [] },
    host := { c2.host with done := [] },
    adj := { c2.adj with pend := [], gapFrom := none } }
  let c4 := (List.range 64).foldl (fun (c : Chip) q => c.stgEmpty q) c3
  ((c4.entryRetire 3).setBitOf Reg.ADJ.STATUS 1 false).brgAbort

/-- Every entry that waits for the Scoresheet is written. -/
def Chip.scoreDrain (c : Chip) : Nat → Chip
  | 0 => c
  | n + 1 => (doScoreEntryWrite c).scoreDrain n

/-- Steps 5 and 6 of an entry (R551): the Castle holds nothing, Tempo is latched, the Arbiter flushes and stops, the clocks
stop and WAKE_OUT falls; a wake event that came since step 5 raises it again at once (R552). -/
def Chip.entryStop (c : Chip) (deep : PowerMode) : Chip :=
  let c1 := (c.zeroize.setRoot 0).latchTempo
  let c2 := c1.setCastle { c1.castle with cmds := [] }
  let c3 := c2.scoreDrain c2.score.queue.length
  let c4 := if c3.arbRunning then c3.scoreFlush.setArbState 0 else c3
  let c5 := c4.arb.cmds.foldl (fun (c : Chip) (e : Nat × ArbCmd) => c.setBitOf (Reg.ARB.CSTAT e.1) 31 false) c4
  let c6 := c5.setArb { c5.arb with cmds := [] }
  let c7 := (List.range 4).foldl (fun (c : Chip) k => c.linkOff k) c6
  let c8 := (c7.setBitOf Reg.PWR.STATUS 8 false).inc Reg.PWR.ENTRIES
  let c9 := c8.setPower { c8.power with mode := deep, entering := none, wakeOut := c8.power.woken, rc := false }
  c.stbEdge (c9.emit { kind := .wakeOut, unit := 0, arg := 0 }).alarmLevel

/-- ADJOURNED_ENTRY_DONE (R551): the steps of an entry come to an end: with upTo = 4, steps 3 and 4 only, otherwise all
that are left. -/
def doAdjournedEntryDone (upTo : Nat) (c : Chip) : Chip :=
  match c.power.entering with
  | none => c
  | some deep =>
    if !c.awake || c.entryHeldUp then c
    else if upTo = 4 then c.entryDrain
    else c.entryDrain.entryStop deep

/-- A wake source fires (R552, R557, R559): KIND, index, rule. Sources that fire on the same always-on tick are all set in
PEND, and CAUSE keeps the lowest. After a wake event in ADJOURNED nothing further is recorded. -/
def Chip.wakeFire (c : Chip) (kind idx rule : Nat) : Chip :=
  let v := 2 ^ 31 + kind * 2 ^ 24 + idx * 2 ^ 16 + rule
  let same := c.power.wakeTick = some c.tempo.ao
  if c.power.woken && !same then c
  else
    let old := (c.reg Reg.WAKE.CAUSE).toNat
    let t := c.nsNow
    let c1 :=
      if same then (c.setReg Reg.WAKE.PEND (c.reg Reg.WAKE.PEND ||| oneBit 32 kind)).setReg Reg.WAKE.CAUSE (BitVec.ofNat 32 (Nat.min old v))
      else ((c.setReg Reg.WAKE.PEND (oneBit 32 kind)).setReg Reg.WAKE.CAUSE (BitVec.ofNat 32 v)).setReg Reg.WAKE.CAUSE_TIME (BitVec.ofNat 32 (t / 1024))
    let c2 := c1.setPower { c1.power with wakeTick := some c1.tempo.ao }
    if c.armed then
      (if c.power.woken then c2
       else
         let c3 := (c2.setPower { c2.power with woken := true, wokeAt := c2.now, wakeOut := true }).inc Reg.WAKE.WAKES
         if c.power.wakeOut then c3 else c3.emit { kind := .wakeOut, unit := 0, arg := 1 })
    else
      let c3 := c2.raise 0x002 0
      if c3.power.mode = .quiet && c3.bitOf Reg.WAKE.CTRL 1 then c3.setPower { c3.power with switchTo := some .play } else c3

/-- Detectors of KIND 1 to 5 are armed (R565). -/
def Chip.wakeOn (c : Chip) : Bool := c.bitOf Reg.WAKE.CTRL 0 && (c.asleep || c.awake)

/-- A frame can be decoded on square q: in PLAY and QUIET by the controller where it receives frames (R92, R136), in ADJOURNED by
the wake decoder with DEC_EN and the running RC oscillator (R555). -/
def Chip.decodes (c : Chip) (q : Nat) : Bool :=
  if c.asleep then c.power.rc && bit (c.wakeCfg q 0) 63 else if isCan q then c.listens q else c.rxOn q

/-- The first 8 data bytes as a rule compares them (R554): byte k in bits [8k+7:8k]. -/
def wakeData (b : List Byte) : Word64 := BitVec.ofNat 64 (leAt b 0 8)

/-- A rule matches an identifier and data on a square (R554). -/
def Chip.ruleMatch (c : Chip) (n q : Nat) (id : Nat) (data : Word64) : Bool :=
  let idMask := fld (c.wakeRule n 1) 28 0
  let dm := c.wakeRule n 2
  bit (c.wakeRule n 0) 63 && bit (c.wakeRule n 3) q && (idMask != 0 || dm != 0) &&
    (fld (c.wakeRule n 0) 28 0 ^^^ id) &&& idMask = 0 && (dm = 0 || (data &&& dm) != 0)

/-- The lowest rule that a CAN frame matches (R554). -/
def Chip.canRule (c : Chip) (q : Nat) (f : CanFrame) : Option Nat :=
  (List.range 64).find? fun n =>
    let w := c.wakeRule n 0
    c.ruleMatch n q f.id (wakeData f.data) && bit w 62 = f.ide && (!bit w 61 || fld w 59 56 = f.dlc % 16)

/-- A frame is captured for the staging FIFO once a wake event has occurred (R556). -/
def Chip.wakeCapture (c : Chip) (q : Nat) (f : CanFrame) : Chip :=
  if !c.asleep || !c.power.woken then c
  else if (c.power.captured.filter fun x => x.square = q).length < 4 then
    c.setPower { c.power with captured := c.power.captured ++ [{ square := q, frame := f, tick := c.tempo.ao }] }
  else c.incRaise Reg.WAKE.WAKE_LOST 0x002 1

/-- WAKE_CAN_RULE (R554-R556): a frame is decoded on square q; `bad` says that it has a stuff, form or CRC error. In
ADJOURNED only Classical frames can match. -/
def doWakeCanRule (q : Nat) (f : CanFrame) (bad : Bool) (c : Chip) : Chip :=
  if !isCan q || !c.decodes q then c else
  let c0 := if c.asleep then c.setPower { c.power with rcEdge := c.now } else c
  if c.asleep && (bad || f.fmt ≠ 0) then c0.inc Reg.WAKE.SKIP_CNT
  else if bad then c0
  else
    let c1 := match (if c0.wakeOn then c0.canRule q f else none) with
      | none => c0
      | some n => c0.wakeFire 1 q n
    c1.wakeCapture q f

/-- WAKE_T1S_RULE (R554): a frame, from its destination address on, is decoded on T1S square q without error. -/
def doWakeT1sRule (q : Nat) (b : List Byte) (c : Chip) : Chip :=
  if q < 40 || 48 ≤ q || !c.decodes q || !c.wakeOn then c else
  match (List.range 64).find? fun n =>
      c.ruleMatch n q (fld (c.wakeRule n 0) 28 16 * 2 ^ 16 + beAt b 12 2) (wakeData (b.drop 14)) with
  | none => c
  | some n => c.wakeFire 2 q n

/-- WAKE_T1S_ENERGY (R553): line activity on a T1S square with ENERGY, in ADJOURNED. -/
def doWakeT1sEnergy (q : Nat) (c : Chip) : Chip :=
  if q < 40 || 48 ≤ q || !c.armed || !c.wakeOn || !bit (c.wakeCfg q 0) 62 then c else c.wakeFire 3 q 0

/-- CRC-16 of R167 over bytes: polynomial 0x1021, initial value 0xFFFF, no reflection, no final XOR. -/
def crc16Bit (x : Nat) : Nat := if x / 2 ^ 15 % 2 = 1 then (x * 2 % 2 ^ 16) ^^^ 0x1021 else x * 2 % 2 ^ 16
def crc16 (b : List Byte) : Nat :=
  b.foldl (fun x d => crc16Bit (crc16Bit (crc16Bit (crc16Bit (crc16Bit (crc16Bit (crc16Bit (crc16Bit (x ^^^ (d.toNat * 256)))))))))) 0xFFFF

/-- The frame bytes that a pattern selects, in ascending order (R166). -/
def Chip.patBytes (c : Chip) (n : Nat) : List Nat :=
  (List.range 128).filter fun k => bit (if k < 64 then c.wakePat n 0 else c.wakePat n 1) (k % 64)

/-- A pattern matches a frame with a valid FCS on one of its squares (R167). -/
def Chip.patMatch (c : Chip) (n q : Nat) (b : List Byte) : Bool :=
  let ks := c.patBytes n
  let w := c.wakePat n 2
  bit w 16 && bit w (32 + (q - 40)) && !ks.isEmpty && ks.all (fun k => decide (k < b.length)) &&
    crc16 (ks.map fun k => byteAt b k) = fld w 15 0

/-- WAKE_ETH_PATTERN (R167, R168): a frame with a valid FCS on an Ethernet square; in ADJOURNED on file f only, in PLAY and QUIET where the
receiver takes frames (R136). `b` runs from the first byte of the destination address to the last byte before the FCS, which a
pattern may select too. -/
def doWakeEthPattern (q : Nat) (b : List Byte) (c : Chip) : Chip :=
  if !isEth q || (c.asleep && 48 ≤ q) || !c.decodes q || !c.wakeOn then c else
  match (List.range 32).find? fun n => c.patMatch n q (b ++ bytesLE 4 (ethFcs b).toNat) with
  | none => c
  | some n => c.wakeFire 4 q n

/-- WAKE_SIGNAL_DETECT (R168): the signal detector of a SerDes square with SD_WAKE, in ADJOURNED. -/
def doWakeSignalDetect (q : Nat) (c : Chip) : Chip :=
  if q < 48 || 64 ≤ q || !c.armed || !c.wakeOn || !bit (c.wakeCfg q 0) 61 then c else c.wakeFire 5 q 0

/-- WAKE_GPIO_EDGE (R553): a debounced edge on GPIOn, rising or falling, in ADJOURNED. -/
def doWakeGpioEdge (n : Nat) (rising : Bool) (c : Chip) : Chip :=
  if 32 ≤ n || !c.armed || !c.bitOf Reg.WAKE.GPIO_EN n || c.bitOf Reg.WAKE.GPIO_POL n != rising then c else c.wakeFire 7 n 0

/-- WAKE_HOST_SIDEBAND (R553): a debounced falling edge on HPk_SBWAKE_N, in ADJOURNED. -/
def doWakeHostSideband (k : Nat) (c : Chip) : Chip :=
  if 4 ≤ k || !c.armed || !c.bitOf Reg.WAKE.HOST_EN k then c else c.wakeFire 8 k 0

/-- RXD_WAKE (R123, R553): a falling edge on RXD of square q. With the transceiver in standby and RXD_WAKE_EN it sets
STATUS.RXD_WAKE, and where the wake configuration of the square has RXD_WAKE too, it is KIND 9 in ADJOURNED. -/
def doRxdWakeEdge (q : Nat) (c : Chip) : Chip :=
  let c1 := doRxdWake q c
  if c.rxdWakes q && c.armed && bit (c.wakeCfg q 0) 59 then c1.wakeFire 9 q 0 else c1

/-- WAKE_RC_START (R555): an edge on a watched line. -/
def doWakeRcStart (c : Chip) : Chip :=
  if !c.asleep || c.power.rc then c else c.setPower { c.power with rc := true, rcEdge := c.now }

/-- WAKE_RC_IDLE_STOP (R555): 1 ms with no edge. -/
def doWakeRcIdleStop (c : Chip) : Chip :=
  if !c.power.rc || c.now < c.power.rcEdge + fsMs then c else c.setPower { c.power with rc := false }

/-- TEMPO_ALARM_EXPIRY (R77, R80): alarm i's target is reached; in ADJOURNED on the always-on counter, and with WAKE it is
a wake source. -/
def doTempoAlarmExpiry (i : Nat) (c : Chip) : Chip :=
  if 16 ≤ i then c else
  match lookupKey c.tempo.alarmTarget i with
  | none => c
  | some t =>
    let wake := c.bitOf (Reg.TEMPO.ALM_CTRL i) 1
    if c.asleep then
      (if wake && decide (t ≤ c.aoTempo c.tempo.ao / 2 ^ 48 % 2 ^ 64) then c.wakeFire 6 i 0 else c)
    else if !c.awake || c.ns < t then c
    else if wake && c.power.entering.isSome then (c.alarmFires i t).wakeFire 6 i 0
    else c.alarmFires i t

/-- Captured frames enter the staging FIFOs when forwarding starts (R556). -/
def Chip.enterCaptured (c : Chip) : Chip :=
  let put (c : Chip) (x : WakeFrame) : Chip := c.stgCommit x.square (canRecord x.frame false (c.aoTempo x.tick / 2 ^ 48 % 2 ^ 64)) 0 false
  let frames := c.power.captured
  frames.foldl put (c.setPower { c.power with captured := [] })

/-- Times of forwarding after a wake (R564): not stated. -/
def Chip.wakeTimes (c : Chip) : Chip :=
  let c1 := (c.setReg Reg.PWR.T_FWD_CAN (BitVec.ofNat 32 (Config.freeValue c.free % 2 ^ 16))).advanceFree
  (c1.setReg Reg.PWR.T_FWD_SEAL (BitVec.ofNat 32 (Config.freeValue c1.free % 2 ^ 16))).advanceFree

/-- The opening book takes over (R559, R561): BOOK is 1 and its profiles are CX profiles 0 to 15. -/
def Chip.openBook (c : Chip) : Chip :=
  let copy (c : Chip) (n : Nat) : Chip :=
    let w (j : Nat) : Word64 := c.tword (0x03A8_4800 + 32 * n + 8 * j)
    (c.setTword (cxProfileOff n) (w 0)).setTword (cxProfileOff n + 8) (w 1)
  ((List.range 16).foldl copy c).setBitOf Reg.CLS.STATUS 0 true

/-- The core runs after a wake: Tempo restored, RESIGNs of the sleep programmed (R559, R437). -/
def Chip.wakeBegin (c : Chip) : Chip :=
  let c1 := c.coreRuns.restoreTempo
  (c1.setPower { c1.power with woken := false, rc := false, bookLate := false, switchTo := none }).resignMarks false

/-- Waking from ADJOURNED-COLD (R559). -/
def Chip.wakeCold (c : Chip) (env : StartEnv) : Chip :=
  let c1 := ((c.resetCore .wakeCold).resetCause 6).wakeBegin.expressEmpty.flashProbe
  let c2 := (c1.bootRoot env).autoloadAll
  match c2.bootFirmware env with
  | none => c2.gambitShow.bootStop 0xF
  | some c3 =>
    let ran := env.bist.filter fun x => x.1 ≠ 0xA2 && x.1 ≠ 0xAA
    let c4 := c3.bootBist ran
    if bootStops ran then c4.bootStop 0xE
    else
      let c5 := ((c4.firmwareStart.openBook).startSquares).lockstepStart
      let c6 := ((c5.bistOut ran).enterCaptured.copyAoLog.resumeActivation true).gambitShow
      ((c6.wakeTimes.setBoot 0).raise 0x001 0).alarmLevel

/-- A CAN square after ADJOURNED-WARM (R124): its error counters are 0, so it is error-active, its warning levels stand as they then
do, and no recovery from bus-off runs or waits. DESIGN CHOICE (log 27): the schedule, which is kept, goes on with the entries whose
times come after the wake, under the mask that was in force. -/
def Chip.warmCan (c : Chip) (q : Nat) : Chip :=
  let s := c.canSq q
  let pend := (List.range 32).filter fun n => c.mbStatus q n = 1
  let c1 := pend.foldl (fun (c : Chip) n => c.setMbStatus q n 7) c
  let c2 := (((c1.setReg (Reg.CAN.ERR_CNT q) 0).setStatus q 1 0 0).setStatus q 23 16 0).setStatus q 13 12 0
  let c3 := c2.warnLevels q
  let m := c.fldOf (Reg.CAN.CTRL q) 2 0
  let c4 := (c3.setStatus q 9 8 (if m = 0 then 0 else 1)).setStatus q 6 4 m
  let pos := if s.schedPos.isSome && c.schedFresh q then some (c4.ns, 256) else none
  c4.setCan q { tx := s.tx, seq := s.seq, idleRaised := s.idleRaised, schedPos := pos, schedKey := s.schedKey, syncNext := c4.tsMultiple q c4.ns }

/-- An Ethernet square after ADJOURNED-WARM (R170): the link trains again. -/
def Chip.warmEth (c : Chip) (q : Nat) : Chip :=
  let c1 := c.setFldOf (Reg.ETH.STATUS q) 1 0 0
  let c2 := if 48 ≤ q then c1.setReg (Reg.SDS.SDS_STAT q) (c1.reg (Reg.SDS.SDS_STAT q) &&& 0x200) else c1
  let c3 := (c2.setEth q { idleSince := some c2.now }).gateLoad q
  if q < 48 then c3.t1sLink q else c3

/-- Signals after ADJOURNED-WARM (R279): each checked CURRENT signal becomes STALE. -/
def Chip.warmSignals (c : Chip) : Chip :=
  c.listedSignals.foldl (fun (c : Chip) i =>
    if c.checked c.epoch i && c.sigStatus i = 1 then c.setTword (sigStOff i 2) (setFld (c.sigSt i 2) 63 62 2) else c) c

/-- Timers with EN start again (R324); others keep their state. -/
def Chip.warmTimers (c : Chip) : Chip :=
  (List.range 4096).foldl (fun (c : Chip) j =>
    let w := c.tword (timerOff j)
    if bit w 63 then c.timerRun j (nextAligned w c.ns) else c) c

/-- Buckets and meters after ADJOURNED-WARM are full (R247). -/
def Chip.refill (c : Chip) : Chip :=
  let full (n : Nat) : Level := { tokens := n * oneToken, at_ := c.now }
  let bucket (m : Sparse Level) (b : Nat) : Sparse Level := sset {} m b (full (fld (c.tword (polBase + 16 * b)) 55 32))
  let meter (m : Sparse Level) (n : Nat) : Sparse Level :=
    let off := polBase + 0x4_0000 + 32 * n
    sset {} (sset {} m (2 * n) (full (fld (c.tword off) 55 32))) (2 * n + 1) (full (fld (c.tword (off + 8)) 55 32))
  { c with pol := { c.pol with
      buckets := (c.pol.buckets.map (·.1)).foldl bucket c.pol.buckets,
      meters := ((c.pol.meters.map fun (e : Nat × Level) => e.1 / 2).eraseDups).foldl meter c.pol.meters,
      express := c.expressAll true } }

/-- The host interfaces after ADJOURNED-WARM (R525): rings wait for CTRL.EN, the replay state of every peer is reset. -/
def Chip.warmHosts (c : Chip) : Chip :=
  let c1 := (List.range 4).foldl (fun (c : Chip) k => c.setBitOf (Reg.HDMA.CTRL k) 0 false) c
  let c2 := (List.range 64).foldl (fun (c : Chip) n => c.peerReset n) c1
  c2.setHost { c2.host with agent := [], leases := [], responses := [], bnlBucket := none }

/-- The Tour counter starts with lockstep after ADJOURNED-WARM (R357); no flag of before lies in a window of its cycles. -/
def Chip.tourRestart (c : Chip) : Chip :=
  { c with fab := { c.fab with tour := 0 }, adj := { c.adj with flagAt := [] }, sig := { c.sig with wrTour := 0 } }

/-- Waking from ADJOURNED-WARM (R559). -/
def Chip.wakeWarm (c : Chip) (env : StartEnv) : Chip :=
  let c1 := (c.stbEdge c.wakeBegin.tourRestart).resetPage 0x071
  let c2 := ((List.range 40).foldl (fun (c : Chip) q => c.warmCan q) c1)
  let c3 := (((List.range 24).foldl (fun (c : Chip) i => c.warmEth (40 + i)) c2).warmSignals).warmTimers
  let c4 := (c3.refill.warmHosts.bootRoot env).autoloadAll
  let good := if c4.activeSlot = 0 then env.fwA else env.fwB
  let c5 := if good then c4.firmwareStart else c4.arbFailed
  let c6 := if 3 ≤ c5.plState c5.partner && c5.plState c5.partner ≤ 6 then c5.startReint else c5
  let c7 := if good then c6.enterCaptured.copyAoLog else c6.enterCaptured
  ((c7.wakeTimes.raise 0x001 0).passTargets.epochSwitch).alarmLevel

/-- WAKE_EVENT (R552, R559): a wake source has fired: an entry in its steps 1 to 4 is abandoned; from ADJOURNED the wake
sequence runs. -/
def doWakeEvent (env : StartEnv) (c : Chip) : Chip :=
  if !c.power.woken then c
  else if c.power.entering.isSome then
    let c1 := c.setPower { c.power with entering := none, woken := false, captured := [] }
    ((((c1.setBitOf Reg.PWR.STATUS 8 false).pwrResult 5).inc Reg.PWR.ABANDON_CNT).raise 0x001 1)
  else
    match c.power.mode with
    | .adjournedCold => c.wakeCold env
    | .adjournedWarm => c.wakeWarm env
    | .play | .quiet | .held | .off => c

end Sys2Proof.Machine
end

