-- ==== Sys2Proof/Machine/Clocks.lean ====
section
/-! DEFINITION. Chapter 22, reference clocks and life cycle; chapter 23, the test access port; and what passes with time
alone. -/

/-
MARKS of the model choices coded here; the log rows say each in full.
DESIGN CHOICE (log 2, unsafe): the queue has one sender, and an empty queue is one tick of the clock.
DESIGN CHOICE (log 4, unsafe): time is exact and in femtoseconds; durations and latencies are left out.
DEDUCED (log 15, unsafe): LC_STAT shows OK after the life-cycle transition's own reset.
DESIGN CHOICE (log 39, unsafe): outputs 68 to 71, and the header of a sampled frame that had no action.
DESIGN CHOICE (log 83, unsafe): references.
DESIGN CHOICE (log 84, safe): the test access port.
DESIGN CHOICE (log 85, unsafe): life-cycle commands.
DESIGN CHOICE (log 89, safe): electrical, thermal and mechanical data have no state.
-/

namespace Sys2Proof.Machine

/-- The reference that the PLLs use (R577): 0 A, 1 B. -/
def Chip.refInUse (c : Chip) : Nat := c.fldOf Reg.GLB.REF_STAT 4 4

/-- A reference is lost: A in [0], B in [1]. -/
def Chip.refLost (c : Chip) (r : Nat) : Bool := c.bitOf Reg.GLB.REF_STAT r

/-- A hitless switch to a reference (R578). -/
def Chip.refSwitch (c : Chip) (r : Nat) : Chip :=
  if c.refInUse = r then c
  else
    let c1 := (c.setFldOf Reg.GLB.REF_STAT 4 4 r).incRaise Reg.GLB.REF_SWITCHES 0x000 2
    c1.emit { kind := .clock, unit := r }

/-- Both references are lost (R579): HOLDOVER, HOLD_RATE 20,000 ns/s, tamper sensor 7. -/
def Chip.bothRefsLost (c : Chip) : Chip :=
  let c1 := c.setBitOf Reg.GLB.REF_STAT 3 true
  let c2 := c1.setPower { c1.power with holdRateSaved := some (c1.fldOf Reg.TEMPO.HOLD_CFG 15 0) }
  let c3 := c2.setFldOf Reg.TEMPO.HOLD_CFG 15 0 20000
  let c4 := if c3.tempoState = 2 then c3.toHoldover else c3
  c4.tamperEvent 7 true

/-- REFCLK_LOSS (R577, R579): reference r is lost. -/
def doRefclkLoss (r : Nat) (c : Chip) : Chip :=
  if 2 ≤ r || !c.awake || c.refLost r then c else
  let c1 := (c.setBitOf Reg.GLB.REF_STAT r true).raise 0x000 1
  let c2 := if r = 0 then c1.setPower { c1.power with refASince := none } else c1
  if c2.refLost (1 - r) then c2.bothRefsLost
  else if c2.refInUse = r && c2.bitOf Reg.GLB.REF_CTRL 0 then c2.refSwitch (1 - r) else c2

/-- REFCLK_RETURN (R579): reference r is back; the first to return after both were lost is selected. -/
def doRefclkReturn (r : Nat) (c : Chip) : Chip :=
  if 2 ≤ r || !c.awake || !c.refLost r then c else
  let both := c.bothLost
  let c1 := (c.setBitOf Reg.GLB.REF_STAT r false).setBitOf Reg.GLB.REF_STAT 3 false
  let c2 := if r = 0 then c1.setPower { c1.power with refASince := some c1.now } else c1
  if !both then c2
  else
    let c3 := c2.setPower { c2.power with holdRateSaved := none }
    let c4 := match c.power.holdRateSaved with | none => c3 | some h => c3.setFldOf Reg.TEMPO.HOLD_CFG 15 0 h
    (c4.refSwitch r).tamperEvent 7 false

/-- REFCLK_REVERT (R577): with REVERT, the PLLs return to REFCLK_A once it has been present for 10 s. -/
def doRefclkRevert (c : Chip) : Chip :=
  match c.power.refASince with
  | none => c
  | some t => if c.awake && c.bitOf Reg.GLB.REF_CTRL 1 && !c.refLost 0 && decide (t + 10 * fsSec ≤ c.now) then c.refSwitch 0 else c

/-- REF_CTRL_WRITE (R577): partition w writes REF_CTRL; SEL switches at once, and a write that names a lost reference is
discarded. -/
def doRefCtrlWrite (w : Nat) (v : Word) (be : Nat) (c : Chip) : Chip :=
  c.blockWrite w Reg.GLB.REF_CTRL v (beMask be) fun c =>
    let sel := fld v 4 4
    if be % 2 = 0 then c.plainWrite Reg.GLB.REF_CTRL v (beMask be)
    else if c.refLost sel then c.setErr 0x000 7
    else (c.plainWrite Reg.GLB.REF_CTRL v (beMask be)).refSwitch sel

/-- A transition is in the table of R580, and RESIGN_PERM leaves only the one to DECOMMISSIONED (R437). -/
def Chip.lcAllowed (c : Chip) (t : Nat) : Bool :=
  if t = 4 then c.otp.lc ≠ 4
  else if c.otp.resignPerm then false
  else
    (c.otp.lc = 0 && t = 1) || (c.otp.lc = 1 && t = 2) || (c.otp.lc = 2 && t = 3) || (c.otp.lc = 3 && t = 1 && c.otp.returns < 3)

/-- A transition needs a Skovoc signature (R580). -/
def Chip.lcSigned (c : Chip) (t : Nat) : Bool := t ≠ 4 && 2 ≤ c.otp.lc

/-- The signature in the supervisor's KBUF (R580). -/
def Chip.lcSignature (c : Chip) (t : Nat) : Bool :=
  kbufSigned (c.kbuf c.supervisor) Config.lifeCycleKeyHash (bytesLE 8 c.unitId ++ bytesLE 1 t ++ c.chal)

/-- LC_STAT is written (R580, R583). -/
def Chip.lcStat (c : Chip) (r : Nat) : Chip := (c.setReg Reg.GLB.LC_STAT (BitVec.ofNat 32 r)).raise 0x000 0

/-- An accepted request (R581): the state is fused and the part runs a cold reset with the transition's wipes. -/
def Chip.lcAccept (c : Chip) (t : Nat) (env : StartEnv) : Chip :=
  let returns := if c.otp.lc = 3 && t = 1 then c.otp.returns + 1 else c.otp.returns
  let c1 := { c with otp := { c.otp with lc := t, returns := returns, wipePending := true } }
  (((c1.resetCore .lifeCycle).resetCause 5).startIfFree env).lcStat 1

/-- A request of the supervisor (R580). -/
def Chip.lcRequest (c : Chip) (v : Word) (env : StartEnv) : Chip :=
  let t := fld v 2 0
  if fld v 31 16 ≠ 0x4C43 || !c.lcAllowed t then c.lcStat 2
  else if c.lcSigned t && !c.lcSignature t then c.lcStat 3
  else c.lcAccept t env

/-- Partition w writes LC_CMD. -/
def Chip.lcWrite (c : Chip) (w : Nat) (v : Word) (env : StartEnv) : Chip :=
  c.blockWrite w Reg.GLB.LC_CMD v 0xFFFFFFFF fun c => c.lcRequest v env

/-- LC_PROVISIONED, LC_FIELD, LC_RETURN, LC_DECOMMISSIONED (R580, R581): partition w writes the request. -/
def doLcProvisioned (w : Nat) (env : StartEnv) (c : Chip) : Chip := c.lcWrite w 0x4C430001 env
def doLcField (w : Nat) (env : StartEnv) (c : Chip) : Chip := c.lcWrite w 0x4C430002 env
def doLcReturn (w : Nat) (env : StartEnv) (c : Chip) : Chip := c.lcWrite w 0x4C430003 env
def doLcDecommissioned (w : Nat) (env : StartEnv) (c : Chip) : Chip := c.lcWrite w 0x4C430004 env

/-- The test access port is available: not in ADJOURNED, not OFF (R598). -/
def Chip.tapOn (c : Chip) : Bool := !c.asleep && !c.isOff

/-- A TAP instruction comes into force: 0 IDCODE, 1 BYPASS, 2 SAMPLE/PRELOAD, 3 EXTEST, 4 CLAMP, 5 HIGHZ. -/
def Chip.tapInstr (c : Chip) (n : Nat) (pre : List Bool) (o : List Out) : Chip :=
  if !c.tapOn then c else { c with tap := { instr := n, preload := pre }, out := c.out ++ o }

/-- The levels that the boundary register drives onto the balls. -/
def Chip.boundary (c : Chip) : List Byte := c.tap.preload.map fun b => if b then 1 else 0

/-- JTAG_TRST (R598): the TAP is reset. -/
def doJtagTrst (c : Chip) : Chip := if !c.tapOn then c else { c with tap := {} }

/-- The TAP instructions (R598, IEEE 1149.1). -/
def doJtagBypass (c : Chip) : Chip := c.tapInstr 1 c.tap.preload []
def doJtagSamplePreload (bits : List Bool) (c : Chip) : Chip := c.tapInstr 2 bits []
def doJtagExtest (c : Chip) : Chip := c.tapInstr 3 c.tap.preload [{ kind := .ball, unit := 0, arg := 1, data := c.boundary }]
def doJtagIdcode (c : Chip) : Chip := c.tapInstr 0 c.tap.preload [{ kind := .jtag, unit := 0, data := bytesLE 4 0x26400A5B }]
def doJtagClamp (c : Chip) : Chip := c.tapInstr 4 c.tap.preload [{ kind := .ball, unit := 0, arg := 1, data := c.boundary }]
def doJtagHighz (c : Chip) : Chip := c.tapInstr 5 c.tap.preload [{ kind := .ball, unit := 0, arg := 0 }]

/-- One tick of 32.768 kHz in femtoseconds (R81). -/
def aoTickFs : Nat := 30517578125

/-- Time passes: the always-on counter takes its ticks (R81). -/
def Chip.passTime (c : Chip) (fs : Nat) : Chip :=
  let n := c.tempo.aoFs + fs
  { c with now := c.now + fs, tempo := { c.tempo with ao := (c.tempo.ao + n / aoTickFs) % 2 ^ 48, aoFs := n % aoTickFs } }

/-- ERR_EST grows in HOLDOVER (R72). -/
def Chip.holdoverGrow (c : Chip) (fs : Nat) : Chip :=
  if c.tempoState ≠ 1 then c
  else
    let e := c.tempo.holdErr + c.fldOf Reg.TEMPO.HOLD_CFG 15 0 * fs
    Chip.setReg { c with tempo := { c.tempo with holdErr := e } } Reg.TEMPO.ERR_EST (sat32 (ceilDiv e (10 ^ 15)))

/-- The Arbiter's firmware counts milliseconds (R498). -/
def Chip.heartbeat (c : Chip) (before : Nat) : Chip :=
  if c.arbRunning && c.now / fsMs != before / fsMs then c.inc Reg.ARB.HEARTBEAT else c

/-- Copies for the mirror sink leave at output 70 (R245), those whose residence is over as discarded (R349). -/
def Chip.mirrorSink (c0 : Chip) : Chip :=
  let old := c0.fab.copies.filter fun k => k.appended && k.mirror && k.output = 70 && c0.residenceOver k
  let c := old.foldl (fun (c : Chip) k => Chip.fabDone c (c.resDrop k)) c0
  let rest := c.fab.copies.filter fun k => !(k.appended && k.mirror && k.output = 70)
  if rest.length = c.fab.copies.length then c else Chip.fabDone c (c.setCopies rest)

/-- A cycle of the core clock (R34, R66): Tempo and the Tour counter advance, and ERR_EST grows in HOLDOVER. -/
def Chip.clockCycle (c : Chip) : Chip :=
  let fs := c.cycleFs
  let v := (c.tempo.value + c.cycleRate) % 2 ^ 112
  let c1 := c.passTime fs
  let c2 := { c1 with tempo := { c1.tempo with value := v }, fab := { c1.fab with tour := c1.fab.tour + 1 } }
  c2.holdoverGrow fs

/-- A core cycle (R33, R34, R66, R328): the flag falls and emissions of the cycle that ends (R255, R266), the entry writing of pending commits (R410), then Tempo and the Tour counter advance, a waiting PLAY or QUIET begins at Tour slot 0,
what waits at outputs 68 and 70 is taken, a snapshot record takes its next step (R277), a DONE_WORD is released (R372), and the pause conditions are judged (R351). -/
def Chip.coreCycle (c : Chip) : Chip :=
  let c3 := c.sigCycle.txnCycle.clockCycle.heartbeat c.now
  let c4 := if c3.fab.tour % 16 = 0 then c3.powerSwitch else c3
  c4.cxIntake.mirrorSink.slotCycle.dmaRelease.pauseChecks

/-- A tick of the always-on clock while the core does not run: the trial window stands still (R542). -/
def Chip.sleepTick (c : Chip) : Chip :=
  let c1 := c.passTime aoTickFs
  c1.setGambit { c1.gambit with trialEnd := c1.gambit.trialEnd.map fun t => t + aoTickFs }

/-- What an idle step does: a core cycle in PLAY and QUIET, in a stopped boot ROM a cycle of the core clock alone, a tick of the
always-on clock while the core stands, and real time alone while the part is off. -/
def doTick (c : Chip) : Chip :=
  match c.power.mode with
  | .off => { c with now := c.now + aoTickFs }
  | .held => c.passTime aoTickFs
  | .adjournedWarm | .adjournedCold => c.sleepTick
  | .play | .quiet => if 14 ≤ c.fldOf Reg.GLB.BOOT_STAT 3 0 then c.clockCycle else c.coreCycle

end Sys2Proof.Machine
end

