-- ==== Sys2Proof/Machine/HostWrite.lean ====
section
/-! DEFINITION. A write of one DWORD of BAR0, by a host or for a Benolsia peer: the header, the registers whose write is
a command of its own, and all others (R43, R45-R50, R58, R61, R601). -/

/-
MARKS of the model choices coded here; the log rows say each in full.
DESIGN CHOICE (log 16, unsafe): byte enables on command registers; what a reserved bit does on a write.
DESIGN CHOICE (log 17, safe): a REGISTER_WRITE outside R58 leaves the part unchanged.
DESIGN CHOICE (log 21, unsafe): in RECOVERY the partition's own Arbiter bank is readable and writes of it are taken for OPs 0x40 to 0x42.
-/

namespace Sys2Proof.Machine

/-- A write of PAGE_ERR: the owner's 1s clear (R47, R61). -/
def Chip.pageErrWrite (c : Chip) (k p : Nat) (v mask : Word) : Chip :=
  if c.owner p = k then c.setReg (hErr p) (c.reg (hErr p) &&& ~~~ (v &&& mask)) else c.deny k true false p 0x028

/-- A write of a header register (R45, R47, R61, R601). The read-only ones discard it. -/
def Chip.headerWrite (c : Chip) (k p off : Nat) (v : Word) (be : Nat) : Chip :=
  if off = 0x008 then doPageOwnerWrite k p v be c
  else if off = 0x010 then
    (if c.headerWritable k p then c.irqStatWrite k p v (beMask be) else c.deny k true false p off)
  else if off = 0x014 then
    (if c.headerWritable k p then c.irqMaskWrite k p v (beMask be) else c.deny k true false p off)
  else if off = 0x018 then doPageIrqForceWrite k p v be c
  else if off = 0x028 then c.pageErrWrite k p v (beMask be)
  else c

/-- A command word of Castle bank j: the OPs of R428 with the key, or any other value. -/
def Chip.castleWord (c : Chip) (k j : Nat) (v : Word) (good : Bool) : Chip :=
  let op := fld v 7 0
  if fld v 31 16 ≠ 0x4B43 then c.castleBad k j op
  else if op = 0x01 then doLoad k j c
  else if op = 0x02 then doWrap k j c
  else if op = 0x03 then doImport k j c
  else if op = 0x04 then doGenerate k j c
  else if op = 0x05 then doUnload k j c
  else if op = 0x06 then doErase k j c
  else if op = 0x07 then doPubkey k j c
  else if op = 0x08 then doStore k j c
  else if op = 0x09 then doUnstore k j c
  else if op = 0x10 then doClearResign k j c
  else if op = 0x11 then doRootRetry k j good c
  else c.castleBad k j op

/-- A command word of Arbiter bank j (R488, R489, R536): an unknown key or OP is answered with BAD_CMD. -/
def Chip.arbWord (c : Chip) (k j : Nat) (v : Word) : Chip :=
  let op := fld v 7 0
  if fld v 31 16 ≠ 0x4143 then c.arbStart k j op true
  else if 0x40 ≤ op && op ≤ 0x44 then c.gambitStart k j op
  else c.arbStart k j op (!arbKnown op)

/-- A write of an ARG register. In RECOVERY the boot ROM's bank takes it too (R576). -/
def Chip.arbArgWrite (c : Chip) (k a : Nat) (v mask : Word) : Chip :=
  if c.inRecovery then (if bankOf a = some k then c.plainWrite a v mask else c)
  else c.blockWrite k a v mask fun c => c.plainWrite a v mask

/-- The write of a register whose write is a command of its own; none for the others. `w` is the value within the enabled
bytes. -/
def Chip.ownWrite (c : Chip) (k a : Nat) (v : Word) (be : Nat) (env : WriteEnv) : Option Chip :=
  let p := a / 0x1000
  let off := a % 0x1000
  let w := v &&& beMask be
  match pageKind p with
  | some .glb =>
    if off = 0x4C then some (doRstCmd k w env.start c)
    else if off = 0x50 then some (doBlkRst k w c)
    else if off = 0x60 then some (doRefCtrlWrite k v be c)
    else if off = 0x74 then some (c.lcWrite k w env.start)
    else none
  | some .pwr => if off = 0x40 then some (c.pwrWrite k w) else none
  | some .part => if off = 0x48 then some (doSupvXfer k (p - 0x008) w c) else none
  | some .tempo =>
    if off = 0x40 then some (doTempoCtrlWrite k v be env.ref10 c)
    else if off = 0x48 then some (doCapture k w c)
    else if off = 0x5C then some (doRateHiWrite k v 0 be c)
    else if off = 0x6C then some (doHoldCfgWrite k false v be c)
    else if off = 0x70 then some (doHoldCfgWrite k true v be c)
    else if off = 0x90 then some (doSetGo k w c)
    else if 0x100 ≤ off && off < 0x200 && off % 16 = 12 then some (doAlmCtrlWrite k ((off - 0x100) / 16) v be c)
    else none
  | some .tsync =>
    if off = 0x40 then some (doTsyncConfigWrite k 40 v be c)
    else if 0x100 ≤ off && off < 0x380 && off % 16 = 8 then some (doTsyncConfigWrite k ((off - 0x100) / 16) v be c)
    else none
  | some .epoch => if 0x100 ≤ off && off < 0x200 && off % 0x40 = 0 then some (c.txnCmd k ((off - 0x100) / 0x40) w) else none
  | some .adj =>
    if off = 0x5C then some (doSwap k w c) else if off = 0x60 then some (doReint k w c) else none
  | some .pl =>
    if off = 0x44 then some (doPlCtrlReset k (p - 0x031) w c)
    else if off = 0x54 then some (doSweepNow k (p - 0x031) w env.bad c)
    else none
  | some .buf => if off = 0x44 then some (doBufSplitWrite k v be c) else none
  | some .guard =>
    if off = 0x44 then some (doQuarantineClear k false v be c)
    else if off = 0x48 then some (doQuarantineClear k true v be c)
    else none
  | some .pawn => if off = 0x48 then some (doPawnKick k (p - 0x051) w c) else none
  | some .cx =>
    if 0x100 ≤ off && off < 0x200 && off % 0x40 = 0x0C then some (doJrTailWrite k ((off - 0x100) / 0x40) v be c) else none
  | some .castle =>
    if 0x200 ≤ off && off < 0xA00 && off % 0x200 = 0 then some (c.castleWord k ((off - 0x200) / 0x200) w env.start.rootGood) else none
  | some .tamper => if off = 0x4C then some (doSleepLatchWrite k v be c) else none
  | some .mem =>
    if off = 0x54 then some (doRetInit k w c)
    else if off = 0x58 then some (doBistRun k w env.bad c)
    else if off = 0x64 then some (doRetireGo k w c)
    else none
  | some .arb =>
    if off = 0x50 then some (doRestart k w c)
    else if 0x100 ≤ off && off < 0x300 && off % 0x80 = 0 then some (c.arbWord k ((off - 0x100) / 0x80) w)
    else if 0x100 ≤ off && off < 0x300 && 0x08 ≤ off % 0x80 && off % 0x80 < 0x28 then some (c.arbArgWrite k a v (beMask be))
    else none
  | some .brg => if 0x100 ≤ off && off < 0x300 && off % 0x20 = 0x18 then some (doSemRelease k ((off - 0x100) / 0x20) c) else none
  | some .bnl =>
    if off = 0x58 then some (doBnlKeyWrite k 0 v be c)
    else if off = 0x5C then some (doBnlKeyWrite k 1 v be c)
    else if off = 0x60 then some (doTxSelWrite k v be c)
    else if 0x400 ≤ off && off < 0x800 && off % 16 = 0 then some (doPeerCfgWrite k ((off - 0x400) / 16) v be c)
    else none
  | some .hdma =>
    if 0x100 ≤ off && off < 0x500 && off % 0x20 = 0x0C then some (doHdmaTxTailWrite k (p - 0x0C0) ((off - 0x100) / 0x20) v be c) else none
  | some .can =>
    if off = 0x40 then some (doCanCtrlWrite k (p - 0x100) v be false c)
    else if off = 0x70 then some (doTxReq k (p - 0x100) w c)
    else if off = 0x74 then some (doTxCancel k (p - 0x100) w c)
    else if off = 0xA4 then some (doBoRecover k (p - 0x100) w c)
    else none
  | some .stg => if off = 0x64 then some (doStgFlush k (p - 0x140) w c) else none
  | some .sds =>
    if off = 0x40 then some (doSdsModeWrite k (p - 0x190 + 48) v be c)
    else if off = 0x84 && (p = 0x190 || p = 0x198) then some (doMdioCmd k (p - 0x190 + 48) ((c.reg a &&& 0x7FFFFFFF &&& ~~~ beMask be) ||| w) c)
    else none
  | _ => none

/-- Partition k writes the DWORD at a BAR0 offset, with byte enables. -/
def Chip.hostWrite (c : Chip) (k a : Nat) (v : Word) (be : Nat) (env : WriteEnv) : Chip :=
  let p := a / 0x1000
  let off := a % 0x1000
  if 4 ≤ k || a % 4 ≠ 0 then c
  else if off < 0x30 then (if c.implemented p then c.headerWrite k p off v be else c)
  else match c.ownWrite k a v be env with
    | some c1 => c1
    | none => c.blockWrite k a v (beMask be) fun c => c.regEffect a v (beMask be)

/-- DWORDs with their byte enables written at rising addresses, one at a time (R58). -/
def Chip.hostWrites (c : Chip) (k : Nat) : Nat → List (Word × Nat) → WriteEnv → Chip
  | _, [], _ => c
  | a, (v, be) :: rest, env => (c.hostWrite k a v be env).hostWrites k (a + 4) rest env

/-- A register that Arbiter firmware writes by the spec's words: EEE_TW of an Ethernet square (R145). -/
def Chip.arbWrite (c : Chip) (a : Nat) : List (Word × Nat) → Chip
  | [(v, be)] => if c.arbRunning && pageKind (a / 0x1000) = some .eth && a % 0x1000 = 0x64 && !c.held (a / 0x1000) then c.regEffect a v (beMask be) else c
  | _ => c

/-- REGISTER_WRITE (R58): partition k's request of up to 32 DWORDs within one page, or, k being 4, a register that the Arbiter's firmware
writes. -/
def doRegisterWrite (k a : Nat) (ws : List (Word × Nat)) (env : WriteEnv) (c : Chip) : Chip :=
  if k = 4 then c.arbWrite a ws
  else if 4 < k || a % 4 ≠ 0 || ws.isEmpty || 32 < ws.length || 0x1000 < a % 0x1000 + 4 * ws.length || 0x100_0000 ≤ a then c
  else (match env.msix with | none => c | some m => c.msixWrite k m).hostWrites k a ws env

end Sys2Proof.Machine
end

