-- ==== Sys2Proof/Machine/View.lean ====
section
/-! DEFINITION. What a read returns: the registers that follow from the rest of the state, the access rules of reads, and
the BAR2 windows (R38, R43-R49, R56, R59, R601 and the page maps). -/

/-
MARKS of the model choices coded here; the log rows say each in full.
DEDUCED (log 7, safe): plain reads are functions, not commands; side-effecting reads carry `seen`.
DESIGN CHOICE (log 20, unsafe): windows of the pages' status that the spec describes in words.
DEDUCED (log 109, unsafe): two status registers that follow from the configuration.
-/

namespace Sys2Proof.Machine

/-- A word whose bit i of n is b i. -/
def flagWord (n : Nat) (b : Nat → Bool) : Word :=
  (List.range n).foldl (fun (w : Word) i => if b i then w ||| oneBit 32 i else w) 0

/-- PAGE_STATUS (R45). -/
def Chip.pageStatus (c : Chip) (p : Nat) : Word :=
  let held := c.held p
  flagWord 3 fun i => if i = 0 then !held && c.awake else if i = 1 then held else c.reg (hErr p) != 0

/-- PAGE_SHADOW (R45); Gambit's transaction shows partition 0 and tag 0. -/
def Chip.pageShadow (c : Chip) (p : Nat) : Word :=
  match c.journalOwner p with
  | none => 0
  | some k =>
    if k < 4 then BitVec.ofNat 32 (2 ^ 31 + k * 2 ^ 24 + c.fldOf (Reg.EPOCH.TXN_ID k) 15 0)
    else BitVec.ofNat 32 (2 ^ 31 + c.supervisor % 4 * 2 ^ 24 + 0xFFFF)

/-- A page counts as pending for its owner: bank sources and priority buffers have vectors of their own (R59, R100, R443). -/
def Chip.ownPending (c : Chip) (p : Nat) : Bool := (c.pendingBits p &&& ~~~ (allBankBits p ||| ownVecBits p)) != 0

/-- The registers of a PART page (R59). -/
def Chip.partView (c : Chip) (k off : Nat) : Option Word :=
  if off = 0x40 then
    some (BitVec.ofNat 32 ((if c.supervisor = k then 16 else 0) +
      (if c.bitOf (Reg.PART.SEAT k) 31 then 2 else if (c.part k).linkUp then 1 else 0)))
  else if off = 0x54 then some (match (c.part k).deny with | [] => 0 | d :: _ => d.word)
  else if off = 0x60 then some (flagWord 32 fun v => c.activeVecs.contains (k, v))
  else if off = 0x64 then some (flagWord 32 fun v => c.activeVecs.contains (k, 32 + v))
  else if 0x400 ≤ off && off < 0x600 then
    some (flagWord 32 fun b => let p := (off - 0x400) / 4 * 32 + b; c.owner p = k && c.ownPending p)
  else none

/-- The registers of an SQ page of a CAN square that follow from the controller (R98, R99). -/
def Chip.canView (c : Chip) (q off : Nat) : Option Word :=
  if off = 0x78 then some (flagWord 32 fun n => c.mbStatus q n = 1)
  else if off = 0x94 then some (flagWord 20 fun n => (c.rxBuf q n).state = 1)
  else if off = 0x98 then some (flagWord 20 fun n => (c.rxBuf q n).state = 2)
  else if off = 0x9C then some (flagWord 20 fun n => (c.rxBuf q n).slot.isSome)
  else if 0x800 ≤ off && off < 0xD00 then some ((c.rxBuf q ((off - 0x800) / 0x50)).word ((off - 0x800) % 0x50 / 4))
  else if 0xD00 ≤ off && off < 0xE40 then some ((c.rxBuf q (16 + (off - 0xD00) / 0x50)).word ((off - 0xD00) % 0x50 / 4))
  else none

/-- The registers of an SQ page of an Ethernet square that follow the time paused (R142, R171). -/
def Chip.ethView (c : Chip) (q off : Nat) : Option Word :=
  if off = 0x44 then some (setFld (setBit (c.reg (Reg.ETH.STATUS q)) 4 (c.pauseOn q 8)) 15 8 (c.pfcOn q))
  else if off = 0x60 then some (c.fcUsed q)
  else none

/-- The entry that the Scoresheet shows at CURSOR, word j (R494). -/
def Chip.scoreWord (c : Chip) (j : Nat) : Word :=
  BitVec.ofNat 32 (leAt (sget ({} : ScoreEntry) c.score.ring (c.fldOf Reg.SCORE.CURSOR 12 0)).bytes (4 * j) 4)

/-- A register that the rest of the state gives; none for one that is stored. -/
def Chip.computed (c : Chip) (a : Nat) : Option Word :=
  let p := a / 0x1000
  let off := a % 0x1000
  match pageKind p with
  | some .part => c.partView (p - 0x008) off
  | some .can => c.canView (p - 0x100) off
  | some .eth => c.ethView (p - 0x100) off
  | some .epoch =>
    if off = 0x48 then
      some (BitVec.ofNat 32 (if c.bitOf Reg.EPOCH.OLD 31 then c.usersOf (c.fldOf Reg.EPOCH.OLD 15 0) else 0))
    else if off = 0x58 then some (BitVec.ofNat 32 c.journalFree)
    else if 0x100 ≤ off && off < 0x200 && off % 0x40 = 0x18 then
      some (BitVec.ofNat 32 (c.txn ((off - 0x100) / 0x40)).journal.length)
    else none
  | some .adj => if off = 0x44 then some (setBit (c.reg a) 1 (bit (c.reg a) 1 || c.gapOn)) else none
  | some .pl => if off = 0x58 then some (setBit (c.reg a) 31 (c.bitOf Reg.ADJ.STATUS 2 && c.planeRuns (p - 0x031))) else none
  | some .stg => if off = 0x48 then some (setFld (c.reg a) 25 16 (c.stgReserve (p - 0x140))) else none
  | some .sec => if off = 0x44 then some (c.secStatus (48 + (p - 0x180))) else none
  | some .fab => if off = 0x44 then some (BitVec.ofNat 32 (c.fab.tour % 16)) else none
  | some .pawn =>
    if off = 0x44 && p < 0x061 then some (setBit (c.reg a) 30 (c.pawnHeld (p - 0x051)))
    else if p = 0x051 && off = 0x204 then some (BitVec.ofNat 32 c.pawn.queue.length) else none
  | some .cx =>
    if off = 0x44 then some (BitVec.ofNat 32 (c.cxQueued * 2 ^ 16 + (c.cx.jobs.length - c.cxQueued))) else none
  | some .castle =>
    if off = 0x40 then some (setFld (c.reg a) 31 16 c.castle.slots.length)
    else if off = 0x44 then some (setBit (c.reg a) 1 c.otp.resignFwd)
    else if off = 0x4C then some (BitVec.ofNat 32 c.resignCnt)
    else none
  | some .glb =>
    if off = 0x70 then some (BitVec.ofNat 32 (c.otp.returns * 16 + c.otp.lc))
    else if off = 0x84 then
      some (BitVec.ofNat 32 (c.otp.supervisor * 16 + (if c.otp.custKey.isSome then 2 else 0) + (if c.otp.resignFwd then 1 else 0)))
    else none
  | some .gambit =>
    if off = 0x60 then some (match c.gambit.trialEnd with | none => 0 | some t => BitVec.ofNat 32 (ceilDiv (t - c.now) fsSec)) else none
  | some .brg =>
    if off = 0x50 then some (match c.host.werr with | [] => 0 | e :: _ => e.word)
    else if 0x100 ≤ off && off < 0x300 && off % 0x20 = 0x14 then
      let w := (off - 0x100) / 0x20
      some (BitVec.ofNat 32 ((if c.faulted w then 2 ^ 31 else 0) + (if (lookupKey c.host.sems w).isSome then 2 ^ 30 else 0) +
        (c.winTags w).length * 2 ^ 16))
    else none
  | some .score => if 0x100 ≤ off && off < 0x120 then some (c.scoreWord ((off - 0x100) / 4)) else none
  | _ => none

/-- What a block register reads as: its reset value while the block is in reset (R46). -/
def Chip.regView (c : Chip) (a : Nat) : Word :=
  if c.held (a / 0x1000) then resetOf a else (c.computed a).getD (c.reg a)

/-- Partition k reads a page beyond the freely readable header (R48). -/
def Chip.mayReadPage (c : Chip) (k p : Nat) : Bool :=
  decide (k = c.owner p) || decide (k = c.supervisor) || c.bitOf (hOwner p) 16

/-- Partition k reads a block register (R48 and the exceptions for banks and windows: R403, R427, R488, R523). -/
def Chip.mayRead (c : Chip) (k a : Nat) : Bool :=
  let p := a / 0x1000
  let off := a % 0x1000
  match pageKind p, bankOf a with
  | some .cx, some b => decide (k = b) || c.mayReadPage k p
  | some .castle, some b => decide (k = b) || (decide (k = c.supervisor) && decide (off % 0x200 < 0x100))
  | _, some b => decide (k = b) || decide (k = c.supervisor)
  | some .brg, none =>
    (0x100 ≤ off && off < 0x300 && off % 0x20 = 0x14 && c.winOwner ((off - 0x100) / 0x20) = k) || c.mayReadPage k p
  | _, none => c.mayReadPage k p

/-- The bits of PAGE_IRQ_STAT and PAGE_IRQ_MASK that partition k reads on a page with banks (R601). -/
def Chip.irqReadable (c : Chip) (k p : Nat) : Word :=
  if k = c.supervisor then 0xFFFFFFFF
  else bankBits p k ||| (if k = c.owner p || c.bitOf (hOwner p) 16 then ~~~ allBankBits p else 0)

/-- A header register read by partition k: the value, or none when the read is denied (R45, R48, R601). -/
def Chip.headerView (c : Chip) (k p off : Nat) : Option Word :=
  if off = 0x00C then some (c.pageStatus p)
  else if off < 0x00C then some (c.reg (p * 0x1000 + off))
  else if (off = 0x010 || off = 0x014) && allBankBits p != 0 then some (c.reg (p * 0x1000 + off) &&& c.irqReadable k p)
  else if !c.mayReadPage k p then none
  else if off = 0x018 then some 0
  else if off = 0x024 then some (c.pageShadow p)
  else some (c.reg (p * 0x1000 + off))

/-- What partition k reads at a BAR0 offset; none when the read is denied. In RECOVERY the Arbiter bank of k reads too
(R576). -/
def Chip.hostView (c : Chip) (k a : Nat) : Option Word :=
  let p := a / 0x1000
  let off := a % 0x1000
  if !c.implemented p then (if c.inRecovery && bankOf a = some k && p = 0x090 then some (c.reg a) else some 0)
  else if off < 0x30 then c.headerView k p off
  else if pageKind p = some .brg && 0x100 ≤ off && off < 0x300 && off % 0x20 = 0x18 then
    some (if (lookupKey c.inReset p).isNone && c.winOwner ((off - 0x100) / 0x20) = k && (lookupKey c.host.sems ((off - 0x100) / 0x20)).isNone then 1 else 0)
  else if (rowOf a).isNone then some 0
  else if c.mayRead k a then some (c.regView a)
  else none

/-- The offset is an unimplemented one of an implemented page (R43). -/
def Chip.stray (c : Chip) (a : Nat) : Bool := c.implemented (a / 0x1000) && 0x30 ≤ a % 0x1000 && (rowOf a).isNone

/-- Partition k reads the DWORD at a BAR0 offset, without a side effect of the register: the data, and the state after a
denial or an access to an unimplemented offset (R43, R49). -/
def Chip.hostRead (c : Chip) (k a : Nat) : Word × Chip :=
  match c.hostView k a with
  | none => (0, c.deny k false false (a / 0x1000) a)
  | some v => (v, if c.stray a then c.setErr (a / 0x1000) 1 else c)

/-- The attribute entry of a Castle slot (R424): both slots of a pair show the entry of the first. -/
def Chip.slotEntry (c : Chip) (n j : Nat) : Word64 :=
  let base := match c.slot? n with | some s => if s.second then n - 1 else n | none => n
  BitVec.ofNat 64 <|
    match c.slot? base with
    | none => if j = 1 then c.slotGen n * 2 ^ 32 else if j = 0 && n < 4 then 2 ^ 60 else 0
    | some s =>
      if j = 0 then
        2 ^ 63 + c.slotOwner s % 4 * 2 ^ 61 + (if s.sys then 2 ^ 60 else 0) + s.ktype % 256 * 2 ^ 48 + s.usage % 65536 * 2 ^ 32
          + s.parent % 65536 * 2 ^ 16
      else if j = 1 then c.slotGen base * 2 ^ 32 + s.parentGen % 2 ^ 32
      else if j = 2 then s.svn % 2 ^ 32 * 2 ^ 32 + s.keyId % 2 ^ 32
      else 0

/-- A word of a BAR2 table window as it reads (R38, R424, R494). -/
def Chip.tableView (c : Chip) (off : Nat) : Word64 :=
  if 0x0388_0000 ≤ off && off < 0x0388_8000 then c.slotEntry ((off - 0x0388_0000) / 32) (off % 32 / 8)
  else if 0x03A0_0000 ≤ off && off < 0x03A4_0000 then
    (if c.bitOf Reg.MEM.RET_STAT 0 then 0
     else BitVec.ofNat 64 (leAt (sget ({} : ScoreEntry) c.score.ring ((off - 0x03A0_0000) / 32)).bytes (off % 32 / 8 * 8) 8))
  else c.tword off

/-- Partition k reads the 64-bit word at a BAR2 offset: the data, none for a word that reads uncorrectable, and the state
after a denial (R38, R43, R49, R470). -/
def Chip.tableRead (c : Chip) (k off : Nat) : Option Word64 × Chip :=
  if 0x03C0_0000 ≤ off then (some (sget 0 c.sig.snap (k * 2 ^ 19 + (off - 0x03C0_0000) / 8)), c)
  else match windowPage off with
    | none => (some 0, c)
    | some (p, base) =>
      if !c.implemented p then (some 0, c)
      else if !c.mayReadPage k p then (some 0, c.deny k false true p (off - base))
      else match instanceOf off with
        | some (m, w) => if sget false c.mem.bad (memKey m w) then (none, c.memUe m w 0) else (some (c.tableView off), c)
        | none => (some (c.tableView off), c)

end Sys2Proof.Machine
end

