-- ==== Sys2Proof/Machine/Agent.lean ====
section
/-! DEFINITION. The requests that the Benolsia agent serves on the part itself: Arbiter and Gambit commands, reads and
writes of its address space (R513, R515, R518, R522, R538). -/

/-
MARKS of the model choices coded here; the log rows say each in full.
DEDUCED (log 7, safe): plain reads are functions, not commands; side-effecting reads carry `seen`.
PRESUMED (log 65, unsafe): byte order of Benolsia bodies.
DESIGN CHOICE (log 68, unsafe): Benolsia READ and WRITE beyond what R57 and R58 permit.
DESIGN CHOICE (log 69, unsafe): Arbiter and Gambit commands that come over Benolsia.
DESIGN CHOICE (log 70, unsafe): an uncorrectable word read by a host.
-/

namespace Sys2Proof.Machine

/-- ARB_CMD (R513): the Arbiter runs the command for the peer's partition; `eye` is what an EYE_SCAN measures. -/
def doArbCmd (eye : Nat) (c : Chip) : Chip :=
  c.serve 0x02 (fun b => b.length = 36) fun c r =>
    let op := leAt r.body 0 1
    let args := (List.range 8).map fun j => beAt r.body (4 + 4 * j) 4
    let x := if arbKnown op then c.arbWork (c.peerPart r.peer) op args eye else (c, 2, [])
    x.1.bnlRespond r ([0, BitVec.ofNat 8 x.2.1, 0, 0] ++ (List.range 8).flatMap fun j => bytesBE 4 (x.2.2.getD j 0))

/-- The 64-bit words that bytes from an offset fall on: offset, value and byte enables. -/
def wordsOf (off : Nat) (d : List Byte) : List (Nat × Word64 × Nat) :=
  (List.range ((off % 8 + d.length + 7) / 8)).map fun j =>
    let bytes := (List.range 8).map fun i => if off % 8 ≤ 8 * j + i then byteAt d (8 * j + i - off % 8) else 0
    let be := ((List.range 8).map fun i => if off % 8 ≤ 8 * j + i && 8 * j + i - off % 8 < d.length then 2 ^ i else 0).sum
    (off / 8 * 8 + 8 * j, BitVec.ofNat 64 (natLE bytes), be)

/-- The DWORDs that bytes from an address fall on: value and byte enables. -/
def dwordsOf (a : Nat) (d : List Byte) : List (Word × Nat) :=
  (List.range ((a % 4 + d.length + 3) / 4)).map fun j =>
    let bytes := (List.range 4).map fun i => if a % 4 ≤ 4 * j + i then byteAt d (4 * j + i - a % 4) else 0
    let be := ((List.range 4).map fun i => if a % 4 ≤ 4 * j + i && 4 * j + i - a % 4 < d.length then 2 ^ i else 0).sum
    (BitVec.ofNat 32 (natLE bytes), be)

/-- Two BAR2 words lie in the window of one page. -/
def sameWindow (a b : Nat) : Bool := decide ((windowPage a).map (·.1) = (windowPage b).map (·.1))

/-- The access is denied to partition k by the owner of the window. -/
def Chip.foreign (c : Chip) (k off : Nat) : Bool :=
  match windowPage off with
  | none => false
  | some (p, _) => c.implemented p && c.owner p != k

/-- Bytes written by partition k from a BAR2 offset; a denial is entered once for a page (R49). -/
def Chip.tableBytes (c : Chip) (k off : Nat) (d : List Byte) (ecc : Nat) : Chip :=
  (wordsOf off d).foldl (fun (c : Chip) (w : Nat × Word64 × Nat) =>
    if c.foreign k w.1 && w.1 != off / 8 * 8 && sameWindow w.1 (w.1 - 8) then c else c.tableWrite k w.1 w.2.1 w.2.2 ecc) c

/-- GAMBIT (R538): the bytes go to the transfer buffer, then OP acts; a BCAST request is served only for the owner of the
GAMBIT page. -/
def doGambit (c : Chip) : Chip :=
  c.serve 0x04 (fun b => 8 ≤ b.length && b.length ≤ 1024 && 8 * beAt b 2 2 + (b.length - 8) ≤ 0x2000) fun c r =>
    let k := c.peerPart r.peer
    if r.bcast && c.owner 0x0A0 ≠ k then c else
    let op := leAt r.body 0 1
    let c1 := c.tableBytes k (0x03A4_0000 + 8 * beAt r.body 2 2) (r.body.drop 8) 0
    let x := if op = 0 then (c1, (if c.owner 0x0A0 = k then 1 else 3), [0, c1.gambit.staging.chunks.length])
      else if 0x40 ≤ op && op ≤ 0x44 then c1.gambitExec k op (beAt r.body 4 4) else (c1, 2, [])
    x.1.bnlRespond r ([0, BitVec.ofNat 8 x.2.1, 0, 0] ++ bytesBE 4 (x.2.2.getD 0 0) ++ bytesBE 4 (x.2.2.getD 1 0))

/-- The effect of a side-effecting read that partition k may make (R48, R55). -/
def Chip.sideRead (c : Chip) (k a : Nat) (seen : Bool) : Chip :=
  let p := a / 0x1000
  let off := a % 0x1000
  if off = 0x1C then (if c.owner p = k then { c with echoUnread := sset false c.echoUnread p false } else c)
  else match pageKind p with
  | some .part => if off = 0x54 then doDenyPop k (p - 0x008) seen c else c
  | some .score => if off = 0x11C then doEnt7Read k seen c else c
  | some .brg =>
    if off = 0x50 then doWerrPop k seen c
    else if 0x100 ≤ off && off < 0x300 && off % 0x20 = 0x18 then doSemAcquireRead k ((off - 0x100) / 0x20) seen c
    else c
  | some .can =>
    let q := p - 0x100
    if off = 0x6C then doErrCapRead k q seen c
    else if 0x800 ≤ off && off < 0xE40 then
      let n := (off - 0x800) / 0x50
      if (off - 0x800) % 0x50 = 0 then doRxMailboxLock k q n seen c
      else if (off - 0x800) % 0x50 / 4 = (c.rxBuf q n).lastWord then doRxMailboxRelease k q n seen c
      else c
    else c
  | some .eth => if off = 0xD8 then doLastDropRead k (p - 0x100) seen c else c
  | some .stg =>
    if off = 0x68 then doStgHwmRead k (p - 0x140) seen c else if off = 0x6C then doStgLastErrRead k (p - 0x140) seen c else c
  | _ => c

/-- One DWORD of a read of BAR0 by partition k, added to the data so far; a denial is entered once for a request. -/
def readDword (k : Nat) (seen : Bool) (s : Chip × List Byte × Bool) (a : Nat) : Chip × List Byte × Bool :=
  let c := s.1
  let r := c.hostRead k a
  let denied := (c.hostView k a).isNone
  let c1 := if denied && s.2.2 then c else if denied then r.2 else r.2.sideRead k a seen
  (c1, s.2.1 ++ bytesLE 4 r.1.toNat, s.2.2 || denied)

/-- n bytes of BAR0 read for partition k: none for a request that R57 does not permit. -/
def Chip.readBar0 (c : Chip) (k a n : Nat) (seen : Bool) : Option (Chip × List Byte) :=
  let d := (a % 4 + n + 3) / 4
  let first := a / 4 * 4
  if readPermitted (a / 0x1000) (first % 0x1000) d (if a % 4 = 0 && n % 4 = 0 then 0xF else 0) then
    let s := (List.range d).foldl (fun s j => readDword k seen s (first + 4 * j)) (c, [], false)
    some (s.1, (s.2.1.drop (a % 4)).take n)
  else none

/-- One word of a read of BAR2 by partition k, added to the data so far; the flag says that a word reads uncorrectable. -/
def readWord (k start : Nat) (s : Chip × List Byte × Bool) (off : Nat) : Chip × List Byte × Bool :=
  let c := s.1
  let r := c.tableRead k off
  let again := off != start && sameWindow off (off - 8) && (match windowPage off with | some (p, _) => !c.mayReadPage k p | none => false)
  (if again then c else r.2, s.2.1 ++ bytesLE 8 (r.1.getD 0).toNat, s.2.2 || r.1.isNone)

/-- n bytes of BAR2 read for partition k, with whether a word reads uncorrectable; `ue` says that the first one does. -/
def Chip.readBar2 (c : Chip) (k off n : Nat) (ue : Bool) : Chip × List Byte × Bool :=
  let start := off / 8 * 8
  let c0 := if ue then
      (match instanceOf start with | some (m, w) => c.memUe m w 0 | none => c) else c
  let s := (List.range ((off % 8 + n + 7) / 8)).foldl (fun s j => readWord k start s (start + 8 * j)) (c0, [], false)
  (s.1, (s.2.1.drop (off % 8)).take n, s.2.2)

/-- READ (R515, R518, R522): body address and length. A request that R57 does not permit sets PAGE_ERR.WIDE; its STATUS is
not stated. -/
def doRead (seen ue : Bool) (c : Chip) : Chip :=
  c.serve 0x10 (fun b => b.length = 10 && 1 ≤ beAt b 8 2 && beAt b 8 2 ≤ 512) fun c r =>
    let a := beAt r.body 0 8
    let n := beAt r.body 8 2
    let k := c.peerPart r.peer
    if !bnlSpace a n then c.bnlRespond r [2]
    else if c.leased r.peer a n then c.bnlRespond r [4]
    else if a < 0x100_0000 then
      (match c.readBar0 k a n seen with
       | some x => x.1.bnlRespond r ([0, 0, 0, 0] ++ x.2)
       | none =>
         let c1 := if c.implemented (a / 0x1000) then c.setErr (a / 0x1000) 0 else c
         c1.advanceFree.bnlRespond r [BitVec.ofNat 8 (Config.freeValue c1.free)])
    else
      let x := c.readBar2 k (a - 0x1_0000_0000) n ue
      if x.2.2 then x.1.bnlRespond r [6] else x.1.bnlRespond r ([0, 0, 0, 0] ++ x.2.1)

/-- The peer holds a lease that covers a range (R522). -/
def Chip.holdsLease (c : Chip) (peer a n : Nat) : Bool :=
  c.liveLeases.any fun l => decide (l.peer = peer) && decide (l.base ≤ a) && decide (a + n ≤ l.base + l.len)

/-- A partial write of a range meets an uncorrectable word that partition k may write (R473). -/
def Chip.writeMeetsUe (c : Chip) (k off : Nat) (d : List Byte) (ecc : Nat) : Bool :=
  (wordsOf off d).any fun (w : Nat × Word64 × Nat) =>
    w.2.2 != 255 && !c.foreign k w.1 &&
      (match instanceOf w.1 with
       | some (m, x) => decide (ecc = 2) || sget false c.mem.bad (memKey m x)
       | none => false)

/-- WRITE (R515, R518, R522): body address, UNDER_LEASE and data. -/
def doWrite (ecc : Nat) (env : WriteEnv) (c : Chip) : Chip :=
  c.serve 0x11 (fun b => 11 ≤ b.length && b.length ≤ 266) fun c r =>
    let a := beAt r.body 0 8
    let d := r.body.drop 10
    let k := c.peerPart r.peer
    if !c.peerWrite r.peer then c.bnlRespond r [3]
    else if !bnlSpace a d.length then c.bnlRespond r [2]
    else if c.leased r.peer a d.length then c.bnlRespond r [4]
    else if leAt r.body 8 1 % 2 = 1 && !c.holdsLease r.peer a d.length then c.bnlRespond r [5]
    else if a < 0x100_0000 then (c.hostWrites k (a / 4 * 4) (dwordsOf a d) env).bnlRespond r [0]
    else
      let off := a - 0x1_0000_0000
      let ue := c.writeMeetsUe k off d ecc
      (c.tableBytes k off d ecc).bnlRespond r [if ue then 6 else 0]

end Sys2Proof.Machine
end

