-- ==== Sys2Proof/Machine/State.lean ====
section
/-! DEFINITION. The machine's state: the part, and the commands that wait for it, first in, first out. -/

/-
MARKS of the model choices coded here; the log rows say each in full.
DESIGN CHOICE (log 1, unsafe): what State.reset is: every register at its reset value, flash empty, OTP unprogrammed.
DESIGN CHOICE (log 87, unsafe): no fault and no refusal.
-/

namespace Sys2Proof.Machine

/-- What can stop the machine: nothing. The spec gives every command an effect in every state of the part, so no meaning
ends in a fault and the type has no constructor. -/
inductive Fault where
  deriving DecidableEq, Repr

/-- Commands without a meaning. -/
inductive Refusal where
  /-- Raised by an arm of `exec` for a command that has no meaning yet, named by its mnemonic; no arm raises it now. Safe:
  the machine stops where the hardware goes on. -/
  | notModelled (mnemonic : String)
  deriving DecidableEq, Repr

/-- The part and its waiting commands. -/
structure State where
  chip : Chip := {}
  pending : List Instr := []
  deriving DecidableEq, Repr

/-- The part right after reset: every register at its reset value, every memory and buffer wiped, no command waiting. The
start-up sequence has not run (GLB.BOOT_STAT.PHASE 0, Arbiter BOOT). -/
def State.reset : State := {}

end Sys2Proof.Machine
end

