-- ==== Sys2Proof/Machine/Apply.lean ====
section
/-! DEFINITION. When a command acts: the states of the part in which what it stands for can happen (R547, R566, R576). -/

/-
MARKS of the model choices coded here; the log rows say each in full.
DESIGN CHOICE (log 3, safe): a command that cannot act leaves the part unchanged.
-/

namespace Sys2Proof.Machine

/-- What a command needs of the part. -/
inductive Gate where
  /-- Nothing: rails, balls, wake sources, the always-on domain and the test access port. -/
  | always
  /-- The core runs, be it in the boot ROM's RECOVERY: the pages that R576 names, the endpoints, the flash. -/
  | recovery
  /-- The core runs and has left the boot ROM. -/
  | running
  deriving DecidableEq, Repr

/-- The part is in a state in which the command acts. -/
def Chip.passes (c : Chip) : Gate → Bool
  | .always => true
  | .recovery => c.awake && c.fldOf Reg.GLB.BOOT_STAT 3 0 != 0xE
  | .running => c.awake && decide (c.fldOf Reg.GLB.BOOT_STAT 3 0 < 14)

/-- A command's effect on the part: in a state in which the command cannot act, nothing changes. -/
def State.onChip (s : State) (g : Gate) (f : Chip → Chip) : Host.Outcome State Fault Refusal :=
  .next (if s.chip.passes g then { s with chip := f s.chip } else s)

end Sys2Proof.Machine
end

