-- ==== Sys2Proof/Machine/ExecArbiter.lean ====
section
/-! DEFINITION. The meaning of each command of chapter 18: the Arbiter and the Scoresheet. -/

namespace Sys2Proof.Machine

/-- ARB_CORE_MISMATCH (R485). -/
def execArbCoreMismatch (s : State) : Host.Outcome State Fault Refusal :=
  s.onChip .running doArbCoreMismatch

/-- ARB_WATCHDOG_EXPIRY (R485). -/
def execArbWatchdogExpiry (s : State) : Host.Outcome State Fault Refusal :=
  s.onChip .running doArbWatchdogExpiry

/-- RESTART (R485). -/
def execRestart (k : Nat) (v : Word) (s : State) : Host.Outcome State Fault Refusal :=
  s.onChip .running (doRestart k v)

/-- ARB_RESTART_DONE (R486). -/
def execArbRestartDone (okA okB : Bool) (s : State) : Host.Outcome State Fault Refusal :=
  s.onChip .running (doArbRestartDone okA okB)

/-- PING (R489). -/
def execArbPing (w k : Nat) (s : State) : Host.Outcome State Fault Refusal :=
  s.onChip .running (doPing w k)

/-- FLUSH (R495). -/
def execArbFlush (w k : Nat) (s : State) : Host.Outcome State Fault Refusal :=
  s.onChip .running (doFlush w k)

/-- ARCH_READ (R489). -/
def execArbArchRead (w k : Nat) (s : State) : Host.Outcome State Fault Refusal :=
  s.onChip .running (doArchRead w k)

/-- EYE_SCAN (R491). -/
def execArbEyeScan (w k : Nat) (s : State) : Host.Outcome State Fault Refusal :=
  s.onChip .running (doEyeScan w k)

/-- MKA (R489). -/
def execArbMka (w k : Nat) (s : State) : Host.Outcome State Fault Refusal :=
  s.onChip .running (doMka w k)

/-- ARB_COMMAND_DONE (R488). -/
def execArbCommandDone (k eye : Nat) (s : State) : Host.Outcome State Fault Refusal :=
  s.onChip .recovery (doArbCommandDone k eye)

/-- SENS_SAMPLE (R490). -/
def execSensSample (ch val : Nat) (s : State) : Host.Outcome State Fault Refusal :=
  s.onChip .running (doSensSample ch val)

/-- EYE_SCAN_PERIODIC (R491). -/
def execEyeScanPeriodic (eyes : List Nat) (s : State) : Host.Outcome State Fault Refusal :=
  s.onChip .running (doEyeScanPeriodic eyes)

/-- SCORE_ENTRY_WRITE (R492). -/
def execScoreEntryWrite (s : State) : Host.Outcome State Fault Refusal :=
  s.onChip .running doScoreEntryWrite

/-- SCORE_FLUSH (R495). -/
def execScoreFlush (s : State) : Host.Outcome State Fault Refusal :=
  s.onChip .running doScoreFlush

/-- ENT7_READ (R494). -/
def execEnt7Read (k : Nat) (seen : Bool) (s : State) : Host.Outcome State Fault Refusal :=
  s.onChip .running (doEnt7Read k seen)

end Sys2Proof.Machine
end

