-- ==== Sys2Proof/Machine/ExecBenolsia.lean ====
section
/-! DEFINITION. The meaning of each command of chapter 19: Benolsia and the agent. -/

namespace Sys2Proof.Machine

/-- BNL_MESSAGE_RECEIVED (R514). -/
def execBnlMessageReceived (s : State) : Host.Outcome State Fault Refusal :=
  s.onChip .running doBnlMessageReceived

/-- ARB_CMD (R513). -/
def execBnlArbCmd (eye : Nat) (s : State) : Host.Outcome State Fault Refusal :=
  s.onChip .running (doArbCmd eye)

/-- CX_JOB (R513). -/
def execBnlCxJob (s : State) : Host.Outcome State Fault Refusal :=
  s.onChip .running doCxJob

/-- GAMBIT (R538). -/
def execBnlGambit (s : State) : Host.Outcome State Fault Refusal :=
  s.onChip .running doGambit

/-- SCORE_READ (R513). -/
def execBnlScoreRead (s : State) : Host.Outcome State Fault Refusal :=
  s.onChip .running doScoreRead

/-- READ (R515). -/
def execBnlRead (seen ue : Bool) (s : State) : Host.Outcome State Fault Refusal :=
  s.onChip .running (doRead seen ue)

/-- WRITE (R515). -/
def execBnlWrite (ecc : Nat) (env : WriteEnv) (s : State) : Host.Outcome State Fault Refusal :=
  s.onChip .running (doWrite ecc env)

/-- LOCK (R522). -/
def execBnlLock (s : State) : Host.Outcome State Fault Refusal :=
  s.onChip .running doLock

/-- UNLOCK (R522). -/
def execBnlUnlock (s : State) : Host.Outcome State Fault Refusal :=
  s.onChip .running doUnlock

/-- LEASE_EXPIRY (R522). -/
def execLeaseExpiry (s : State) : Host.Outcome State Fault Refusal :=
  s.onChip .running doLeaseExpiry

/-- BNL_KEY_WRITE (R512). -/
def execBnlKeyWrite (w x : Nat) (v : Word) (be : Nat) (s : State) : Host.Outcome State Fault Refusal :=
  s.onChip .running (doBnlKeyWrite w x v be)

/-- TX_SEL_WRITE (R516). -/
def execTxSelWrite (w : Nat) (v : Word) (be : Nat) (s : State) : Host.Outcome State Fault Refusal :=
  s.onChip .running (doTxSelWrite w v be)

/-- PEER_CFG_WRITE (R528). -/
def execPeerCfgWrite (w n : Nat) (v : Word) (be : Nat) (s : State) : Host.Outcome State Fault Refusal :=
  s.onChip .running (doPeerCfgWrite w n v be)

end Sys2Proof.Machine
end

