-- ==== Sys2Proof/Machine/ExecCan.lean ====
section
/-! DEFINITION. The meaning of each command of chapter 4: CAN squares. -/

namespace Sys2Proof.Machine

/-- CAN_SYNC_QUEUE (R84). -/
def execCanSyncQueue (q : Nat) (s : State) : Host.Outcome State Fault Refusal :=
  s.onChip .running (doCanSyncQueue q)

/-- CAN_FOLLOWUP_QUEUE (R84). -/
def execCanFollowupQueue (q : Nat) (s : State) : Host.Outcome State Fault Refusal :=
  s.onChip .running (doCanFollowupQueue q)

/-- TSYNC_CONFIG_WRITE (R604). -/
def execTsyncConfigWrite (k q : Nat) (v : Word) (be : Nat) (s : State) : Host.Outcome State Fault Refusal :=
  s.onChip .running (doTsyncConfigWrite k q v be)

/-- CAN_FRAME_RECEIVED (R94). -/
def execCanFrameReceived (q : Nat) (f : CanFrame) (x : CanIn) (s : State) : Host.Outcome State Fault Refusal :=
  s.onChip .running (doCanFrameReceived q f x)

/-- CAN_ERROR_FRAME (R95). -/
def execCanErrorFrame (q ty : Nat) (e : CanErr) (pos : Nat) (heavy exempt : Bool) (s : State) : Host.Outcome State Fault Refusal :=
  s.onChip .running (doCanErrorFrame q ty e pos heavy exempt)

/-- PROTOCOL_EXCEPTION (R95). -/
def execProtocolException (q pos : Nat) (s : State) : Host.Outcome State Fault Refusal :=
  s.onChip .running (doProtocolException q pos)

/-- CAN_CTRL_WRITE (R605). -/
def execCanCtrlWrite (k q : Nat) (v : Word) (be : Nat) (rx : Bool) (s : State) : Host.Outcome State Fault Refusal :=
  s.onChip .running (doCanCtrlWrite k q v be rx)

/-- CAN_INTEGRATION_DONE (R93). -/
def execCanIntegrationDone (q : Nat) (s : State) : Host.Outcome State Fault Refusal :=
  s.onChip .running (doCanIntegrationDone q)

/-- RX_MAILBOX_LOCK (R99). -/
def execRxMailboxLock (k q n : Nat) (seen : Bool) (s : State) : Host.Outcome State Fault Refusal :=
  s.onChip .running (doRxMailboxLock k q n seen)

/-- RX_MAILBOX_RELEASE (R99). -/
def execRxMailboxRelease (k q n : Nat) (seen : Bool) (s : State) : Host.Outcome State Fault Refusal :=
  s.onChip .running (doRxMailboxRelease k q n seen)

/-- TX_REQ (R104). -/
def execTxReq (k q : Nat) (v : Word) (s : State) : Host.Outcome State Fault Refusal :=
  s.onChip .running (doTxReq k q v)

/-- TX_CANCEL (R109). -/
def execTxCancel (k q : Nat) (v : Word) (s : State) : Host.Outcome State Fault Refusal :=
  s.onChip .running (doTxCancel k q v)

/-- CAN_TX_ATTEMPT (R102). -/
def execCanTxAttempt (q : Nat) (s : State) : Host.Outcome State Fault Refusal :=
  s.onChip .running (doCanTxAttempt q)

/-- CAN_ARBITRATION_LOST (R102). -/
def execCanArbitrationLost (q : Nat) (s : State) : Host.Outcome State Fault Refusal :=
  s.onChip .running (doCanArbitrationLost q)

/-- CAN_FRAME_TRANSMITTED (R106). -/
def execCanFrameTransmitted (q : Nat) (delay : Option Nat) (s : State) : Host.Outcome State Fault Refusal :=
  s.onChip .running (doCanFrameTransmitted q delay)

/-- CAN_DEADLINE_EXPIRY (R107). -/
def execCanDeadlineExpiry (q : Nat) (src : CanSrc) (s : State) : Host.Outcome State Fault Refusal :=
  s.onChip .running (doCanDeadlineExpiry q src)

/-- CAN_CLASS_BUFFER_PULL (R103). -/
def execCanClassBufferPull (q cls : Nat) (parity : Bool) (s : State) : Host.Outcome State Fault Refusal :=
  s.onChip .running (doCanClassBufferPull q cls parity)

/-- CAN_SCHEDULE_ENTRY (R112). -/
def execCanScheduleEntry (q : Nat) (s : State) : Host.Outcome State Fault Refusal :=
  s.onChip .running (doCanScheduleEntry q)

/-- BO_RECOVER (R118). -/
def execBoRecover (k q : Nat) (v : Word) (s : State) : Host.Outcome State Fault Refusal :=
  s.onChip .running (doBoRecover k q v)

/-- CAN_BUSOFF_RECOVERED (R118). -/
def execCanBusoffRecovered (q seqs : Nat) (s : State) : Host.Outcome State Fault Refusal :=
  s.onChip .running (doCanBusoffRecovered q seqs)

/-- CAN_STUCK_DOMINANT (R120). -/
def execCanStuckDominant (q : Nat) (s : State) : Host.Outcome State Fault Refusal :=
  s.onChip .running (doCanStuckDominant q)

/-- TXD_DOMINANT_LIMIT (R120). -/
def execTxdDominantLimit (q : Nat) (s : State) : Host.Outcome State Fault Refusal :=
  s.onChip .running (doTxdDominantLimit q)

/-- CAN_IDLE_TIMEOUT (R121). -/
def execCanIdleTimeout (q : Nat) (s : State) : Host.Outcome State Fault Refusal :=
  s.onChip .running (doCanIdleTimeout q)

/-- RXD_WAKE (R123). -/
def execRxdWake (q : Nat) (s : State) : Host.Outcome State Fault Refusal :=
  s.onChip .always (doRxdWakeEdge q)

/-- ERR_CAP_READ (R119). -/
def execErrCapRead (k q : Nat) (seen : Bool) (s : State) : Host.Outcome State Fault Refusal :=
  s.onChip .running (doErrCapRead k q seen)

/-- CAN_SQUARE_RESET (R124). -/
def execCanSquareReset (q bistStg bistSq : Nat) (s : State) : Host.Outcome State Fault Refusal :=
  s.onChip .running (doCanSquareReset q bistStg bistSq)

/-- STUCK_CLEAR (R120). -/
def execStuckClear (q : Nat) (s : State) : Host.Outcome State Fault Refusal :=
  s.onChip .running (doStuckClear q)

end Sys2Proof.Machine
end

