-- ==== Sys2Proof/Machine/ExecCastle.lean ====
section
/-! DEFINITION. The meaning of each command of chapter 15: the Castle. -/

namespace Sys2Proof.Machine

/-- LOAD (R431). -/
def execCastleLoad (w k : Nat) (s : State) : Host.Outcome State Fault Refusal :=
  s.onChip .running (doLoad w k)

/-- WRAP (R428). -/
def execCastleWrap (w k : Nat) (s : State) : Host.Outcome State Fault Refusal :=
  s.onChip .running (doWrap w k)

/-- IMPORT (R428). -/
def execCastleImport (w k : Nat) (s : State) : Host.Outcome State Fault Refusal :=
  s.onChip .running (doImport w k)

/-- GENERATE (R428). -/
def execCastleGenerate (w k : Nat) (s : State) : Host.Outcome State Fault Refusal :=
  s.onChip .running (doGenerate w k)

/-- UNLOAD (R428). -/
def execCastleUnload (w k : Nat) (s : State) : Host.Outcome State Fault Refusal :=
  s.onChip .running (doUnload w k)

/-- ERASE (R429). -/
def execCastleErase (w k : Nat) (s : State) : Host.Outcome State Fault Refusal :=
  s.onChip .running (doErase w k)

/-- PUBKEY (R428). -/
def execCastlePubkey (w k : Nat) (s : State) : Host.Outcome State Fault Refusal :=
  s.onChip .running (doPubkey w k)

/-- STORE (R433). -/
def execCastleStore (w k : Nat) (s : State) : Host.Outcome State Fault Refusal :=
  s.onChip .running (doStore w k)

/-- UNSTORE (R428). -/
def execCastleUnstore (w k : Nat) (s : State) : Host.Outcome State Fault Refusal :=
  s.onChip .running (doUnstore w k)

/-- CLEAR_RESIGN (R441). -/
def execCastleClearResign (w k : Nat) (s : State) : Host.Outcome State Fault Refusal :=
  s.onChip .running (doClearResign w k)

/-- ROOT_RETRY (R420). -/
def execCastleRootRetry (w k : Nat) (good : Bool) (s : State) : Host.Outcome State Fault Refusal :=
  s.onChip .running (doRootRetry w k good)

/-- CASTLE_COMMAND_DONE (R428). -/
def execCastleCommandDone (k : Nat) (s : State) : Host.Outcome State Fault Refusal :=
  s.onChip .running (doCastleCommandDone k)

/-- SLOT_REMASK (R432). -/
def execSlotRemask (n : Nat) (s : State) : Host.Outcome State Fault Refusal :=
  s.onChip .running (doSlotRemask n)

/-- RNG_FAIL (R428). -/
def execRngFail (s : State) : Host.Outcome State Fault Refusal :=
  s.onChip .running doRngFail

/-- TAMPER_SENSOR_FIRE (R436). -/
def execTamperSensorFire (n : Nat) (r : TamperReading) (s : State) : Host.Outcome State Fault Refusal :=
  s.onChip .always (doTamperSensorFire n r)

/-- SLEEP_LATCH_WRITE (R438). -/
def execSleepLatchWrite (k : Nat) (v : Word) (be : Nat) (s : State) : Host.Outcome State Fault Refusal :=
  s.onChip .running (doSleepLatchWrite k v be)

/-- AUTOLOAD_DEFERRED (R433). -/
def execAutoloadDeferred (s : State) : Host.Outcome State Fault Refusal :=
  s.onChip .running doAutoloadDeferred

end Sys2Proof.Machine
end

