-- ==== Sys2Proof/Machine/ExecCipher.lean ====
section
/-! DEFINITION. The meaning of each command of chapter 16: the cipher complex. -/

namespace Sys2Proof.Machine

/-- CX_DESCRIPTOR_FETCH (R447). -/
def execCxDescriptorFetch (k : Nat) (desc : List Byte) (segs : List (Nat × Nat × List Byte)) (err : Bool) (s : State) : Host.Outcome State Fault Refusal :=
  s.onChip .running (doCxDescriptorFetch k desc segs err)

/-- JR_TAIL_WRITE (R450). -/
def execJrTailWrite (w k : Nat) (v : Word) (be : Nat) (s : State) : Host.Outcome State Fault Refusal :=
  s.onChip .running (doJrTailWrite w k v be)

/-- GCM_ENCRYPT (R453). -/
def execGcmEncrypt (s : State) : Host.Outcome State Fault Refusal :=
  s.onChip .running doGcmEncrypt

/-- GCM_DECRYPT (R453). -/
def execGcmDecrypt (s : State) : Host.Outcome State Fault Refusal :=
  s.onChip .running doGcmDecrypt

/-- GMAC_GENERATE (R453). -/
def execGmacGenerate (s : State) : Host.Outcome State Fault Refusal :=
  s.onChip .running doGmacGenerate

/-- GMAC_VERIFY (R453). -/
def execGmacVerify (s : State) : Host.Outcome State Fault Refusal :=
  s.onChip .running doGmacVerify

/-- CCM_ENCRYPT (R453). -/
def execCcmEncrypt (s : State) : Host.Outcome State Fault Refusal :=
  s.onChip .running doCcmEncrypt

/-- CCM_DECRYPT (R453). -/
def execCcmDecrypt (s : State) : Host.Outcome State Fault Refusal :=
  s.onChip .running doCcmDecrypt

/-- CMAC_GENERATE (R453). -/
def execCmacGenerate (s : State) : Host.Outcome State Fault Refusal :=
  s.onChip .running doCmacGenerate

/-- CMAC_VERIFY (R453). -/
def execCmacVerify (s : State) : Host.Outcome State Fault Refusal :=
  s.onChip .running doCmacVerify

/-- SHAKE256 (R453). -/
def execShake256 (s : State) : Host.Outcome State Fault Refusal :=
  s.onChip .running doShake256

/-- ED448_SIGN (R453). -/
def execEd448Sign (s : State) : Host.Outcome State Fault Refusal :=
  s.onChip .running doEd448Sign

/-- ED448_VERIFY (R453). -/
def execEd448Verify (s : State) : Host.Outcome State Fault Refusal :=
  s.onChip .running doEd448Verify

/-- ATTEST (R460). -/
def execAttest (s : State) : Host.Outcome State Fault Refusal :=
  s.onChip .running doAttest

/-- SEAL_JOB (R457). -/
def execSealJob (s : State) : Host.Outcome State Fault Refusal :=
  s.onChip .running doSealJob

/-- VERIFY_JOB (R458). -/
def execVerifyJob (s : State) : Host.Outcome State Fault Refusal :=
  s.onChip .running doVerifyJob

/-- CX_JOB_DONE (R454). -/
def execCxJobDone (id dma : Nat) (s : State) : Host.Outcome State Fault Refusal :=
  s.onChip .running (doCxJobDone id dma)

end Sys2Proof.Machine
end

