-- ==== Sys2Proof/Machine/ExecEpochs.lean ====
section
/-! DEFINITION. The meaning of each command of chapter 14: epochs and transactions. -/

namespace Sys2Proof.Machine

/-- BEGIN (R404). -/
def execTxnBegin (w k : Nat) (s : State) : Host.Outcome State Fault Refusal :=
  s.onChip .running (doBegin w k)

/-- COMMIT_IMMEDIATE (R409). -/
def execTxnCommitImmediate (w k : Nat) (s : State) : Host.Outcome State Fault Refusal :=
  s.onChip .running (doCommitImmediate w k)

/-- COMMIT_NEXT_BOUNDARY (R409). -/
def execTxnCommitNextBoundary (w k : Nat) (s : State) : Host.Outcome State Fault Refusal :=
  s.onChip .running (doCommitNextBoundary w k)

/-- COMMIT_AT_TIME (R409). -/
def execTxnCommitAtTime (w k : Nat) (s : State) : Host.Outcome State Fault Refusal :=
  s.onChip .running (doCommitAtTime w k)

/-- ROLLBACK (R413). -/
def execTxnRollback (w k : Nat) (s : State) : Host.Outcome State Fault Refusal :=
  s.onChip .running (doRollback w k)

/-- TXN_BAD_CMD (R415). -/
def execTxnBadCmd (w k : Nat) (v : Word) (s : State) : Host.Outcome State Fault Refusal :=
  s.onChip .running (doTxnBadCmd w k v)

/-- TXN_JOURNAL_WRITE (R405). -/
def execTxnJournalWrite (k : Nat) (bar2 : Bool) (addr : Nat) (v : Word64) (be ecc : Nat) (s : State) : Host.Outcome State Fault Refusal :=
  s.onChip .running (doTxnJournalWrite k bar2 addr v be ecc)

/-- EPOCH_SWITCH (R410). -/
def execEpochSwitch (s : State) : Host.Outcome State Fault Refusal :=
  s.onChip .running doEpochSwitch

/-- OLD_EPOCH_RETIRE (R401). -/
def execOldEpochRetire (s : State) : Host.Outcome State Fault Refusal :=
  s.onChip .running doOldEpochRetire

/-- TXN_AUTO_ABORT (R414). -/
def execTxnAutoAbort (k : Nat) (s : State) : Host.Outcome State Fault Refusal :=
  s.onChip .running (doTxnAutoAbort k)

end Sys2Proof.Machine
end

