-- ==== Sys2Proof/Machine/ExecEthernet.lean ====
section
/-! DEFINITION. The meaning of each command of chapter 5: Ethernet squares. -/

namespace Sys2Proof.Machine

/-- ETH_FRAME_RECEIVED (R136). -/
def execEthFrameReceived (q : Nat) (b : List Byte) (fcsOk : Bool) (x : EthIn) (early : Bool) (s : State) : Host.Outcome State Fault Refusal :=
  s.onChip .running (doEthFrameReceived q b fcsOk x early)

/-- PAUSE_FRAME_RECEIVED (R141). -/
def execPauseFrameReceived (q op vec : Nat) (times : List Nat) (s : State) : Host.Outcome State Fault Refusal :=
  s.onChip .running (doPauseFrameReceived q op vec times)

/-- PAUSE_EXPIRY (R141). -/
def execPauseExpiry (q ch : Nat) (s : State) : Host.Outcome State Fault Refusal :=
  s.onChip .running (doPauseExpiry q ch)

/-- PAUSE_DUTY_WINDOW (R142). -/
def execPauseDutyWindow (q : Nat) (s : State) : Host.Outcome State Fault Refusal :=
  s.onChip .running (doPauseDutyWindow q)

/-- PAUSE_TX_REPEAT (R143). -/
def execPauseTxRepeat (q ch : Nat) (s : State) : Host.Outcome State Fault Refusal :=
  s.onChip .running (doPauseTxRepeat q ch)

/-- PLCA_BEACON_RECEIVED (R130). -/
def execPlcaBeaconReceived (q : Nat) (s : State) : Host.Outcome State Fault Refusal :=
  s.onChip .running (doPlcaBeaconReceived q)

/-- PLCA_LOSS (R130). -/
def execPlcaLoss (q : Nat) (s : State) : Host.Outcome State Fault Refusal :=
  s.onChip .running (doPlcaLoss q)

/-- SDS_MODE_WRITE (R132). -/
def execSdsModeWrite (k q : Nat) (v : Word) (be : Nat) (s : State) : Host.Outcome State Fault Refusal :=
  s.onChip .running (doSdsModeWrite k q v be)

/-- LINK_UP (R133). -/
def execLinkUp (q st : Nat) (s : State) : Host.Outcome State Fault Refusal :=
  s.onChip .running (doLinkUp q st)

/-- LINK_DOWN (R163). -/
def execLinkDown (q st : Nat) (s : State) : Host.Outcome State Fault Refusal :=
  s.onChip .running (doLinkDown q st)

/-- LINK_HOLD_EXPIRY (R164). -/
def execLinkHoldExpiry (q : Nat) (s : State) : Host.Outcome State Fault Refusal :=
  s.onChip .running (doLinkHoldExpiry q)

/-- MDIO_CMD (R135). -/
def execMdioCmd (k q : Nat) (v : Word) (s : State) : Host.Outcome State Fault Refusal :=
  s.onChip .running (doMdioCmd k q v)

/-- MDIO_DONE (R135). -/
def execMdioDone (q rdata : Nat) (s : State) : Host.Outcome State Fault Refusal :=
  s.onChip .running (doMdioDone q rdata)

/-- ETH_TRANSMIT_SELECT (R150). -/
def execEthTransmitSelect (q : Nat) (parity : Bool) (s : State) : Host.Outcome State Fault Refusal :=
  s.onChip .running (doEthTransmitSelect q parity)

/-- ETH_FRAME_TX_DONE (R138). -/
def execEthFrameTxDone (q : Nat) (t : TxEnd) (s : State) : Host.Outcome State Fault Refusal :=
  s.onChip .running (doEthFrameTxDone q t)

/-- LPI_ENTER (R144). -/
def execLpiEnter (q : Nat) (s : State) : Host.Outcome State Fault Refusal :=
  s.onChip .running (doLpiEnter q)

/-- LPI_GATE_WAKE (R146). -/
def execLpiGateWake (q : Nat) (s : State) : Host.Outcome State Fault Refusal :=
  s.onChip .running (doLpiGateWake q)

/-- MM_VERIFY_TIMER (R147). -/
def execMmVerifyTimer (q : Nat) (resp : Bool) (s : State) : Host.Outcome State Fault Refusal :=
  s.onChip .running (doMmVerifyTimer q resp)

/-- GATE_LIST_ENTRY (R154). -/
def execGateListEntry (q : Nat) (s : State) : Host.Outcome State Fault Refusal :=
  s.onChip .running (doGateListEntry q)

/-- FRER_RECOVERY_RESET (R162). -/
def execFrerRecoveryReset (fn : Nat) (s : State) : Host.Outcome State Fault Refusal :=
  s.onChip .running (doFrerRecoveryReset fn)

/-- FRER_LATENT_TEST (R160). -/
def execFrerLatentTest (fn : Nat) (s : State) : Host.Outcome State Fault Refusal :=
  s.onChip .running (doFrerLatentTest fn)

/-- ETH_SQUARE_RESET (R170). -/
def execEthSquareReset (q bistStg bistSq : Nat) (s : State) : Host.Outcome State Fault Refusal :=
  s.onChip .running (doEthSquareReset q bistStg bistSq)

/-- LAST_DROP_READ (R171). -/
def execLastDropRead (k q : Nat) (seen : Bool) (s : State) : Host.Outcome State Fault Refusal :=
  s.onChip .running (doLastDropRead k q seen)

end Sys2Proof.Machine
end

