-- ==== Sys2Proof/Machine/ExecFabric.lean ====
section
/-! DEFINITION. The meaning of each command of chapter 11: the Tour fabric. -/

namespace Sys2Proof.Machine

/-- COPY_LAUNCH_GRANT (R338). -/
def execCopyLaunchGrant (idx : Nat) (s : State) : Host.Outcome State Fault Refusal :=
  s.onChip .running (doCopyLaunchGrant idx)

/-- CELL_ARRIVE_RESEQUENCER (R343). -/
def execCellArriveResequencer (j : Nat) (x : CellRead) (s : State) : Host.Outcome State Fault Refusal :=
  s.onChip .running (doCellArriveResequencer j x)

/-- RESEQ_TIMEOUT (R345). -/
def execReseqTimeout (idx o cls : Nat) (s : State) : Host.Outcome State Fault Refusal :=
  s.onChip .running (doReseqTimeout idx o cls)

/-- AGER_SCAN (R350). -/
def execAgerScan (s : State) : Host.Outcome State Fault Refusal :=
  s.onChip .running doAgerScan

/-- HOLD_RECLAIM (R353). -/
def execHoldReclaim (s : State) : Host.Outcome State Fault Refusal :=
  s.onChip .running doHoldReclaim

/-- BUF_SPLIT_WRITE (R332). -/
def execBufSplitWrite (k : Nat) (v : Word) (be : Nat) (s : State) : Host.Outcome State Fault Refusal :=
  s.onChip .running (doBufSplitWrite k v be)

end Sys2Proof.Machine
end

