-- ==== Sys2Proof/Machine/Consume.lean ====
section
/-! DEFINITION. Chapter 6, the planes as consumer of the staging FIFOs, and a frame's way into classification (chapter 7). -/

/-
MARKS of the model choices coded here; the log rows say each in full.
DESIGN CHOICE (log 8, safe): the two planes are modelled once.
DESIGN CHOICE (log 33, unsafe): the staging FIFOs: rewinds without a mark, reserved slots, and how the planes read.
DEDUCED (log 113, unsafe): staging: when words are written and become readable, and an uncorrectable word of a packet.
-/

namespace Sys2Proof.Machine

/-- STG_POINTER_DISAGREE (R191, R373, R374): the pointers of the two planes that read differ, which is a disagreement; ptr 1: White's copy
fails parity, 2: Black's, 3: neither, 4: both. A copy that fails raises its plane's PARITY flag; the FIFO serves both planes from the
copy that alone is good, or else from that of the plane with the move. -/
def Chip.stgPointers (c : Chip) (q ptr : Nat) : Chip :=
  if ptr = 0 || !c.stgBoth then c
  else
    let from_ := if ptr = 1 then 1 else if ptr = 2 then 0 else c.move
    let c1 := ((c.stgServe (1 - from_) q).stgSettle q).inc Reg.ADJ.DIS_STG
    (c1.disagree 3 q 0 0).flagPlanes (ptr = 1 || ptr = 4) (ptr = 2 || ptr = 4) 1

/-- The planes that run have read the oldest unreleased packet from its FIRST word, to which their marks were set, to its end, and
release it. -/
def Chip.stgPass (c : Chip) (q n : Nat) (slot : Nat) : Chip :=
  let one (c : Chip) (x : Nat) : Chip := if c.stgReads x then ((c.setStgRd x q slot).stgMark x q).stgReleaseBy x q n else c
  (one (one c 0) 1).stgSettle q

/-- What the classifier takes from the record of a packet of square src; one that was classified before its end has taken its epoch and
ENTRY then (R196). DESIGN CHOICE (log 33): its copies enter the fabric with its end. -/
def Chip.stgFrame (c : Chip) (src : Nat) (k : StgPkt) (aborted : Bool) : Flight :=
  { rcd := stgPktData k, kind := if src < 40 then .can else .eth, src := src, sq := some src, input := src / 8, lb := false, group := 0,
    epoch := (k.head.map (·.1)).getD c.epoch, entry := (k.head.map (·.2)).getD c.ns, aborted := aborted, origin := some src, early := k.early }

/-- A packet's end-to-end check fails, or a word of it reads uncorrectable (R177, R470; DEDUCED, log 113: of an
uncorrectable word MEM.LAST_UE_ADDR shows the first of the nine code words of the FIRST slot): it is discarded; one that the planes read
cut-through ends towards egress as an aborted packet. -/
def Chip.stgFails (c : Chip) (src : Nat) (k : StgPkt) (ue : Bool) : Chip :=
  let reason := if ue then 6 else 5
  let c0 := if ue then c.memUe src (9 * (k.slot % 1024)) 0 else c
  let c1 := (((c0.inc (Reg.STG.E2E_ERR src)).stgErr src reason k.slot).raise (pStg src) 3).scoreLog 0x0061 3 (pStg src)
    [BitVec.ofNat 8 src, BitVec.ofNat 8 reason]
  if k.early then c1.classify (c1.stgFrame src k true) k.wire else c1

/-- What the read of a packet meets (R177): 2 a word of it reads uncorrectable, 1 its check fails at the end, 0 neither. -/
def stgFault (k : StgPkt) (bad : Nat) (ended : Bool) : Nat :=
  if bad = 2 || k.bad then 2
  else if bad = 1 || (ended && !stgPktAborted k && crc32c (stgPktData k) != stgPktChk k) then 1 else 0

/-- The packet whose word stands at a pointer, and whether that is its last word. -/
def Chip.stgPktAt (c : Chip) (q p : Nat) : Option (StgPkt × Bool) :=
  let s := c.stgSq q
  match s.pkts.find? fun k => (stgSpan q k.slot k.words.length).contains p with
  | some k => some (k, stgAdvance q p 1 = stgAdvance q k.slot k.words.length)
  | none =>
    match s.prog with
    | some g => if (stgSpan q g.slot g.words.length).contains p then some ({ slot := g.slot, words := g.words, early := true, head := g.head, gone := g.gone }, false) else none
    | none => none

/-- The packet with this FIRST slot has been discarded under R177. -/
def Chip.stgGone (c : Chip) (q slot : Nat) : Chip :=
  let s := c.stgSq q
  c.setStg q { s with pkts := s.pkts.map (fun k => if k.slot = slot then { k with gone := true } else k),
                      prog := s.prog.map fun g => if g.slot = slot then { g with gone := true } else g }

/-- A word that a plane has read shows a fault of its packet (R177): both planes discard it. -/
def Chip.stgJudge (c : Chip) (q p bad : Nat) : Chip :=
  match c.stgPktAt q p with
  | none => c
  | some (k, last) =>
    let f := stgFault k bad last
    if k.gone || f = 0 then c else (c.stgGone q k.slot).stgFails q k (decide (f = 2))

/-- One operation of one plane (R177, R185-R189). -/
def Chip.stgStep (c : Chip) (q bad : Nat) (x : StgRead) : Chip :=
  if !c.stgReads x.plane then c
  else match x.step with
    | 1 => c.stgMark x.plane q
    | 2 =>
      let p := c.stgRd x.plane q
      let c1 := c.stgReadWord x.plane q
      if c1.stgRd x.plane q = p then c1 else c1.stgJudge q p bad
    | 3 => c.stgBack x.plane q
    | _ => (c.stgReleaseBy x.plane q (x.pkt + 1)).stgSettle q

/-- The classifier does not wait for a commit that it does not need (R196): once the two words of the parse window can be read, the packet
that is being written takes its epoch and ENTRY. -/
def Chip.stgHead (c : Chip) (src : Nat) : Chip :=
  match (c.stgSq src).prog with
  | none => c
  | some g =>
    if g.dropped || g.head.isSome || g.words.length < 2 || !c.stgOpen src g.words.length then c
    else c.setProg src (some { g with head := some (c.epoch, c.ns), seen := some (g.seen.getD c.now) })

/-- The oldest packet that the plane with the move has not released passes to the planes: `bad` 1 its check fails, 2 a word of it reads
uncorrectable, on this read. Without one, the packet that is being written is classified where its words can be read. -/
def Chip.stgTake (c : Chip) (src bad : Nat) : Chip :=
  let n := c.stgRelOf c.move src
  match (c.stgSq src).cut, (c.stgSq src).pkts.drop n with
  | some k, _ => Chip.classify (c.setStg src { c.stgSq src with cut := none, cutW := false, cutB := false }) (c.stgFrame src k true) k.wire
  | none, [] => c.stgHead src
  | none, k :: _ =>
    let c1 := c.stgPass src (n + 1) k.slot
    let f := stgFault k bad true
    if k.gone then c1
    else if f ≠ 0 then c1.stgFails src k (decide (f = 2))
    else c1.classify (c1.stgFrame src k (stgPktAborted k)) k.wire

/-- CLASSIFY_FRAME (R203): the oldest packet of square src (0-63), or one operation of a plane at its FIFO (R188); for 71 the oldest
copy at F_LB. -/
def doClassifyFrame (src bad : Nat) (x : StgRead) (c : Chip) : Chip :=
  if src < 64 then
    let c0 := c.stgPointers src x.ptr
    if x.step = 0 then c0.stgTake src bad else c0.stgStep src bad x
  else if src = 71 then
    (match c.fab.copies.find? (fun k => k.appended && k.output = 71) with
     | none => c
     | some k =>
       if c.residenceOver k then Chip.fabDone c (c.resDrop k) else
       Chip.classify (Chip.fabDone c (c.delCopy k.id))
         { rcd := k.data, kind := k.kind, src := k.src, sq := none, input := 15, lb := true, group := k.group, epoch := k.epoch, entry := k.entry, origin := k.origin } 0)
  else c

end Sys2Proof.Machine
end

