-- ==== Sys2Proof/Machine/ExecFrames.lean ====
section
/-! DEFINITION. The meaning of each command of chapters 6 to 8: staging FIFOs, classification, tables, policing and port guard. -/

namespace Sys2Proof.Machine

/-- STG_FLUSH (R190). -/
def execStgFlush (k q : Nat) (v : Word) (s : State) : Host.Outcome State Fault Refusal :=
  s.onChip .running (doStgFlush k q v)

/-- STG_HWM_READ (R193). -/
def execStgHwmRead (k q : Nat) (seen : Bool) (s : State) : Host.Outcome State Fault Refusal :=
  s.onChip .running (doStgHwmRead k q seen)

/-- STG_LAST_ERR_READ (R193). -/
def execStgLastErrRead (k q : Nat) (seen : Bool) (s : State) : Host.Outcome State Fault Refusal :=
  s.onChip .running (doStgLastErrRead k q seen)

/-- CLASSIFY_FRAME (R203). -/
def execClassifyFrame (src bad : Nat) (x : StgRead) (s : State) : Host.Outcome State Fault Refusal :=
  s.onChip .running (doClassifyFrame src bad x)

/-- TABLE_ENTRY_WRITE (R206). -/
def execTableEntryWrite (k off : Nat) (v : Word64) (be ecc : Nat) (s : State) : Host.Outcome State Fault Refusal :=
  s.onChip .recovery (doTableEntryWrite k off v be ecc)

/-- STREAM_GATE_ENTRY (R234). -/
def execStreamGateEntry (g : Nat) (s : State) : Host.Outcome State Fault Refusal :=
  s.onChip .running (doStreamGateEntry g)

/-- GUARD_WINDOW_END (R239). -/
def execGuardWindowEnd (s : State) : Host.Outcome State Fault Refusal :=
  s.onChip .running doGuardWindowEnd

/-- QUARANTINE_CLEAR (R244). -/
def execQuarantineClear (k : Nat) (hi : Bool) (v : Word) (be : Nat) (s : State) : Host.Outcome State Fault Refusal :=
  s.onChip .running (doQuarantineClear k hi v be)

/-- QUARANTINE_HOLD_EXPIRY (R244). -/
def execQuarantineHoldExpiry (idx : Nat) (s : State) : Host.Outcome State Fault Refusal :=
  s.onChip .running (doQuarantineHoldExpiry idx)

end Sys2Proof.Machine
end

