-- ==== Sys2Proof/Machine/ExecGambit.lean ====
section
/-! DEFINITION. The meaning of each command of chapter 20: Gambit. -/

namespace Sys2Proof.Machine

/-- STAGE (R537). -/
def execGambitStage (w k : Nat) (s : State) : Host.Outcome State Fault Refusal :=
  s.onChip .recovery (doStage w k)

/-- CHUNK (R535). -/
def execGambitChunk (w k : Nat) (s : State) : Host.Outcome State Fault Refusal :=
  s.onChip .recovery (doChunk w k)

/-- ACTIVATE (R539). -/
def execGambitActivate (w k : Nat) (s : State) : Host.Outcome State Fault Refusal :=
  s.onChip .recovery (doActivate w k)

/-- CONFIRM (R542). -/
def execGambitConfirm (w k : Nat) (s : State) : Host.Outcome State Fault Refusal :=
  s.onChip .recovery (doConfirm w k)

/-- ABANDON (R536). -/
def execGambitAbandon (w k : Nat) (s : State) : Host.Outcome State Fault Refusal :=
  s.onChip .recovery (doAbandon w k)

/-- GAMBIT_APPLY_RETRY (R541). -/
def execGambitApplyRetry (s : State) : Host.Outcome State Fault Refusal :=
  s.onChip .running doGambitApplyRetry

/-- TRIAL_WINDOW_EXPIRY (R543). -/
def execTrialWindowExpiry (s : State) : Host.Outcome State Fault Refusal :=
  s.onChip .running doTrialWindowExpiry

/-- FLASH_DEVICE_FAIL (R530). -/
def execFlashDeviceFail (whole : Bool) (s : State) : Host.Outcome State Fault Refusal :=
  s.onChip .recovery (doFlashDeviceFail whole)

/-- ACT_DONE (R539). -/
def execActDone (good : Bool) (env : StartEnv) (s : State) : Host.Outcome State Fault Refusal :=
  s.onChip .recovery (doActDone good env)

end Sys2Proof.Machine
end

