-- ==== Sys2Proof/Machine/ExecHosts.lean ====
section
/-! DEFINITION. The meaning of each command of chapter 19: host interfaces and the bridge. -/

namespace Sys2Proof.Machine

/-- FUNCTION_LEVEL_RESET (R503). -/
def execFunctionLevelReset (k : Nat) (s : State) : Host.Outcome State Fault Refusal :=
  s.onChip .recovery (doFunctionLevelReset k)

/-- PERST_ASSERT (R588). -/
def execPerstAssert (k : Nat) (s : State) : Host.Outcome State Fault Refusal :=
  s.onChip .recovery (doPerstAssert k)

/-- HDMA_TX_TAIL_WRITE (R505). -/
def execHdmaTxTailWrite (w k t : Nat) (v : Word) (be : Nat) (s : State) : Host.Outcome State Fault Refusal :=
  s.onChip .running (doHdmaTxTailWrite w k t v be)

/-- HDMA_TX_FETCH (R506). -/
def execHdmaTxFetch (k : Nat) (desc rec : List Byte) (err : Bool) (s : State) : Host.Outcome State Fault Refusal :=
  s.onChip .running (doHdmaTxFetch k desc rec err)

/-- HDMA_RX_DELIVER (R507). -/
def execHdmaRxDeliver (p : Nat) (desc : List Byte) (s : State) : Host.Outcome State Fault Refusal :=
  s.onChip .running (doHdmaRxDeliver p desc)

/-- RX_IRQ_TIMER (R510). -/
def execRxIrqTimer (k r : Nat) (s : State) : Host.Outcome State Fault Refusal :=
  s.onChip .running (doRxIrqTimer k r)

/-- BAR4_READ (R520). -/
def execBar4Read (k off len : Nat) (s : State) : Host.Outcome State Fault Refusal :=
  s.onChip .running (doBar4Read k off len)

/-- BAR4_WRITE (R521). -/
def execBar4Write (k off : Nat) (d : List Byte) (s : State) : Host.Outcome State Fault Refusal :=
  s.onChip .running (doBar4Write k off d)

/-- BAR4_ATOMIC_OP (R524). -/
def execBar4AtomicOp (k off op size a b : Nat) (s : State) : Host.Outcome State Fault Refusal :=
  s.onChip .running (doBar4AtomicOp k off op size a b)

/-- BNL_RESPONSE_RECEIVED (R520). -/
def execBnlResponseReceived (s : State) : Host.Outcome State Fault Refusal :=
  s.onChip .running doBnlResponseReceived

/-- BRIDGE_TAG_TIMEOUT (R521). -/
def execBridgeTagTimeout (w t : Nat) (s : State) : Host.Outcome State Fault Refusal :=
  s.onChip .running (doBridgeTagTimeout w t)

/-- BRIDGE_BUSY_RETRY (R520). -/
def execBridgeBusyRetry (w t : Nat) (s : State) : Host.Outcome State Fault Refusal :=
  s.onChip .running (doBridgeBusyRetry w t)

/-- SEM_ACQUIRE_READ (R523). -/
def execSemAcquireRead (k w : Nat) (seen : Bool) (s : State) : Host.Outcome State Fault Refusal :=
  s.onChip .running (doSemAcquireRead k w seen)

/-- SEM_RELEASE (R523). -/
def execSemRelease (k w : Nat) (s : State) : Host.Outcome State Fault Refusal :=
  s.onChip .running (doSemRelease k w)

/-- SEM_LEASE_RENEW (R523). -/
def execSemLeaseRenew (w : Nat) (s : State) : Host.Outcome State Fault Refusal :=
  s.onChip .running (doSemLeaseRenew w)

/-- SEM_HOLD_TIMEOUT (R523). -/
def execSemHoldTimeout (w : Nat) (s : State) : Host.Outcome State Fault Refusal :=
  s.onChip .running (doSemHoldTimeout w)

/-- WERR_POP (R527). -/
def execWerrPop (k : Nat) (seen : Bool) (s : State) : Host.Outcome State Fault Refusal :=
  s.onChip .running (doWerrPop k seen)

/-- PCIE_LINK_UP (R59). -/
def execPcieLinkUp (k width speed : Nat) (s : State) : Host.Outcome State Fault Refusal :=
  s.onChip .recovery (doPcieLinkUp k width speed)

/-- DL_DOWN (R504). -/
def execDlDown (k : Nat) (s : State) : Host.Outcome State Fault Refusal :=
  s.onChip .recovery (doDlDown k)

/-- PERST_N_RELEASE (R588). -/
def execPerstNRelease (k : Nat) (s : State) : Host.Outcome State Fault Refusal :=
  s.onChip .recovery (doPerstNRelease k)

end Sys2Proof.Machine
end

