-- ==== Sys2Proof/Machine/ExecMemory.lean ====
section
/-! DEFINITION. The meaning of each command of chapter 17: memory integrity. -/

namespace Sys2Proof.Machine

/-- SCRUB_READ (R475). -/
def execScrubRead (m addr res : Nat) (last : Bool) (s : State) : Host.Outcome State Fault Refusal :=
  s.onChip .running (doScrubRead m addr res last)

/-- BUCKET_LEAK (R478). -/
def execBucketLeak (m : Nat) (s : State) : Host.Outcome State Fault Refusal :=
  s.onChip .running (doBucketLeak m)

/-- RETIRE_GO (R479). -/
def execRetireGo (k : Nat) (v : Word) (s : State) : Host.Outcome State Fault Refusal :=
  s.onChip .running (doRetireGo k v)

/-- ALLOC_RETIRE_COMPLETE (R480). -/
def execAllocRetireComplete (s : State) : Host.Outcome State Fault Refusal :=
  s.onChip .running doAllocRetireComplete

/-- BIST_RUN (R481). -/
def execBistRun (k : Nat) (v : Word) (bad : Nat) (s : State) : Host.Outcome State Fault Refusal :=
  s.onChip .running (doBistRun k v bad)

/-- RET_INIT (R482). -/
def execRetInit (k : Nat) (v : Word) (s : State) : Host.Outcome State Fault Refusal :=
  s.onChip .running (doRetInit k v)

end Sys2Proof.Machine
end

