-- ==== Sys2Proof/Machine/ExecPages.lean ====
section
/-! DEFINITION. The meaning of each command of chapter 2: pages, ownership, interrupts. -/

namespace Sys2Proof.Machine

/-- REGISTER_WRITE (R58). -/
def execRegisterWrite (k a : Nat) (ws : List (Word × Nat)) (env : WriteEnv) (s : State) : Host.Outcome State Fault Refusal :=
  s.onChip .recovery (doRegisterWrite k a ws env)

/-- WIDE_READ_REJECT (R57). -/
def execWideReadReject (p off n : Nat) (r : WideRead) (s : State) : Host.Outcome State Fault Refusal :=
  s.onChip .recovery (doWideReadReject p off n r)

/-- PAGE_OWNER_WRITE (R47). -/
def execPageOwnerWrite (k p : Nat) (v : Word) (be : Nat) (s : State) : Host.Outcome State Fault Refusal :=
  s.onChip .recovery (doPageOwnerWrite k p v be)

/-- PAGE_IRQ_FORCE_WRITE (R61). -/
def execPageIrqForceWrite (k p : Nat) (v : Word) (be : Nat) (s : State) : Host.Outcome State Fault Refusal :=
  s.onChip .recovery (doPageIrqForceWrite k p v be)

/-- SUPV_XFER (R52). -/
def execSupvXfer (k j : Nat) (v : Word) (s : State) : Host.Outcome State Fault Refusal :=
  s.onChip .recovery (doSupvXfer k j v)

/-- SUPV_WATCH_CHECK (R54). -/
def execSupvWatchCheck (s : State) : Host.Outcome State Fault Refusal :=
  s.onChip .recovery doSupvWatchCheck

/-- DENY_POP (R59). -/
def execDenyPop (k j : Nat) (seen : Bool) (s : State) : Host.Outcome State Fault Refusal :=
  s.onChip .recovery (doDenyPop k j seen)

/-- ALARM_N_HOLD_EXPIRY (R63). -/
def execAlarmNHoldExpiry (s : State) : Host.Outcome State Fault Refusal :=
  s.onChip .always doAlarmNHoldExpiry

end Sys2Proof.Machine
end

