-- ==== Sys2Proof/Machine/ExecPawn.lean ====
section
/-! DEFINITION. The meaning of each command of chapter 10: Pawn engines. -/

namespace Sys2Proof.Machine

/-- PAWN_DISPATCH (R292). -/
def execPawnDispatch (s : State) : Host.Outcome State Fault Refusal :=
  s.onChip .running doPawnDispatch

/-- PAWN_KICK (R294). -/
def execPawnKick (k n : Nat) (v : Word) (s : State) : Host.Outcome State Fault Refusal :=
  s.onChip .running (doPawnKick k n v)

/-- PAWN_TIMER_EXPIRY (R318). -/
def execPawnTimerExpiry (j : Nat) (s : State) : Host.Outcome State Fault Refusal :=
  s.onChip .running (doPawnTimerExpiry j)

/-- BUDGET_EXHAUSTED (R297). -/
def execBudgetExhausted (n : Nat) (s : State) : Host.Outcome State Fault Refusal :=
  s.onChip .running (doBudgetExhausted n)

/-- ILLEGAL_INSTRUCTION (R302). -/
def execIllegalInstruction (n : Nat) (s : State) : Host.Outcome State Fault Refusal :=
  s.onChip .running (doIllegalInstruction n)

/-- NOP (R303). -/
def execPawnNop (n : Nat) (s : State) : Host.Outcome State Fault Refusal :=
  s.onChip .running (doNop n)

/-- END (R299). -/
def execPawnEnd (n : Nat) (s : State) : Host.Outcome State Fault Refusal :=
  s.onChip .running (doEnd n)

/-- ABORT (R303). -/
def execPawnAbort (n : Nat) (s : State) : Host.Outcome State Fault Refusal :=
  s.onChip .running (doAbort n)

/-- BR (R304). -/
def execPawnBr (n : Nat) (s : State) : Host.Outcome State Fault Refusal :=
  s.onChip .running (doBr n)

/-- BEQ (R304). -/
def execPawnBeq (n : Nat) (s : State) : Host.Outcome State Fault Refusal :=
  s.onChip .running (doBeq n)

/-- BNE (R304). -/
def execPawnBne (n : Nat) (s : State) : Host.Outcome State Fault Refusal :=
  s.onChip .running (doBne n)

/-- BLT (R304). -/
def execPawnBlt (n : Nat) (s : State) : Host.Outcome State Fault Refusal :=
  s.onChip .running (doBlt n)

/-- BGE (R304). -/
def execPawnBge (n : Nat) (s : State) : Host.Outcome State Fault Refusal :=
  s.onChip .running (doBge n)

/-- BLTU (R304). -/
def execPawnBltu (n : Nat) (s : State) : Host.Outcome State Fault Refusal :=
  s.onChip .running (doBltu n)

/-- BGEU (R304). -/
def execPawnBgeu (n : Nat) (s : State) : Host.Outcome State Fault Refusal :=
  s.onChip .running (doBgeu n)

/-- LOOP (R305). -/
def execPawnLoop (n : Nat) (s : State) : Host.Outcome State Fault Refusal :=
  s.onChip .running (doLoop n)

/-- LD (R312). -/
def execPawnLd (n : Nat) (s : State) : Host.Outcome State Fault Refusal :=
  s.onChip .running (doLd n)

/-- LDW (R312). -/
def execPawnLdw (n : Nat) (s : State) : Host.Outcome State Fault Refusal :=
  s.onChip .running (doLdw n)

/-- ST (R312). -/
def execPawnSt (n : Nat) (s : State) : Host.Outcome State Fault Refusal :=
  s.onChip .running (doSt n)

/-- STW (R312). -/
def execPawnStw (n : Nat) (s : State) : Host.Outcome State Fault Refusal :=
  s.onChip .running (doStw n)

/-- ADD (R303). -/
def execPawnAdd (n : Nat) (s : State) : Host.Outcome State Fault Refusal :=
  s.onChip .running (doAdd n)

/-- SUB (R303). -/
def execPawnSub (n : Nat) (s : State) : Host.Outcome State Fault Refusal :=
  s.onChip .running (doSub n)

/-- ADDS (R303). -/
def execPawnAdds (n : Nat) (s : State) : Host.Outcome State Fault Refusal :=
  s.onChip .running (doAdds n)

/-- SUBS (R303). -/
def execPawnSubs (n : Nat) (s : State) : Host.Outcome State Fault Refusal :=
  s.onChip .running (doSubs n)

/-- ADDUS (R303). -/
def execPawnAddus (n : Nat) (s : State) : Host.Outcome State Fault Refusal :=
  s.onChip .running (doAddus n)

/-- SUBUS (R303). -/
def execPawnSubus (n : Nat) (s : State) : Host.Outcome State Fault Refusal :=
  s.onChip .running (doSubus n)

/-- MUL (R303). -/
def execPawnMul (n : Nat) (s : State) : Host.Outcome State Fault Refusal :=
  s.onChip .running (doMul n)

/-- MULS (R303). -/
def execPawnMuls (n : Nat) (s : State) : Host.Outcome State Fault Refusal :=
  s.onChip .running (doMuls n)

/-- AND (R303). -/
def execPawnAnd (n : Nat) (s : State) : Host.Outcome State Fault Refusal :=
  s.onChip .running (doAnd n)

/-- OR (R303). -/
def execPawnOr (n : Nat) (s : State) : Host.Outcome State Fault Refusal :=
  s.onChip .running (doOr n)

/-- XOR (R303). -/
def execPawnXor (n : Nat) (s : State) : Host.Outcome State Fault Refusal :=
  s.onChip .running (doXor n)

/-- SHL (R303). -/
def execPawnShl (n : Nat) (s : State) : Host.Outcome State Fault Refusal :=
  s.onChip .running (doShl n)

/-- SHR (R303). -/
def execPawnShr (n : Nat) (s : State) : Host.Outcome State Fault Refusal :=
  s.onChip .running (doShr n)

/-- SAR (R303). -/
def execPawnSar (n : Nat) (s : State) : Host.Outcome State Fault Refusal :=
  s.onChip .running (doSar n)

/-- MIN (R303). -/
def execPawnMin (n : Nat) (s : State) : Host.Outcome State Fault Refusal :=
  s.onChip .running (doMin n)

/-- MAX (R303). -/
def execPawnMax (n : Nat) (s : State) : Host.Outcome State Fault Refusal :=
  s.onChip .running (doMax n)

/-- ADDI (R303). -/
def execPawnAddi (n : Nat) (s : State) : Host.Outcome State Fault Refusal :=
  s.onChip .running (doAddi n)

/-- ANDI (R303). -/
def execPawnAndi (n : Nat) (s : State) : Host.Outcome State Fault Refusal :=
  s.onChip .running (doAndi n)

/-- ORI (R303). -/
def execPawnOri (n : Nat) (s : State) : Host.Outcome State Fault Refusal :=
  s.onChip .running (doOri n)

/-- XORI (R303). -/
def execPawnXori (n : Nat) (s : State) : Host.Outcome State Fault Refusal :=
  s.onChip .running (doXori n)

/-- SHLI (R303). -/
def execPawnShli (n : Nat) (s : State) : Host.Outcome State Fault Refusal :=
  s.onChip .running (doShli n)

/-- SHRI (R303). -/
def execPawnShri (n : Nat) (s : State) : Host.Outcome State Fault Refusal :=
  s.onChip .running (doShri n)

/-- SARI (R303). -/
def execPawnSari (n : Nat) (s : State) : Host.Outcome State Fault Refusal :=
  s.onChip .running (doSari n)

/-- MOVI (R303). -/
def execPawnMovi (n : Nat) (s : State) : Host.Outcome State Fault Refusal :=
  s.onChip .running (doMovi n)

/-- MOVK (R303). -/
def execPawnMovk (n : Nat) (s : State) : Host.Outcome State Fault Refusal :=
  s.onChip .running (doMovk n)

/-- BFX (R303). -/
def execPawnBfx (n : Nat) (s : State) : Host.Outcome State Fault Refusal :=
  s.onChip .running (doBfx n)

/-- BFXS (R303). -/
def execPawnBfxs (n : Nat) (s : State) : Host.Outcome State Fault Refusal :=
  s.onChip .running (doBfxs n)

/-- BFI (R303). -/
def execPawnBfi (n : Nat) (s : State) : Host.Outcome State Fault Refusal :=
  s.onChip .running (doBfi n)

/-- BSW (R303). -/
def execPawnBsw (n : Nat) (s : State) : Host.Outcome State Fault Refusal :=
  s.onChip .running (doBsw n)

/-- SRD (R313). -/
def execPawnSrd (n : Nat) (s : State) : Host.Outcome State Fault Refusal :=
  s.onChip .running (doSrd n)

/-- SRS (R313). -/
def execPawnSrs (n : Nat) (s : State) : Host.Outcome State Fault Refusal :=
  s.onChip .running (doSrs n)

/-- SRC (R313). -/
def execPawnSrc (n : Nat) (s : State) : Host.Outcome State Fault Refusal :=
  s.onChip .running (doSrc n)

/-- EXT (R306). -/
def execPawnExt (n : Nat) (s : State) : Host.Outcome State Fault Refusal :=
  s.onChip .running (doExt n)

/-- EXTS (R306). -/
def execPawnExts (n : Nat) (s : State) : Host.Outcome State Fault Refusal :=
  s.onChip .running (doExts n)

/-- INS (R306). -/
def execPawnIns (n : Nat) (s : State) : Host.Outcome State Fault Refusal :=
  s.onChip .running (doIns n)

/-- SCL (R309). -/
def execPawnScl (n : Nat) (s : State) : Host.Outcome State Fault Refusal :=
  s.onChip .running (doScl n)

/-- RCHK (R310). -/
def execPawnRchk (n : Nat) (s : State) : Host.Outcome State Fault Refusal :=
  s.onChip .running (doRchk n)

/-- CLAMP (R310). -/
def execPawnClamp (n : Nat) (s : State) : Host.Outcome State Fault Refusal :=
  s.onChip .running (doClamp n)

/-- FTOX (R311). -/
def execPawnFtox (n : Nat) (s : State) : Host.Outcome State Fault Refusal :=
  s.onChip .running (doFtox n)

/-- XTOF (R311). -/
def execPawnXtof (n : Nat) (s : State) : Host.Outcome State Fault Refusal :=
  s.onChip .running (doXtof n)

/-- CRC (R320). -/
def execPawnCrc (n : Nat) (s : State) : Host.Outcome State Fault Refusal :=
  s.onChip .running (doCrc n)

/-- CRCB (R320). -/
def execPawnCrcb (n : Nat) (s : State) : Host.Outcome State Fault Refusal :=
  s.onChip .running (doCrcb n)

/-- ALV (R321). -/
def execPawnAlv (n : Nat) (s : State) : Host.Outcome State Fault Refusal :=
  s.onChip .running (doAlv n)

/-- ALVD (R321). -/
def execPawnAlvd (n : Nat) (s : State) : Host.Outcome State Fault Refusal :=
  s.onChip .running (doAlvd n)

/-- SWR (R314). -/
def execPawnSwr (n : Nat) (s : State) : Host.Outcome State Fault Refusal :=
  s.onChip .running (doSwr n)

/-- EMIT (R315). -/
def execPawnEmit (n : Nat) (s : State) : Host.Outcome State Fault Refusal :=
  s.onChip .running (doEmit n)

/-- SEND (R316). -/
def execPawnSend (n : Nat) (s : State) : Host.Outcome State Fault Refusal :=
  s.onChip .running (doSend n)

/-- TSTART (R319). -/
def execPawnTstart (n : Nat) (s : State) : Host.Outcome State Fault Refusal :=
  s.onChip .running (doTstart n)

/-- TSTOP (R319). -/
def execPawnTstop (n : Nat) (s : State) : Host.Outcome State Fault Refusal :=
  s.onChip .running (doTstop n)

end Sys2Proof.Machine
end

