-- ==== Sys2Proof/Machine/ExecPlanes.lean ====
section
/-! DEFINITION. The meaning of each command of chapter 13: the planes and the Adjudicator. -/

namespace Sys2Proof.Machine

/-- ADJ_ITEM_COMPARE (R372). -/
def execAdjItemCompare (point loc cls : Nat) (x : ItemCheck) (drive : Bool) (s : State) : Host.Outcome State Fault Refusal :=
  s.onChip .running (doAdjItemCompare point loc cls x drive)

/-- ADJ_DECISION (R376). -/
def execAdjDecision (s : State) : Host.Outcome State Fault Refusal :=
  s.onChip .running doAdjDecision

/-- SWITCHOVER_GAP_END (R383). -/
def execSwitchoverGapEnd (s : State) : Host.Outcome State Fault Refusal :=
  s.onChip .running doSwitchoverGapEnd

/-- DIAG_DONE (R379). -/
def execDiagDone (wBad bBad : Nat) (s : State) : Host.Outcome State Fault Refusal :=
  s.onChip .running (doDiagDone wBad bBad)

/-- TABLE_SWEEP (R382). -/
def execTableSweep (x bad : Nat) (s : State) : Host.Outcome State Fault Refusal :=
  s.onChip .running (doTableSweep x bad)

/-- SWEEP_NOW (R382). -/
def execSweepNow (k x : Nat) (v : Word) (bad : Nat) (s : State) : Host.Outcome State Fault Refusal :=
  s.onChip .running (doSweepNow k x v bad)

/-- PL_CTRL_RESET (R385). -/
def execPlCtrlReset (k x : Nat) (v : Word) (s : State) : Host.Outcome State Fault Refusal :=
  s.onChip .running (doPlCtrlReset k x v)

/-- REINT (R386). -/
def execReint (k : Nat) (v : Word) (s : State) : Host.Outcome State Fault Refusal :=
  s.onChip .running (doReint k v)

/-- REINT_AUTO_START (R386). -/
def execReintAutoStart (s : State) : Host.Outcome State Fault Refusal :=
  s.onChip .running doReintAutoStart

/-- REINT_WIPE_DONE (R388). -/
def execReintWipeDone (u bad : Nat) (s : State) : Host.Outcome State Fault Refusal :=
  s.onChip .running (doReintWipeDone u bad)

/-- REINT_COPY_DONE (R388). -/
def execReintCopyDone (s : State) : Host.Outcome State Fault Refusal :=
  s.onChip .running doReintCopyDone

/-- REINT_COPY_TIMEOUT (R607). -/
def execReintCopyTimeout (s : State) : Host.Outcome State Fault Refusal :=
  s.onChip .running doReintCopyTimeout

/-- REINT_SNAPSHOT_DONE (R388). -/
def execReintSnapshotDone (s : State) : Host.Outcome State Fault Refusal :=
  s.onChip .running doReintSnapshotDone

/-- REINT_JOIN_DONE (R390). -/
def execReintJoinDone (s : State) : Host.Outcome State Fault Refusal :=
  s.onChip .running doReintJoinDone

/-- PROOF_SWAP_DUE (R394). -/
def execProofSwapDue (s : State) : Host.Outcome State Fault Refusal :=
  s.onChip .running doProofSwapDue

/-- SWAP (R394). -/
def execSwap (k : Nat) (v : Word) (s : State) : Host.Outcome State Fault Refusal :=
  s.onChip .running (doSwap k v)

/-- PROOF_SWAP_RESUME (R394). -/
def execProofSwapResume (s : State) : Host.Outcome State Fault Refusal :=
  s.onChip .running doProofSwapResume

end Sys2Proof.Machine
end

