-- ==== Sys2Proof/Machine/ExecPower.lean ====
section
/-! DEFINITION. The meaning of each command of chapter 21: power states and wake. -/

namespace Sys2Proof.Machine

/-- PLAY (R549). -/
def execPwrPlay (w : Nat) (s : State) : Host.Outcome State Fault Refusal :=
  s.onChip .running (doPlay w)

/-- QUIET (R549). -/
def execPwrQuiet (w : Nat) (s : State) : Host.Outcome State Fault Refusal :=
  s.onChip .running (doQuiet w)

/-- ADJOURNED_WARM (R551). -/
def execPwrAdjournedWarm (w : Nat) (s : State) : Host.Outcome State Fault Refusal :=
  s.onChip .running (doAdjournedWarm w)

/-- ADJOURNED_COLD (R551). -/
def execPwrAdjournedCold (w : Nat) (s : State) : Host.Outcome State Fault Refusal :=
  s.onChip .running (doAdjournedCold w)

/-- ADJOURNED_ENTRY_DONE (R551). -/
def execAdjournedEntryDone (upTo : Nat) (s : State) : Host.Outcome State Fault Refusal :=
  s.onChip .always (doAdjournedEntryDone upTo)

/-- WAKE_EVENT (R559). -/
def execWakeEvent (env : StartEnv) (s : State) : Host.Outcome State Fault Refusal :=
  s.onChip .always (doWakeEvent env)

/-- WAKE_CAN_RULE (R554). -/
def execWakeCanRule (q : Nat) (f : CanFrame) (bad : Bool) (s : State) : Host.Outcome State Fault Refusal :=
  s.onChip .always (doWakeCanRule q f bad)

/-- WAKE_T1S_RULE (R554). -/
def execWakeT1sRule (q : Nat) (b : List Byte) (s : State) : Host.Outcome State Fault Refusal :=
  s.onChip .always (doWakeT1sRule q b)

/-- WAKE_T1S_ENERGY (R553). -/
def execWakeT1sEnergy (q : Nat) (s : State) : Host.Outcome State Fault Refusal :=
  s.onChip .always (doWakeT1sEnergy q)

/-- WAKE_ETH_PATTERN (R167). -/
def execWakeEthPattern (q : Nat) (b : List Byte) (s : State) : Host.Outcome State Fault Refusal :=
  s.onChip .always (doWakeEthPattern q b)

/-- WAKE_SIGNAL_DETECT (R168). -/
def execWakeSignalDetect (q : Nat) (s : State) : Host.Outcome State Fault Refusal :=
  s.onChip .always (doWakeSignalDetect q)

/-- WAKE_GPIO_EDGE (R553). -/
def execWakeGpioEdge (n : Nat) (rising : Bool) (s : State) : Host.Outcome State Fault Refusal :=
  s.onChip .always (doWakeGpioEdge n rising)

/-- WAKE_HOST_SIDEBAND (R553). -/
def execWakeHostSideband (k : Nat) (s : State) : Host.Outcome State Fault Refusal :=
  s.onChip .always (doWakeHostSideband k)

/-- WAKE_RC_START (R555). -/
def execWakeRcStart (s : State) : Host.Outcome State Fault Refusal :=
  s.onChip .always doWakeRcStart

/-- WAKE_RC_IDLE_STOP (R555). -/
def execWakeRcIdleStop (s : State) : Host.Outcome State Fault Refusal :=
  s.onChip .always doWakeRcIdleStop

/-- BOOK_HANDOVER (R562). -/
def execBookHandover (s : State) : Host.Outcome State Fault Refusal :=
  s.onChip .running doBookHandover

/-- BOOK_LATE (R562). -/
def execBookLate (s : State) : Host.Outcome State Fault Refusal :=
  s.onChip .running doBookLate

end Sys2Proof.Machine
end

