-- ==== Sys2Proof/Machine/ExecReset.lean ====
section
/-! DEFINITION. The meaning of each command of chapters 22 and 23: resets, clocks, life cycle and the test access port. -/

namespace Sys2Proof.Machine

/-- POWER_ON_RESET (R573). -/
def execPowerOnReset (env : StartEnv) (s : State) : Host.Outcome State Fault Refusal :=
  s.onChip .always (doPowerOnReset env)

/-- RESET_N_ASSERT (R566). -/
def execResetNAssert (s : State) : Host.Outcome State Fault Refusal :=
  s.onChip .always doResetNAssert

/-- RST_CMD (R566). -/
def execRstCmd (w : Nat) (v : Word) (env : StartEnv) (s : State) : Host.Outcome State Fault Refusal :=
  s.onChip .recovery (doRstCmd w v env)

/-- BROWNOUT (R567). -/
def execBrownout (s : State) : Host.Outcome State Fault Refusal :=
  s.onChip .always doBrownout

/-- BROWNOUT_RELEASE (R567). -/
def execBrownoutRelease (env : StartEnv) (s : State) : Host.Outcome State Fault Refusal :=
  s.onChip .always (doBrownoutRelease env)

/-- BLK_RST (R568). -/
def execBlkRst (w : Nat) (v : Word) (s : State) : Host.Outcome State Fault Refusal :=
  s.onChip .recovery (doBlkRst w v)

/-- REFCLK_LOSS (R577). -/
def execRefclkLoss (r : Nat) (s : State) : Host.Outcome State Fault Refusal :=
  s.onChip .always (doRefclkLoss r)

/-- REFCLK_REVERT (R577). -/
def execRefclkRevert (s : State) : Host.Outcome State Fault Refusal :=
  s.onChip .always doRefclkRevert

/-- REF_CTRL_WRITE (R577). -/
def execRefCtrlWrite (w : Nat) (v : Word) (be : Nat) (s : State) : Host.Outcome State Fault Refusal :=
  s.onChip .recovery (doRefCtrlWrite w v be)

/-- LC_PROVISIONED (R581). -/
def execLcProvisioned (w : Nat) (env : StartEnv) (s : State) : Host.Outcome State Fault Refusal :=
  s.onChip .recovery (doLcProvisioned w env)

/-- LC_FIELD (R581). -/
def execLcField (w : Nat) (env : StartEnv) (s : State) : Host.Outcome State Fault Refusal :=
  s.onChip .recovery (doLcField w env)

/-- LC_RETURN (R581). -/
def execLcReturn (w : Nat) (env : StartEnv) (s : State) : Host.Outcome State Fault Refusal :=
  s.onChip .recovery (doLcReturn w env)

/-- LC_DECOMMISSIONED (R581). -/
def execLcDecommissioned (w : Nat) (env : StartEnv) (s : State) : Host.Outcome State Fault Refusal :=
  s.onChip .recovery (doLcDecommissioned w env)

/-- TEST_MODE_HIGH (R589). -/
def execTestModeHigh (high : Bool) (env : StartEnv) (s : State) : Host.Outcome State Fault Refusal :=
  s.onChip .always (doTestModeHigh high env)

/-- JTAG_TRST (R598). -/
def execJtagTrst (s : State) : Host.Outcome State Fault Refusal :=
  s.onChip .always doJtagTrst

/-- JTAG_BYPASS (R598). -/
def execJtagBypass (s : State) : Host.Outcome State Fault Refusal :=
  s.onChip .always doJtagBypass

/-- JTAG_SAMPLE_PRELOAD (R598). -/
def execJtagSamplePreload (bits : List Bool) (s : State) : Host.Outcome State Fault Refusal :=
  s.onChip .always (doJtagSamplePreload bits)

/-- JTAG_EXTEST (R598). -/
def execJtagExtest (s : State) : Host.Outcome State Fault Refusal :=
  s.onChip .always doJtagExtest

/-- JTAG_IDCODE (R598). -/
def execJtagIdcode (s : State) : Host.Outcome State Fault Refusal :=
  s.onChip .always doJtagIdcode

/-- JTAG_CLAMP (R598). -/
def execJtagClamp (s : State) : Host.Outcome State Fault Refusal :=
  s.onChip .always doJtagClamp

/-- JTAG_HIGHZ (R598). -/
def execJtagHighz (s : State) : Host.Outcome State Fault Refusal :=
  s.onChip .always doJtagHighz

/-- RESET_N_RELEASE (R573). -/
def execResetNRelease (env : StartEnv) (s : State) : Host.Outcome State Fault Refusal :=
  s.onChip .always (doResetNRelease env)

/-- VDD_AO_LOSS (R547). -/
def execVddAoLoss (s : State) : Host.Outcome State Fault Refusal :=
  s.onChip .always doVddAoLoss

/-- REFCLK_RETURN (R579). -/
def execRefclkReturn (r : Nat) (s : State) : Host.Outcome State Fault Refusal :=
  s.onChip .always (doRefclkReturn r)

end Sys2Proof.Machine
end

