-- ==== Sys2Proof/Machine/ExecSignals.lean ====
section
/-! DEFINITION. The meaning of each command of chapter 9: signals and PDUs. -/

namespace Sys2Proof.Machine

/-- UNPACK_PDU (R265). -/
def execUnpackPdu (s : State) : Host.Outcome State Fault Refusal :=
  s.onChip .running doUnpackPdu

/-- HOST_SIGNAL_WRITE (R256). -/
def execHostSignalWrite (k idx w : Nat) (v : Word64) (wide : Bool) (s : State) : Host.Outcome State Fault Refusal :=
  s.onChip .running (doHostSignalWrite k idx w v wide)

/-- FLAG_FALL (R255). -/
def execFlagFall (idx : Nat) (s : State) : Host.Outcome State Fault Refusal :=
  s.onChip .running (doFlagFall idx)

/-- SWEEP_DONE (R255). -/
def execSweepDone (s : State) : Host.Outcome State Fault Refusal :=
  s.onChip .running doSweepDone

/-- PDU_PERIOD_EMIT (R266). -/
def execPduPeriodEmit (l : Nat) (s : State) : Host.Outcome State Fault Refusal :=
  s.onChip .running (doPduPeriodEmit l)

/-- EMIT_DEFERRED (R266). -/
def execEmitDeferred (l : Nat) (s : State) : Host.Outcome State Fault Refusal :=
  s.onChip .running (doEmitDeferred l)

end Sys2Proof.Machine
end

