-- ==== Sys2Proof/Machine/ExecTempo.lean ====
section
/-! DEFINITION. The meaning of each command of chapter 3: Tempo. -/

namespace Sys2Proof.Machine

/-- RATE_HI_WRITE (R67). -/
def execRateHiWrite (k : Nat) (hi lo : Word) (be : Nat) (s : State) : Host.Outcome State Fault Refusal :=
  s.onChip .running (doRateHiWrite k hi lo be)

/-- CAPTURE (R68). -/
def execCapture (k : Nat) (v : Word) (s : State) : Host.Outcome State Fault Refusal :=
  s.onChip .running (doCapture k v)

/-- SYNC_RECEIVED (R72). -/
def execSyncReceived (q : Nat) (m : SyncMsg) (off : Int) (s : State) : Host.Outcome State Fault Refusal :=
  s.onChip .running (doSyncReceived q m off)

/-- SYNC_RECEIPT_TIMEOUT (R72). -/
def execSyncReceiptTimeout (s : State) : Host.Outcome State Fault Refusal :=
  s.onChip .running doSyncReceiptTimeout

/-- HOLDOVER_EXPIRY (R72). -/
def execHoldoverExpiry (s : State) : Host.Outcome State Fault Refusal :=
  s.onChip .running doHoldoverExpiry

/-- HOLD_CFG_WRITE (R602). -/
def execHoldCfgWrite (k : Nat) (max : Bool) (v : Word) (be : Nat) (s : State) : Host.Outcome State Fault Refusal :=
  s.onChip .running (doHoldCfgWrite k max v be)

/-- TEMPO_CTRL_WRITE (R603). -/
def execTempoCtrlWrite (k : Nat) (v : Word) (be : Nat) (present : Bool) (s : State) : Host.Outcome State Fault Refusal :=
  s.onChip .running (doTempoCtrlWrite k v be present)

/-- SET_GO (R78). -/
def execSetGo (k : Nat) (v : Word) (s : State) : Host.Outcome State Fault Refusal :=
  s.onChip .running (doSetGo k v)

/-- REF10_LOSS (R74). -/
def execRef10Loss (s : State) : Host.Outcome State Fault Refusal :=
  s.onChip .running doRef10Loss

/-- GPTP_SYNC_RELAY (R70). -/
def execGptpSyncRelay (q : Nat) (corr : Int) (rin rout : Nat) (ratio : Int) (s : State) : Host.Outcome State Fault Refusal :=
  s.onChip .running (doGptpSyncRelay q corr rin rout ratio)

/-- GPTP_SYNC_TRANSMIT (R69). -/
def execGptpSyncTransmit (q : Nat) (s : State) : Host.Outcome State Fault Refusal :=
  s.onChip .running (doGptpSyncTransmit q)

/-- ALM_CTRL_WRITE (R80). -/
def execAlmCtrlWrite (k idx : Nat) (v : Word) (be : Nat) (s : State) : Host.Outcome State Fault Refusal :=
  s.onChip .running (doAlmCtrlWrite k idx v be)

/-- TEMPO_ALARM_EXPIRY (R80). -/
def execTempoAlarmExpiry (idx : Nat) (s : State) : Host.Outcome State Fault Refusal :=
  s.onChip .always (doTempoAlarmExpiry idx)

end Sys2Proof.Machine
end

