-- ==== Sys2Proof/Machine/Dispatch.lean ====
section
/-! DEFINITION. One arm for each command. -/

namespace Sys2Proof.Machine

/-- The effect of a command on everything but the queue. -/
def exec (i : Instr) (s : State) : Host.Outcome State Fault Refusal :=
  match i with
  | .registerWrite k a ws env => Sys2Proof.Machine.execRegisterWrite k a ws env s
  | .wideReadReject p off n r => Sys2Proof.Machine.execWideReadReject p off n r s
  | .pageOwnerWrite k p v be => Sys2Proof.Machine.execPageOwnerWrite k p v be s
  | .pageIrqForceWrite k p v be => Sys2Proof.Machine.execPageIrqForceWrite k p v be s
  | .supvXfer k j v => Sys2Proof.Machine.execSupvXfer k j v s
  | .supvWatchCheck => Sys2Proof.Machine.execSupvWatchCheck s
  | .denyPop k j seen => Sys2Proof.Machine.execDenyPop k j seen s
  | .alarmNHoldExpiry => Sys2Proof.Machine.execAlarmNHoldExpiry s
  | .rateHiWrite k hi lo be => Sys2Proof.Machine.execRateHiWrite k hi lo be s
  | .capture k v => Sys2Proof.Machine.execCapture k v s
  | .syncReceived q m off => Sys2Proof.Machine.execSyncReceived q m off s
  | .syncReceiptTimeout => Sys2Proof.Machine.execSyncReceiptTimeout s
  | .holdoverExpiry => Sys2Proof.Machine.execHoldoverExpiry s
  | .holdCfgWrite k max v be => Sys2Proof.Machine.execHoldCfgWrite k max v be s
  | .tempoCtrlWrite k v be present => Sys2Proof.Machine.execTempoCtrlWrite k v be present s
  | .setGo k v => Sys2Proof.Machine.execSetGo k v s
  | .ref10Loss => Sys2Proof.Machine.execRef10Loss s
  | .gptpSyncRelay q corr rin rout ratio => Sys2Proof.Machine.execGptpSyncRelay q corr rin rout ratio s
  | .gptpSyncTransmit q => Sys2Proof.Machine.execGptpSyncTransmit q s
  | .almCtrlWrite k idx v be => Sys2Proof.Machine.execAlmCtrlWrite k idx v be s
  | .tempoAlarmExpiry idx => Sys2Proof.Machine.execTempoAlarmExpiry idx s
  | .canSyncQueue q => Sys2Proof.Machine.execCanSyncQueue q s
  | .canFollowupQueue q => Sys2Proof.Machine.execCanFollowupQueue q s
  | .tsyncConfigWrite k q v be => Sys2Proof.Machine.execTsyncConfigWrite k q v be s
  | .canFrameReceived q f x => Sys2Proof.Machine.execCanFrameReceived q f x s
  | .canErrorFrame q ty field pos heavy exempt => Sys2Proof.Machine.execCanErrorFrame q ty field pos heavy exempt s
  | .protocolException q pos => Sys2Proof.Machine.execProtocolException q pos s
  | .canCtrlWrite k q v be rx => Sys2Proof.Machine.execCanCtrlWrite k q v be rx s
  | .canIntegrationDone q => Sys2Proof.Machine.execCanIntegrationDone q s
  | .rxMailboxLock k q n seen => Sys2Proof.Machine.execRxMailboxLock k q n seen s
  | .rxMailboxRelease k q n seen => Sys2Proof.Machine.execRxMailboxRelease k q n seen s
  | .txReq k q v => Sys2Proof.Machine.execTxReq k q v s
  | .txCancel k q v => Sys2Proof.Machine.execTxCancel k q v s
  | .canTxAttempt q => Sys2Proof.Machine.execCanTxAttempt q s
  | .canArbitrationLost q => Sys2Proof.Machine.execCanArbitrationLost q s
  | .canFrameTransmitted q delay => Sys2Proof.Machine.execCanFrameTransmitted q delay s
  | .canDeadlineExpiry q src => Sys2Proof.Machine.execCanDeadlineExpiry q src s
  | .canClassBufferPull q cls parity => Sys2Proof.Machine.execCanClassBufferPull q cls parity s
  | .canScheduleEntry q => Sys2Proof.Machine.execCanScheduleEntry q s
  | .boRecover k q v => Sys2Proof.Machine.execBoRecover k q v s
  | .canBusoffRecovered q seqs => Sys2Proof.Machine.execCanBusoffRecovered q seqs s
  | .canStuckDominant q => Sys2Proof.Machine.execCanStuckDominant q s
  | .txdDominantLimit q => Sys2Proof.Machine.execTxdDominantLimit q s
  | .canIdleTimeout q => Sys2Proof.Machine.execCanIdleTimeout q s
  | .rxdWake q => Sys2Proof.Machine.execRxdWake q s
  | .errCapRead k q seen => Sys2Proof.Machine.execErrCapRead k q seen s
  | .canSquareReset q bistStg bistSq => Sys2Proof.Machine.execCanSquareReset q bistStg bistSq s
  | .ethFrameReceived q b fcsOk x early => Sys2Proof.Machine.execEthFrameReceived q b fcsOk x early s
  | .pauseFrameReceived q op vec times => Sys2Proof.Machine.execPauseFrameReceived q op vec times s
  | .pauseExpiry q ch => Sys2Proof.Machine.execPauseExpiry q ch s
  | .pauseDutyWindow q => Sys2Proof.Machine.execPauseDutyWindow q s
  | .pauseTxRepeat q ch => Sys2Proof.Machine.execPauseTxRepeat q ch s
  | .plcaBeaconReceived q => Sys2Proof.Machine.execPlcaBeaconReceived q s
  | .plcaLoss q => Sys2Proof.Machine.execPlcaLoss q s
  | .sdsModeWrite k q v be => Sys2Proof.Machine.execSdsModeWrite k q v be s
  | .linkUp q st => Sys2Proof.Machine.execLinkUp q st s
  | .linkDown q st => Sys2Proof.Machine.execLinkDown q st s
  | .linkHoldExpiry q => Sys2Proof.Machine.execLinkHoldExpiry q s
  | .mdioCmd k q v => Sys2Proof.Machine.execMdioCmd k q v s
  | .mdioDone q rdata => Sys2Proof.Machine.execMdioDone q rdata s
  | .ethTransmitSelect q parity => Sys2Proof.Machine.execEthTransmitSelect q parity s
  | .ethFrameTxDone q t => Sys2Proof.Machine.execEthFrameTxDone q t s
  | .lpiEnter q => Sys2Proof.Machine.execLpiEnter q s
  | .lpiGateWake q => Sys2Proof.Machine.execLpiGateWake q s
  | .mmVerifyTimer q resp => Sys2Proof.Machine.execMmVerifyTimer q resp s
  | .gateListEntry q => Sys2Proof.Machine.execGateListEntry q s
  | .frerRecoveryReset fn => Sys2Proof.Machine.execFrerRecoveryReset fn s
  | .frerLatentTest fn => Sys2Proof.Machine.execFrerLatentTest fn s
  | .ethSquareReset q bistStg bistSq => Sys2Proof.Machine.execEthSquareReset q bistStg bistSq s
  | .lastDropRead k q seen => Sys2Proof.Machine.execLastDropRead k q seen s
  | .stgFlush k q v => Sys2Proof.Machine.execStgFlush k q v s
  | .stgHwmRead k q seen => Sys2Proof.Machine.execStgHwmRead k q seen s
  | .stgLastErrRead k q seen => Sys2Proof.Machine.execStgLastErrRead k q seen s
  | .classifyFrame src bad x => Sys2Proof.Machine.execClassifyFrame src bad x s
  | .tableEntryWrite k off v be ecc => Sys2Proof.Machine.execTableEntryWrite k off v be ecc s
  | .streamGateEntry g => Sys2Proof.Machine.execStreamGateEntry g s
  | .guardWindowEnd => Sys2Proof.Machine.execGuardWindowEnd s
  | .quarantineClear k hi v be => Sys2Proof.Machine.execQuarantineClear k hi v be s
  | .quarantineHoldExpiry idx => Sys2Proof.Machine.execQuarantineHoldExpiry idx s
  | .unpackPdu => Sys2Proof.Machine.execUnpackPdu s
  | .hostSignalWrite k idx w v wide => Sys2Proof.Machine.execHostSignalWrite k idx w v wide s
  | .flagFall idx => Sys2Proof.Machine.execFlagFall idx s
  | .sweepDone => Sys2Proof.Machine.execSweepDone s
  | .pduPeriodEmit l => Sys2Proof.Machine.execPduPeriodEmit l s
  | .emitDeferred l => Sys2Proof.Machine.execEmitDeferred l s
  | .pawnDispatch => Sys2Proof.Machine.execPawnDispatch s
  | .pawnKick k n v => Sys2Proof.Machine.execPawnKick k n v s
  | .pawnTimerExpiry j => Sys2Proof.Machine.execPawnTimerExpiry j s
  | .budgetExhausted n => Sys2Proof.Machine.execBudgetExhausted n s
  | .illegalInstruction n => Sys2Proof.Machine.execIllegalInstruction n s
  | .pawnNop n => Sys2Proof.Machine.execPawnNop n s
  | .pawnEnd n => Sys2Proof.Machine.execPawnEnd n s
  | .pawnAbort n => Sys2Proof.Machine.execPawnAbort n s
  | .pawnBr n => Sys2Proof.Machine.execPawnBr n s
  | .pawnBeq n => Sys2Proof.Machine.execPawnBeq n s
  | .pawnBne n => Sys2Proof.Machine.execPawnBne n s
  | .pawnBlt n => Sys2Proof.Machine.execPawnBlt n s
  | .pawnBge n => Sys2Proof.Machine.execPawnBge n s
  | .pawnBltu n => Sys2Proof.Machine.execPawnBltu n s
  | .pawnBgeu n => Sys2Proof.Machine.execPawnBgeu n s
  | .pawnLoop n => Sys2Proof.Machine.execPawnLoop n s
  | .pawnLd n => Sys2Proof.Machine.execPawnLd n s
  | .pawnLdw n => Sys2Proof.Machine.execPawnLdw n s
  | .pawnSt n => Sys2Proof.Machine.execPawnSt n s
  | .pawnStw n => Sys2Proof.Machine.execPawnStw n s
  | .pawnAdd n => Sys2Proof.Machine.execPawnAdd n s
  | .pawnSub n => Sys2Proof.Machine.execPawnSub n s
  | .pawnAdds n => Sys2Proof.Machine.execPawnAdds n s
  | .pawnSubs n => Sys2Proof.Machine.execPawnSubs n s
  | .pawnAddus n => Sys2Proof.Machine.execPawnAddus n s
  | .pawnSubus n => Sys2Proof.Machine.execPawnSubus n s
  | .pawnMul n => Sys2Proof.Machine.execPawnMul n s
  | .pawnMuls n => Sys2Proof.Machine.execPawnMuls n s
  | .pawnAnd n => Sys2Proof.Machine.execPawnAnd n s
  | .pawnOr n => Sys2Proof.Machine.execPawnOr n s
  | .pawnXor n => Sys2Proof.Machine.execPawnXor n s
  | .pawnShl n => Sys2Proof.Machine.execPawnShl n s
  | .pawnShr n => Sys2Proof.Machine.execPawnShr n s
  | .pawnSar n => Sys2Proof.Machine.execPawnSar n s
  | .pawnMin n => Sys2Proof.Machine.execPawnMin n s
  | .pawnMax n => Sys2Proof.Machine.execPawnMax n s
  | .pawnAddi n => Sys2Proof.Machine.execPawnAddi n s
  | .pawnAndi n => Sys2Proof.Machine.execPawnAndi n s
  | .pawnOri n => Sys2Proof.Machine.execPawnOri n s
  | .pawnXori n => Sys2Proof.Machine.execPawnXori n s
  | .pawnShli n => Sys2Proof.Machine.execPawnShli n s
  | .pawnShri n => Sys2Proof.Machine.execPawnShri n s
  | .pawnSari n => Sys2Proof.Machine.execPawnSari n s
  | .pawnMovi n => Sys2Proof.Machine.execPawnMovi n s
  | .pawnMovk n => Sys2Proof.Machine.execPawnMovk n s
  | .pawnBfx n => Sys2Proof.Machine.execPawnBfx n s
  | .pawnBfxs n => Sys2Proof.Machine.execPawnBfxs n s
  | .pawnBfi n => Sys2Proof.Machine.execPawnBfi n s
  | .pawnBsw n => Sys2Proof.Machine.execPawnBsw n s
  | .pawnSrd n => Sys2Proof.Machine.execPawnSrd n s
  | .pawnSrs n => Sys2Proof.Machine.execPawnSrs n s
  | .pawnSrc n => Sys2Proof.Machine.execPawnSrc n s
  | .pawnExt n => Sys2Proof.Machine.execPawnExt n s
  | .pawnExts n => Sys2Proof.Machine.execPawnExts n s
  | .pawnIns n => Sys2Proof.Machine.execPawnIns n s
  | .pawnScl n => Sys2Proof.Machine.execPawnScl n s
  | .pawnRchk n => Sys2Proof.Machine.execPawnRchk n s
  | .pawnClamp n => Sys2Proof.Machine.execPawnClamp n s
  | .pawnFtox n => Sys2Proof.Machine.execPawnFtox n s
  | .pawnXtof n => Sys2Proof.Machine.execPawnXtof n s
  | .pawnCrc n => Sys2Proof.Machine.execPawnCrc n s
  | .pawnCrcb n => Sys2Proof.Machine.execPawnCrcb n s
  | .pawnAlv n => Sys2Proof.Machine.execPawnAlv n s
  | .pawnAlvd n => Sys2Proof.Machine.execPawnAlvd n s
  | .pawnSwr n => Sys2Proof.Machine.execPawnSwr n s
  | .pawnEmit n => Sys2Proof.Machine.execPawnEmit n s
  | .pawnSend n => Sys2Proof.Machine.execPawnSend n s
  | .pawnTstart n => Sys2Proof.Machine.execPawnTstart n s
  | .pawnTstop n => Sys2Proof.Machine.execPawnTstop n s
  | .copyLaunchGrant idx => Sys2Proof.Machine.execCopyLaunchGrant idx s
  | .cellArriveResequencer j x => Sys2Proof.Machine.execCellArriveResequencer j x s
  | .reseqTimeout idx o cls => Sys2Proof.Machine.execReseqTimeout idx o cls s
  | .agerScan => Sys2Proof.Machine.execAgerScan s
  | .holdReclaim => Sys2Proof.Machine.execHoldReclaim s
  | .bufSplitWrite k v be => Sys2Proof.Machine.execBufSplitWrite k v be s
  | .adjItemCompare point loc cls x drive => Sys2Proof.Machine.execAdjItemCompare point loc cls x drive s
  | .adjDecision => Sys2Proof.Machine.execAdjDecision s
  | .switchoverGapEnd => Sys2Proof.Machine.execSwitchoverGapEnd s
  | .diagDone wBad bBad => Sys2Proof.Machine.execDiagDone wBad bBad s
  | .tableSweep x bad => Sys2Proof.Machine.execTableSweep x bad s
  | .sweepNow k x v bad => Sys2Proof.Machine.execSweepNow k x v bad s
  | .plCtrlReset k x v => Sys2Proof.Machine.execPlCtrlReset k x v s
  | .reint k v => Sys2Proof.Machine.execReint k v s
  | .reintAutoStart => Sys2Proof.Machine.execReintAutoStart s
  | .reintWipeDone u bad => Sys2Proof.Machine.execReintWipeDone u bad s
  | .reintCopyDone => Sys2Proof.Machine.execReintCopyDone s
  | .reintCopyTimeout => Sys2Proof.Machine.execReintCopyTimeout s
  | .reintSnapshotDone => Sys2Proof.Machine.execReintSnapshotDone s
  | .reintJoinDone => Sys2Proof.Machine.execReintJoinDone s
  | .proofSwapDue => Sys2Proof.Machine.execProofSwapDue s
  | .swap k v => Sys2Proof.Machine.execSwap k v s
  | .proofSwapResume => Sys2Proof.Machine.execProofSwapResume s
  | .txnBegin w k => Sys2Proof.Machine.execTxnBegin w k s
  | .txnCommitImmediate w k => Sys2Proof.Machine.execTxnCommitImmediate w k s
  | .txnCommitNextBoundary w k => Sys2Proof.Machine.execTxnCommitNextBoundary w k s
  | .txnCommitAtTime w k => Sys2Proof.Machine.execTxnCommitAtTime w k s
  | .txnRollback w k => Sys2Proof.Machine.execTxnRollback w k s
  | .txnBadCmd w k v => Sys2Proof.Machine.execTxnBadCmd w k v s
  | .txnJournalWrite k bar2 addr v be ecc => Sys2Proof.Machine.execTxnJournalWrite k bar2 addr v be ecc s
  | .epochSwitch => Sys2Proof.Machine.execEpochSwitch s
  | .oldEpochRetire => Sys2Proof.Machine.execOldEpochRetire s
  | .txnAutoAbort k => Sys2Proof.Machine.execTxnAutoAbort k s
  | .castleLoad w k => Sys2Proof.Machine.execCastleLoad w k s
  | .castleWrap w k => Sys2Proof.Machine.execCastleWrap w k s
  | .castleImport w k => Sys2Proof.Machine.execCastleImport w k s
  | .castleGenerate w k => Sys2Proof.Machine.execCastleGenerate w k s
  | .castleUnload w k => Sys2Proof.Machine.execCastleUnload w k s
  | .castleErase w k => Sys2Proof.Machine.execCastleErase w k s
  | .castlePubkey w k => Sys2Proof.Machine.execCastlePubkey w k s
  | .castleStore w k => Sys2Proof.Machine.execCastleStore w k s
  | .castleUnstore w k => Sys2Proof.Machine.execCastleUnstore w k s
  | .castleClearResign w k => Sys2Proof.Machine.execCastleClearResign w k s
  | .castleRootRetry w k good => Sys2Proof.Machine.execCastleRootRetry w k good s
  | .castleCommandDone k => Sys2Proof.Machine.execCastleCommandDone k s
  | .slotRemask n => Sys2Proof.Machine.execSlotRemask n s
  | .rngFail => Sys2Proof.Machine.execRngFail s
  | .tamperSensorFire n r => Sys2Proof.Machine.execTamperSensorFire n r s
  | .sleepLatchWrite k v be => Sys2Proof.Machine.execSleepLatchWrite k v be s
  | .autoloadDeferred => Sys2Proof.Machine.execAutoloadDeferred s
  | .cxDescriptorFetch k desc segs err => Sys2Proof.Machine.execCxDescriptorFetch k desc segs err s
  | .jrTailWrite w k v be => Sys2Proof.Machine.execJrTailWrite w k v be s
  | .gcmEncrypt => Sys2Proof.Machine.execGcmEncrypt s
  | .gcmDecrypt => Sys2Proof.Machine.execGcmDecrypt s
  | .gmacGenerate => Sys2Proof.Machine.execGmacGenerate s
  | .gmacVerify => Sys2Proof.Machine.execGmacVerify s
  | .ccmEncrypt => Sys2Proof.Machine.execCcmEncrypt s
  | .ccmDecrypt => Sys2Proof.Machine.execCcmDecrypt s
  | .cmacGenerate => Sys2Proof.Machine.execCmacGenerate s
  | .cmacVerify => Sys2Proof.Machine.execCmacVerify s
  | .shake256 => Sys2Proof.Machine.execShake256 s
  | .ed448Sign => Sys2Proof.Machine.execEd448Sign s
  | .ed448Verify => Sys2Proof.Machine.execEd448Verify s
  | .attest => Sys2Proof.Machine.execAttest s
  | .sealJob => Sys2Proof.Machine.execSealJob s
  | .verifyJob => Sys2Proof.Machine.execVerifyJob s
  | .cxJobDone id dma => Sys2Proof.Machine.execCxJobDone id dma s
  | .scrubRead m addr res last => Sys2Proof.Machine.execScrubRead m addr res last s
  | .bucketLeak m => Sys2Proof.Machine.execBucketLeak m s
  | .retireGo k v => Sys2Proof.Machine.execRetireGo k v s
  | .allocRetireComplete => Sys2Proof.Machine.execAllocRetireComplete s
  | .bistRun k v bad => Sys2Proof.Machine.execBistRun k v bad s
  | .retInit k v => Sys2Proof.Machine.execRetInit k v s
  | .arbCoreMismatch => Sys2Proof.Machine.execArbCoreMismatch s
  | .arbWatchdogExpiry => Sys2Proof.Machine.execArbWatchdogExpiry s
  | .restart k v => Sys2Proof.Machine.execRestart k v s
  | .arbRestartDone okA okB => Sys2Proof.Machine.execArbRestartDone okA okB s
  | .arbPing w k => Sys2Proof.Machine.execArbPing w k s
  | .arbFlush w k => Sys2Proof.Machine.execArbFlush w k s
  | .arbArchRead w k => Sys2Proof.Machine.execArbArchRead w k s
  | .arbEyeScan w k => Sys2Proof.Machine.execArbEyeScan w k s
  | .arbMka w k => Sys2Proof.Machine.execArbMka w k s
  | .arbCommandDone k eye => Sys2Proof.Machine.execArbCommandDone k eye s
  | .sensSample ch val => Sys2Proof.Machine.execSensSample ch val s
  | .eyeScanPeriodic eyes => Sys2Proof.Machine.execEyeScanPeriodic eyes s
  | .scoreEntryWrite => Sys2Proof.Machine.execScoreEntryWrite s
  | .scoreFlush => Sys2Proof.Machine.execScoreFlush s
  | .ent7Read k seen => Sys2Proof.Machine.execEnt7Read k seen s
  | .functionLevelReset k => Sys2Proof.Machine.execFunctionLevelReset k s
  | .perstAssert k => Sys2Proof.Machine.execPerstAssert k s
  | .hdmaTxTailWrite w k t v be => Sys2Proof.Machine.execHdmaTxTailWrite w k t v be s
  | .hdmaTxFetch k desc rec err => Sys2Proof.Machine.execHdmaTxFetch k desc rec err s
  | .hdmaRxDeliver p desc => Sys2Proof.Machine.execHdmaRxDeliver p desc s
  | .rxIrqTimer k r => Sys2Proof.Machine.execRxIrqTimer k r s
  | .bar4Read k off len => Sys2Proof.Machine.execBar4Read k off len s
  | .bar4Write k off d => Sys2Proof.Machine.execBar4Write k off d s
  | .bar4AtomicOp k off op size a b => Sys2Proof.Machine.execBar4AtomicOp k off op size a b s
  | .bnlResponseReceived => Sys2Proof.Machine.execBnlResponseReceived s
  | .bridgeTagTimeout w t => Sys2Proof.Machine.execBridgeTagTimeout w t s
  | .bridgeBusyRetry w t => Sys2Proof.Machine.execBridgeBusyRetry w t s
  | .semAcquireRead k w seen => Sys2Proof.Machine.execSemAcquireRead k w seen s
  | .semRelease k w => Sys2Proof.Machine.execSemRelease k w s
  | .semLeaseRenew w => Sys2Proof.Machine.execSemLeaseRenew w s
  | .semHoldTimeout w => Sys2Proof.Machine.execSemHoldTimeout w s
  | .werrPop k seen => Sys2Proof.Machine.execWerrPop k seen s
  | .bnlMessageReceived => Sys2Proof.Machine.execBnlMessageReceived s
  | .bnlArbCmd eye => Sys2Proof.Machine.execBnlArbCmd eye s
  | .bnlCxJob => Sys2Proof.Machine.execBnlCxJob s
  | .bnlGambit => Sys2Proof.Machine.execBnlGambit s
  | .bnlScoreRead => Sys2Proof.Machine.execBnlScoreRead s
  | .bnlRead seen ue => Sys2Proof.Machine.execBnlRead seen ue s
  | .bnlWrite ecc env => Sys2Proof.Machine.execBnlWrite ecc env s
  | .bnlLock => Sys2Proof.Machine.execBnlLock s
  | .bnlUnlock => Sys2Proof.Machine.execBnlUnlock s
  | .leaseExpiry => Sys2Proof.Machine.execLeaseExpiry s
  | .bnlKeyWrite w x v be => Sys2Proof.Machine.execBnlKeyWrite w x v be s
  | .txSelWrite w v be => Sys2Proof.Machine.execTxSelWrite w v be s
  | .peerCfgWrite w n v be => Sys2Proof.Machine.execPeerCfgWrite w n v be s
  | .gambitStage w k => Sys2Proof.Machine.execGambitStage w k s
  | .gambitChunk w k => Sys2Proof.Machine.execGambitChunk w k s
  | .gambitActivate w k => Sys2Proof.Machine.execGambitActivate w k s
  | .gambitConfirm w k => Sys2Proof.Machine.execGambitConfirm w k s
  | .gambitAbandon w k => Sys2Proof.Machine.execGambitAbandon w k s
  | .gambitApplyRetry => Sys2Proof.Machine.execGambitApplyRetry s
  | .trialWindowExpiry => Sys2Proof.Machine.execTrialWindowExpiry s
  | .flashDeviceFail whole => Sys2Proof.Machine.execFlashDeviceFail whole s
  | .pwrPlay w => Sys2Proof.Machine.execPwrPlay w s
  | .pwrQuiet w => Sys2Proof.Machine.execPwrQuiet w s
  | .pwrAdjournedWarm w => Sys2Proof.Machine.execPwrAdjournedWarm w s
  | .pwrAdjournedCold w => Sys2Proof.Machine.execPwrAdjournedCold w s
  | .adjournedEntryDone upTo => Sys2Proof.Machine.execAdjournedEntryDone upTo s
  | .wakeEvent env => Sys2Proof.Machine.execWakeEvent env s
  | .wakeCanRule q f bad => Sys2Proof.Machine.execWakeCanRule q f bad s
  | .wakeT1sRule q b => Sys2Proof.Machine.execWakeT1sRule q b s
  | .wakeT1sEnergy q => Sys2Proof.Machine.execWakeT1sEnergy q s
  | .wakeEthPattern q b => Sys2Proof.Machine.execWakeEthPattern q b s
  | .wakeSignalDetect q => Sys2Proof.Machine.execWakeSignalDetect q s
  | .wakeGpioEdge n rising => Sys2Proof.Machine.execWakeGpioEdge n rising s
  | .wakeHostSideband k => Sys2Proof.Machine.execWakeHostSideband k s
  | .wakeRcStart => Sys2Proof.Machine.execWakeRcStart s
  | .wakeRcIdleStop => Sys2Proof.Machine.execWakeRcIdleStop s
  | .bookHandover => Sys2Proof.Machine.execBookHandover s
  | .bookLate => Sys2Proof.Machine.execBookLate s
  | .powerOnReset env => Sys2Proof.Machine.execPowerOnReset env s
  | .resetNAssert => Sys2Proof.Machine.execResetNAssert s
  | .rstCmd w v env => Sys2Proof.Machine.execRstCmd w v env s
  | .brownout => Sys2Proof.Machine.execBrownout s
  | .brownoutRelease env => Sys2Proof.Machine.execBrownoutRelease env s
  | .blkRst w v => Sys2Proof.Machine.execBlkRst w v s
  | .refclkLoss r => Sys2Proof.Machine.execRefclkLoss r s
  | .refclkRevert => Sys2Proof.Machine.execRefclkRevert s
  | .refCtrlWrite w v be => Sys2Proof.Machine.execRefCtrlWrite w v be s
  | .lcProvisioned w env => Sys2Proof.Machine.execLcProvisioned w env s
  | .lcField w env => Sys2Proof.Machine.execLcField w env s
  | .lcReturn w env => Sys2Proof.Machine.execLcReturn w env s
  | .lcDecommissioned w env => Sys2Proof.Machine.execLcDecommissioned w env s
  | .testModeHigh high env => Sys2Proof.Machine.execTestModeHigh high env s
  | .jtagTrst => Sys2Proof.Machine.execJtagTrst s
  | .jtagBypass => Sys2Proof.Machine.execJtagBypass s
  | .jtagSamplePreload bits => Sys2Proof.Machine.execJtagSamplePreload bits s
  | .jtagExtest => Sys2Proof.Machine.execJtagExtest s
  | .jtagIdcode => Sys2Proof.Machine.execJtagIdcode s
  | .jtagClamp => Sys2Proof.Machine.execJtagClamp s
  | .jtagHighz => Sys2Proof.Machine.execJtagHighz s
  | .pcieLinkUp k width speed => Sys2Proof.Machine.execPcieLinkUp k width speed s
  | .dlDown k => Sys2Proof.Machine.execDlDown k s
  | .stuckClear q => Sys2Proof.Machine.execStuckClear q s
  | .resetNRelease env => Sys2Proof.Machine.execResetNRelease env s
  | .perstNRelease k => Sys2Proof.Machine.execPerstNRelease k s
  | .vddAoLoss => Sys2Proof.Machine.execVddAoLoss s
  | .refclkReturn r => Sys2Proof.Machine.execRefclkReturn r s
  | .actDone good env => Sys2Proof.Machine.execActDone good env s

end Sys2Proof.Machine
end

