-- ==== Sys2Proof/Machine/Step.lean ====
section
/-! DEFINITION. The step: the command at the front of the queue, or, with none waiting, one tick of the clock. -/

/-
MARKS of the model choices coded here; the log rows say each in full.
DESIGN CHOICE (log 2, unsafe): the queue has one sender, and an empty queue is one tick of the clock.
DESIGN CHOICE (log 88, safe): no word spells a command.
-/

namespace Sys2Proof.Machine

/-- One step. On an empty queue time passes: one core cycle, or one always-on tick while the core stands (DESIGN CHOICE). -/
def step (s : State) : Host.Outcome State Fault Refusal :=
  match s.pending with
  | [] => .next { s with chip := doTick s.chip }
  | i :: rest => exec i { s with pending := rest }

/-- The command that a word spells put at the front of the queue; no word spells one. -/
def State.withFetchWord (s : State) (nbits w : Nat) : State :=
  match decodeTableWord nbits w with
  | none => s
  | some i => { s with pending := i :: s.pending }

end Sys2Proof.Machine
end

