-- ==== Sys2Proof/Safety.lean ====
section
/-! DEFINITION. What statements call a sound state of the part: its maps are canonical and its supervisor exists. -/

/-
MARKS of the model choices coded here; the log rows say each in full.
DESIGN CHOICE (log 3, safe): a command that cannot act leaves the part unchanged.
DESIGN CHOICE (log 21, unsafe): in RECOVERY the partition's own Arbiter bank is readable and writes of it are taken for OPs 0x40 to 0x42.
-/

namespace Sys2Proof.Machine

/-- The registers are held in the one canonical form: addresses rise and no register at its reset value is listed. -/
def regsWf (m : Sparse Word) : Bool := sparseWf resetOf m

/-- The table words are held in the one canonical form: no word at zero is listed. -/
def tblWf (m : Sparse Word64) : Bool := sparseWf (fun _ => 0) m

/-- A sound state of the part. -/
def Chip.sound (c : Chip) : Prop := regsWf c.regs = true ∧ tblWf c.tbl = true ∧ c.supervisor < 4 ∧ c.otp.supervisor < 4

/-- Every register outside a list keeps its value. -/
def Chip.keeps (c d : Chip) (l : List Nat) : Prop := ∀ a, a ∉ l → d.reg a = c.reg a

/-- Every table word outside those of a list of BAR2 offsets keeps its value. -/
def Chip.keepsTable (c d : Chip) (l : List Nat) : Prop := ∀ off, off / 8 ∉ l.map (· / 8) → d.tword off = c.tword off

/-- The pages whose registers, but for those with a command of their own, take a write as their map gives it and nothing
else: WAKE, SCORE, GAMBIT, XSPI and SEC. -/
def plainPage (p : Nat) : Bool :=
  match pageKind p with
  | some .wake | some .score | some .xspi | some .sec | some .gambit => true
  | _ => false

/-- A partition holds no open transaction and no transaction has journalled the page: a write of a shadowable register
acts at once. -/
def Chip.unjournalled (c : Chip) (k p : Nat) : Bool := (c.txn k).state != 1 && (c.journalOwner p).isNone

/-- A write of the block register at an offset by a partition acts at once: its page is implemented, the partition may
write it (R47), the block is not in reset (R46) and no transaction holds the write (R405). -/
def Chip.accepts (c : Chip) (k a : Nat) : Bool :=
  c.implemented (a / 0x1000) && (rowOf a).isSome && c.mayWrite k a && !c.held (a / 0x1000) &&
    (!(pageKind (a / 0x1000)).any isShadow || c.unjournalled k (a / 0x1000))

/-- A word of the instruction memory (unit 8) or the data memory (unit 9) of the Pawns can be read in every plane that computes (R300). -/
def Chip.pawnReadable (c : Chip) (u addr : Nat) : Bool :=
  (c.readFails (sget false c.mem.bad (memKey (0x40 + u) addr)) (sget false c.mem.bad (memKey (0x50 + u) addr))).isEmpty

/-- Engine n runs v, with budget and program left, and the instruction that it issues next is a legal one of this opcode
and SUB, all of whose words can be read (R297, R300, R302). -/
def Chip.issues (c : Chip) (n : Nat) (v : Invocation) (op sub : Nat) : Bool :=
  c.invOf n = some v && decide (v.issued < v.budget) && decide (v.pc < v.len) && c.legal v.epoch (c.nextInsn v) &&
    fOp (c.nextInsn v) = op && fSub (c.nextInsn v) = sub &&
    c.pawnReadable 8 ((v.start + v.pc) / 2) && (dmemRead v (c.nextInsn v)).all (c.pawnReadable 9)

/-- An invocation after an instruction of so many Pawn cycles that goes on with the next one (R296, R297, R305). -/
def Invocation.past (v : Invocation) (cyc : Nat) : Invocation :=
  { v with loops := (loopNext v.loops (v.pc + 1)).1, pc := (loopNext v.loops (v.pc + 1)).2, issued := v.issued + 1, cycles := v.cycles + cyc }

/-- An invocation after an instruction that goes on at another one (R304, R305). -/
def Invocation.goto (v : Invocation) (t : Nat) : Invocation :=
  { v with loops := (loopNext (loopLeave v.loops t) t).1, pc := (loopNext (loopLeave v.loops t) t).2, issued := v.issued + 1, cycles := v.cycles + 1 }

/-- A cipher core takes j next: no copy waits at output 68 to become a job, a core of that kind is free, j is the next job
with that operation, and its key may be used (R446, R448, R449). -/
def Chip.cxTakes (c : Chip) (op : Nat) (j : CxJob) : Bool :=
  c.fab.copies.all (fun k => !(k.appended && k.output == 68)) &&
    decide ((c.cx.jobs.filter fun i => i.running && cxCore i.op == cxCore op).length < cxCores (cxCore op)) &&
    decide (c.cxNext (cxCore op) = some j) && decide (j.op = op) && decide (c.cxKeyFail j = 0)

/-- The key that job j captures at its dispatch. -/
def Chip.cxKey (c : Chip) (j : CxJob) : List Byte := if j.usesKey then c.slotKey j.slot else []

/-- The jobs once j has been taken with an outcome. -/
def Chip.cxTaken (c : Chip) (j : CxJob) (r : CxJob) : List CxJob := c.cx.jobs.map fun i => if i.id = j.id then { r with running := true } else i

/-- The agent serves r next, a request of this TYPE (R513, R514). -/
def Chip.serves (c : Chip) (r : BnlReq) (typ : Nat) : Bool := c.host.agent.head? = some r && r.typ = typ && c.arbRunning

/-- The part once the agent has taken its oldest request. -/
def Chip.served (c : Chip) : Chip := c.setHost { c.host with agent := c.host.agent.tail }

/-- The commands that come from outside the core or act in the always-on domain: they act in every power state. -/
def alwaysActs : Instr → Bool
  | .alarmNHoldExpiry => true
  | .tempoAlarmExpiry .. => true
  | .rxdWake .. => true
  | .tamperSensorFire .. => true
  | .adjournedEntryDone .. => true
  | .wakeEvent .. => true
  | .wakeCanRule .. => true
  | .wakeT1sRule .. => true
  | .wakeT1sEnergy .. => true
  | .wakeEthPattern .. => true
  | .wakeSignalDetect .. => true
  | .wakeGpioEdge .. => true
  | .wakeHostSideband .. => true
  | .wakeRcStart => true
  | .wakeRcIdleStop => true
  | .powerOnReset .. => true
  | .resetNAssert => true
  | .brownout => true
  | .brownoutRelease .. => true
  | .refclkLoss .. => true
  | .refclkRevert => true
  | .testModeHigh .. => true
  | .jtagTrst => true
  | .jtagBypass => true
  | .jtagSamplePreload .. => true
  | .jtagExtest => true
  | .jtagIdcode => true
  | .jtagClamp => true
  | .jtagHighz => true
  | .resetNRelease .. => true
  | .vddAoLoss => true
  | .refclkReturn .. => true
  | _ => false

/-- The commands that act in RECOVERY too (R576). -/
def recoveryActs : Instr → Bool
  | .registerWrite .. => true
  | .wideReadReject .. => true
  | .pageOwnerWrite .. => true
  | .pageIrqForceWrite .. => true
  | .supvXfer .. => true
  | .supvWatchCheck => true
  | .denyPop .. => true
  | .tableEntryWrite .. => true
  | .arbCommandDone .. => true
  | .functionLevelReset .. => true
  | .perstAssert .. => true
  | .gambitStage .. => true
  | .gambitChunk .. => true
  | .gambitActivate .. => true
  | .gambitConfirm .. => true
  | .gambitAbandon .. => true
  | .flashDeviceFail .. => true
  | .rstCmd .. => true
  | .blkRst .. => true
  | .refCtrlWrite .. => true
  | .lcProvisioned .. => true
  | .lcField .. => true
  | .lcReturn .. => true
  | .lcDecommissioned .. => true
  | .pcieLinkUp .. => true
  | .dlDown .. => true
  | .perstNRelease .. => true
  | .actDone .. => true
  | _ => false

end Sys2Proof.Machine
end

