-- ==== Sys2Proof/Certificates/Slice0/Obligations.lean ====
section
/-! DEFINITION. The statements: what commands do, what they leave alone, and what holds of the whole part. -/

open Sys2Proof Sys2Proof.Machine

/-- Chapter 2: each page command, under the conditions of its rule, answers a next state with its effect. REGISTER_WRITE of one register of a WAKE, SCORE, GAMBIT, XSPI or SEC page by its owner sets the enabled writable bits and nothing else; WIDE_READ_REJECT answers its endpoint with Completer Abort and sets PAGE_ERR.WIDE; PAGE_OWNER_WRITE by the owner sets VEC, and by the supervisor moves the page, clears the mask, VEC and the echo registers and raises OWNER_CHANGE on both PART pages; PAGE_IRQ_FORCE_WRITE sets the written implemented bits of PAGE_IRQ_STAT; SUPV_XFER moves the role and raises SUPV_CHANGE on both PART pages; SUPV_WATCH_CHECK sets ALARM_STAT[8] and gives the role to the lowest partition that R54 names; DENY_POP removes the oldest entry and fills DENY_TIME and the echo registers; ALARM_N_HOLD_EXPIRY releases ALARM_N. -/
def Obligations.PageCommandsComplete : Prop :=
  (∀ (s : State) (k a : Nat) (v : Word) (be : Nat) (env : WriteEnv) (r : RegRow), 
    s.chip.passes .recovery = true →
    k < 4 ∧ a % 4 = 0 ∧ a < 0x1000000 ∧ 0x30 ≤ a % 0x1000 →
    plainPage (a / 0x1000) = true ∧ s.chip.implemented (a / 0x1000) = true →
    rowOf a = some r ∧ r.sup = false ∧ s.chip.owner (a / 0x1000) = k →
    s.chip.held (a / 0x1000) = false ∧ s.chip.unjournalled k (a / 0x1000) = true ∧ env.msix = none →
    ∃ d, exec (.registerWrite k a [(v, be)] env) s = .next { s with chip := d } ∧
      d.reg a = r.apply (s.chip.reg a) v (beMask be) ∧ s.chip.keeps d [a] ∧ d = { s.chip with regs := d.regs }) ∧
  (∀ (s : State) (p off n : Nat) (r : WideRead) (k : Nat), 
    s.chip.passes .recovery = true →
    s.chip.implemented p = true ∧ p * 0x1000 + off + 4 * n ≤ 0x1000000 →
    ((pageKind p).any isVolatile = true ∧ (n ≠ 1 ∨ r.be ≠ 0xF ∨ off % 4 ≠ 0)) ∨ n = 0 ∨ 32 < n ∨ 0x1000 < off + 4 * n →
    r.part = some k ∧ k < 4 ∧ (s.chip.part k).linkUp = true →
    ∃ d, exec (.wideReadReject p off n r) s = .next { s with chip := d } ∧
      d.bitOf (hErr p) 0 = true ∧ d.out.getLast? = some { kind := .hostDone, unit := k, arg := 4 } ∧
      s.chip.keeps d [hErr p, hIrqStat p] ∧ d = { s.chip with regs := d.regs, out := d.out, pba := d.pba }) ∧
  (∀ (s : State) (p off n : Nat) (r : WideRead), 
    s.chip.passes .recovery = true →
    s.chip.implemented p = true ∧ p * 0x1000 + off + 4 * n ≤ 0x1000000 →
    ((pageKind p).any isVolatile = true ∧ (n ≠ 1 ∨ r.be ≠ 0xF ∨ off % 4 ≠ 0)) ∨ n = 0 ∨ 32 < n ∨ 0x1000 < off + 4 * n →
    r.part = none →
    ∃ d, exec (.wideReadReject p off n r) s = .next { s with chip := d } ∧
      d.bitOf (hErr p) 0 = true ∧ s.chip.keeps d [hErr p, hIrqStat p] ∧
      d = { s.chip with regs := d.regs, out := d.out, pba := d.pba }) ∧
  (∀ (s : State) (k p : Nat) (v : Word), 
    s.chip.passes .recovery = true →
    s.chip.implemented p = true ∧ pageKind p ≠ some .part →
    s.chip.owner p = k ∧ s.chip.supervisor ≠ k →
    fld v 1 0 = k ∧ bit v 16 = s.chip.bitOf (hOwner p) 16 ∧ bit v 31 = s.chip.bitOf (hOwner p) 31 →
    ∃ d, exec (.pageOwnerWrite k p v 0xF) s = .next { s with chip := d } ∧
      d.fldOf (hOwner p) 13 8 = fld v 13 8 ∧ d.owner p = k ∧ s.chip.keeps d [hOwner p] ∧
      d = { s.chip with regs := d.regs, out := d.out, pba := d.pba }) ∧
  (∀ (s : State) (k p : Nat) (v : Word), 
    s.chip.passes .recovery = true →
    s.chip.implemented p = true →
    s.chip.supervisor = k ∧ k < 4 ∧ s.chip.owner p ≠ fld v 1 0 →
    s.chip.bitOf (hOwner p) 31 = false ∧ s.chip.journalOwner p = none →
    s.chip.owner p = k ∨ fld v 13 8 = s.chip.fldOf (hOwner p) 13 8 →
    ∃ d, exec (.pageOwnerWrite k p v 0xF) s = .next { s with chip := d } ∧
      d.owner p = fld v 1 0 ∧ d.fldOf (hOwner p) 13 8 = 0 ∧ d.bitOf (hOwner p) 16 = bit v 16 ∧
      d.bitOf (hOwner p) 31 = bit v 31 ∧
      d.reg (hIrqMask p) = 0 ∧ d.reg (hEchoData p) = 0 ∧ d.reg (hEchoAddr p) = 0 ∧
      d.bitOf (hIrqStat (0x008 + s.chip.owner p)) 2 = true ∧ d.bitOf (hIrqStat (0x008 + fld v 1 0)) 2 = true ∧
      (pageKind p ≠ some .can → s.chip.keeps d [hOwner p, hIrqMask p, hEchoData p, hEchoAddr p,
        hIrqStat (0x008 + s.chip.owner p), hIrqStat (0x008 + fld v 1 0)]) ∧
      d = { s.chip with regs := d.regs, out := d.out, pba := d.pba, echoUnread := d.echoUnread, can := d.can }) ∧
  (∀ (s : State) (k p : Nat) (v : Word) (be : Nat), 
    s.chip.passes .recovery = true →
    s.chip.implemented p = true ∧ s.chip.owner p = k ∧ allBankBits p = 0 →
    ∃ d, exec (.pageIrqForceWrite k p v be) s = .next { s with chip := d } ∧
      d.reg (hIrqStat p) = s.chip.reg (hIrqStat p) ||| (v &&& beMask be &&& irqImplemented p) ∧
      s.chip.keeps d [hIrqStat p] ∧ d = { s.chip with regs := d.regs, out := d.out, pba := d.pba }) ∧
  (∀ (s : State) (j : Nat) (v : Word), 
    s.chip.passes .recovery = true →
    j < 4 ∧ fld v 15 0 = 0x5356 ∧ s.chip.held (0x008 + j) = false →
    ∃ d, exec (.supvXfer s.chip.supervisor j v) s = .next { s with chip := d } ∧
      d.supervisor = j ∧
      d.bitOf (hIrqStat (0x008 + s.chip.supervisor)) 1 = true ∧ d.bitOf (hIrqStat (0x008 + j)) 1 = true ∧
      s.chip.keeps d [hIrqStat (0x008 + s.chip.supervisor), hIrqStat (0x008 + j)] ∧
      d = { s.chip with regs := d.regs, out := d.out, pba := d.pba, supervisor := j }) ∧
  (∀ (s : State) (k : Nat), 
    s.chip.passes .recovery = true →
    s.chip.tempo.lastSupvCheck + 10 ^ 13 ≤ s.chip.now →
    s.chip.absent s.chip.supervisor = true ∧ k < 4 ∧ k ≠ s.chip.supervisor ∧ s.chip.absent k = false →
    0 < s.chip.fldOf (Reg.PART.SUPV_WATCH k) 15 0 →
    s.chip.fldOf (Reg.PART.SUPV_WATCH k) 15 0 * 10 ^ 13 < s.chip.absentFor s.chip.supervisor →
    (∀ j, j < k → j = s.chip.supervisor ∨ s.chip.absent j = true ∨ s.chip.absentFor s.chip.supervisor ≤ s.chip.fldOf (Reg.PART.SUPV_WATCH j) 15 0 * 10 ^ 13 ∨ s.chip.fldOf (Reg.PART.SUPV_WATCH j) 15 0 = 0) →
    ∃ d, exec .supvWatchCheck s = .next { s with chip := d } ∧
      d.supervisor = k ∧ d.bitOf Reg.GLB.ALARM_STAT 8 = true ∧
      d.bitOf (hIrqStat (0x008 + s.chip.supervisor)) 1 = true ∧ d.bitOf (hIrqStat (0x008 + k)) 1 = true) ∧
  (∀ (s : State) (j : Nat) (seen : Bool) (e : DenyEntry) (rest : List DenyEntry), 
    s.chip.passes .recovery = true →
    j < 4 ∧ (s.chip.part j).deny = e :: rest →
    s.chip.held (0x008 + j) = false →
    ∃ d, exec (.denyPop (s.chip.owner (0x008 + j)) j seen) s = .next { s with chip := d } ∧
      (d.part j).deny = rest ∧ d.reg (Reg.PART.DENY_TIME j) = BitVec.ofNat 32 (e.time / 1024) ∧
      d.reg (hEchoData (0x008 + j)) = e.word ∧
      s.chip.keeps d [Reg.PART.DENY_TIME j, hEchoData (0x008 + j), hEchoAddr (0x008 + j), hErr (0x008 + j),
        hIrqStat (0x008 + j)] ∧
      d = { s.chip with regs := d.regs, out := d.out, pba := d.pba, parts := d.parts, echoUnread := d.echoUnread }) ∧
  (∀ (s : State) (t : Nat), 
    s.chip.alarmLow = some t ∧ t + 10 ^ 11 ≤ s.chip.now →
    s.chip.awake = true ∧ s.chip.reg Reg.GLB.ALARM_STAT &&& s.chip.reg Reg.GLB.ALARM_EN = 0 ∧ s.chip.fldOf Reg.GLB.BOOT_STAT 3 0 < 14 →
    exec .alarmNHoldExpiry s = .next { s with chip := { s.chip with
      alarmLow := none, out := s.chip.out ++ [{ kind := .alarmN, unit := 0, arg := 1 }] } })

/-- Chapter 3: RATE_HI_WRITE by a host commits the increment it makes with the waiting RATE_LO, clamped to 500 ppm of nominal with RATE_CLAMP; RATE_HI_WRITE by the servo stays within SLEW_MAX; CAPTURE latches Tempo and its state; SET_GO with its key steps Tempo to SET_HI:SET_LO, enters FREE and sets ERR_EST to all ones; ALM_CTRL_WRITE latches the target of an armed alarm; TEMPO_ALARM_EXPIRY at the target raises the alarm's source and either re-arms it by ALM_PER or disarms it. -/
def Obligations.TempoRateAndTimeCommands : Prop :=
  (∀ (s : State) (k : Nat) (hi lo : Word) (r : Nat), 
    s.chip.passes .recovery = true →
    k < 4 ∧ s.chip.accepts k Reg.TEMPO.RATE_HI = true ∧ s.chip.servoOn = false →
    r = fld hi 15 0 * 2 ^ 32 + s.chip.tempo.rateLoNext.toNat →
    ∃ d, exec (.rateHiWrite k hi lo 0xF) s = .next { s with chip := d } ∧
      d.rate = min (0xA00000000000 + 0xA00000000000 * 500 / 1000000) (max (0xA00000000000 - 0xA00000000000 * 500 / 1000000) r) ∧
      d.bitOf Reg.TEMPO.STATE 2 = decide (d.rate ≠ r) ∧
      s.chip.keeps d [Reg.TEMPO.RATE_HI, Reg.TEMPO.RATE_LO, Reg.TEMPO.STATE, hIrqStat 0x010] ∧
      d = { s.chip with regs := d.regs, out := d.out, pba := d.pba, tempo := { s.chip.tempo with past := d.tempo.past } }) ∧
  (∀ (s : State) (hi lo : Word) (be : Nat) (r lim : Nat), 
    s.chip.passes .recovery = true →
    s.chip.servoOn = true ∧ s.chip.arbRunning = true →
    r = fld hi 15 0 * 2 ^ 32 + lo.toNat ∧ lim = 0xA00000000000 * s.chip.slewMax / 1000000 →
    ∃ d, exec (.rateHiWrite 4 hi lo be) s = .next { s with chip := d } ∧
      d.rate = min (0xA00000000000 + lim) (max (0xA00000000000 - lim) r) ∧
      s.chip.keeps d [Reg.TEMPO.RATE_HI, Reg.TEMPO.RATE_LO, Reg.TEMPO.STATE, hIrqStat 0x010] ∧
      d = { s.chip with regs := d.regs, out := d.out, pba := d.pba, tempo := { s.chip.tempo with past := d.tempo.past } }) ∧
  (∀ (s : State) (k : Nat) (v : Word), 
    s.chip.passes .recovery = true →
    s.chip.accepts k Reg.TEMPO.CAPTURE = true ∧ bit v 0 = true →
    ∃ d, exec (.capture k v) s = .next { s with chip := d } ∧
      d.reg Reg.TEMPO.NOW_LO = BitVec.ofNat 32 s.chip.ns ∧ d.reg Reg.TEMPO.NOW_HI = BitVec.ofNat 32 (s.chip.ns / 2 ^ 32) ∧
      d.reg Reg.TEMPO.NOW_FRAC = BitVec.ofNat 32 (s.chip.tempo.value / 2 ^ 32 % 2 ^ 16) ∧
      d.fldOf Reg.TEMPO.STATE 9 8 = s.chip.tempoState ∧
      s.chip.keeps d [Reg.TEMPO.NOW_LO, Reg.TEMPO.NOW_HI, Reg.TEMPO.NOW_FRAC, Reg.TEMPO.STATE] ∧
      d = { s.chip with regs := d.regs }) ∧
  (∀ (s : State) (k : Nat) (v : Word), 
    s.chip.passes .recovery = true →
    s.chip.accepts k Reg.TEMPO.SET_GO = true ∧ fld v 15 0 = 0x5345 ∧ s.chip.servoOn = false →
    ∃ d, exec (.setGo k v) s = .next { s with chip := d } ∧
      d.tempo.value = ((s.chip.reg Reg.TEMPO.SET_HI).toNat * 2 ^ 32 + (s.chip.reg Reg.TEMPO.SET_LO).toNat) * 2 ^ 48 ∧
      d.tempoState = 0 ∧ d.reg Reg.TEMPO.ERR_EST = 0xFFFFFFFF ∧ d.bitOf (hIrqStat 0x010) 1 = true ∧
      d.supervisor = s.chip.supervisor ∧ d.castle = s.chip.castle ∧ d.host = s.chip.host) ∧
  (∀ (s : State) (k i : Nat) (v : Word) (r : RegRow), 
    s.chip.passes .recovery = true →
    i < 16 ∧ s.chip.accepts k (Reg.TEMPO.ALM_CTRL i) = true ∧ rowOf (Reg.TEMPO.ALM_CTRL i) = some r ∧ bit v 0 = true →
    ∃ d, exec (.almCtrlWrite k i v 0xF) s = .next { s with chip := d } ∧
      d.reg (Reg.TEMPO.ALM_CTRL i) = r.apply (s.chip.reg (Reg.TEMPO.ALM_CTRL i)) v (beMask 0xF) ∧
      lookupKey d.tempo.alarmTarget i
        = some ((s.chip.reg (Reg.TEMPO.ALM_HI i)).toNat * 2 ^ 32 + (s.chip.reg (Reg.TEMPO.ALM_LO i)).toNat) ∧
      s.chip.keeps d [Reg.TEMPO.ALM_CTRL i] ∧
      d = { s.chip with regs := d.regs, tempo := { s.chip.tempo with alarmTarget := d.tempo.alarmTarget } }) ∧
  (∀ (s : State) (i t : Nat), 
    i < 16 ∧ lookupKey s.chip.tempo.alarmTarget i = some t ∧ t ≤ s.chip.ns →
    s.chip.awake = true ∧ s.chip.power.entering = none →
    ∃ d, exec (.tempoAlarmExpiry i) s = .next { s with chip := d } ∧
      d.bitOf (hIrqStat 0x010) (5 + i) = true ∧
      (s.chip.reg (Reg.TEMPO.ALM_PER i) ≠ 0 → lookupKey d.tempo.alarmTarget i = some (t + (s.chip.reg (Reg.TEMPO.ALM_PER i)).toNat)) ∧
      (s.chip.reg (Reg.TEMPO.ALM_PER i) = 0 → lookupKey d.tempo.alarmTarget i = none ∧ d.bitOf (Reg.TEMPO.ALM_CTRL i) 0 = false) ∧
      s.chip.keeps d [hIrqStat 0x010, Reg.TEMPO.ALM_CTRL i])

/-- Chapter 3: SYNC_RECEIVED on the slave port stores OFFSET, less the port's link delay, the grandmaster and the slave port, and with the servo on counts towards LOCKED or, when LOCKED and beyond UNLOCK_THRESH, passes to HOLDOVER; SYNC_RECEIPT_TIMEOUT passes LOCKED to HOLDOVER; HOLDOVER_EXPIRY enters FREE with ERR_EST all ones and ALARM_STAT[5]; HOLD_CFG_WRITE and TEMPO_CTRL_WRITE take their register, the latter losing LOCKED when SERVO_EN falls; REF10_LOSS clears the input's flag and raises HOLD_RATE to 500 where it drove holdover; GPTP_SYNC_RELAY adds the residence time to the correction field or counts a late frame; GPTP_SYNC_TRANSMIT as grandmaster sends the domain and Tempo's egress stamp as the origin time. The servo's rate write, CAPTURE, SET_GO, an alarm's enabling and its expiry complete with their first effect. -/
def Obligations.TempoSyncCommands : Prop :=
  (∀ (s : State) (q : Nat) (m : SyncMsg) (off : Int), 
    s.chip.passes .running = true →
    s.chip.syncCounts q m = true ∧ s.chip.arbRunning = true ∧ s.chip.servoOn = false →
    ∃ d, exec (.syncReceived q m off) s = .next { s with chip := d } ∧
      d.reg Reg.TEMPO.OFFSET = satSigned32 (off - (s.chip.linkDelay q m : Nat)) ∧ d.reg Reg.TEMPO.GM_ID_LO = BitVec.ofNat 32 m.gm ∧
      d.reg Reg.TEMPO.GM_ID_HI = BitVec.ofNat 32 (m.gm / 2 ^ 32) ∧ d.reg Reg.TEMPO.SLAVE_PORT = BitVec.ofNat 32 (0x80 + q) ∧
      s.chip.keeps d [Reg.TEMPO.OFFSET, Reg.TEMPO.GM_ID_LO, Reg.TEMPO.GM_ID_HI, Reg.TEMPO.SLAVE_PORT] ∧
      d = { s.chip with regs := d.regs, tempo := { (s.chip.syncNote q m).tempo with lastSync := s.chip.now } }) ∧
  (∀ (s : State) (q : Nat) (m : SyncMsg) (off : Int), 
    s.chip.passes .running = true →
    s.chip.syncCounts q m = true ∧ s.chip.arbRunning = true ∧ s.chip.servoOn = true →
    s.chip.now < s.chip.tempo.lastSync + s.chip.receiptTimeout →
    s.chip.tempoState ≠ 2 ∧ s.chip.bitOf Reg.TEMPO.CTRL 1 = false →
    (s.chip.syncOffset q m off).natAbs ≤ s.chip.fldOf Reg.TEMPO.LOCK_CFG 15 0 ∧ s.chip.fldOf Reg.TEMPO.LOCK_CFG 23 16 ≤ s.chip.tempo.lockCount + 1 →
    ∃ d, exec (.syncReceived q m off) s = .next { s with chip := d } ∧
      d.tempoState = 2 ∧ d.tempo.lockCount = 0 ∧ d.reg Reg.TEMPO.ERR_EST = BitVec.ofNat 32 (s.chip.syncOffset q m off).natAbs ∧
      d.bitOf (hIrqStat 0x010) 0 = true) ∧
  (∀ (s : State) (q : Nat) (m : SyncMsg) (off : Int), 
    s.chip.passes .running = true →
    s.chip.syncCounts q m = true ∧ s.chip.arbRunning = true ∧ s.chip.servoOn = true →
    s.chip.now < s.chip.tempo.lastSync + s.chip.receiptTimeout →
    s.chip.tempoState = 2 ∧ (s.chip.reg Reg.TEMPO.UNLOCK_THRESH).toNat < (s.chip.syncOffset q m off).natAbs →
    ∃ d, exec (.syncReceived q m off) s = .next { s with chip := d } ∧
      d.tempoState = 1 ∧ d.tempo.lockCount = 0 ∧ d.bitOf (hIrqStat 0x010) 0 = true ∧ d.tempo.value = s.chip.tempo.value) ∧
  (∀ (s : State), 
    s.chip.passes .running = true →
    s.chip.tempoState = 2 ∧ s.chip.tempo.lastSync + s.chip.receiptTimeout ≤ s.chip.now →
    ∃ d, exec .syncReceiptTimeout s = .next { s with chip := d } ∧
      d.tempoState = 1 ∧ d.tempo.lockCount = 0 ∧ d.bitOf (hIrqStat 0x010) 0 = true ∧
      s.chip.keeps d [Reg.TEMPO.STATE, hIrqStat 0x010]) ∧
  (∀ (s : State), 
    s.chip.passes .running = true →
    s.chip.tempoState = 1 ∧ (s.chip.reg Reg.TEMPO.HOLD_ERR_MAX).toNat < (s.chip.reg Reg.TEMPO.ERR_EST).toNat →
    ∃ d, exec .holdoverExpiry s = .next { s with chip := d } ∧
      d.tempoState = 0 ∧ d.reg Reg.TEMPO.ERR_EST = 0xFFFFFFFF ∧ d.bitOf Reg.GLB.ALARM_STAT 5 = true ∧
      d.bitOf (hIrqStat 0x010) 0 = true ∧ d.tempo.value = s.chip.tempo.value) ∧
  (∀ (s : State) (k : Nat) (max : Bool) (v : Word) (be a : Nat) (r : RegRow), 
    s.chip.passes .recovery = true →
    a = (if max then Reg.TEMPO.HOLD_ERR_MAX else Reg.TEMPO.HOLD_CFG) →
    s.chip.accepts k a = true ∧ rowOf a = some r ∧ s.chip.tempoState ≠ 1 →
    ∃ d, exec (.holdCfgWrite k max v be) s = .next { s with chip := d } ∧
      d.reg a = r.apply (s.chip.reg a) v (beMask be) ∧ s.chip.keeps d [a] ∧ d = { s.chip with regs := d.regs }) ∧
  (∀ (s : State) (k : Nat) (v : Word) (be : Nat) (present : Bool) (r : RegRow), 
    s.chip.passes .recovery = true →
    s.chip.accepts k Reg.TEMPO.CTRL = true ∧ rowOf Reg.TEMPO.CTRL = some r →
    ∃ d, exec (.tempoCtrlWrite k v be present) s = .next { s with chip := d } ∧
      d.reg Reg.TEMPO.CTRL = r.apply (s.chip.reg Reg.TEMPO.CTRL) v (beMask be) ∧ d.bitOf Reg.TEMPO.STATE 3 = present ∧
      (s.chip.servoOn = true ∧ d.servoOn = false ∧ s.chip.tempoState = 2 → d.tempoState = 1) ∧
      (d.servoOn = s.chip.servoOn → d.tempoState = s.chip.tempoState) ∧
      s.chip.keeps d [Reg.TEMPO.CTRL, Reg.TEMPO.STATE, hIrqStat 0x010]) ∧
  (∀ (s : State), 
    s.chip.passes .running = true →
    s.chip.tempoState ≠ 1 →
    ∃ d, exec .ref10Loss s = .next { s with chip := d } ∧
      d.bitOf Reg.TEMPO.STATE 3 = false ∧
      (s.chip.fldOf Reg.TEMPO.CTRL 5 4 = 1 → d.fldOf Reg.TEMPO.HOLD_CFG 15 0 = 500 ∧ d.bitOf (hIrqStat 0x010) 4 = true) ∧
      (s.chip.fldOf Reg.TEMPO.CTRL 5 4 ≠ 1 → s.chip.keeps d [Reg.TEMPO.STATE]) ∧
      d.tempo = { s.chip.tempo with ref10 := false } ∧
      s.chip.keeps d [Reg.TEMPO.STATE, Reg.TEMPO.HOLD_CFG, hIrqStat 0x010] ∧ d = { s.chip with regs := d.regs, out := d.out, pba := d.pba, tempo := d.tempo }) ∧
  (∀ (s : State) (q : Nat) (corr : Int) (rin rout : Nat), 
    s.chip.passes .running = true →
    s.chip.gptpPort q = true ∧ s.chip.arbRunning = true ∧ s.chip.reg Reg.TEMPO.SLAVE_PORT ≠ BitVec.ofNat 32 (0x80 + q) →
    rin ≤ rout ∧ rout - rin ≤ 10000000 →
    ∃ d, exec (.gptpSyncRelay q corr rin rout 0) s = .next { s with chip := d } ∧
      d.out = s.chip.out ++ [{ kind := .gptp, unit := q, arg := 1, data := bytesBE 8 (BitVec.ofInt 64 (corr + ((rout - rin : Nat) : Int) * 65536)).toNat }] ∧
      d = { s.chip with out := d.out }) ∧
  (∀ (s : State) (q : Nat) (corr : Int) (rin rout : Nat) (ratio : Int), 
    s.chip.passes .running = true →
    s.chip.gptpPort q = true ∧ s.chip.arbRunning = true ∧ s.chip.reg Reg.TEMPO.SLAVE_PORT ≠ BitVec.ofNat 32 (0x80 + q) →
    rin + 10000000 < rout →
    ∃ d, exec (.gptpSyncRelay q corr rin rout ratio) s = .next { s with chip := d } ∧
      d.reg Reg.TEMPO.RES_DROP = sat32 ((s.chip.reg Reg.TEMPO.RES_DROP).toNat + 1) ∧
      d.bitOf (hIrqStat 0x010) 2 = true ∧ s.chip.keeps d [Reg.TEMPO.RES_DROP, hIrqStat 0x010] ∧
      d = { s.chip with regs := d.regs, out := d.out, pba := d.pba }) ∧
  (∀ (s : State) (q : Nat), 
    s.chip.passes .running = true →
    s.chip.gptpPort q = true ∧ s.chip.arbRunning = true ∧ s.chip.grandmaster = true →
    s.chip.bitOf Reg.TEMPO.GPTP_CFG 8 = false ∧ lookupKey s.chip.tempo.syncTx q = none →
    ∃ d, exec (.gptpSyncTransmit q) s = .next { s with chip := d } ∧
      d.out = s.chip.out ++ [{ kind := .gptp, unit := q, arg := 0, data := [BitVec.ofNat 8 (s.chip.fldOf Reg.TEMPO.GPTP_CFG 7 0)] ++ bytesBE 6 (s.chip.txStamp q / 10 ^ 9) ++ bytesBE 4 (s.chip.txStamp q % 10 ^ 9) }] ∧
      lookupKey d.tempo.syncTx q = some s.chip.now ∧
      d = { s.chip with out := d.out, tempo := { s.chip.tempo with syncTx := d.tempo.syncTx } }) ∧
  (∀ (s : State) (hi lo : Word) (be : Nat) (r lim : Nat), 
    s.chip.passes .recovery = true →
    s.chip.servoOn = true ∧ s.chip.arbRunning = true →
    r = fld hi 15 0 * 2 ^ 32 + lo.toNat ∧ lim = 0xA00000000000 * s.chip.slewMax / 1000000 →
    ∃ d, exec (.rateHiWrite 4 hi lo be) s = .next { s with chip := d } ∧
      d.rate = min (0xA00000000000 + lim) (max (0xA00000000000 - lim) r)) ∧
  (∀ (s : State) (k : Nat) (v : Word), 
    s.chip.passes .recovery = true →
    s.chip.accepts k Reg.TEMPO.CAPTURE = true ∧ bit v 0 = true →
    ∃ d, exec (.capture k v) s = .next { s with chip := d } ∧
      d.reg Reg.TEMPO.NOW_LO = BitVec.ofNat 32 s.chip.ns ∧ d.reg Reg.TEMPO.NOW_HI = BitVec.ofNat 32 (s.chip.ns / 2 ^ 32)) ∧
  (∀ (s : State) (k : Nat) (v : Word), 
    s.chip.passes .recovery = true →
    s.chip.accepts k Reg.TEMPO.SET_GO = true ∧ fld v 15 0 = 0x5345 ∧ s.chip.servoOn = false →
    ∃ d, exec (.setGo k v) s = .next { s with chip := d } ∧
      d.tempo.value = ((s.chip.reg Reg.TEMPO.SET_HI).toNat * 2 ^ 32 + (s.chip.reg Reg.TEMPO.SET_LO).toNat) * 2 ^ 48) ∧
  (∀ (s : State) (k i : Nat) (v : Word) (r : RegRow), 
    s.chip.passes .recovery = true →
    i < 16 ∧ s.chip.accepts k (Reg.TEMPO.ALM_CTRL i) = true ∧ rowOf (Reg.TEMPO.ALM_CTRL i) = some r ∧ bit v 0 = true →
    ∃ d, exec (.almCtrlWrite k i v 0xF) s = .next { s with chip := d } ∧
      lookupKey d.tempo.alarmTarget i = some ((s.chip.reg (Reg.TEMPO.ALM_HI i)).toNat * 2 ^ 32 + (s.chip.reg (Reg.TEMPO.ALM_LO i)).toNat)) ∧
  (∀ (s : State) (i t : Nat), 
    i < 16 ∧ lookupKey s.chip.tempo.alarmTarget i = some t ∧ t ≤ s.chip.ns →
    s.chip.awake = true ∧ s.chip.power.entering = none →
    ∃ d, exec (.tempoAlarmExpiry i) s = .next { s with chip := d } ∧
      d.bitOf (hIrqStat 0x010) (5 + i) = true)

/-- Chapter 4: CAN_CTRL_WRITE out of CONFIG with valid timing enters the written mode and begins to integrate, and with invalid timing stays in CONFIG with CFG_ERR; a reserved MODE is refused with PAGE_ERR.BLOCK. A return to CONFIG waits for a frame on the bus. CAN_INTEGRATION_DONE ends the integration. CAN_ERROR_FRAME fills ERR_CAP, counts the frame and raises TEC by 8 for a transmitter, REC by 8 or 1 for a receiver. PROTOCOL_EXCEPTION counts and integrates anew. BO_RECOVER starts a waiting recovery, CAN_BUSOFF_RECOVERED ends it with both counters 0. CAN_STUCK_DOMINANT, STUCK_CLEAR, TXD_DOMINANT_LIMIT, CAN_IDLE_TIMEOUT and RXD_WAKE set their flags and sources. ERR_CAP_READ by the owner clears the record and echoes the data. -/
def Obligations.CanControllerCommands : Prop :=
  (∀ (s : State) (k q : Nat) (v : Word) (be : Nat) (nv : Word) (rx : Bool), 
    s.chip.passes .running = true →
    q < 40 ∧ s.chip.accepts k (Reg.CAN.CTRL q) = true →
    nv = (s.chip.reg (Reg.CAN.CTRL q) &&& ~~~ (0xF3F7 &&& beMask be)) ||| (v &&& (0xF3F7 &&& beMask be)) →
    s.chip.modeAct q = 0 ∧ s.chip.fldOf (Reg.CAN.CTRL q) 2 0 = 0 ∧ 1 ≤ fld nv 2 0 ∧ fld nv 2 0 ≤ 5 ∧ (s.chip.canSq q).cls = [] →
    s.chip.bitOf (Reg.CAN.TRX q) 0 = false ∨ fld nv 2 0 = 4 →
    s.chip.timingOk q nv = true →
    ∃ d, exec (.canCtrlWrite k q v be rx) s = .next { s with chip := d } ∧
      d.reg (Reg.CAN.CTRL q) = nv ∧ d.modeAct q = fld nv 2 0 ∧ d.integrating q = true ∧ d.bitOf (Reg.CAN.STATUS q) 11 = false ∧
      s.chip.keeps d [Reg.CAN.CTRL q, Reg.CAN.STATUS q] ∧ d = { s.chip with regs := d.regs }) ∧
  (∀ (s : State) (k q : Nat) (v : Word) (be : Nat) (nv : Word) (rx : Bool), 
    s.chip.passes .running = true →
    q < 40 ∧ s.chip.accepts k (Reg.CAN.CTRL q) = true →
    nv = (s.chip.reg (Reg.CAN.CTRL q) &&& ~~~ (0xF3F7 &&& beMask be)) ||| (v &&& (0xF3F7 &&& beMask be)) →
    s.chip.modeAct q = 0 ∧ s.chip.fldOf (Reg.CAN.CTRL q) 2 0 = 0 ∧ 1 ≤ fld nv 2 0 ∧ fld nv 2 0 ≤ 5 →
    s.chip.bitOf (Reg.CAN.TRX q) 0 = false ∨ fld nv 2 0 = 4 →
    s.chip.timingOk q nv = false →
    ∃ d, exec (.canCtrlWrite k q v be rx) s = .next { s with chip := d } ∧
      d.fldOf (Reg.CAN.CTRL q) 2 0 = 0 ∧ d.modeAct q = 0 ∧ d.bitOf (Reg.CAN.STATUS q) 11 = true ∧
      s.chip.keeps d [Reg.CAN.CTRL q, Reg.CAN.STATUS q] ∧ d = { s.chip with regs := d.regs }) ∧
  (∀ (s : State) (k q : Nat) (v : Word) (be : Nat) (nv : Word) (rx : Bool), 
    s.chip.passes .running = true →
    q < 40 ∧ s.chip.accepts k (Reg.CAN.CTRL q) = true →
    nv = (s.chip.reg (Reg.CAN.CTRL q) &&& ~~~ (0xF3F7 &&& beMask be)) ||| (v &&& (0xF3F7 &&& beMask be)) →
    6 ≤ fld nv 2 0 →
    ∃ d, exec (.canCtrlWrite k q v be rx) s = .next { s with chip := d } ∧
      d.bitOf (Reg.CAN.STATUS q) 11 = true ∧ d.bitOf (hErr (0x100 + q)) 7 = true ∧
      s.chip.keeps d [Reg.CAN.STATUS q, hErr (0x100 + q), hIrqStat (0x100 + q)] ∧
      d = { s.chip with regs := d.regs, out := d.out, pba := d.pba }) ∧
  (∀ (s : State) (k q : Nat) (v : Word) (be : Nat) (nv : Word) (rx : Bool), 
    s.chip.passes .running = true →
    q < 40 ∧ s.chip.accepts k (Reg.CAN.CTRL q) = true →
    nv = (s.chip.reg (Reg.CAN.CTRL q) &&& ~~~ (0xF3F7 &&& beMask be)) ||| (v &&& (0xF3F7 &&& beMask be)) →
    fld nv 2 0 = 0 ∧ s.chip.modeAct q ≠ 0 ∧ (s.chip.reg (Reg.CAN.CTRL q) ^^^ nv) &&& 0x170 = 0 →
    (s.chip.canSq q).busy = false →
    ∃ d, exec (.canCtrlWrite k q v be rx) s = .next { s with chip := d } ∧
      d.reg (Reg.CAN.CTRL q) = nv ∧ d.modeAct q = (if rx && s.chip.onCanBus q then s.chip.modeAct q else 0) ∧ (d.canSq q).receiving = (rx && s.chip.onCanBus q) ∧
      s.chip.keeps d [Reg.CAN.CTRL q, Reg.CAN.STATUS q] ∧ d = { s.chip with regs := d.regs, can := d.can }) ∧
  (∀ (s : State) (q : Nat), 
    s.chip.passes .running = true →
    q < 40 ∧ s.chip.integrating q = true ∧ s.chip.idleRuns q = true →
    ∃ d, exec (.canIntegrationDone q) s = .next { s with chip := d } ∧
      d.integrating q = false ∧ d.bitOf (Reg.CAN.STATUS q) 9 = true ∧
      (d.canSq q).idleFrom = some ((s.chip.canSq q).idleFrom.getD s.chip.now) ∧
      s.chip.keeps d [Reg.CAN.STATUS q] ∧ d = { s.chip with regs := d.regs, can := d.can }) ∧
  (∀ (s : State) (q ty pos : Nat) (e : CanErr) (heavy exempt : Bool), 
    s.chip.passes .running = true →
    q < 40 ∧ s.chip.onCanBus q = true ∧ (s.chip.canSq q).resetReq = false →
    s.chip.modeAct q ≠ 5 ∨ ty ≠ 5 →
    e.xl = false ∨ s.chip.bitOf (Reg.CAN.CTRL q) 8 = true →
    ∃ d, exec (.canErrorFrame q ty e pos heavy exempt) s = .next { s with chip := d } ∧
      d.reg (Reg.CAN.ERR_CAP q) = BitVec.ofNat 32 (2 ^ 31 + ty % 8 * 2 ^ 24 + e.field % 4 * 2 ^ 22 +
        (if (s.chip.canSq q).onBus.isSome then 2 ^ 21 else 0) + pos % 2 ^ 16) ∧
      d.reg (Reg.CAN.ERR_FRAMES q) = sat32 ((s.chip.reg (Reg.CAN.ERR_FRAMES q)).toNat + 1) ∧
      (d.canSq q).onBus = none ∧
      (s.chip.modeAct q ≠ 2 → (s.chip.canSq q).onBus.isSome = true → exempt = false → d.tec q = min 511 (s.chip.tec q + 8)) ∧
      (s.chip.modeAct q ≠ 2 → (s.chip.canSq q).onBus = none → d.tec q = s.chip.tec q ∧
        d.rec8 q = min 255 (s.chip.rec8 q + (if heavy then 8 else 1)))) ∧
  (∀ (s : State) (q pos : Nat), 
    s.chip.passes .running = true →
    q < 40 ∧ s.chip.onCanBus q = true ∧ (s.chip.canSq q).resetReq = false →
    s.chip.bitOf (Reg.CAN.CTRL q) 6 = false ∧ s.chip.fldOf (Reg.CAN.CTRL q) 2 0 ≠ 0 →
    ∃ d, exec (.protocolException q pos) s = .next { s with chip := d } ∧
      d.reg (Reg.CAN.PXE_CNT q) = sat32 ((s.chip.reg (Reg.CAN.PXE_CNT q)).toNat + 1) ∧
      d.bitOf (hIrqStat (0x100 + q)) 12 = true ∧ d.integrating q = true ∧
      s.chip.keeps d [Reg.CAN.PXE_CNT q, hIrqStat (0x100 + q), Reg.CAN.STATUS q] ∧
      d = { s.chip with regs := d.regs, out := d.out, pba := d.pba, can := d.can }) ∧
  (∀ (s : State) (k q : Nat) (v : Word), 
    s.chip.passes .running = true →
    q < 40 ∧ s.chip.accepts k (Reg.CAN.BO_RECOVER q) = true ∧ bit v 0 = true ∧ s.chip.bitOf (Reg.CAN.STATUS q) 13 = true →
    ∃ d, exec (.boRecover k q v) s = .next { s with chip := d } ∧
      d.bitOf (Reg.CAN.STATUS q) 13 = false ∧ d.bitOf (Reg.CAN.STATUS q) 12 = true ∧ d.fldOf (Reg.CAN.STATUS q) 23 16 = 0 ∧
      s.chip.keeps d [Reg.CAN.STATUS q] ∧ d = { s.chip with regs := d.regs }) ∧
  (∀ (s : State) (q : Nat), 
    s.chip.passes .running = true →
    q < 40 ∧ s.chip.bitOf (Reg.CAN.STATUS q) 12 = true →
    ∃ d, exec (.canBusoffRecovered q 128) s = .next { s with chip := d } ∧
      d.bitOf (Reg.CAN.STATUS q) 12 = false ∧ d.tec q = 0 ∧ d.rec8 q = 0 ∧ d.errState q = 0 ∧
      d.bitOf (hIrqStat (0x100 + q)) 10 = true ∧
      s.chip.keeps d [Reg.CAN.STATUS q, Reg.CAN.ERR_CNT q, hIrqStat (0x100 + q)] ∧
      d = { s.chip with regs := d.regs, out := d.out, pba := d.pba, can := d.can }) ∧
  (∀ (s : State) (q seqs : Nat), 
    s.chip.passes .running = true →
    q < 40 ∧ s.chip.bitOf (Reg.CAN.STATUS q) 12 = true ∧ seqs < 128 →
    ∃ d, exec (.canBusoffRecovered q seqs) s = .next { s with chip := d } ∧
      d.fldOf (Reg.CAN.STATUS q) 23 16 = seqs ∧ d.bitOf (Reg.CAN.STATUS q) 12 = true ∧
      s.chip.keeps d [Reg.CAN.STATUS q] ∧ d = { s.chip with regs := d.regs }) ∧
  (∀ (s : State) (q : Nat), 
    s.chip.passes .running = true →
    q < 40 ∧ s.chip.fldOf (Reg.CAN.LIMITS q) 31 16 ≠ 0 ∧ s.chip.bitOf (Reg.CAN.STATUS q) 10 = false →
    ∃ d, exec (.canStuckDominant q) s = .next { s with chip := d } ∧
      d.bitOf (Reg.CAN.STATUS q) 10 = true ∧ d.bitOf (hIrqStat (0x100 + q)) 13 = true ∧
      s.chip.keeps d [Reg.CAN.STATUS q, hIrqStat (0x100 + q)] ∧ d = { s.chip with regs := d.regs, out := d.out, pba := d.pba }) ∧
  (∀ (s : State) (q : Nat), 
    s.chip.passes .running = true →
    q < 40 →
    ∃ d, exec (.stuckClear q) s = .next { s with chip := d } ∧
      d.bitOf (Reg.CAN.STATUS q) 10 = false ∧ s.chip.keeps d [Reg.CAN.STATUS q] ∧ d = { s.chip with regs := d.regs }) ∧
  (∀ (s : State) (q : Nat), 
    s.chip.passes .running = true →
    q < 40 →
    ∃ d, exec (.txdDominantLimit q) s = .next { s with chip := d } ∧
      d.bitOf (hIrqStat (0x100 + q)) 13 = true ∧
      (s.chip.score.queue.length < 64 → s.chip.scoreFresh = true →
        d.score.queue.map (fun e => (e.code, e.sev, e.page)) = s.chip.score.queue.map (fun e => (e.code, e.sev, e.page)) ++ [(0x0063, 3, 0x100 + q)]) ∧
      s.chip.keeps d [hIrqStat (0x100 + q), Reg.SCORE.DROPPED, hIrqStat 0x091] ∧
      d = { s.chip with regs := d.regs, out := d.out, pba := d.pba, score := d.score }) ∧
  (∀ (s : State) (q t : Nat), 
    s.chip.passes .running = true →
    q < 40 ∧ (s.chip.canSq q).idleFrom = some t ∧ (s.chip.canSq q).idleRaised = false →
    s.chip.fldOf (Reg.CAN.LIMITS q) 15 0 ≠ 0 ∧ t + s.chip.fldOf (Reg.CAN.LIMITS q) 15 0 * 10 ^ 12 ≤ s.chip.now →
    ∃ d, exec (.canIdleTimeout q) s = .next { s with chip := d } ∧
      d.bitOf (hIrqStat (0x100 + q)) 14 = true ∧ (d.canSq q).idleRaised = true ∧
      s.chip.keeps d [hIrqStat (0x100 + q)] ∧ d = { s.chip with regs := d.regs, out := d.out, pba := d.pba, can := d.can }) ∧
  (∀ (s : State) (q : Nat), 
    q < 40 ∧ s.chip.asleep = false ∧ s.chip.armed = false →
    s.chip.bitOf (Reg.CAN.TRX q) 0 = true ∧ s.chip.bitOf (Reg.CAN.TRX q) 1 = true →
    ∃ d, exec (.rxdWake q) s = .next { s with chip := d } ∧
      d.bitOf (Reg.CAN.STATUS q) 15 = true ∧ s.chip.keeps d [Reg.CAN.STATUS q] ∧ d = { s.chip with regs := d.regs }) ∧
  (∀ (s : State) (q : Nat) (seen : Bool), 
    s.chip.passes .running = true →
    q < 40 ∧ s.chip.implemented (0x100 + q) = true ∧ s.chip.held (0x100 + q) = false →
    ∃ d, exec (.errCapRead (s.chip.owner (0x100 + q)) q seen) s = .next { s with chip := d } ∧
      d.reg (Reg.CAN.ERR_CAP q) = 0 ∧ d.reg (hEchoData (0x100 + q)) = s.chip.reg (Reg.CAN.ERR_CAP q) ∧
      s.chip.keeps d [Reg.CAN.ERR_CAP q, hEchoData (0x100 + q), hEchoAddr (0x100 + q), hErr (0x100 + q), hIrqStat (0x100 + q)] ∧
      d = { s.chip with regs := d.regs, out := d.out, pba := d.pba, echoUnread := d.echoUnread })

/-- Chapter 4: TX_REQ makes each requested mailbox that is not on the bus PENDING with the frame and deadline of its entry, or FMT_REJECT where the entry is not valid for the square; TX_CANCEL withdraws each cancelled pending mailbox that is not on the bus and latches the cancel of one that is; CAN_TX_ATTEMPT offers an eligible candidate of the least arbitration field, on the bus but for LOOP_INT; CAN_ARBITRATION_LOST makes the controller a receiver and counts; CAN_FRAME_TRANSMITTED completes the mailbox with SENT, or CANCEL_SENT after a late cancel; CAN_DEADLINE_EXPIRY completes a waiting mailbox with STALE; CAN_CLASS_BUFFER_PULL puts the head of a class into its buffer; CAN_SCHEDULE_ENTRY with WINDOW sets the open mask. -/
def Obligations.CanTransmitCommands : Prop :=
  (∀ (s : State) (k q n : Nat) (v : Word), 
    s.chip.passes .running = true →
    q < 40 ∧ n < 32 ∧ s.chip.accepts k (Reg.CAN.TX_REQ q) = true ∧ (s.chip.canSq q).onBus ≠ some (.mailbox n) →
    ∃ d, exec (.txReq k q v) s = .next { s with chip := d } ∧
      (bit v n = true → s.chip.mbValid q (s.chip.mbEntry q n).1 = true →
        d.mbStatus q n = 1 ∧ d.mb q n = { frame := (s.chip.mbEntry q n).1, deadline := (s.chip.mbEntry q n).2 }) ∧
      (bit v n = true → s.chip.mbValid q (s.chip.mbEntry q n).1 = false → d.mbStatus q n = 8 ∧ d.bitOf (Reg.CAN.TX_DONE q) n = true) ∧
      (bit v n = false → d.mbStatus q n = s.chip.mbStatus q n ∧ d.mb q n = s.chip.mb q n) ∧
      d = { s.chip with regs := d.regs, out := d.out, pba := d.pba, can := d.can }) ∧
  (∀ (s : State) (k q n : Nat) (v : Word), 
    s.chip.passes .running = true →
    q < 40 ∧ n < 32 ∧ s.chip.accepts k (Reg.CAN.TX_CANCEL q) = true ∧ bit v n = true ∧ s.chip.mbStatus q n = 1 →
    ∃ d, exec (.txCancel k q v) s = .next { s with chip := d } ∧
      ((s.chip.canSq q).onBus ≠ some (.mailbox n) → d.mbStatus q n = 3 ∧ d.bitOf (Reg.CAN.TX_DONE q) n = true) ∧
      ((s.chip.canSq q).onBus = some (.mailbox n) → d.mbStatus q n = 1 ∧ (d.mb q n).cancel = true) ∧
      d = { s.chip with regs := d.regs, out := d.out, pba := d.pba, can := d.can }) ∧
  (∀ (s : State) (q : Nat), 
    s.chip.passes .running = true →
    q < 40 ∧ s.chip.mayTransmit q = true ∧ s.chip.eligible q ≠ [] →
    ∃ d, exec (.canTxAttempt q) s = .next { s with chip := d } ∧
      ((d.canSq q).onBus.any fun x => (s.chip.eligible q).any fun e =>
        e.1 == x && (s.chip.eligible q).all fun g => decide (e.2 ≤ g.2)) = true ∧
      d.bitOf (Reg.CAN.STATUS q) 9 = false ∧ (s.chip.modeAct q = 4 → d.out = s.chip.out) ∧
      (s.chip.modeAct q ≠ 4 → d.out[s.chip.out.length]? = ((d.canSq q).onBus.bind (s.chip.srcFrame q)).map fun f =>
        ({ kind := .canStart, unit := q, arg := s.chip.pwmOf q f, data := canRecord (s.chip.onWire q f) true s.chip.ns } : Out)) ∧
      s.chip.keeps d [Reg.CAN.STATUS q] ∧ d = { s.chip with regs := d.regs, out := d.out, pba := d.pba, can := d.can }) ∧
  (∀ (s : State) (q : Nat) (x : CanSrc), 
    s.chip.passes .running = true →
    q < 40 ∧ s.chip.modeAct q ≠ 4 ∧ (s.chip.canSq q).onBus = some x ∧ (s.chip.canSq q).resetReq = false →
    ∃ d, exec (.canArbitrationLost q) s = .next { s with chip := d } ∧
      (d.canSq q).onBus = none ∧ (d.canSq q).receiving = true ∧
      d.reg (Reg.CAN.ARB_LOST_CNT q) = sat32 ((s.chip.reg (Reg.CAN.ARB_LOST_CNT q)).toNat + 1) ∧
      d = { s.chip with regs := d.regs, out := d.out, pba := d.pba, can := d.can }) ∧
  (∀ (s : State) (q n : Nat) (delay : Option Nat), 
    s.chip.passes .running = true →
    q < 40 ∧ n < 32 ∧ (s.chip.canSq q).onBus = some (.mailbox n) ∧ s.chip.mbStatus q n = 1 ∧ (s.chip.mb q n).again = none →
    (s.chip.canSq q).resetReq = false →
    ∃ d, exec (.canFrameTransmitted q delay) s = .next { s with chip := d } ∧
      d.mbStatus q n = (if (s.chip.mb q n).cancel then 4 else 2) ∧ d.bitOf (Reg.CAN.TX_DONE q) n = true ∧
      (d.canSq q).onBus = none ∧
      d.reg (Reg.CAN.TX_FRAMES q) = sat32 ((s.chip.reg (Reg.CAN.TX_FRAMES q)).toNat + 1) ∧
      d.tec q = s.chip.tec q - 1) ∧
  (∀ (s : State) (q n dl : Nat), 
    s.chip.passes .running = true →
    q < 40 ∧ n < 32 ∧ (s.chip.canSq q).onBus ≠ some (.mailbox n) ∧ s.chip.mbStatus q n = 1 →
    (s.chip.mb q n).deadline = some dl ∧ dl < s.chip.now →
    ∃ d, exec (.canDeadlineExpiry q (.mailbox n)) s = .next { s with chip := d } ∧
      d.mbStatus q n = 5 ∧ d.bitOf (Reg.CAN.TX_DONE q) n = true ∧
      d.reg (Reg.CAN.STALE_CNT q) = sat32 ((s.chip.reg (Reg.CAN.STALE_CNT q)).toNat + 1) ∧
      d.bitOf (hIrqStat (0x100 + q)) 16 = true ∧
      s.chip.keeps d [Reg.CAN.TX_STAT q (n / 8), Reg.CAN.TX_DONE q, Reg.CAN.STALE_CNT q, hIrqStat (0x100 + q)] ∧
      d = { s.chip with regs := d.regs, out := d.out, pba := d.pba, can := d.can }) ∧
  (∀ (s : State) (q cls : Nat) (k : Copy), 
    s.chip.passes .running = true →
    q < 40 ∧ cls < 8 ∧ lookupKey (s.chip.canSq q).cls cls = none ∧ s.chip.halted = false ∧ s.chip.canStalled q = false →
    s.chip.egrHead q cls = some k ∧ k.ready = true ∧ k.aborted = false →
    s.chip.pastDeadline k = false ∧ s.chip.canRecOk q k.data = true →
    ∃ d, exec (.canClassBufferPull q cls true) s = .next { s with chip := d } ∧
      lookupKey (d.canSq q).cls cls = some { copy := k, frame := canOfRecord k.data } ∧
      d.fab.copies = s.chip.fab.copies.filter (fun x => x.id != k.id) ∧
      d = { s.chip with regs := d.regs, out := d.out, pba := d.pba, can := d.can, fab := d.fab }) ∧
  (∀ (s : State) (q t e : Nat), 
    s.chip.passes .running = true →
    q < 40 ∧ s.chip.schedNext q = some (t, e) ∧ t ≤ s.chip.ns ∧ e < 256 →
    bit (s.chip.schedEntry q e) 63 = true ∧ bit (s.chip.schedEntry q e) 62 = false →
    ∃ d, exec (.canScheduleEntry q) s = .next { s with chip := d } ∧
      d.fldOf (Reg.CAN.SCHED_STAT q) 24 16 = e ∧ d.fldOf (Reg.CAN.SCHED_STAT q) 8 0 = fld (s.chip.schedEntry q e) 56 48 ∧
      (d.canSq q).schedPos = some (t, e) ∧
      s.chip.keeps d [Reg.CAN.SCHED_STAT q] ∧ d = { s.chip with regs := d.regs, can := d.can })

/-- Chapter 4: CAN_FRAME_RECEIVED counts the frame and places it in the first matching EMPTY buffer with its stamp and Tempo state; RX_MAILBOX_LOCK by the owner locks a FULL buffer and echoes word 0; RX_MAILBOX_RELEASE empties a LOCKED buffer or moves the pending frame in with the carried OVR; CAN_SYNC_QUEUE queues a SYNC with the next SEQ at a multiple of PERIOD; CAN_FOLLOWUP_QUEUE queues the due FOLLOW-UP, withdrawing and counting an unsent earlier one; TSYNC_CONFIG_WRITE takes its register. -/
def Obligations.CanReceiveAndTimeCommands : Prop :=
  (∀ (s : State) (q : Nat) (f : CanFrame) (x : CanIn), 
    s.chip.passes .running = true →
    q < 40 ∧ s.chip.listens q = true ∧ s.chip.fmtEnabled q f = true ∧ (s.chip.canSq q).resetReq = false →
    ∃ d, exec (.canFrameReceived q f x) s = .next { s with chip := d } ∧
      d.reg (Reg.CAN.RX_FRAMES q) = sat32 ((s.chip.reg (Reg.CAN.RX_FRAMES q)).toNat + 1) ∧
      (d.canSq q).receiving = false) ∧
  (∀ (s : State) (q n : Nat) (f : CanFrame) (x : CanIn), 
    s.chip.passes .running = true →
    q < 40 ∧ s.chip.listens q = true ∧ s.chip.fmtEnabled q f = true ∧ (s.chip.canSq q).resetReq = false →
    s.chip.rxPlace q f = some n ∧ (s.chip.rxBuf q n).state = 0 →
    ∃ d, exec (.canFrameReceived q f x) s = .next { s with chip := d } ∧
      d.rxBuf q n = { s.chip.rxBuf q n with state := 1, ovr := 0, held := some { frame := f, stamp := s.chip.ns % 2 ^ 48, tstate := s.chip.tempoState } }) ∧
  (∀ (s : State) (q n : Nat) (f : CanFrame) (x : CanIn) (b : RxBuf), 
    s.chip.passes .running = true →
    q < 40 ∧ s.chip.listens q = true ∧ s.chip.fmtEnabled q f = true ∧ (s.chip.canSq q).resetReq = false →
    s.chip.rxPlace q f = some n ∧ b = s.chip.rxBuf q n ∧ b.state = 1 →
    ∃ d, exec (.canFrameReceived q f x) s = .next { s with chip := d } ∧
      d.rxBuf q n = { b with held := some { frame := f, stamp := s.chip.ns % 2 ^ 48, tstate := s.chip.tempoState }, ovr := min 255 (b.ovr + 1) } ∧
      d.reg (Reg.CAN.OVR_CNT q) = sat32 ((s.chip.reg (Reg.CAN.OVR_CNT q)).toNat + 1) ∧
      d.bitOf (hIrqStat (0x100 + q)) 11 = true) ∧
  (∀ (s : State) (q n : Nat) (seen : Bool), 
    s.chip.passes .running = true →
    q < 40 ∧ n < 20 ∧ (s.chip.rxBuf q n).state = 1 →
    s.chip.implemented (0x100 + q) = true ∧ s.chip.held (0x100 + q) = false →
    ∃ d, exec (.rxMailboxLock (s.chip.owner (0x100 + q)) q n seen) s = .next { s with chip := d } ∧
      d.rxBuf q n = { s.chip.rxBuf q n with state := 2 } ∧ d.reg (hEchoData (0x100 + q)) = (s.chip.rxBuf q n).word 0 ∧
      s.chip.keeps d [hEchoData (0x100 + q), hEchoAddr (0x100 + q), hErr (0x100 + q), hIrqStat (0x100 + q)] ∧
      d = { s.chip with regs := d.regs, out := d.out, pba := d.pba, can := d.can, echoUnread := d.echoUnread }) ∧
  (∀ (s : State) (q n : Nat) (seen : Bool), 
    s.chip.passes .running = true →
    q < 40 ∧ n < 20 ∧ (s.chip.rxBuf q n).state = 2 →
    s.chip.implemented (0x100 + q) = true ∧ s.chip.held (0x100 + q) = false →
    ∃ d, exec (.rxMailboxRelease (s.chip.owner (0x100 + q)) q n seen) s = .next { s with chip := d } ∧
      d.rxBuf q n = (match (s.chip.rxBuf q n).slot with | none => {} | some r => { state := 1, held := some r, ovr := (s.chip.rxBuf q n).carried }) ∧
      s.chip.keeps d [hEchoData (0x100 + q), hEchoAddr (0x100 + q), hErr (0x100 + q), hIrqStat (0x100 + q)] ∧
      d = { s.chip with regs := d.regs, out := d.out, pba := d.pba, can := d.can, echoUnread := d.echoUnread }) ∧
  (∀ (s : State) (q : Nat), 
    s.chip.passes .running = true →
    q < 40 ∧ s.chip.tsActive q = true ∧ (s.chip.canSq q).syncNext ≤ s.chip.ns →
    (s.chip.canSq q).sync = none ∧ (s.chip.canSq q).onBus ≠ some .sync ∧ (s.chip.tempoState ≠ 0 ∨ s.chip.bitOf Reg.TSYNC.TS_CTRL 1 = true) →
    ∃ d, exec (.canSyncQueue q) s = .next { s with chip := d } ∧
      (d.canSq q).sync = some (s.chip.canSq q).seq ∧ (d.canSq q).seq = ((s.chip.canSq q).seq + 1) % 16 ∧
      (d.canSq q).syncNext = s.chip.tsMultiple q s.chip.ns ∧ d = { s.chip with can := d.can }) ∧
  (∀ (s : State) (q t : Nat) (f : FollowUp), 
    s.chip.passes .running = true →
    q < 40 ∧ (s.chip.canSq q).fuDue.find? (fun x => decide (x.1 ≤ s.chip.now)) = some (t, f) ∧ (s.chip.canSq q).fu = none →
    ∃ d, exec (.canFollowupQueue q) s = .next { s with chip := d } ∧
      (d.canSq q).fu = some f ∧ (d.canSq q).fuDue = (s.chip.canSq q).fuDue.erase (t, f) ∧ d = { s.chip with can := d.can }) ∧
  (∀ (s : State) (q t : Nat) (f o : FollowUp), 
    s.chip.passes .running = true →
    q < 40 ∧ (s.chip.canSq q).fuDue.find? (fun x => decide (x.1 ≤ s.chip.now)) = some (t, f) ∧ (s.chip.canSq q).onBus ≠ some .followUp →
    (s.chip.canSq q).fu = some o →
    ∃ d, exec (.canFollowupQueue q) s = .next { s with chip := d } ∧
      (d.canSq q).fu = some f ∧ (d.canSq q).fuDue = (s.chip.canSq q).fuDue.erase (t, f) ∧
      d.reg (Reg.TSYNC.TS_STAT q) = setBit (s.chip.reg (Reg.TSYNC.TS_STAT q)) 8 true ∧
      d.reg Reg.TSYNC.TS_FAIL_CNT = sat32 ((s.chip.reg Reg.TSYNC.TS_FAIL_CNT).toNat + 1) ∧ d.bitOf (hIrqStat 0x011) 0 = true ∧
      s.chip.keeps d [Reg.TSYNC.TS_STAT q, Reg.TSYNC.TS_FAIL_CNT, hIrqStat 0x011] ∧
      d = { s.chip with regs := d.regs, out := d.out, pba := d.pba, can := d.can }) ∧
  (∀ (s : State) (k q : Nat) (v : Word) (be a : Nat) (r : RegRow), 
    s.chip.passes .running = true →
    q < 41 ∧ a = (if q = 40 then Reg.TSYNC.TS_CTRL else Reg.TSYNC.TS_SQ q) →
    s.chip.accepts k a = true ∧ rowOf a = some r →
    ∃ d, exec (.tsyncConfigWrite k q v be) s = .next { s with chip := d } ∧
      d.reg a = r.apply (s.chip.reg a) v (beMask be) ∧
      (q < 40 → s.chip.keeps d [a, Reg.TSYNC.TS_STAT q]) ∧ d = { s.chip with regs := d.regs, can := d.can })

/-- Chapter 5: ETH_FRAME_RECEIVED with a permitted length, good FCS and no MAC control type counts a received frame, and with a bad FCS is discarded as RX_FCS_ERR with its LAST_DROP record; fragments that fail reassembly count in MM_REASM_ERR; PAUSE_FRAME_RECEIVED in PAUSE mode starts a pause of its time, at once or at the end of the frame on the line, and one that the mode does not act on counts in RX_CTRL_DROP; PAUSE_EXPIRY ends it; PAUSE_DUTY_WINDOW at a new second restarts the counts; PAUSE_TX_REPEAT queues the pause time again while the condition holds; LAST_DROP_READ by the owner clears the record. -/
def Obligations.EthernetReceiveCommands : Prop :=
  (∀ (s : State) (q lag : Nat) (b : List Byte) (early : Bool), 
    s.chip.passes .running = true →
    40 ≤ q ∧ q < 64 ∧ s.chip.rxOn q = true ∧ 60 ≤ b.length ∧ etherType b ≠ 0x8808 ∧ (s.chip.ethSq q).tooLong = false →
    b.length + 4 ≤ (if q < 48 then min (s.chip.fldOf (Reg.ETH.MAX_LEN q) 13 0) 8180 else s.chip.fldOf (Reg.ETH.MAX_LEN q) 13 0) →
    ∃ d, exec (.ethFrameReceived q b true { how := 0, lag := lag } early) s = .next { s with chip := d } ∧
      d.reg (Reg.ETH.RX_FRAMES q) = sat32 ((s.chip.reg (Reg.ETH.RX_FRAMES q)).toNat + 1) ∧
      d.reg (Reg.ETH.RX_FCS_ERR q) = s.chip.reg (Reg.ETH.RX_FCS_ERR q) ∧ ((s.chip.ethSq q).plcaFrom = none → d.eth = s.chip.eth)) ∧
  (∀ (s : State) (q lag : Nat) (b : List Byte) (early : Bool), 
    s.chip.passes .running = true →
    40 ≤ q ∧ q < 64 ∧ s.chip.rxOn q = true ∧ 60 ≤ b.length ∧ (s.chip.ethSq q).tooLong = false →
    b.length + 4 ≤ (if q < 48 then min (s.chip.fldOf (Reg.ETH.MAX_LEN q) 13 0) 8180 else s.chip.fldOf (Reg.ETH.MAX_LEN q) 13 0) →
    ∃ d, exec (.ethFrameReceived q b false { how := 0, lag := lag } early) s = .next { s with chip := d } ∧
      d.reg (Reg.ETH.RX_FCS_ERR q) = sat32 ((s.chip.reg (Reg.ETH.RX_FCS_ERR q)).toNat + 1) ∧
      d.reg (Reg.ETH.LAST_DROP q) = 0x80000003 ∧ d.bitOf (hIrqStat (0x100 + q)) 1 = true ∧
      d.reg (Reg.ETH.RX_FRAMES q) = s.chip.reg (Reg.ETH.RX_FRAMES q) ∧ ((s.chip.ethSq q).plcaFrom = none → d.eth = s.chip.eth)) ∧
  (∀ (s : State) (q lag : Nat) (b : List Byte) (fcsOk early : Bool), 
    s.chip.passes .running = true →
    40 ≤ q ∧ q < 64 ∧ s.chip.rxOn q = true →
    ∃ d, exec (.ethFrameReceived q b fcsOk { how := 2, lag := lag } early) s = .next { s with chip := d } ∧
      d.reg (Reg.ETH.MM_REASM_ERR q) = sat32 ((s.chip.reg (Reg.ETH.MM_REASM_ERR q)).toNat + 1) ∧
      d.bitOf (hIrqStat (0x100 + q)) 2 = true ∧
      s.chip.keeps d [Reg.ETH.MM_REASM_ERR q, hIrqStat (0x100 + q), Reg.STG.WR_PTR q, Reg.STG.CREDITS q, Reg.STG.HWM q, Reg.STG.LAST_ERR q,
        Reg.STG.REWIND_CNT q, Reg.STG.ABORT_CNT q, Reg.STG.CREDIT_DROP q, hIrqStat (0x140 + q)] ∧
      d = { s.chip with regs := d.regs, out := d.out, pba := d.pba, stg := d.stg, mem := d.mem }) ∧
  (∀ (s : State) (q vec t : Nat), 
    s.chip.passes .running = true →
    48 ≤ q ∧ q < 64 ∧ s.chip.rxOn q = true ∧ s.chip.fcMode q = 1 ∧ 0 < t →
    (s.chip.ethSq q).ignoring / 2 ^ 8 % 2 = 0 ∧ 1000 ≤ s.chip.fldOf (Reg.ETH.FC_DUTY q) 9 0 ∧ (s.chip.ethSq q).onLine = none →
    ∃ d, exec (.pauseFrameReceived q 1 vec [t]) s = .next { s with chip := d } ∧
      sget 0 (d.ethSq q).pauseEnd 8 = s.chip.now + s.chip.bitsFs q (512 * t) ∧
      d.reg (Reg.ETH.RX_PAUSE q) = sat32 ((s.chip.reg (Reg.ETH.RX_PAUSE q)).toNat + 1) ∧
      s.chip.keeps d [Reg.ETH.RX_PAUSE q, Reg.ETH.FC_USED q, Reg.ETH.STATUS q] ∧
      d = { s.chip with regs := d.regs, eth := d.eth }) ∧
  (∀ (s : State) (q vec t id : Nat), 
    s.chip.passes .running = true →
    48 ≤ q ∧ q < 64 ∧ s.chip.rxOn q = true ∧ s.chip.fcMode q = 1 ∧ 0 < t →
    (s.chip.ethSq q).ignoring / 2 ^ 8 % 2 = 0 ∧ 1000 ≤ s.chip.fldOf (Reg.ETH.FC_DUTY q) 9 0 ∧ (s.chip.ethSq q).onLine = some id →
    ∃ d, exec (.pauseFrameReceived q 1 vec [t]) s = .next { s with chip := d } ∧
      (8, id, t) ∈ (d.ethSq q).pauseWait ∧ (d.ethSq q).pauseEnd = (s.chip.ethSq q).pauseEnd ∧
      d.reg (Reg.ETH.RX_PAUSE q) = sat32 ((s.chip.reg (Reg.ETH.RX_PAUSE q)).toNat + 1) ∧
      s.chip.keeps d [Reg.ETH.RX_PAUSE q, Reg.ETH.FC_USED q, Reg.ETH.STATUS q] ∧
      d = { s.chip with regs := d.regs, eth := d.eth }) ∧
  (∀ (s : State) (q op vec : Nat) (times : List Nat), 
    s.chip.passes .running = true →
    40 ≤ q ∧ q < 64 ∧ s.chip.rxOn q = true →
    q < 48 ∨ (op ≠ 1 ∧ op ≠ 0x101) ∨ (op = 1 ∧ s.chip.fcMode q ≠ 1) ∨ (op = 0x101 ∧ s.chip.fcMode q ≠ 2) →
    ∃ d, exec (.pauseFrameReceived q op vec times) s = .next { s with chip := d } ∧
      d.reg (Reg.ETH.RX_CTRL_DROP q) = sat32 ((s.chip.reg (Reg.ETH.RX_CTRL_DROP q)).toNat + 1) ∧
      d.reg (Reg.ETH.LAST_DROP q) = 0x80000004 ∧
      s.chip.keeps d [Reg.ETH.RX_CTRL_DROP q, Reg.ETH.LAST_DROP q] ∧ d = { s.chip with regs := d.regs }) ∧
  (∀ (s : State) (q ch : Nat), 
    s.chip.passes .running = true →
    40 ≤ q ∧ q < 64 ∧ ch < 9 ∧ sget 0 (s.chip.ethSq q).pauseEnd ch ≠ 0 ∧ sget 0 (s.chip.ethSq q).pauseEnd ch ≤ s.chip.now →
    ∃ d, exec (.pauseExpiry q ch) s = .next { s with chip := d } ∧
      sget 0 (d.ethSq q).pauseEnd ch = 0 ∧ (ch = 8 → d.bitOf (Reg.ETH.STATUS q) 4 = false) ∧
      (ch < 8 → d.bitOf (Reg.ETH.STATUS q) (8 + ch) = false) ∧
      s.chip.keeps d [Reg.ETH.FC_USED q, Reg.ETH.STATUS q] ∧ d = { s.chip with regs := d.regs, eth := d.eth }) ∧
  (∀ (s : State) (q : Nat), 
    s.chip.passes .running = true →
    40 ≤ q ∧ q < 64 ∧ s.chip.ns / 10 ^ 9 ≠ (s.chip.ethSq q).dutyWindow →
    ∃ d, exec (.pauseDutyWindow q) s = .next { s with chip := d } ∧
      (d.ethSq q).pauseUsed = [] ∧ (d.ethSq q).ignoring = 0 ∧ (d.ethSq q).dutyWindow = s.chip.ns / 10 ^ 9 ∧
      d.bitOf (Reg.ETH.STATUS q) 5 = false ∧ d.reg (Reg.ETH.FC_USED q) = 0) ∧
  (∀ (s : State) (q ch : Nat), 
    s.chip.passes .running = true →
    40 ≤ q ∧ q < 64 ∧ ch < 9 ∧ (s.chip.fcChannels q).contains ch = true ∧ (s.chip.ethSq q).cond / 2 ^ ch % 2 = 1 ∧ sget 0 (s.chip.ethSq q).txPauseNext ch ≤ s.chip.now →
    ∃ d, exec (.pauseTxRepeat q ch) s = .next { s with chip := d } ∧
      (d.ethSq q).pausePend = (s.chip.ethSq q).pausePend.filter (fun x => x.1 != ch) ++ [(ch, s.chip.fldOf (Reg.ETH.FC_CFG q) 31 16)] ∧
      sget 0 (d.ethSq q).txPauseNext ch = s.chip.now + s.chip.pauseHalf q ∧ d = { s.chip with eth := d.eth }) ∧
  (∀ (s : State) (q : Nat) (seen : Bool), 
    s.chip.passes .running = true →
    40 ≤ q ∧ q < 64 ∧ s.chip.implemented (0x100 + q) = true ∧ s.chip.held (0x100 + q) = false →
    ∃ d, exec (.lastDropRead (s.chip.owner (0x100 + q)) q seen) s = .next { s with chip := d } ∧
      d.reg (Reg.ETH.LAST_DROP q) = 0 ∧ d.reg (hEchoData (0x100 + q)) = s.chip.reg (Reg.ETH.LAST_DROP q) ∧
      s.chip.keeps d [Reg.ETH.LAST_DROP q, hEchoData (0x100 + q), hEchoAddr (0x100 + q), hErr (0x100 + q), hIrqStat (0x100 + q)] ∧
      d = { s.chip with regs := d.regs, out := d.out, pba := d.pba, echoUnread := d.echoUnread })

/-- Chapter 5: LINK_UP once PCS_UP has stood for LINK_UP_DEB raises the link, ends HOLD and clears TW_VALID; LINK_DOWN lowers it, counts and starts HOLD for HOLD_MS; LINK_HOLD_EXPIRY flushes every copy of the square, but that one being launched stays, marked as discarded; PLCA_BEACON_RECEIVED makes the PLCA status good and PLCA_LOSS counts its loss; SDS_MODE_WRITE with the enables off takes a permitted mode and refuses it otherwise; MDIO_CMD with GO starts one operation and MDIO_DONE ends it with the data read; MM_VERIFY_TIMER ends the verification with a response, or after three attempts as failed. -/
def Obligations.EthernetLinkCommands : Prop :=
  (∀ (s : State) (q st t : Nat), 
    s.chip.passes .running = true →
    48 ≤ q ∧ q < 64 ∧ pcsUp (s.chip.reg (Reg.SDS.SDS_MODE q)) st = true ∧ (s.chip.ethSq q).pcsUpAt = some t →
    t + s.chip.fldOf (Reg.ETH.LINK_CFG q) 15 0 * 10 ^ 9 ≤ s.chip.now ∧ s.chip.ethStat q 0 = false →
    ∃ d, exec (.linkUp q st) s = .next { s with chip := d } ∧
      d.ethStat q 0 = true ∧ d.ethStat q 1 = false ∧ d.bitOf (hIrqStat (0x100 + q)) 9 = true ∧
      (d.ethSq q).holdUntil = none ∧ d.bitOf (Reg.ETH.EEE_TW q) 31 = false ∧ d.bitOf (Reg.SDS.SDS_STAT q) 3 = true ∧
      d = { s.chip with regs := d.regs, out := d.out, pba := d.pba, eth := d.eth, fab := d.fab }) ∧
  (∀ (s : State) (q st : Nat), 
    s.chip.passes .running = true →
    48 ≤ q ∧ q < 64 ∧ pcsUp (s.chip.reg (Reg.SDS.SDS_MODE q)) st = false ∧ s.chip.ethStat q 0 = true →
    0 < s.chip.fldOf (Reg.ETH.LINK_CFG q) 31 16 →
    ∃ d, exec (.linkDown q st) s = .next { s with chip := d } ∧
      d.ethStat q 0 = false ∧ d.ethStat q 1 = true ∧ d.bitOf (hIrqStat (0x100 + q)) 10 = true ∧
      d.reg (Reg.ETH.LINK_DOWN_CNT q) = sat32 ((s.chip.reg (Reg.ETH.LINK_DOWN_CNT q)).toNat + 1) ∧
      (d.ethSq q).holdUntil = some (s.chip.now + s.chip.fldOf (Reg.ETH.LINK_CFG q) 31 16 * 10 ^ 12) ∧
      (d.ethSq q).tx = none ∧ (d.ethSq q).preempted = none) ∧
  (∀ (s : State) (q t : Nat), 
    s.chip.passes .running = true →
    40 ≤ q ∧ q < 64 ∧ (s.chip.ethSq q).holdUntil = some t ∧ t ≤ s.chip.now →
    ∃ d, exec (.linkHoldExpiry q) s = .next { s with chip := d } ∧
      d.fab.copies.all (fun k => k.output != q || k.discarded) = true ∧ (d.ethSq q).holdUntil = none ∧ (d.ethSq q).holdExpired = true ∧
      d.bitOf (hIrqStat (0x100 + q)) 11 = true) ∧
  (∀ (s : State) (q : Nat), 
    s.chip.passes .running = true →
    40 ≤ q ∧ q < 48 ∧ s.chip.bitOf (Reg.ETH.PLCA_CFG q) 31 = true →
    s.chip.bitOf (Reg.ETH.CTRL q) 0 = true ∨ s.chip.bitOf (Reg.ETH.CTRL q) 1 = true →
    ∃ d, exec (.plcaBeaconReceived q) s = .next { s with chip := d } ∧
      d.ethStat q 18 = true ∧ d.ethStat q 19 = false ∧ d.ethStat q 0 = true ∧ (d.ethSq q).plcaFrom = some s.chip.now ∧
      d = { s.chip with regs := d.regs, out := d.out, pba := d.pba, eth := d.eth, fab := d.fab }) ∧
  (∀ (s : State) (q : Nat), 
    s.chip.passes .running = true →
    40 ≤ q ∧ q < 48 ∧ s.chip.bitOf (Reg.ETH.PLCA_CFG q) 31 = true →
    s.chip.fldOf (Reg.ETH.PLCA_NODE q) 2 0 ≠ 0 ∧ s.chip.ethStat q 18 = true →
    ∃ d, exec (.plcaLoss q) s = .next { s with chip := d } ∧
      d.ethStat q 18 = false ∧ d.ethStat q 19 = s.chip.bitOf (Reg.ETH.PLCA_CFG q) 30 ∧
      d.reg (Reg.ETH.PLCA_LOSS_CNT q) = sat32 ((s.chip.reg (Reg.ETH.PLCA_LOSS_CNT q)).toNat + 1) ∧
      d.bitOf (hIrqStat (0x100 + q)) 3 = true) ∧
  (∀ (s : State) (k q : Nat) (v : Word) (be : Nat) (nv : Word), 
    s.chip.passes .running = true →
    48 ≤ q ∧ q < 64 ∧ s.chip.accepts k (Reg.SDS.SDS_MODE q) = true →
    nv = (s.chip.reg (Reg.SDS.SDS_MODE q) &&& ~~~ (0x313F &&& beMask be)) ||| (v &&& (0x313F &&& beMask be)) →
    s.chip.bitOf (Reg.ETH.CTRL q) 0 = false ∧ s.chip.bitOf (Reg.ETH.CTRL q) 1 = false ∧ sdsModeBad q nv = false →
    ∃ d, exec (.sdsModeWrite k q v be) s = .next { s with chip := d } ∧
      d.reg (Reg.SDS.SDS_MODE q) = nv ∧ d.bitOf (Reg.SDS.SDS_STAT q) 9 = false ∧ d.ethStat q 0 = false) ∧
  (∀ (s : State) (k q : Nat) (v : Word) (be : Nat) (nv : Word), 
    s.chip.passes .running = true →
    48 ≤ q ∧ q < 64 ∧ s.chip.accepts k (Reg.SDS.SDS_MODE q) = true →
    nv = (s.chip.reg (Reg.SDS.SDS_MODE q) &&& ~~~ (0x313F &&& beMask be)) ||| (v &&& (0x313F &&& beMask be)) →
    s.chip.bitOf (Reg.ETH.CTRL q) 0 = true ∨ s.chip.bitOf (Reg.ETH.CTRL q) 1 = true ∨ sdsModeBad q nv = true →
    ∃ d, exec (.sdsModeWrite k q v be) s = .next { s with chip := d } ∧
      d.reg (Reg.SDS.SDS_MODE q) = s.chip.reg (Reg.SDS.SDS_MODE q) ∧ d.bitOf (Reg.SDS.SDS_STAT q) 9 = true ∧
      d.bitOf (hErr (0x190 + (q - 48))) 7 = true ∧
      s.chip.keeps d [Reg.SDS.SDS_STAT q, hErr (0x190 + (q - 48)), hIrqStat (0x190 + (q - 48))] ∧
      d = { s.chip with regs := d.regs, out := d.out, pba := d.pba }) ∧
  (∀ (s : State) (k q : Nat) (v w a : Word), 
    s.chip.passes .running = true →
    q = 48 ∨ q = 56 →
    s.chip.accepts k (Reg.SDS.MDIO_CMD q) = true ∧ s.chip.bitOf (Reg.SDS.MDIO_CMD q) 31 = false ∧ bit v 31 = true →
    w = v &&& 0xF3FFFFFF ∧ a = setFld (setFld w 29 28 0) 15 0 (s.chip.fldOf (Reg.SDS.MDIO_ADDR q) 15 0) →
    ∃ d, exec (.mdioCmd k q v) s = .next { s with chip := d } ∧
      d.reg (Reg.SDS.MDIO_CMD q) = w ∧
      (bit v 30 = false → d.out = s.chip.out ++ [{ kind := .mdio, unit := q, arg := w.toNat }]) ∧
      (bit v 30 = true → fld v 29 28 = 0 → d.out = s.chip.out ++ [{ kind := .mdio, unit := q, arg := a.toNat }]) ∧
      (bit v 30 = true → fld v 29 28 ≠ 0 → d.out = s.chip.out ++ [{ kind := .mdio, unit := q, arg := a.toNat }, { kind := .mdio, unit := q, arg := w.toNat }]) ∧
      s.chip.keeps d [Reg.SDS.MDIO_CMD q] ∧ d = { s.chip with regs := d.regs, out := d.out, pba := d.pba }) ∧
  (∀ (s : State) (q rdata : Nat) (cmd : Word), 
    s.chip.passes .running = true →
    q = 48 ∨ q = 56 →
    cmd = s.chip.reg (Reg.SDS.MDIO_CMD q) ∧ bit cmd 31 = true →
    ∃ d, exec (.mdioDone q rdata) s = .next { s with chip := d } ∧
      d.bitOf (Reg.SDS.MDIO_CMD q) 31 = false ∧ d.bitOf (hIrqStat (0x190 + (q - 48))) 4 = true ∧
      (if (bit cmd 30 = true ∧ 2 ≤ fld cmd 29 28) ∨ (bit cmd 30 = false ∧ fld cmd 29 28 = 2)
        then d.reg (Reg.SDS.MDIO_RDATA q) = BitVec.ofNat 32 (rdata % 0x10000)
        else d.reg (Reg.SDS.MDIO_RDATA q) = s.chip.reg (Reg.SDS.MDIO_RDATA q)) ∧
      s.chip.keeps d [Reg.SDS.MDIO_CMD q, Reg.SDS.MDIO_RDATA q, hIrqStat (0x190 + (q - 48))] ∧
      d = { s.chip with regs := d.regs, out := d.out, pba := d.pba }) ∧
  (∀ (s : State) (q : Nat), 
    s.chip.passes .running = true →
    48 ≤ q ∧ q < 64 ∧ s.chip.fldOf (Reg.ETH.STATUS q) 17 16 = 1 →
    ∃ d, exec (.mmVerifyTimer q true) s = .next { s with chip := d } ∧
      d.fldOf (Reg.ETH.STATUS q) 17 16 = 2 ∧ (d.ethSq q).verifyAt = none ∧ d.bitOf (hIrqStat (0x100 + q)) 4 = true ∧
      s.chip.keeps d [Reg.ETH.STATUS q, hIrqStat (0x100 + q)] ∧ d = { s.chip with regs := d.regs, out := d.out, pba := d.pba, eth := d.eth }) ∧
  (∀ (s : State) (q t : Nat), 
    s.chip.passes .running = true →
    48 ≤ q ∧ q < 64 ∧ s.chip.fldOf (Reg.ETH.STATUS q) 17 16 = 1 ∧ (s.chip.ethSq q).verifyAt = some t ∧ t ≤ s.chip.now →
    ∃ d, exec (.mmVerifyTimer q false) s = .next { s with chip := d } ∧
      (3 ≤ (s.chip.ethSq q).attempts → d.fldOf (Reg.ETH.STATUS q) 17 16 = 3 ∧
        d.reg (Reg.ETH.MM_VERIFY_FAIL q) = sat32 ((s.chip.reg (Reg.ETH.MM_VERIFY_FAIL q)).toNat + 1)) ∧
      ((s.chip.ethSq q).attempts < 3 → d.regs = s.chip.regs ∧ (d.ethSq q).attempts = (s.chip.ethSq q).attempts + 1 ∧
        (d.ethSq q).mmPend = (s.chip.ethSq q).mmPend ++ [false]) ∧
      s.chip.keeps d [Reg.ETH.STATUS q, Reg.ETH.MM_VERIFY_FAIL q, hIrqStat (0x100 + q)])

/-- Chapter 5: ETH_TRANSMIT_SELECT, where the MAC is free, no pause or merge frame waits, the gap has passed and heads that must go have gone, hands the head of the highest class that may start to the Adjudicator, and starts it once released; a copy that generates a sequence number draws the next one then; ETH_FRAME_TX_DONE puts the frame or its last fragment with its FCS on the line, counts it, frees the MAC and removes the copy; GATE_LIST_ENTRY puts the entry in force, with its gate states, into GATE_STAT; LPI_ENTER after EEE_IDLE of silence enters LPI and counts; LPI_GATE_WAKE TW_TX before a gate opens leaves it; FRER_RECOVERY_RESET sets TAKE_ANY and counts; FRER_LATENT_TEST takes the new base and counts a latent error beyond the threshold. -/
def Obligations.EthernetTransmitCommands : Prop :=
  (∀ (s : State) (q : Nat) (c0 c1 : Chip) (k : Copy) (b : List Byte), 
    s.chip.passes .running = true →
    40 ≤ q ∧ q < 64 ∧ c0 = s.chip.plcaBeacon q ∧ c0.txOn q = true ∧ (c0.ethSq q).tx = none ∧ (c0.ethSq q).gapEnd ≤ c0.now →
    (c0.ethSq q).pausePend = [] ∧ (c0.ethSq q).mmPend = [] →
    c1 = (List.range 8).foldl (fun c cls => c.purgeHead q cls c.fab.copies.length) (c0.creditUpdate q) →
    c1.startable q = some k ∧ c1.ethStat q 2 = false ∧ k.passed = true ∧ k.ready = true →
    (c1.macsecTx q (editFrame k)).2 = some b →
    ∃ d, exec (.ethTransmitSelect q true) s = .next { s with chip := d } ∧
      (d.ethSq q).tx.map (fun f => (f.copy, f.bytes)) = some (k, b ++ List.replicate (60 - b.length) 0) ∧
      ((List.range 8).all fun cls => decide (cls ≤ k.cls) || (c1.mayStart q cls).isNone) = true) ∧
  (∀ (s : State) (q : Nat) (c0 c1 : Chip) (k : Copy), 
    s.chip.passes .running = true →
    40 ≤ q ∧ q < 64 ∧ c0 = s.chip.plcaBeacon q ∧ c0.txOn q = true ∧ (c0.ethSq q).tx = none ∧ (c0.ethSq q).gapEnd ≤ c0.now →
    (c0.ethSq q).pausePend = [] ∧ (c0.ethSq q).mmPend = [] →
    c1 = (List.range 8).foldl (fun c cls => c.purgeHead q cls c.fab.copies.length) (c0.creditUpdate q) →
    c1.startable q = some k ∧ c1.ethStat q 2 = false ∧ k.passed = false →
    ∃ d, exec (.ethTransmitSelect q true) s = .next { s with chip := d } ∧
      d.fab.copies = (c1.frerDraw k).fab.copies.map (fun x => if x.id = k.id then { x with passed := true } else x) ∧ (d.ethSq q).tx = none) ∧
  (∀ (s : State) (q fn n : Nat) (c0 c1 : Chip) (k : Copy), 
    s.chip.passes .running = true →
    40 ≤ q ∧ q < 64 ∧ c0 = s.chip.plcaBeacon q ∧ c0.txOn q = true ∧ (c0.ethSq q).tx = none ∧ (c0.ethSq q).gapEnd ≤ c0.now →
    (c0.ethSq q).pausePend = [] ∧ (c0.ethSq q).mmPend = [] →
    c1 = (List.range 8).foldl (fun c cls => c.purgeHead q cls c.fab.copies.length) (c0.creditUpdate q) →
    c1.startable q = some k ∧ c1.ethStat q 2 = false ∧ k.passed = false ∧ k.genFn = some fn ∧ k.genSeq = none →
    n = fld (c1.tword (clsBase + 0x2000 + 8 * fn)) 15 0 →
    ∃ d, exec (.ethTransmitSelect q true) s = .next { s with chip := d } ∧
      d.fab.copies.any (fun x => x.id == k.id && x.genSeq == some n) = true ∧ fld (d.tword (clsBase + 0x2000 + 8 * fn)) 15 0 = (n + 1) % 0x10000) ∧
  (∀ (s : State) (q n : Nat) (f : MacFrame), 
    s.chip.passes .running = true →
    40 ≤ q ∧ q < 64 ∧ (s.chip.ethSq q).tx = some f ∧ s.chip.txBroken q f = none →
    s.chip.bitOf (Reg.ETH.CTRL q) 2 = false ∨ s.chip.bitOf (Reg.ETH.CTRL q) 0 = false →
    ∃ d, exec (.ethFrameTxDone q { coll := n }) s = .next { s with chip := d } ∧
      (d.ethSq q).tx = none ∧ (s.chip.bitOf (Reg.ETH.CTRL q) 2 = false → d.out[s.chip.out.length]? =
        some { kind := if f.sent = 0 then .ethFrame else .ethFrag, unit := q, arg := f.copy.cls, data := f.bytes.drop f.sent ++ bytesLE 4 (ethFcs f.bytes).toNat }) ∧ d.reg (Reg.ETH.TX_FRAMES q) = sat32 ((s.chip.reg (Reg.ETH.TX_FRAMES q)).toNat + 1) ∧
      d.fab.copies = s.chip.fab.copies.filter (fun x => x.id != f.copy.id)) ∧
  (∀ (s : State) (q : Nat) (r : GateRun) (t e : Nat), 
    s.chip.passes .running = true →
    40 ≤ q ∧ q < 64 ∧ (s.chip.ethSq q).run = some r ∧ (s.chip.ethSq q).pend = none ∧ r.next ≤ s.chip.ns →
    r.at s.chip.ns = some (t, e) →
    ∃ d, exec (.gateListEntry q) s = .next { s with chip := d } ∧
      (d.ethSq q).run = some { r with pos := some (t, e) } ∧
      d.fldOf (Reg.ETH.GATE_STAT q) 7 0 = fld (r.ents.getD e 0) 39 32 ∧ d.fldOf (Reg.ETH.GATE_STAT q) 26 16 = e % 2048 ∧
      (d.ethSq q).tx.map (fun f => (f.copy, f.bytes)) = (s.chip.ethSq q).tx.map (fun f => (f.copy, f.bytes))) ∧
  (∀ (s : State) (q t : Nat), 
    s.chip.passes .running = true →
    40 ≤ q ∧ q < 64 ∧ s.chip.lpiPermitted q = true ∧ s.chip.ethStat q 2 = false ∧ s.chip.ethStat q 0 = true →
    (s.chip.ethSq q).idleSince = some t ∧ s.chip.fldOf (Reg.ETH.EEE_IDLE q) 15 0 ≠ 0 →
    t + s.chip.fldOf (Reg.ETH.EEE_IDLE q) 15 0 * 10 ^ 9 ≤ s.chip.now ∧ s.chip.txBusy q = false →
    ∃ d, exec (.lpiEnter q) s = .next { s with chip := d } ∧
      d.ethStat q 2 = true ∧ d.reg (Reg.ETH.LPI_ENTRIES q) = sat32 ((s.chip.reg (Reg.ETH.LPI_ENTRIES q)).toNat + 1) ∧
      s.chip.keeps d [Reg.ETH.STATUS q, Reg.ETH.LPI_ENTRIES q] ∧ d = { s.chip with regs := d.regs }) ∧
  (∀ (s : State) (q t : Nat), 
    s.chip.passes .running = true →
    40 ≤ q ∧ q < 64 ∧ s.chip.ethStat q 2 = true ∧ firstOpening (s.chip.gates q) (s.chip.nextEntries q) = some t →
    t ≤ s.chip.ns + s.chip.fldOf (Reg.ETH.EEE_TW q) 14 0 →
    ∃ d, exec (.lpiGateWake q) s = .next { s with chip := d } ∧
      d.ethStat q 2 = false ∧ (d.ethSq q).wakeAt = some (s.chip.now + s.chip.fldOf (Reg.ETH.EEE_TW q) 14 0 * 10 ^ 6) ∧
      s.chip.keeps d [Reg.ETH.STATUS q] ∧ d = { s.chip with regs := d.regs, eth := d.eth }) ∧
  (∀ (s : State) (fn : Nat) (w0 : Word64), 
    s.chip.passes .running = true →
    fn < 1024 ∧ w0 = s.chip.tword (frerOff fn 0) ∧ bit w0 63 = true ∧ fld w0 47 32 ≠ 0 →
    bit (s.chip.tword (frerOff fn 1)) 0 = false ∧ (s.chip.frerFn fn).accepted + fld w0 47 32 * 10 ^ 12 ≤ s.chip.now →
    ∃ d, exec (.frerRecoveryReset fn) s = .next { s with chip := d } ∧
      bit (d.tword (frerOff fn 1)) 0 = true ∧
      fld (d.tword (frerOff fn 4)) 31 0 = min 0xFFFFFFFF (fld (s.chip.tword (frerOff fn 4)) 31 0 + 1) ∧
      s.chip.keepsTable d [frerOff fn 1, frerOff fn 4] ∧ d = { s.chip with tbl := d.tbl }) ∧
  (∀ (s : State) (fn : Nat) (w0 w2 : Word64) (diff : Int), 
    s.chip.passes .running = true →
    fn < 1024 ∧ w0 = s.chip.tword (frerOff fn 0) ∧ w2 = s.chip.tword (frerOff fn 2) ∧ bit w0 63 = true ∧ bit w0 60 = true →
    fld w0 31 16 ≠ 0 ∧ (s.chip.frerFn fn).tested + fld w0 31 16 * 10 ^ 12 ≤ s.chip.now →
    diff = Int.ofNat (fld w2 63 32 * (fld w0 59 56 - 1)) - Int.ofNat (fld w2 31 0) →
    ∃ d, exec (.frerLatentTest fn) s = .next { s with chip := d } ∧
      (d.frerFn fn).base = diff ∧ (d.frerFn fn).tested = s.chip.now ∧
      (fld w0 15 0 < ((s.chip.frerFn fn).base - diff).natAbs →
        fld (d.tword (frerOff fn 5)) 31 0 = min 0xFFFFFFFF (fld (s.chip.tword (frerOff fn 5)) 31 0 + 1)) ∧
      (((s.chip.frerFn fn).base - diff).natAbs ≤ fld w0 15 0 → d.tbl = s.chip.tbl) ∧
      d = { s.chip with tbl := d.tbl, frer := d.frer })

/-- STG_FLUSH with its key empties the FIFO, counts its packets and returns every credit; STG_HWM_READ and STG_LAST_ERR_READ by the owner restart and clear their register; CLASSIFY_FRAME of a packet whose check fails discards and logs it, with classification disabled counts DISABLED_DROP and with it enabled FRAMES_IN, and releases the packet in each case; a read of an empty FIFO returns the idle item and a REWIND goes to the mark; TABLE_ENTRY_WRITE of a one-word entry of the source or the FRER generation table takes effect at once within the writable bits, and the commit word of a hash entry writes the buffered word with it; STREAM_GATE_ENTRY advances a running list and starts a waiting one at its base time; GUARD_WINDOW_END keeps the figures of a window that ran in full; QUARANTINE_CLEAR and QUARANTINE_HOLD_EXPIRY end quarantine. -/
def Obligations.FrameCommandsComplete : Prop :=
  (∀ (s : State) (k q : Nat) (v : Word), 
    s.chip.passes .running = true →
    q < 64 ∧ s.chip.accepts k (Reg.STG.FLUSH q) = true ∧ fld v 15 0 = 0x464C →
    ∃ d, exec (.stgFlush k q v) s = .next { s with chip := d } ∧
      (d.stgSq q).pkts = [] ∧ d.fldOf (Reg.STG.CREDITS q) 9 0 = (if q < 48 then 128 else 512) ∧
      d.reg (Reg.STG.FLUSH_DROP q) = sat32 ((s.chip.reg (Reg.STG.FLUSH_DROP q)).toNat + ((s.chip.stgSq q).pkts.filter fun k => !stgPktAborted k).length) ∧
      d.reg (Reg.STG.WR_PTR q) = s.chip.reg (Reg.STG.WR_PTR q) ∧ d.reg (Reg.STG.COMMIT_PTR q) = s.chip.reg (Reg.STG.WR_PTR q) ∧
      d.reg (Reg.STG.RD_PTR_W q) = s.chip.reg (Reg.STG.WR_PTR q) ∧ d.reg (Reg.STG.RD_PTR_B q) = s.chip.reg (Reg.STG.WR_PTR q) ∧
      d.reg (Reg.STG.REL_PTR q) = s.chip.reg (Reg.STG.WR_PTR q) ∧
      d = { s.chip with regs := d.regs, out := d.out, pba := d.pba, stg := d.stg }) ∧
  (∀ (s : State) (q : Nat) (seen : Bool), 
    s.chip.passes .running = true →
    q < 64 ∧ s.chip.implemented (0x140 + q) = true ∧ s.chip.held (0x140 + q) = false →
    ∃ d, exec (.stgHwmRead (s.chip.owner (0x140 + q)) q seen) s = .next { s with chip := d } ∧
      d.reg (Reg.STG.HWM q) = BitVec.ofNat 32 (s.chip.stgUsed q) ∧
      d.reg (hEchoData (0x140 + q)) = s.chip.reg (Reg.STG.HWM q) ∧
      s.chip.keeps d [Reg.STG.HWM q, hEchoData (0x140 + q), hEchoAddr (0x140 + q), hErr (0x140 + q), hIrqStat (0x140 + q)] ∧
      d = { s.chip with regs := d.regs, out := d.out, pba := d.pba, echoUnread := d.echoUnread }) ∧
  (∀ (s : State) (q : Nat) (seen : Bool), 
    s.chip.passes .running = true →
    q < 64 ∧ s.chip.implemented (0x140 + q) = true ∧ s.chip.held (0x140 + q) = false →
    ∃ d, exec (.stgLastErrRead (s.chip.owner (0x140 + q)) q seen) s = .next { s with chip := d } ∧
      d.reg (Reg.STG.LAST_ERR q) = 0 ∧ d.reg (hEchoData (0x140 + q)) = s.chip.reg (Reg.STG.LAST_ERR q) ∧
      s.chip.keeps d [Reg.STG.LAST_ERR q, hEchoData (0x140 + q), hEchoAddr (0x140 + q), hErr (0x140 + q), hIrqStat (0x140 + q)] ∧
      d = { s.chip with regs := d.regs, out := d.out, pba := d.pba, echoUnread := d.echoUnread }) ∧
  (∀ (s : State) (q bad : Nat) (k : StgPkt) (rest : List StgPkt), 
    s.chip.passes .running = true →
    q < 64 ∧ (s.chip.stgSq q).pkts = k :: rest ∧ k.early = false ∧ k.gone = false →
    s.chip.lockstep = true ∧ s.chip.planeRuns s.chip.move = true ∧ (s.chip.stgSq q).cut = none ∧ (s.chip.stgSq q).relW = 0 ∧ (s.chip.stgSq q).relB = 0 →
    (bad = 2 ∨ k.bad = true) ∨ bad = 1 ∨ (stgPktAborted k = false ∧ crc32c (stgPktData k) ≠ stgPktChk k) →
    ∃ d, exec (.classifyFrame q bad {}) s = .next { s with chip := d } ∧
      (d.stgSq q).pkts = rest ∧ d.reg (Reg.STG.E2E_ERR q) = sat32 ((s.chip.reg (Reg.STG.E2E_ERR q)).toNat + 1) ∧
      d.reg (Reg.STG.LAST_ERR q) = BitVec.ofNat 32 (2 ^ 31 + (if bad = 2 ∨ k.bad = true then 6 else 5) * 2 ^ 16 + k.slot % 2048) ∧
      d.bitOf (hIrqStat (0x140 + q)) 3 = true ∧
      (bad ≠ 2 → k.bad = false → s.chip.score.queue.length < 64 → s.chip.scoreFresh = true → d.score.queue.map (fun e => (e.code, e.page)) = s.chip.score.queue.map (fun e => (e.code, e.page)) ++ [(0x0061, 0x140 + q)]) ∧
      (bad ≠ 2 → k.bad = false → d = { s.chip with regs := d.regs, out := d.out, pba := d.pba, stg := d.stg, score := d.score })) ∧
  (∀ (s : State) (q : Nat) (k : StgPkt) (rest : List StgPkt), 
    s.chip.passes .running = true →
    q < 64 ∧ (s.chip.stgSq q).pkts = k :: rest ∧ k.bad = false ∧ k.gone = false ∧ (stgPktAborted k = true ∨ crc32c (stgPktData k) = stgPktChk k) →
    s.chip.lockstep = true ∧ s.chip.planeRuns s.chip.move = true ∧ (s.chip.stgSq q).cut = none ∧ (s.chip.stgSq q).relW = 0 ∧ (s.chip.stgSq q).relB = 0 →
    bit (s.chip.regAt ((k.head.map (·.1)).getD s.chip.epoch) Reg.CLS.CTRL) 0 = false →
    ∃ d, exec (.classifyFrame q 0 {}) s = .next { s with chip := d } ∧
      (d.stgSq q).pkts = rest ∧ d.reg Reg.CLS.DISABLED_DROP = sat32 ((s.chip.reg Reg.CLS.DISABLED_DROP).toNat + 1) ∧
      d = { s.chip with regs := d.regs, stg := d.stg }) ∧
  (∀ (s : State) (q : Nat) (k : StgPkt) (rest : List StgPkt), 
    s.chip.passes .running = true →
    q < 64 ∧ (s.chip.stgSq q).pkts = k :: rest ∧ k.bad = false ∧ k.gone = false ∧ (stgPktAborted k = true ∨ crc32c (stgPktData k) = stgPktChk k) →
    s.chip.lockstep = true ∧ s.chip.planeRuns s.chip.move = true ∧ (s.chip.stgSq q).cut = none ∧ (s.chip.stgSq q).relW = 0 ∧ (s.chip.stgSq q).relB = 0 →
    bit (s.chip.regAt ((k.head.map (·.1)).getD s.chip.epoch) Reg.CLS.CTRL) 0 = true ∧ s.chip.castleStops = false →
    ∃ d, exec (.classifyFrame q 0 {}) s = .next { s with chip := d } ∧
      (d.stgSq q).pkts = rest ∧ d.reg Reg.CLS.FRAMES_IN = sat32 ((s.chip.reg Reg.CLS.FRAMES_IN).toNat + 1)) ∧
  (∀ (s : State) (q : Nat), 
    s.chip.passes .running = true →
    q < 64 ∧ s.chip.planeRuns 0 = true ∧ (s.chip.stgSq q).cutW = false →
    (s.chip.stgVisible q).find? (fun e => e.1 = s.chip.stgRd 0 q) = none →
    ∃ d, exec (.classifyFrame q 0 { step := 2 }) s = .next { s with chip := d } ∧
      (d.stgSq q).readW = {} ∧ (d.stgSq q).pkts = (s.chip.stgSq q).pkts ∧ d = { s.chip with stg := d.stg }) ∧
  (∀ (s : State) (q : Nat), 
    s.chip.passes .running = true →
    q < 64 ∧ s.chip.planeRuns 0 = true ∧ s.chip.bitOf (Reg.STG.MARK_STAT q) 31 = true →
    ∃ d, exec (.classifyFrame q 0 { step := 3 }) s = .next { s with chip := d } ∧
      d.reg (Reg.STG.RD_PTR_W q) = BitVec.ofNat 32 (s.chip.fldOf (Reg.STG.MARK_STAT q) 10 0) ∧
      s.chip.keeps d [Reg.STG.RD_PTR_W q] ∧ d = { s.chip with regs := d.regs }) ∧
  (∀ (s : State) (k off : Nat) (v : Word64) (ecc : Nat) (r : Region) (i : Nat) (m : Word64), 
    s.chip.passes .recovery = true →
    k < 4 ∧ off % 8 = 0 ∧ s.chip.implemented 0x048 = true ∧ s.chip.owner 0x048 = k ∧ windowPage off = some (0x048, 0x1000000) →
    regionAt off = some (r, i, 0) ∧ (r.tag = .source ∨ r.tag = .frerGen) ∧ m = BitVec.ofNat 64 (r.masks.getD 0 0) →
    s.chip.unjournalled k 0x048 = true ∧ s.chip.entryBuf k = none ∧ s.chip.tableRetired off = false →
    ∃ d, exec (.tableEntryWrite k off v 0xFF ecc) s = .next { s with chip := d } ∧
      d.tword off = (s.chip.tword off &&& ~~~ m) ||| (v &&& m) ∧ s.chip.keepsTable d [off] ∧ d.regs = s.chip.regs ∧
      d.castle = s.chip.castle ∧ d.sig = s.chip.sig ∧ d.pol = s.chip.pol) ∧
  (∀ (s : State) (k off : Nat) (v x : Word64) (ecc : Nat) (r : Region) (i : Nat), 
    s.chip.passes .recovery = true →
    k < 4 ∧ off % 8 = 0 ∧ s.chip.implemented 0x048 = true ∧ s.chip.owner 0x048 = k ∧ windowPage off = some (0x048, 0x1000000) →
    regionAt off = some (r, i, 1) ∧ (r.tag = .ethHash ∨ r.tag = .canHash) →
    s.chip.unjournalled k 0x048 = true ∧ s.chip.entryBuf k = some { first := off - 8, words := [(0, x)] } →
    s.chip.tableRetired off = false →
    ∃ d, exec (.tableEntryWrite k off v 0xFF ecc) s = .next { s with chip := d } ∧
      d.tword (off - 8) = x ∧ d.tword off = (s.chip.tword off &&& ~~~ 0x8000000000003FFF) ||| (v &&& 0x8000000000003FFF) ∧
      d.entryBuf k = none ∧ s.chip.keepsTable d [off - 8, off] ∧ d.regs = s.chip.regs) ∧
  (∀ (s : State) (g : Nat) (p : GateRun), 
    s.chip.passes .running = true →
    g < 512 ∧ lookupKey s.chip.pol.gatesPend g = some p ∧ p.base ≤ s.chip.ns →
    ∃ d, exec (.streamGateEntry g) s = .next { s with chip := d } ∧
      lookupKey d.pol.gates g = some { p with pos := p.at s.chip.ns } ∧ lookupKey d.pol.gatesPend g = none ∧
      d = { s.chip with pol := d.pol }) ∧
  (∀ (s : State) (g : Nat) (r : GateRun), 
    s.chip.passes .running = true →
    g < 512 ∧ lookupKey s.chip.pol.gatesPend g = none ∧ lookupKey s.chip.pol.gates g = some r ∧ r.next ≤ s.chip.ns →
    ∃ d, exec (.streamGateEntry g) s = .next { s with chip := d } ∧
      lookupKey d.pol.gates g = some { r with pos := r.at s.chip.ns } ∧ d = { s.chip with pol := d.pol }) ∧
  (∀ (s : State) (i : Nat), 
    s.chip.passes .running = true →
    i < 64 ∧ s.chip.ns / (s.chip.guardWin * 1000000) ≠ s.chip.guard.window ∧ s.chip.guardOn = true ∧ s.chip.guard.short = false →
    ∃ d, exec .guardWindowEnd s = .next { s with chip := d } ∧
      d.guard.window = s.chip.ns / (s.chip.guardWin * 1000000) ∧
      d.reg (Reg.GUARD.GSTAT i) = BitVec.ofNat 32 (min 100 ((s.chip.guardSq i).wire * 100 / (s.chip.guardWin * 10 ^ 12)) * 2 ^ 24
        + min 0xFFFF (s.chip.guardSq i).frames * 2 ^ 8) ∧
      d.guardSq i = { quarUntil := (s.chip.guardSq i).quarUntil } ∧
      d = { s.chip with regs := d.regs, guard := d.guard }) ∧
  (∀ (s : State) (k : Nat) (hi : Bool) (v : Word) (be a : Nat), 
    s.chip.passes .running = true →
    a = (if hi then Reg.GUARD.QUAR_HI else Reg.GUARD.QUAR_LO) →
    s.chip.accepts k a = true →
    ∃ d, exec (.quarantineClear k hi v be) s = .next { s with chip := d } ∧
      d.reg a = s.chip.reg a &&& ~~~ (v &&& beMask be) ∧ s.chip.keeps d [a] ∧ d = { s.chip with regs := d.regs }) ∧
  (∀ (s : State) (i t : Nat), 
    s.chip.passes .running = true →
    i < 64 ∧ s.chip.quarantined i = true ∧ (s.chip.guardSq i).quarUntil = some t ∧ t ≤ s.chip.now →
    ∃ d, exec (.quarantineHoldExpiry i) s = .next { s with chip := d } ∧
      d.quarantined i = false ∧ (d.guardSq i).quarUntil = none ∧ s.chip.keeps d [Reg.GUARD.QUAR_LO, Reg.GUARD.QUAR_HI] ∧
      d = { s.chip with regs := d.regs, guard := d.guard })

/-- Chapter 9: UNPACK_PDU of a whole copy counts DISABLED_DROP where SIG is off and UNPACK_CNT where it unpacks a signal layout; HOST_SIGNAL_WRITE of word 0 by the owner stores the value, the capture time now and STATUS CURRENT; FLAG_FALL names a signal that the cycle's end judges: where its flag is down then, it becomes STALE, counts the fall and raises its watches; SWEEP_DONE ends the sweep; PDU_PERIOD_EMIT at a multiple of PERIOD and EMIT_DEFERRED after MIN_GAP trigger their layout once; at the cycle's end a triggered CAN layout is emitted and counted once. -/
def Obligations.SignalCommandsComplete : Prop :=
  (∀ (s : State) (k : Copy), 
    s.chip.passes .running = true →
    s.chip.fab.copies.find? (fun x => x.appended && x.output = 69) = some k ∧ k.aborted = false ∧ k.cells ≤ k.arrived ∧ s.chip.sigTurn 1 = true →
    bit (s.chip.regAt k.epoch Reg.SIG.CTRL) 0 = false ∧ s.chip.residenceOver k = false →
    ∃ d, exec .unpackPdu s = .next { s with chip := d } ∧
      d.reg Reg.SIG.DISABLED_DROP = sat32 ((s.chip.reg Reg.SIG.DISABLED_DROP).toNat + 1) ∧
      d.fab.copies = s.chip.fab.copies.filter (fun x => x.id != k.id)) ∧
  (∀ (s : State) (k : Copy), 
    s.chip.passes .running = true →
    s.chip.fab.copies.find? (fun x => x.appended && x.output = 69) = some k ∧ k.aborted = false ∧ k.cells ≤ k.arrived ∧ s.chip.sigTurn 1 = true →
    s.chip.residenceOver k = false ∧ bit (s.chip.regAt k.epoch Reg.SIG.CTRL) 0 = true ∧ s.chip.layoutFault k.epoch k.layout = 0 ∧ s.chip.kind k.epoch k.layout = 0 →
    ∃ d, exec .unpackPdu s = .next { s with chip := d } ∧
      d.reg Reg.SIG.UNPACK_CNT = sat32 ((s.chip.reg Reg.SIG.UNPACK_CNT).toNat + 1)) ∧
  (∀ (s : State) (i : Nat) (v : Word64), 
    s.chip.passes .running = true →
    i < 65536 ∧ (lookupKey s.chip.inReset 0x050).isNone = true ∧ (s.chip.txn (s.chip.owner 0x050)).state ≠ 1 →
    s.chip.sigValid s.chip.epoch i = true →
    s.chip.sigStatus i = 0 ∨ s.chip.sigCapture i ≤ s.chip.ns →
    ∃ d, exec (.hostSignalWrite (s.chip.owner 0x050) i 0 v true) s = .next { s with chip := d } ∧
      d.sigValue i = v ∧ d.sigCapture i = s.chip.ns ∧ d.sigStatus i = 1 ∧
      fld (d.sigSt i 2) 31 0 = min 0xFFFFFFFF (fld (s.chip.sigSt i 2) 31 0 + 1)) ∧
  (∀ (s : State) (i : Nat), 
    s.chip.passes .running = true →
    i < 65536 ∧ s.chip.sig.falls.contains i = false →
    ∃ d, exec (.flagFall i) s = .next { s with chip := d } ∧
      d.sig.falls = s.chip.sig.falls ++ [i] ∧ d = { s.chip with sig := d.sig }) ∧
  (∀ (c : Chip) (i w : Nat), 
    c.sig.falls = [i] ∧ c.flagDown i = true →
    w < 8 ∧ c.bitOf (Reg.SIG.FALL_WATCH w) 31 = true ∧ c.fldOf (Reg.SIG.FALL_WATCH w) 15 0 = i →
    c.judgeFalls.2 = [i] ∧ c.judgeFalls.1.sig.falls = [] ∧ c.judgeFalls.1.sigStatus i = 2 ∧
      c.judgeFalls.1.sigValue i = c.sigValue i ∧ c.judgeFalls.1.sigCapture i = c.sigCapture i ∧
      fld (c.judgeFalls.1.sigSt i 3) 63 32 = min 0xFFFFFFFF (fld (c.sigSt i 3) 63 32 + 1) ∧
      c.judgeFalls.1.reg Reg.SIG.FLAG_FALLS = sat32 ((c.reg Reg.SIG.FLAG_FALLS).toNat + 1) ∧
      c.sigCycle.bitOf (hIrqStat 0x050) (4 + w) = true) ∧
  (∀ (c : Chip) (i : Nat), 
    c.sig.falls = [i] ∧ c.flagDown i = false →
    c.judgeFalls.2 = [] ∧ c.judgeFalls.1 = { c with sig := { c.sig with falls := [] } }) ∧
  (∀ (s : State), 
    s.chip.passes .running = true →
    s.chip.bitOf Reg.SIG.STATUS 0 = true →
    s.chip.listedSignals.any (fun i => s.chip.flagDown i && decide (fld (s.chip.sigSt i 2) 55 48 ≠ s.chip.stepGen)) = false →
    ∃ d, exec .sweepDone s = .next { s with chip := d } ∧
      d.bitOf Reg.SIG.STATUS 0 = false ∧ d.bitOf (hIrqStat 0x050) 3 = true ∧
      s.chip.keeps d [Reg.SIG.STATUS, hIrqStat 0x050] ∧ d = { s.chip with regs := d.regs, out := d.out, pba := d.pba }) ∧
  (∀ (s : State) (l p : Nat), 
    s.chip.passes .running = true →
    l < 16384 ∧ p = s.chip.layoutPeriod l ∧ 0 < p ∧ (lookupKey s.chip.sig.cyc l).getD 0 < s.chip.ns / p →
    s.chip.kind s.chip.epoch l ≠ 0 ∧ bit (s.chip.layout s.chip.epoch l 0) 59 = false →
    ∃ d, exec (.pduPeriodEmit l) s = .next { s with chip := d } ∧
      lookupKey d.sig.cyc l = some (s.chip.ns / p) ∧ d.sig.trig.any (fun x => x.1 = l) = true ∧
      (s.chip.sig.trig.any (fun x => x.1 = l) = false → d.sig.trig = s.chip.sig.trig ++ [(l, none)]) ∧
      d.sig.deferred = s.chip.sig.deferred.filter (fun x => !(x.layout = l && x.tour = s.chip.fab.tour)) ∧
      d = { s.chip with sig := d.sig }) ∧
  (∀ (s : State) (l : Nat) (x : DeferredEmit), 
    s.chip.passes .running = true →
    s.chip.sig.deferred.find? (fun y => y.layout = l) = some x ∧ x.due ≤ s.chip.now →
    ∃ d, exec (.emitDeferred l) s = .next { s with chip := d } ∧
      d.sig.deferred = s.chip.sig.deferred.filter (fun y => y.layout != l) ∧ d.sig.trig.any (fun x => x.1 = l) = true ∧
      (s.chip.sig.trig.any (fun x => x.1 = l) = false → d.sig.trig = s.chip.sig.trig ++ [(l, x.epoch)]) ∧
      d = { s.chip with sig := d.sig }) ∧
  (∀ (c : Chip) (l e : Nat) (x : Option Nat), 
    c.sig.falls = [] ∧ c.sig.trig = [(l, x)] ∧ e = x.getD c.epoch →
    bit (c.layout e l 0) 59 = false ∧ bit (c.regAt e Reg.SIG.CTRL) 0 = true ∧ c.halted = false →
    c.layoutFault e l = 0 ∧ c.kind e l = 1 ∧ c.pduLen e l ≠ 0 →
    c.sigCycle.sig.trig = [] ∧ lookupKey c.sigCycle.sig.lastEmit l = some c.now ∧
      c.sigCycle.reg Reg.SIG.EMIT_CNT = sat32 ((c.reg Reg.SIG.EMIT_CNT).toNat + 1) ∧
      fld (c.sigCycle.tword (lstOff l)) 31 0 = min 0xFFFFFFFF (fld (c.tword (lstOff l)) 31 0 + 1))

/-- Where the next instruction of a running engine is legal, within budget and program, and is ADD, SUB, MUL (wrapping), ADDS, SUBS, MULS (saturating, signed), ADDUS, SUBUS (saturating, unsigned), AND, OR, XOR, SHL, SHR, SAR (by the low six bits) or MIN, MAX (signed), its command writes RD with that function of RA and RB, discards a write to p0, counts one instruction and one cycle, goes on with the next instruction or the next pass of a loop, and changes nothing else of the part. -/
def Obligations.PawnArithmeticCommands : Prop :=
  (∀ (s : State) (n : Nat) (v : Invocation) (w : Word), 
    s.chip.passes .running = true →
    s.chip.issues n v 0x10 0 = true ∧ w = s.chip.nextInsn v →
    exec (.pawnAdd n) s = .next { s with chip := s.chip.setInv n ((v.setReg (fRd w) (v.reg (fRa w) + v.reg (fRb w))).past 1) }) ∧
  (∀ (s : State) (n : Nat) (v : Invocation) (w : Word), 
    s.chip.passes .running = true →
    s.chip.issues n v 0x11 0 = true ∧ w = s.chip.nextInsn v →
    exec (.pawnSub n) s = .next { s with chip := s.chip.setInv n ((v.setReg (fRd w) (v.reg (fRa w) - v.reg (fRb w))).past 1) }) ∧
  (∀ (s : State) (n : Nat) (v : Invocation) (w : Word), 
    s.chip.passes .running = true →
    s.chip.issues n v 0x12 0 = true ∧ w = s.chip.nextInsn v →
    exec (.pawnAdds n) s = .next { s with chip := s.chip.setInv n ((v.setReg (fRd w) (BitVec.ofInt 64 (max (-9223372036854775808) (min 9223372036854775807 ((v.reg (fRa w)).toInt + (v.reg (fRb w)).toInt))))).past 1) }) ∧
  (∀ (s : State) (n : Nat) (v : Invocation) (w : Word), 
    s.chip.passes .running = true →
    s.chip.issues n v 0x13 0 = true ∧ w = s.chip.nextInsn v →
    exec (.pawnSubs n) s = .next { s with chip := s.chip.setInv n ((v.setReg (fRd w) (BitVec.ofInt 64 (max (-9223372036854775808) (min 9223372036854775807 ((v.reg (fRa w)).toInt - (v.reg (fRb w)).toInt))))).past 1) }) ∧
  (∀ (s : State) (n : Nat) (v : Invocation) (w : Word), 
    s.chip.passes .running = true →
    s.chip.issues n v 0x14 0 = true ∧ w = s.chip.nextInsn v →
    exec (.pawnAddus n) s = .next { s with chip := s.chip.setInv n ((v.setReg (fRd w) (BitVec.ofNat 64 (min 0xFFFFFFFFFFFFFFFF ((v.reg (fRa w)).toNat + (v.reg (fRb w)).toNat)))).past 1) }) ∧
  (∀ (s : State) (n : Nat) (v : Invocation) (w : Word), 
    s.chip.passes .running = true →
    s.chip.issues n v 0x15 0 = true ∧ w = s.chip.nextInsn v →
    exec (.pawnSubus n) s = .next { s with chip := s.chip.setInv n ((v.setReg (fRd w) (BitVec.ofNat 64 ((v.reg (fRa w)).toNat - (v.reg (fRb w)).toNat))).past 1) }) ∧
  (∀ (s : State) (n : Nat) (v : Invocation) (w : Word), 
    s.chip.passes .running = true →
    s.chip.issues n v 0x16 0 = true ∧ w = s.chip.nextInsn v →
    exec (.pawnMul n) s = .next { s with chip := s.chip.setInv n ((v.setReg (fRd w) (v.reg (fRa w) * v.reg (fRb w))).past 1) }) ∧
  (∀ (s : State) (n : Nat) (v : Invocation) (w : Word), 
    s.chip.passes .running = true →
    s.chip.issues n v 0x17 0 = true ∧ w = s.chip.nextInsn v →
    exec (.pawnMuls n) s = .next { s with chip := s.chip.setInv n ((v.setReg (fRd w) (BitVec.ofInt 64 (max (-9223372036854775808) (min 9223372036854775807 ((v.reg (fRa w)).toInt * (v.reg (fRb w)).toInt))))).past 1) }) ∧
  (∀ (s : State) (n : Nat) (v : Invocation) (w : Word), 
    s.chip.passes .running = true →
    s.chip.issues n v 0x18 0 = true ∧ w = s.chip.nextInsn v →
    exec (.pawnAnd n) s = .next { s with chip := s.chip.setInv n ((v.setReg (fRd w) (v.reg (fRa w) &&& v.reg (fRb w))).past 1) }) ∧
  (∀ (s : State) (n : Nat) (v : Invocation) (w : Word), 
    s.chip.passes .running = true →
    s.chip.issues n v 0x19 0 = true ∧ w = s.chip.nextInsn v →
    exec (.pawnOr n) s = .next { s with chip := s.chip.setInv n ((v.setReg (fRd w) (v.reg (fRa w) ||| v.reg (fRb w))).past 1) }) ∧
  (∀ (s : State) (n : Nat) (v : Invocation) (w : Word), 
    s.chip.passes .running = true →
    s.chip.issues n v 0x1a 0 = true ∧ w = s.chip.nextInsn v →
    exec (.pawnXor n) s = .next { s with chip := s.chip.setInv n ((v.setReg (fRd w) (v.reg (fRa w) ^^^ v.reg (fRb w))).past 1) }) ∧
  (∀ (s : State) (n : Nat) (v : Invocation) (w : Word), 
    s.chip.passes .running = true →
    s.chip.issues n v 0x1b 0 = true ∧ w = s.chip.nextInsn v →
    exec (.pawnShl n) s = .next { s with chip := s.chip.setInv n ((v.setReg (fRd w) (v.reg (fRa w) <<< ((v.reg (fRb w)).toNat % 64))).past 1) }) ∧
  (∀ (s : State) (n : Nat) (v : Invocation) (w : Word), 
    s.chip.passes .running = true →
    s.chip.issues n v 0x1c 0 = true ∧ w = s.chip.nextInsn v →
    exec (.pawnShr n) s = .next { s with chip := s.chip.setInv n ((v.setReg (fRd w) (v.reg (fRa w) >>> ((v.reg (fRb w)).toNat % 64))).past 1) }) ∧
  (∀ (s : State) (n : Nat) (v : Invocation) (w : Word), 
    s.chip.passes .running = true →
    s.chip.issues n v 0x1d 0 = true ∧ w = s.chip.nextInsn v →
    exec (.pawnSar n) s = .next { s with chip := s.chip.setInv n ((v.setReg (fRd w) ((v.reg (fRa w)).sshiftRight ((v.reg (fRb w)).toNat % 64))).past 1) }) ∧
  (∀ (s : State) (n : Nat) (v : Invocation) (w : Word), 
    s.chip.passes .running = true →
    s.chip.issues n v 0x1e 0 = true ∧ w = s.chip.nextInsn v →
    exec (.pawnMin n) s = .next { s with chip := s.chip.setInv n ((v.setReg (fRd w) (BitVec.ofInt 64 (min (v.reg (fRa w)).toInt (v.reg (fRb w)).toInt))).past 1) }) ∧
  (∀ (s : State) (n : Nat) (v : Invocation) (w : Word), 
    s.chip.passes .running = true →
    s.chip.issues n v 0x1f 0 = true ∧ w = s.chip.nextInsn v →
    exec (.pawnMax n) s = .next { s with chip := s.chip.setInv n ((v.setReg (fRd w) (BitVec.ofInt 64 (max (v.reg (fRa w)).toInt (v.reg (fRb w)).toInt))).past 1) })

/-- Where the next instruction of a running engine is legal, within budget and program, and is ADDI (IMM18 sign-extended), ANDI, ORI, XORI (zero-extended), SHLI, SHRI, SARI, MOVI (IMM22 sign-extended), MOVK (16 bits replaced), BFX, BFXS, BFI (a bit field read, read with its sign, or replaced) or BSW (bytes reversed), its command writes RD with that value, discards a write to p0, counts one instruction and one cycle, goes on with the next instruction or the next pass of a loop, and changes nothing else of the part. -/
def Obligations.PawnImmediateCommands : Prop :=
  (∀ (s : State) (n : Nat) (v : Invocation) (w : Word), 
    s.chip.passes .running = true →
    s.chip.issues n v 0x20 0 = true ∧ w = s.chip.nextInsn v →
    exec (.pawnAddi n) s = .next { s with chip := s.chip.setInv n ((v.setReg (fRd w) (v.reg (fRa w) + (BitVec.ofNat 18 w.toNat).signExtend 64)).past 1) }) ∧
  (∀ (s : State) (n : Nat) (v : Invocation) (w : Word), 
    s.chip.passes .running = true →
    s.chip.issues n v 0x21 0 = true ∧ w = s.chip.nextInsn v →
    exec (.pawnAndi n) s = .next { s with chip := s.chip.setInv n ((v.setReg (fRd w) (v.reg (fRa w) &&& BitVec.ofNat 64 (w.toNat % 2 ^ 18))).past 1) }) ∧
  (∀ (s : State) (n : Nat) (v : Invocation) (w : Word), 
    s.chip.passes .running = true →
    s.chip.issues n v 0x22 0 = true ∧ w = s.chip.nextInsn v →
    exec (.pawnOri n) s = .next { s with chip := s.chip.setInv n ((v.setReg (fRd w) (v.reg (fRa w) ||| BitVec.ofNat 64 (w.toNat % 2 ^ 18))).past 1) }) ∧
  (∀ (s : State) (n : Nat) (v : Invocation) (w : Word), 
    s.chip.passes .running = true →
    s.chip.issues n v 0x23 0 = true ∧ w = s.chip.nextInsn v →
    exec (.pawnXori n) s = .next { s with chip := s.chip.setInv n ((v.setReg (fRd w) (v.reg (fRa w) ^^^ BitVec.ofNat 64 (w.toNat % 2 ^ 18))).past 1) }) ∧
  (∀ (s : State) (n : Nat) (v : Invocation) (w : Word), 
    s.chip.passes .running = true →
    s.chip.issues n v 0x24 0 = true ∧ w = s.chip.nextInsn v →
    exec (.pawnShli n) s = .next { s with chip := s.chip.setInv n ((v.setReg (fRd w) (v.reg (fRa w) <<< (w.toNat % 64))).past 1) }) ∧
  (∀ (s : State) (n : Nat) (v : Invocation) (w : Word), 
    s.chip.passes .running = true →
    s.chip.issues n v 0x25 0 = true ∧ w = s.chip.nextInsn v →
    exec (.pawnShri n) s = .next { s with chip := s.chip.setInv n ((v.setReg (fRd w) (v.reg (fRa w) >>> (w.toNat % 64))).past 1) }) ∧
  (∀ (s : State) (n : Nat) (v : Invocation) (w : Word), 
    s.chip.passes .running = true →
    s.chip.issues n v 0x26 0 = true ∧ w = s.chip.nextInsn v →
    exec (.pawnSari n) s = .next { s with chip := s.chip.setInv n ((v.setReg (fRd w) ((v.reg (fRa w)).sshiftRight (w.toNat % 64))).past 1) }) ∧
  (∀ (s : State) (n : Nat) (v : Invocation) (w : Word), 
    s.chip.passes .running = true →
    s.chip.issues n v 0x27 0 = true ∧ w = s.chip.nextInsn v →
    exec (.pawnMovi n) s = .next { s with chip := s.chip.setInv n ((v.setReg (fRd w) ((BitVec.ofNat 22 w.toNat).signExtend 64)).past 1) }) ∧
  (∀ (s : State) (n : Nat) (v : Invocation) (w : Word), 
    s.chip.passes .running = true →
    s.chip.issues n v 0x28 0 = true ∧ w = s.chip.nextInsn v →
    exec (.pawnMovk n) s = .next { s with chip := s.chip.setInv n ((v.setReg (fRd w) ((v.reg (fRd w) &&& ~~~ ((0xFFFF : Word64) <<< (16 * fld w 17 16))) ||| (BitVec.ofNat 64 (w.toNat % 2 ^ 16) <<< (16 * fld w 17 16)))).past 1) }) ∧
  (∀ (s : State) (n : Nat) (v : Invocation) (w : Word), 
    s.chip.passes .running = true →
    s.chip.issues n v 0x29 0 = true ∧ w = s.chip.nextInsn v →
    exec (.pawnBfx n) s = .next { s with chip := s.chip.setInv n ((v.setReg (fRd w) (BitVec.ofNat 64 ((v.reg (fRa w)).toNat / 2 ^ fld w 17 12 % 2 ^ (fld w 11 6 + 1)))).past 1) }) ∧
  (∀ (s : State) (n : Nat) (v : Invocation) (w : Word), 
    s.chip.passes .running = true →
    s.chip.issues n v 0x2a 0 = true ∧ w = s.chip.nextInsn v →
    exec (.pawnBfxs n) s = .next { s with chip := s.chip.setInv n ((v.setReg (fRd w) (BitVec.ofInt 64 (Int.bmod ((v.reg (fRa w)).toNat / 2 ^ fld w 17 12) (2 ^ (fld w 11 6 + 1))))).past 1) }) ∧
  (∀ (s : State) (n : Nat) (v : Invocation) (w : Word), 
    s.chip.passes .running = true →
    s.chip.issues n v 0x2b 0 = true ∧ w = s.chip.nextInsn v →
    exec (.pawnBfi n) s = .next { s with chip := s.chip.setInv n ((v.setReg (fRd w) ((v.reg (fRd w) &&& ~~~ (BitVec.ofNat 64 ((2 ^ (fld w 11 6 + 1) - 1) * 2 ^ fld w 17 12))) ||| (((v.reg (fRa w)) <<< fld w 17 12) &&& BitVec.ofNat 64 ((2 ^ (fld w 11 6 + 1) - 1) * 2 ^ fld w 17 12)))).past 1) }) ∧
  (∀ (s : State) (n : Nat) (v : Invocation) (w : Word), 
    s.chip.passes .running = true →
    s.chip.issues n v 0x2c 0 = true ∧ w = s.chip.nextInsn v →
    exec (.pawnBsw n) s = .next { s with chip := s.chip.setInv n ((v.setReg (fRd w) (BitVec.ofNat 64 ((List.range (fld w 14 12 + 1)).foldl (fun x i => x * 256 + (v.reg (fRa w)).toNat / 256 ^ i % 256) 0))).past 1) })

/-- NOP goes on with the next instruction. A taken branch goes on at PC + 1 + OFF and one not taken at PC + 1; LOOP opens a body of 1 to 255 passes and with count 0 continues after it. END, in its turn of the core cycle, with no digest of its engine held up and with nothing in its commit buffer, ends the invocation and counts it, and with one held store writes just that word. ABORT, a spent budget, an illegal instruction and a program end without END record their code, count FAULTS and INVOKED, raise their source and commit nothing. PAWN_DISPATCH starts the waiting request on its engine. PAWN_KICK of a program of the owner queues a HOST_KICK request, and of another partition refuses it in KICK_STAT. PAWN_TIMER_EXPIRY stops a one-shot timer and queues its program, and moves a periodic one on by its period. -/
def Obligations.PawnControlCommands : Prop :=
  (∀ (s : State) (n : Nat) (v : Invocation) (w : Word), 
    s.chip.passes .running = true →
    s.chip.issues n v 0x01 0 = true ∧ w = s.chip.nextInsn v →
    exec (.pawnNop n) s = .next { s with chip := s.chip.setInv n (v.past 1) }) ∧
  (∀ (s : State) (n : Nat) (v : Invocation) (w : Word), 
    s.chip.passes .running = true →
    s.chip.issues n v 0x04 0 = true ∧ w = s.chip.nextInsn v →
    exec (.pawnBr n) s = .next { s with chip := s.chip.setInv n (v.goto (v.pc + 1 + w.toNat % 2 ^ 14)) }) ∧
  (∀ (s : State) (n : Nat) (v : Invocation) (w : Word), 
    s.chip.passes .running = true →
    s.chip.issues n v 0x05 0 = true ∧ w = s.chip.nextInsn v →
    v.reg (fRd w) = v.reg (fRa w) →
    exec (.pawnBeq n) s = .next { s with chip := s.chip.setInv n (v.goto (v.pc + 1 + w.toNat % 2 ^ 14)) }) ∧
  (∀ (s : State) (n : Nat) (v : Invocation) (w : Word), 
    s.chip.passes .running = true →
    s.chip.issues n v 0x05 0 = true ∧ w = s.chip.nextInsn v →
    ¬ (v.reg (fRd w) = v.reg (fRa w)) →
    exec (.pawnBeq n) s = .next { s with chip := s.chip.setInv n (v.past 1) }) ∧
  (∀ (s : State) (n : Nat) (v : Invocation) (w : Word), 
    s.chip.passes .running = true →
    s.chip.issues n v 0x06 0 = true ∧ w = s.chip.nextInsn v →
    v.reg (fRd w) ≠ v.reg (fRa w) →
    exec (.pawnBne n) s = .next { s with chip := s.chip.setInv n (v.goto (v.pc + 1 + w.toNat % 2 ^ 14)) }) ∧
  (∀ (s : State) (n : Nat) (v : Invocation) (w : Word), 
    s.chip.passes .running = true →
    s.chip.issues n v 0x06 0 = true ∧ w = s.chip.nextInsn v →
    ¬ (v.reg (fRd w) ≠ v.reg (fRa w)) →
    exec (.pawnBne n) s = .next { s with chip := s.chip.setInv n (v.past 1) }) ∧
  (∀ (s : State) (n : Nat) (v : Invocation) (w : Word), 
    s.chip.passes .running = true →
    s.chip.issues n v 0x07 0 = true ∧ w = s.chip.nextInsn v →
    (v.reg (fRd w)).toInt < (v.reg (fRa w)).toInt →
    exec (.pawnBlt n) s = .next { s with chip := s.chip.setInv n (v.goto (v.pc + 1 + w.toNat % 2 ^ 14)) }) ∧
  (∀ (s : State) (n : Nat) (v : Invocation) (w : Word), 
    s.chip.passes .running = true →
    s.chip.issues n v 0x07 0 = true ∧ w = s.chip.nextInsn v →
    ¬ ((v.reg (fRd w)).toInt < (v.reg (fRa w)).toInt) →
    exec (.pawnBlt n) s = .next { s with chip := s.chip.setInv n (v.past 1) }) ∧
  (∀ (s : State) (n : Nat) (v : Invocation) (w : Word), 
    s.chip.passes .running = true →
    s.chip.issues n v 0x08 0 = true ∧ w = s.chip.nextInsn v →
    (v.reg (fRa w)).toInt ≤ (v.reg (fRd w)).toInt →
    exec (.pawnBge n) s = .next { s with chip := s.chip.setInv n (v.goto (v.pc + 1 + w.toNat % 2 ^ 14)) }) ∧
  (∀ (s : State) (n : Nat) (v : Invocation) (w : Word), 
    s.chip.passes .running = true →
    s.chip.issues n v 0x08 0 = true ∧ w = s.chip.nextInsn v →
    ¬ ((v.reg (fRa w)).toInt ≤ (v.reg (fRd w)).toInt) →
    exec (.pawnBge n) s = .next { s with chip := s.chip.setInv n (v.past 1) }) ∧
  (∀ (s : State) (n : Nat) (v : Invocation) (w : Word), 
    s.chip.passes .running = true →
    s.chip.issues n v 0x09 0 = true ∧ w = s.chip.nextInsn v →
    (v.reg (fRd w)).toNat < (v.reg (fRa w)).toNat →
    exec (.pawnBltu n) s = .next { s with chip := s.chip.setInv n (v.goto (v.pc + 1 + w.toNat % 2 ^ 14)) }) ∧
  (∀ (s : State) (n : Nat) (v : Invocation) (w : Word), 
    s.chip.passes .running = true →
    s.chip.issues n v 0x09 0 = true ∧ w = s.chip.nextInsn v →
    ¬ ((v.reg (fRd w)).toNat < (v.reg (fRa w)).toNat) →
    exec (.pawnBltu n) s = .next { s with chip := s.chip.setInv n (v.past 1) }) ∧
  (∀ (s : State) (n : Nat) (v : Invocation) (w : Word), 
    s.chip.passes .running = true →
    s.chip.issues n v 0x0a 0 = true ∧ w = s.chip.nextInsn v →
    (v.reg (fRa w)).toNat ≤ (v.reg (fRd w)).toNat →
    exec (.pawnBgeu n) s = .next { s with chip := s.chip.setInv n (v.goto (v.pc + 1 + w.toNat % 2 ^ 14)) }) ∧
  (∀ (s : State) (n : Nat) (v : Invocation) (w : Word), 
    s.chip.passes .running = true →
    s.chip.issues n v 0x0a 0 = true ∧ w = s.chip.nextInsn v →
    ¬ ((v.reg (fRa w)).toNat ≤ (v.reg (fRd w)).toNat) →
    exec (.pawnBgeu n) s = .next { s with chip := s.chip.setInv n (v.past 1) }) ∧
  (∀ (s : State) (n : Nat) (v : Invocation) (w : Word) (k : Nat), 
    s.chip.passes .running = true →
    s.chip.issues n v 0x0b 0 = true ∧ w = s.chip.nextInsn v →
    k = (if fRd w = 0 then fld w 21 14 else (v.reg (fRd w)).toNat) ∧ 1 ≤ k ∧ k ≤ 255 ∧ v.loops.length < 4 →
    v.loops.all (fun l => decide (v.pc + w.toNat % 2 ^ 14 ≤ l.last)) = true →
    exec (.pawnLoop n) s = .next { s with chip := s.chip.setInv n (Invocation.past { v with loops := { first := v.pc + 1, last := v.pc + w.toNat % 2 ^ 14, left := k - 1 } :: v.loops } 1) }) ∧
  (∀ (s : State) (n : Nat) (v : Invocation) (w : Word), 
    s.chip.passes .running = true →
    s.chip.issues n v 0x0b 0 = true ∧ w = s.chip.nextInsn v →
    (if fRd w = 0 then fld w 21 14 else (v.reg (fRd w)).toNat) = 0 →
    v.loops.all (fun l => decide (v.pc + w.toNat % 2 ^ 14 ≤ l.last)) = true →
    exec (.pawnLoop n) s = .next { s with chip := s.chip.setInv n (Invocation.past { v with pc := v.pc + w.toNat % 2 ^ 14 } 1) }) ∧
  (∀ (s : State) (n : Nat) (v : Invocation), 
    s.chip.passes .running = true →
    s.chip.issues n v 0x02 0 = true ∧ s.chip.sigTurn (2 + n) = true ∧ v.writes = [] ∧ v.stores = [] ∧ v.timers = [] ∧ v.emits = [] →
    s.chip.digestHeld n = false →
    ∃ d, exec (.pawnEnd n) s = .next { s with chip := d } ∧
      d.invOf n = none ∧ d.reg (Reg.PAWN.INVOKED n) = sat32 ((s.chip.reg (Reg.PAWN.INVOKED n)).toNat + 1) ∧
      d.reg (Reg.PAWN.ENG_STAT n) = 0 ∧ d.reg (Reg.PAWN.FAULTS n) = s.chip.reg (Reg.PAWN.FAULTS n) ∧
      s.chip.keeps d [Reg.PAWN.INVOKED n, Reg.PAWN.MAX_CYC n, Reg.PAWN.ENG_STAT n] ∧
      d = { s.chip with regs := d.regs, pawn := d.pawn, sig := d.sig } ∧ d.sig.snap = s.chip.sig.snap) ∧
  (∀ (s : State) (n : Nat) (v : Invocation) (k : Nat) (x m : Word64), 
    s.chip.passes .running = true →
    s.chip.issues n v 0x02 0 = true ∧ s.chip.sigTurn (2 + n) = true ∧ v.writes = [] ∧ v.stores = [(k, x, m)] ∧ v.timers = [] ∧ v.emits = [] →
    s.chip.digestHeld n = false →
    ∃ d, exec (.pawnEnd n) s = .next { s with chip := d } ∧
      d.invOf n = none ∧ d.tword (pawnBase + 0x4_0000 + 8 * k) = (s.chip.tword (pawnBase + 0x4_0000 + 8 * k) &&& ~~~ m) ||| (x &&& m) ∧
      s.chip.keepsTable d [pawnBase + 0x4_0000 + 8 * k]) ∧
  (∀ (s : State) (n : Nat) (v : Invocation), 
    s.chip.passes .running = true →
    n < 16 ∧ s.chip.issues n v 0x03 0 = true →
    s.chip.digestHeld n = false →
    ∃ d, exec (.pawnAbort n) s = .next { s with chip := d } ∧
      d.invOf n = none ∧ d.reg (Reg.PAWN.LAST_FAULT n) = BitVec.ofNat 32 (2 ^ 31 + 10 * 2 ^ 24 + (s.chip.nextInsn v).toNat % 2 ^ 8 * 2 ^ 16 + v.prog) ∧
      d.reg (Reg.PAWN.FAULTS n) = sat32 ((s.chip.reg (Reg.PAWN.FAULTS n)).toNat + 1) ∧
      d.reg (Reg.PAWN.INVOKED n) = sat32 ((s.chip.reg (Reg.PAWN.INVOKED n)).toNat + 1) ∧
      d.reg (Reg.PAWN.LAST_FAULT_TIME n) = s.chip.ns41 ∧ d.tbl = s.chip.tbl ∧ d.sig = s.chip.sig ∧ d.bitOf (hIrqStat (0x051 + n)) 0 = true ∧
      (s.chip.score.queue.length < 64 → s.chip.scoreFresh = true → d.score.queue.map (fun e => (e.code, e.page)) = s.chip.score.queue.map (fun e => (e.code, e.page)) ++ [(0x0070, 0x051 + n)])) ∧
  (∀ (s : State) (n : Nat) (v : Invocation), 
    s.chip.passes .running = true →
    n < 16 ∧ s.chip.invOf n = some v ∧ v.budget ≤ v.issued →
    s.chip.digestHeld n = false →
    ∃ d, exec (.budgetExhausted n) s = .next { s with chip := d } ∧
      d.invOf n = none ∧ d.reg (Reg.PAWN.LAST_FAULT n) = BitVec.ofNat 32 (2 ^ 31 + 1 * 2 ^ 24 + 0 * 2 ^ 16 + v.prog) ∧
      d.reg (Reg.PAWN.FAULTS n) = sat32 ((s.chip.reg (Reg.PAWN.FAULTS n)).toNat + 1) ∧
      d.reg (Reg.PAWN.INVOKED n) = sat32 ((s.chip.reg (Reg.PAWN.INVOKED n)).toNat + 1) ∧
      d.reg (Reg.PAWN.LAST_FAULT_TIME n) = s.chip.ns41 ∧ d.tbl = s.chip.tbl ∧ d.sig = s.chip.sig ∧ d.bitOf (hIrqStat (0x051 + n)) 1 = true ∧
      d.reg (Reg.PAWN.OVERRUNS n) = sat32 ((s.chip.reg (Reg.PAWN.OVERRUNS n)).toNat + 1)) ∧
  (∀ (s : State) (n : Nat) (v : Invocation), 
    s.chip.passes .running = true →
    n < 16 ∧ s.chip.invOf n = some v ∧ v.issued < v.budget ∧ v.pc < v.len ∧ s.chip.legal v.epoch (s.chip.nextInsn v) = false ∧ s.chip.pawnReadable 8 ((v.start + v.pc) / 2) = true →
    s.chip.digestHeld n = false →
    ∃ d, exec (.illegalInstruction n) s = .next { s with chip := d } ∧
      d.invOf n = none ∧ d.reg (Reg.PAWN.LAST_FAULT n) = BitVec.ofNat 32 (2 ^ 31 + 2 * 2 ^ 24 + 0 * 2 ^ 16 + v.prog) ∧
      d.reg (Reg.PAWN.FAULTS n) = sat32 ((s.chip.reg (Reg.PAWN.FAULTS n)).toNat + 1) ∧
      d.reg (Reg.PAWN.INVOKED n) = sat32 ((s.chip.reg (Reg.PAWN.INVOKED n)).toNat + 1) ∧
      d.reg (Reg.PAWN.LAST_FAULT_TIME n) = s.chip.ns41 ∧ d.tbl = s.chip.tbl ∧ d.sig = s.chip.sig ∧ d.bitOf (hIrqStat (0x051 + n)) 0 = true ∧
      (s.chip.score.queue.length < 64 → s.chip.scoreFresh = true → d.score.queue.map (fun e => (e.code, e.page)) = s.chip.score.queue.map (fun e => (e.code, e.page)) ++ [(0x0070, 0x051 + n)])) ∧
  (∀ (s : State) (n : Nat) (v : Invocation), 
    s.chip.passes .running = true →
    n < 16 ∧ s.chip.invOf n = some v ∧ v.issued < v.budget ∧ v.len ≤ v.pc →
    s.chip.digestHeld n = false →
    ∃ d, exec (.illegalInstruction n) s = .next { s with chip := d } ∧
      d.invOf n = none ∧ d.reg (Reg.PAWN.LAST_FAULT n) = BitVec.ofNat 32 (2 ^ 31 + 3 * 2 ^ 24 + 0 * 2 ^ 16 + v.prog) ∧
      d.reg (Reg.PAWN.FAULTS n) = sat32 ((s.chip.reg (Reg.PAWN.FAULTS n)).toNat + 1) ∧
      d.reg (Reg.PAWN.INVOKED n) = sat32 ((s.chip.reg (Reg.PAWN.INVOKED n)).toNat + 1) ∧
      d.reg (Reg.PAWN.LAST_FAULT_TIME n) = s.chip.ns41 ∧ d.tbl = s.chip.tbl ∧ d.sig = s.chip.sig ∧ d.bitOf (hIrqStat (0x051 + n)) 0 = true ∧
      (s.chip.score.queue.length < 64 → s.chip.scoreFresh = true → d.score.queue.map (fun e => (e.code, e.page)) = s.chip.score.queue.map (fun e => (e.code, e.page)) ++ [(0x0070, 0x051 + n)])) ∧
  (∀ (s : State) (n : Nat) (r : PawnReq), 
    s.chip.passes .running = true →
    r.prog < 1024 ∧ s.chip.power.entering = none ∧ s.chip.pawn.queue = [r] ∧ s.chip.dispatchTo r = some n →
    s.chip.progEnabled r.epoch r.prog = true ∧ s.chip.progBad r.epoch r.prog = false →
    ∃ d, exec .pawnDispatch s = .next { s with chip := d } ∧
      d.pawn.queue = [] ∧ d.invOf n = some (s.chip.newInvocation r) ∧ d.bitOf (Reg.PAWN.ENG_STAT n) 31 = true ∧
      d.fldOf (Reg.PAWN.ENG_STAT n) 15 0 = r.epoch % 2 ^ 16 ∧
      s.chip.keeps d [Reg.PAWN.ENG_STAT n] ∧ d = { s.chip with regs := d.regs, pawn := d.pawn }) ∧
  (∀ (s : State) (n k p : Nat) (v : Word), 
    s.chip.passes .running = true →
    n < 16 ∧ p = v.toNat % 2 ^ 10 ∧ s.chip.accepts k (Reg.PAWN.KICK n) = true →
    fld (s.chip.progWord s.chip.epoch p 0) 62 61 ≠ s.chip.owner (0x051 + n) →
    ∃ d, exec (.pawnKick k n v) s = .next { s with chip := d } ∧
      d.reg (Reg.PAWN.KICK_STAT n) = 0x80000001 ∧ d.bitOf (hIrqStat (0x051 + n)) 2 = true ∧
      s.chip.keeps d [Reg.PAWN.KICK_STAT n, hIrqStat (0x051 + n)] ∧ d = { s.chip with regs := d.regs, out := d.out, pba := d.pba }) ∧
  (∀ (s : State) (n k p : Nat) (v : Word), 
    s.chip.passes .running = true →
    n < 16 ∧ p = v.toNat % 2 ^ 10 ∧ s.chip.accepts k (Reg.PAWN.KICK n) = true →
    fld (s.chip.progWord s.chip.epoch p 0) 62 61 = s.chip.owner (0x051 + n) ∧ s.chip.progEnabled s.chip.epoch p = true →
    s.chip.bitOf (Reg.PAWN.GCTRL 0) 0 = true ∧ s.chip.pawn.queue.length < 1024 →
    ∃ d, exec (.pawnKick k n v) s = .next { s with chip := d } ∧
      d.fldOf (Reg.PAWN.KICK_STAT n) 31 0 = 0x80000000 ∧
      d.pawn.queue.map (fun r => (r.prog, r.event, r.p5)) = s.chip.pawn.queue.map (fun r => (r.prog, r.event, r.p5)) ++
        [(p, 5, (s.chip.reg (Reg.PAWN.KICK_ARG_HI n)).toNat * 2 ^ 32 + (s.chip.reg (Reg.PAWN.KICK_ARG_LO n)).toNat)] ∧
      s.chip.keeps d [Reg.PAWN.KICK_STAT n, Reg.PAWN.QPEAK 0]) ∧
  (∀ (s : State) (j p : Nat), 
    s.chip.passes .running = true →
    j < 4096 ∧ bit (s.chip.tword (timerOff j + 8)) 63 = true ∧ fld (s.chip.tword (timerOff j + 8)) 55 0 * 10000 ≤ s.chip.ns →
    p = fld (s.chip.tword (timerOff j)) 57 48 ∧ fld (s.chip.tword (timerOff j)) 47 24 = 0 ∧ s.chip.progEnabled s.chip.epoch p = true →
    s.chip.bitOf (Reg.PAWN.GCTRL 0) 0 = true ∧ s.chip.pawn.queue.length < 1024 →
    s.chip.pawn.queue.any (fun r => decide (r.timer = some j)) = false →
    ∃ d, exec (.pawnTimerExpiry j) s = .next { s with chip := d } ∧
      bit (d.tword (timerOff j + 8)) 63 = false ∧ s.chip.keepsTable d [timerOff j + 8] ∧
      d.pawn.queue.map (fun r => (r.prog, r.event, r.timer)) = s.chip.pawn.queue.map (fun r => (r.prog, r.event, r.timer)) ++ [(p, 2, some j)]) ∧
  (∀ (s : State) (j p q : Nat), 
    s.chip.passes .running = true →
    j < 4096 ∧ bit (s.chip.tword (timerOff j + 8)) 63 = true ∧ q = fld (s.chip.tword (timerOff j + 8)) 55 0 →
    p = fld (s.chip.tword (timerOff j)) 47 24 ∧ 0 < p ∧ q * 10000 ≤ s.chip.ns ∧ s.chip.ns < (q + p) * 10000 ∧ q + p < 2 ^ 56 →
    ∃ d, exec (.pawnTimerExpiry j) s = .next { s with chip := d } ∧
      bit (d.tword (timerOff j + 8)) 63 = true ∧ fld (d.tword (timerOff j + 8)) 55 0 = q + p ∧ s.chip.keepsTable d [timerOff j + 8])

/-- LD and LDW at an aligned byte below DLEN × 8 write RD with the word of data memory merged with the held stores; ST and STW hold the store until END, a later store to the same word replacing its bytes. SRD writes RD with VALUE: an unchecked signal leaves the accumulators, a fresh checked one starts CAPMIN and DLMIN at CAPTURE and CAPTURE + MAX_AGE, one no longer fresh starts CAPMIN and sets SUB. SRS gives the status word, for a signal never written and for a fresh one of at most 1 µs, and SRC the CAPTURE, all as of the end of the previous core cycle (R258). Beyond the region LD faults DMEM, and above signal 65,535 SRD faults SIGNAL. Signal reads take two cycles; nothing else of the part changes. -/
def Obligations.PawnMemoryAndSignalCommands : Prop :=
  (∀ (s : State) (n : Nat) (v : Invocation) (w : Word) (a : Nat), 
    s.chip.passes .running = true →
    s.chip.issues n v 0x0c 0 = true ∧ w = s.chip.nextInsn v →
    a = (v.reg (fRa w) + (BitVec.ofNat 18 w.toNat).signExtend 64).toNat ∧ a < v.dlen * 8 ∧ a % 8 = 0 →
    exec (.pawnLd n) s = .next { s with chip := s.chip.setInv n ((v.setReg (fRd w) ((s.chip.pastView.dmemWord v (v.dbase + a / 8)))).past 1) }) ∧
  (∀ (s : State) (n : Nat) (v : Invocation) (w : Word) (a : Nat), 
    s.chip.passes .running = true →
    s.chip.issues n v 0x0d 0 = true ∧ w = s.chip.nextInsn v →
    a = (v.reg (fRa w) + (BitVec.ofNat 18 w.toNat).signExtend 64).toNat ∧ a < v.dlen * 8 ∧ a % 4 = 0 →
    exec (.pawnLdw n) s = .next { s with chip := s.chip.setInv n ((v.setReg (fRd w) (BitVec.ofNat 64 ((s.chip.pastView.dmemWord v (v.dbase + a / 8)).toNat / 2 ^ (8 * (a % 8)) % 2 ^ 32))).past 1) }) ∧
  (∀ (s : State) (n : Nat) (v : Invocation) (w : Word) (a : Nat), 
    s.chip.passes .running = true →
    s.chip.issues n v 0x0e 0 = true ∧ w = s.chip.nextInsn v →
    a = (v.reg (fRa w) + (BitVec.ofNat 18 w.toNat).signExtend 64).toNat ∧ a < v.dlen * 8 ∧ a % 8 = 0 →
    v.stores = [] →
    exec (.pawnSt n) s = .next { s with chip := s.chip.setInv n (Invocation.past { v with stores := [(v.dbase + a / 8, v.reg (fRd w), 0xFFFFFFFFFFFFFFFF)] } 1) }) ∧
  (∀ (s : State) (n : Nat) (v : Invocation) (w : Word) (a : Nat) (x m : Word64), 
    s.chip.passes .running = true →
    s.chip.issues n v 0x0f 0 = true ∧ w = s.chip.nextInsn v →
    a = (v.reg (fRa w) + (BitVec.ofNat 18 w.toNat).signExtend 64).toNat ∧ a < v.dlen * 8 ∧ a % 4 = 0 →
    v.stores = [(v.dbase + a / 8, x, m)] →
    exec (.pawnStw n) s = .next { s with chip := s.chip.setInv n (Invocation.past { v with stores := [(v.dbase + a / 8, (x &&& ~~~ ((0xFFFFFFFF : Word64) <<< (8 * (a % 8)))) ||| (((v.reg (fRd w)) &&& 0xFFFFFFFF) <<< (8 * (a % 8))), m ||| ((0xFFFFFFFF : Word64) <<< (8 * (a % 8))))] } 1) }) ∧
  (∀ (s : State) (n : Nat) (v : Invocation) (w : Word), 
    s.chip.passes .running = true →
    s.chip.issues n v 0x0C 0 = true ∧ w = s.chip.nextInsn v ∧ n < 16 →
    v.dlen * 8 ≤ (v.reg (fRa w) + (BitVec.ofNat 18 w.toNat).signExtend 64).toNat →
    s.chip.digestHeld n = false →
    ∃ d, exec (.pawnLd n) s = .next { s with chip := d } ∧
      d.invOf n = none ∧ d.reg (Reg.PAWN.LAST_FAULT n) = BitVec.ofNat 32 (2 ^ 31 + 5 * 2 ^ 24 + 0 * 2 ^ 16 + v.prog) ∧
      d.reg (Reg.PAWN.FAULTS n) = sat32 ((s.chip.reg (Reg.PAWN.FAULTS n)).toNat + 1) ∧
      d.reg (Reg.PAWN.INVOKED n) = sat32 ((s.chip.reg (Reg.PAWN.INVOKED n)).toNat + 1) ∧
      d.reg (Reg.PAWN.LAST_FAULT_TIME n) = s.chip.ns41 ∧ d.tbl = s.chip.tbl ∧ d.sig = s.chip.sig) ∧
  (∀ (s : State) (n : Nat) (v : Invocation) (w : Word) (i : Nat), 
    s.chip.passes .running = true →
    s.chip.issues n v 0x2d 0 = true ∧ w = s.chip.nextInsn v →
    i = (v.reg (fRa w) + BitVec.ofNat 64 (w.toNat % 2 ^ 16)).toNat ∧ i < 65536 →
    s.chip.pastView.checked v.epoch i = false ∧ s.chip.pastView.sigValid v.epoch i = true ∧ s.chip.pastView.sigStatus i ≠ 3 →
    exec (.pawnSrd n) s = .next { s with chip := s.chip.setInv n ((v.setReg (fRd w) (s.chip.pastView.sigValue i)).past 2) }) ∧
  (∀ (s : State) (n : Nat) (v : Invocation) (w : Word) (i : Nat), 
    s.chip.passes .running = true →
    s.chip.issues n v 0x2d 0 = true ∧ w = s.chip.nextInsn v →
    i = (v.reg (fRa w) + BitVec.ofNat 64 (w.toNat % 2 ^ 16)).toNat ∧ i < 65536 →
    s.chip.pastView.checked v.epoch i = true ∧ s.chip.pastView.sigValid v.epoch i = true ∧ s.chip.pastView.sigStatus i = 1 ∧ s.chip.pastView.fresh v.epoch i = true →
    v.capmin = none ∧ v.dlmin = none →
    exec (.pawnSrd n) s = .next { s with chip := s.chip.setInv n ((Invocation.setReg { v with capmin := some (s.chip.pastView.sigCapture i), dlmin := some (s.chip.pastView.sigCapture i + s.chip.pastView.maxAge v.epoch i) } (fRd w) (s.chip.pastView.sigValue i)).past 2) }) ∧
  (∀ (s : State) (n : Nat) (v : Invocation) (w : Word) (i : Nat), 
    s.chip.passes .running = true →
    s.chip.issues n v 0x2d 0 = true ∧ w = s.chip.nextInsn v →
    i = (v.reg (fRa w) + BitVec.ofNat 64 (w.toNat % 2 ^ 16)).toNat ∧ i < 65536 →
    s.chip.pastView.checked v.epoch i = true ∧ s.chip.pastView.sigStatus i ≠ 0 ∧ s.chip.pastView.fresh v.epoch i = false →
    v.capmin = none →
    exec (.pawnSrd n) s = .next { s with chip := s.chip.setInv n ((Invocation.setReg { v with capmin := some (s.chip.pastView.sigCapture i), sub := true } (fRd w) (s.chip.pastView.sigValue i)).past 2) }) ∧
  (∀ (s : State) (n : Nat) (v : Invocation) (w : Word) (i : Nat), 
    s.chip.passes .running = true →
    s.chip.issues n v 0x2e 0 = true ∧ w = s.chip.nextInsn v →
    i = (v.reg (fRa w) + BitVec.ofNat 64 (w.toNat % 2 ^ 16)).toNat ∧ i < 65536 →
    s.chip.pastView.sigValid v.epoch i = true ∧ s.chip.pastView.checked v.epoch i = true ∧ s.chip.pastView.sigStatus i = 0 →
    exec (.pawnSrs n) s = .next { s with chip := s.chip.setInv n ((v.setReg (fRd w) (BitVec.ofNat 64 (fld (s.chip.pastView.sigSt i 2) 61 60 * 2 ^ 60 + 0xFFFFFFFF))).past 2) }) ∧
  (∀ (s : State) (n : Nat) (v : Invocation) (w : Word) (i : Nat), 
    s.chip.passes .running = true →
    s.chip.issues n v 0x2e 0 = true ∧ w = s.chip.nextInsn v →
    i = (v.reg (fRa w) + BitVec.ofNat 64 (w.toNat % 2 ^ 16)).toNat ∧ i < 65536 →
    s.chip.pastView.sigValid v.epoch i = true ∧ s.chip.pastView.checked v.epoch i = true ∧ s.chip.pastView.sigStatus i = 1 ∧ s.chip.pastView.fresh v.epoch i = true ∧ s.chip.ns - s.chip.pastView.sigCapture i ≤ 1000 ∧ s.chip.pastView.sigCapture i < s.chip.ns →
    exec (.pawnSrs n) s = .next { s with chip := s.chip.setInv n ((v.setReg (fRd w) (BitVec.ofNat 64 (2 ^ 62 + fld (s.chip.pastView.sigSt i 2) 61 60 * 2 ^ 60 + 1))).past 2) }) ∧
  (∀ (s : State) (n : Nat) (v : Invocation) (w : Word) (i : Nat), 
    s.chip.passes .running = true →
    s.chip.issues n v 0x2f 0 = true ∧ w = s.chip.nextInsn v →
    i = (v.reg (fRa w) + BitVec.ofNat 64 (w.toNat % 2 ^ 16)).toNat ∧ i < 65536 →
    exec (.pawnSrc n) s = .next { s with chip := s.chip.setInv n ((v.setReg (fRd w) (BitVec.ofNat 64 (s.chip.pastView.sigCapture i))).past 2) }) ∧
  (∀ (s : State) (n : Nat) (v : Invocation) (w : Word), 
    s.chip.passes .running = true →
    s.chip.issues n v 0x2D 0 = true ∧ w = s.chip.nextInsn v ∧ n < 16 →
    65536 ≤ (v.reg (fRa w) + BitVec.ofNat 64 (w.toNat % 2 ^ 16)).toNat →
    s.chip.digestHeld n = false →
    ∃ d, exec (.pawnSrd n) s = .next { s with chip := d } ∧
      d.invOf n = none ∧ d.reg (Reg.PAWN.LAST_FAULT n) = BitVec.ofNat 32 (2 ^ 31 + 6 * 2 ^ 24 + 0 * 2 ^ 16 + v.prog) ∧
      d.reg (Reg.PAWN.FAULTS n) = sat32 ((s.chip.reg (Reg.PAWN.FAULTS n)).toNat + 1) ∧
      d.reg (Reg.PAWN.INVOKED n) = sat32 ((s.chip.reg (Reg.PAWN.INVOKED n)).toNat + 1) ∧
      d.reg (Reg.PAWN.LAST_FAULT_TIME n) = s.chip.ns41 ∧ d.tbl = s.chip.tbl ∧ d.sig = s.chip.sig)

/-- EXT and EXTS of a little-endian field within byte 2,047 write RD with its bits, zero- or sign-extended; INS changes exactly those bits of the OUT buffer; beyond byte 2,047 EXT faults BUF. SCL scales, rounds and saturates as R309 computes it; RCHK and CLAMP compare with the bounds of RB; FTOX converts binary32 (an integral mantissa exactly, a NaN to 0, an infinity saturated) and XTOF the powers of two and 0; CRC and CRCB fold one byte by an 8-bit unreflected profile; ALV and ALVD count and compare alive counters. Nothing else of the part changes. SWR, EMIT, SEND, TSTART and TSTOP within their limits are held until END. -/
def Obligations.PawnBufferAndConversionCommands : Prop :=
  (∀ (s : State) (n : Nat) (v : Invocation) (w : Word) (p b : Nat), 
    s.chip.passes .running = true →
    s.chip.issues n v 0x30 0 = true ∧ w = s.chip.nextInsn v →
    p = (v.reg (fRa w)).toNat + w.toNat % 2 ^ 10 ∧ (v.reg (fRa w)).toNat < 16384 ∧ b = fld w 15 10 + 1 ∧ bit w 17 = false ∧ p + b ≤ 16384 →
    exec (.pawnExt n) s = .next { s with chip := s.chip.setInv n ((v.setReg (fRd w) (BitVec.ofNat 64 ((List.range b).foldl (fun x j => x + (if pduBit (if bit w 16 then v.out else v.inBuf) (p + j) then 2 ^ j else 0)) 0))).past 1) }) ∧
  (∀ (s : State) (n : Nat) (v : Invocation) (w : Word) (p b : Nat), 
    s.chip.passes .running = true →
    s.chip.issues n v 0x31 0 = true ∧ w = s.chip.nextInsn v →
    p = (v.reg (fRa w)).toNat + w.toNat % 2 ^ 10 ∧ (v.reg (fRa w)).toNat < 16384 ∧ b = fld w 15 10 + 1 ∧ bit w 17 = false ∧ p + b ≤ 16384 →
    exec (.pawnExts n) s = .next { s with chip := s.chip.setInv n ((v.setReg (fRd w) (BitVec.ofInt 64 (Int.bmod (((List.range b).foldl (fun x j => x + (if pduBit (if bit w 16 then v.out else v.inBuf) (p + j) then 2 ^ j else 0)) 0 : Nat) : Int) (2 ^ b)))).past 1) }) ∧
  (∀ (s : State) (n : Nat) (v : Invocation) (w : Word) (p b : Nat), 
    s.chip.passes .running = true →
    s.chip.issues n v 0x32 0 = true ∧ w = s.chip.nextInsn v →
    p = (v.reg (fRa w)).toNat + w.toNat % 2 ^ 10 ∧ (v.reg (fRa w)).toNat < 16384 ∧ b = fld w 15 10 + 1 ∧ bit w 17 = false ∧ p + b ≤ 16384 →
    ∃ d, exec (.pawnIns n) s = .next { s with chip := d } ∧
      (d.invOf n).isSome = true ∧
      (∀ j, j < b → pduBit (((d.invOf n).getD v).out) (p + j) = (v.reg (fRd w)).getLsbD j) ∧
      (List.range 16384).all (fun q => (decide (p ≤ q) && decide (q < p + b)) || pduBit (((d.invOf n).getD v).out) q == pduBit v.out q) = true ∧
      d.invOf n = some (Invocation.past { v with out := ((d.invOf n).getD v).out } 1) ∧
      d = { s.chip with pawn := d.pawn }) ∧
  (∀ (s : State) (n : Nat) (v : Invocation) (w : Word), 
    s.chip.passes .running = true →
    s.chip.issues n v 0x30 0 = true ∧ w = s.chip.nextInsn v ∧ n < 16 ∧ bit w 17 = false →
    16384 < (v.reg (fRa w)).toNat + w.toNat % 2 ^ 10 + fld w 15 10 + 1 ∧ (v.reg (fRa w)).toNat < 2 ^ 32 →
    s.chip.digestHeld n = false →
    ∃ d, exec (.pawnExt n) s = .next { s with chip := d } ∧
      d.invOf n = none ∧ d.reg (Reg.PAWN.LAST_FAULT n) = BitVec.ofNat 32 (2 ^ 31 + 7 * 2 ^ 24 + 0 * 2 ^ 16 + v.prog) ∧
      d.reg (Reg.PAWN.FAULTS n) = sat32 ((s.chip.reg (Reg.PAWN.FAULTS n)).toNat + 1) ∧
      d.reg (Reg.PAWN.INVOKED n) = sat32 ((s.chip.reg (Reg.PAWN.INVOKED n)).toNat + 1) ∧
      d.reg (Reg.PAWN.LAST_FAULT_TIME n) = s.chip.ns41 ∧ d.tbl = s.chip.tbl ∧ d.sig = s.chip.sig) ∧
  (∀ (s : State) (n : Nat) (v : Invocation) (w : Word) (x : Int), 
    s.chip.passes .running = true →
    s.chip.issues n v 0x34 0 = true ∧ w = s.chip.nextInsn v →
    x = (v.reg (fRa w)).toInt * (BitVec.ofNat 32 (fld (v.reg (fRb w)) 63 32)).toInt →
    exec (.pawnScl n) s = .next { s with chip := s.chip.setInv n ((v.setReg (fRd w) (BitVec.ofInt 64 (max (-9223372036854775808) (min 9223372036854775807 ((x + (if bit (v.reg (fRb w)) 7 = true ∧ fld (v.reg (fRb w)) 5 0 ≠ 0 then 2 ^ (fld (v.reg (fRb w)) 5 0 - 1) else 0)) / 2 ^ fld (v.reg (fRb w)) 5 0 + (BitVec.ofNat 24 (fld (v.reg (fRb w)) 31 8)).toInt))))).past 1) }) ∧
  (∀ (s : State) (n : Nat) (v : Invocation) (w : Word) (lo hi : Int), 
    s.chip.passes .running = true →
    s.chip.issues n v 0x35 0 = true ∧ w = s.chip.nextInsn v →
    lo = (BitVec.ofNat 32 (fld (v.reg (fRb w)) 63 32)).toInt ∧ hi = (BitVec.ofNat 32 (fld (v.reg (fRb w)) 31 0)).toInt →
    exec (.pawnRchk n) s = .next { s with chip := s.chip.setInv n ((v.setReg (fRd w) (if (v.reg (fRa w)).toInt < lo then 1 else if hi < (v.reg (fRa w)).toInt then 2 else 0)).past 1) }) ∧
  (∀ (s : State) (n : Nat) (v : Invocation) (w : Word) (lo hi : Int), 
    s.chip.passes .running = true →
    s.chip.issues n v 0x36 0 = true ∧ w = s.chip.nextInsn v →
    lo = (BitVec.ofNat 32 (fld (v.reg (fRb w)) 63 32)).toInt ∧ hi = (BitVec.ofNat 32 (fld (v.reg (fRb w)) 31 0)).toInt →
    exec (.pawnClamp n) s = .next { s with chip := s.chip.setInv n ((v.setReg (fRd w) (BitVec.ofInt 64 (max lo (min hi (v.reg (fRa w)).toInt)))).past 1) }) ∧
  (∀ (s : State) (n : Nat) (v : Invocation) (w : Word) (m : Nat), 
    s.chip.passes .running = true →
    s.chip.issues n v 0x37 0 = true ∧ w = s.chip.nextInsn v →
    fld (v.reg (fRa w)) 30 23 = 150 ∧ m = 2 ^ 23 + fld (v.reg (fRa w)) 22 0 ∧ fld w 17 12 ≤ 39 →
    exec (.pawnFtox n) s = .next { s with chip := s.chip.setInv n ((v.setReg (fRd w) (BitVec.ofInt 64 ((if bit (v.reg (fRa w)) 31 = true then -1 else 1) * (m : Int) * 2 ^ fld w 17 12))).past 1) }) ∧
  (∀ (s : State) (n : Nat) (v : Invocation) (w : Word), 
    s.chip.passes .running = true →
    s.chip.issues n v 0x37 0 = true ∧ w = s.chip.nextInsn v →
    fld (v.reg (fRa w)) 30 23 = 255 ∧ fld (v.reg (fRa w)) 22 0 ≠ 0 →
    exec (.pawnFtox n) s = .next { s with chip := s.chip.setInv n ((v.setReg (fRd w) (0)).past 1) }) ∧
  (∀ (s : State) (n : Nat) (v : Invocation) (w : Word), 
    s.chip.passes .running = true →
    s.chip.issues n v 0x37 0 = true ∧ w = s.chip.nextInsn v →
    fld (v.reg (fRa w)) 30 23 = 255 ∧ fld (v.reg (fRa w)) 22 0 = 0 →
    exec (.pawnFtox n) s = .next { s with chip := s.chip.setInv n ((v.setReg (fRd w) (if bit (v.reg (fRa w)) 31 = true then 0x8000000000000000 else 0x7FFFFFFFFFFFFFFF)).past 1) }) ∧
  (∀ (s : State) (n : Nat) (v : Invocation) (w : Word), 
    s.chip.passes .running = true →
    s.chip.issues n v 0x38 0 = true ∧ w = s.chip.nextInsn v →
    (v.reg (fRa w)).toNat = 0 →
    exec (.pawnXtof n) s = .next { s with chip := s.chip.setInv n ((v.setReg (fRd w) (0)).past 1) }) ∧
  (∀ (s : State) (n : Nat) (v : Invocation) (w : Word) (k : Nat), 
    s.chip.passes .running = true →
    s.chip.issues n v 0x38 0 = true ∧ w = s.chip.nextInsn v →
    k < 63 ∧ (v.reg (fRa w)).toNat = 2 ^ k →
    exec (.pawnXtof n) s = .next { s with chip := s.chip.setInv n ((v.setReg (fRd w) (BitVec.ofNat 64 ((k + 127 - fld w 17 12) * 2 ^ 23))).past 1) }) ∧
  (∀ (s : State) (n : Nat) (v : Invocation) (w : Word) (c : Nat), 
    s.chip.passes .running = true →
    s.chip.issues n v 0x39 0 = true ∧ w = s.chip.nextInsn v →
    s.chip.crcWidth v.epoch (fld w 17 15) = some 8 ∧ fld w 14 12 = 0 ∧ c = (s.chip.regAt v.epoch (Reg.PAWN.CRC_POLY 0 (fld w 17 15))).toNat ∧ bit (s.chip.regAt v.epoch (Reg.PAWN.CRC_MODE 0 (fld w 17 15))) 0 = false →
    (v.reg (fRd w)).toNat < 256 ∧ c < 256 →
    exec (.pawnCrc n) s = .next { s with chip := s.chip.setInv n ((v.setReg (fRd w) (BitVec.ofNat 64 ((List.range 8).foldl (fun x _ => if 128 ≤ x then (x * 2 % 256) ^^^ c else x * 2) ((v.reg (fRd w)).toNat ^^^ ((v.reg (fRa w)).toNat % 256))))).past 1) }) ∧
  (∀ (s : State) (n : Nat) (v : Invocation) (w : Word) (c : Nat), 
    s.chip.passes .running = true →
    s.chip.issues n v 0x3a 0 = true ∧ w = s.chip.nextInsn v →
    s.chip.crcWidth v.epoch (fld w 17 15) = some 8 ∧ fld w 14 12 = 0 ∧ c = (s.chip.regAt v.epoch (Reg.PAWN.CRC_POLY 0 (fld w 17 15))).toNat ∧ bit (s.chip.regAt v.epoch (Reg.PAWN.CRC_MODE 0 (fld w 17 15))) 0 = false →
    (v.reg (fRd w)).toNat < 256 ∧ c < 256 ∧ bit w 11 = false ∧ (v.reg (fRa w)).toNat + fld w 10 0 < 2048 →
    exec (.pawnCrcb n) s = .next { s with chip := s.chip.setInv n ((v.setReg (fRd w) (BitVec.ofNat 64 ((List.range 8).foldl (fun x _ => if 128 ≤ x then (x * 2 % 256) ^^^ c else x * 2) ((v.reg (fRd w)).toNat ^^^ (byteAt v.inBuf ((v.reg (fRa w)).toNat + fld w 10 0)).toNat)))).past 1) }) ∧
  (∀ (s : State) (n : Nat) (v : Invocation) (w : Word), 
    s.chip.passes .running = true →
    s.chip.issues n v 0x3b 0 = true ∧ w = s.chip.nextInsn v →
    exec (.pawnAlv n) s = .next { s with chip := s.chip.setInv n ((v.setReg (fRd w) (if fld w 13 0 ≤ (v.reg (fRa w)).toNat then 0 else v.reg (fRa w) + 1)).past 1) }) ∧
  (∀ (s : State) (n : Nat) (v : Invocation) (w : Word) (m : Nat), 
    s.chip.passes .running = true →
    s.chip.issues n v 0x3c 0 = true ∧ w = s.chip.nextInsn v →
    m = fld w 13 0 ∧ (v.reg (fRa w)).toNat ≤ m ∧ (v.reg (fRb w)).toNat ≤ m →
    exec (.pawnAlvd n) s = .next { s with chip := s.chip.setInv n ((v.setReg (fRd w) (BitVec.ofInt 64 ((((v.reg (fRa w)).toNat : Int) - (v.reg (fRb w)).toNat) % (m + 1)))).past 1) }) ∧
  (∀ (s : State) (n : Nat) (v : Invocation) (w : Word) (m : Nat), 
    s.chip.passes .running = true →
    s.chip.issues n v 0x3c 0 = true ∧ w = s.chip.nextInsn v →
    m = fld w 13 0 ∧ (m < (v.reg (fRa w)).toNat ∨ m < (v.reg (fRb w)).toNat) →
    exec (.pawnAlvd n) s = .next { s with chip := s.chip.setInv n ((v.setReg (fRd w) (0xFFFFFFFFFFFFFFFF)).past 1) }) ∧
  (∀ (s : State) (n : Nat) (v : Invocation) (w : Word), 
    s.chip.passes .running = true →
    s.chip.issues n v 0x3d 0 = true ∧ w = s.chip.nextInsn v →
    v.writes.length < 64 →
    exec (.pawnSwr n) s = .next { s with chip := s.chip.setInv n (Invocation.past { v with writes := v.writes ++ [{ sig := w.toNat % 2 ^ 16, value := (v.reg (fRd w)).toNat, cap := if fRa w = 0 then v.ecap else (v.reg (fRa w)).toNat, inv := bit w 17 }] } 2) }) ∧
  (∀ (s : State) (n : Nat) (v : Invocation) (w : Word), 
    s.chip.passes .running = true →
    s.chip.issues n v 0x3e 0 = true ∧ w = s.chip.nextInsn v →
    v.emits.length < 16 →
    exec (.pawnEmit n) s = .next { s with chip := s.chip.setInv n (Invocation.past { v with emits := v.emits ++ [.emit (w.toNat % 2 ^ 14)] } 1) }) ∧
  (∀ (s : State) (n : Nat) (v : Invocation) (w : Word), 
    s.chip.passes .running = true →
    s.chip.issues n v 0x3e 1 = true ∧ w = s.chip.nextInsn v →
    v.emits.length < 16 ∧ (v.reg (fRd w)).toNat ≤ 2048 →
    exec (.pawnSend n) s = .next { s with chip := s.chip.setInv n (Invocation.past { v with emits := v.emits ++ [.send (w.toNat % 2 ^ 14) ((List.range (v.reg (fRd w)).toNat).map fun j => byteAt v.out j) v.capmin v.dlmin v.sub] } 1) }) ∧
  (∀ (s : State) (n : Nat) (v : Invocation) (w : Word) (j : Nat), 
    s.chip.passes .running = true →
    s.chip.issues n v 0x3f 0 = true ∧ w = s.chip.nextInsn v →
    j = (v.reg (fRa w) + BitVec.ofNat 64 (w.toNat % 2 ^ 12)).toNat ∧ j < 4096 ∧ fld (s.chip.pastView.twordAt v.epoch (timerOff j)) 62 61 = v.part ∧ v.timers.length < 16 →
    exec (.pawnTstart n) s = .next { s with chip := s.chip.setInv n (Invocation.past { v with timers := v.timers ++ [{ timer := j, start := true, after := (v.reg (fRd w)).toNat }] } 1) }) ∧
  (∀ (s : State) (n : Nat) (v : Invocation) (w : Word) (j : Nat), 
    s.chip.passes .running = true →
    s.chip.issues n v 0x3f 1 = true ∧ w = s.chip.nextInsn v →
    j = (v.reg (fRa w) + BitVec.ofNat 64 (w.toNat % 2 ^ 12)).toNat ∧ j < 4096 ∧ fld (s.chip.pastView.twordAt v.epoch (timerOff j)) 62 61 = v.part ∧ v.timers.length < 16 →
    exec (.pawnTstop n) s = .next { s with chip := s.chip.setInv n (Invocation.past { v with timers := v.timers ++ [{ timer := j, start := false, after := 0 }] } 1) })

/-- SWR, EMIT, SEND, TSTART and TSTOP append their operation, with the operands as they stand, to the commit buffer of the invocation and change nothing else of the part; SWR takes two cycles. A buffer that is full faults COMMIT_FULL, a SEND of more than 2,048 bytes BUF, and a timer above 4,095 or of another partition TIMER, and then nothing is committed. -/
def Obligations.PawnHeldCommands : Prop :=
  (∀ (s : State) (n : Nat) (v : Invocation) (w : Word), 
    s.chip.passes .running = true →
    s.chip.issues n v 0x3d 0 = true ∧ w = s.chip.nextInsn v →
    v.writes.length < 64 →
    exec (.pawnSwr n) s = .next { s with chip := s.chip.setInv n (Invocation.past { v with writes := v.writes ++ [{ sig := w.toNat % 2 ^ 16, value := (v.reg (fRd w)).toNat, cap := if fRa w = 0 then v.ecap else (v.reg (fRa w)).toNat, inv := bit w 17 }] } 2) }) ∧
  (∀ (s : State) (n : Nat) (v : Invocation) (w : Word), 
    s.chip.passes .running = true →
    s.chip.issues n v 0x3e 0 = true ∧ w = s.chip.nextInsn v →
    v.emits.length < 16 →
    exec (.pawnEmit n) s = .next { s with chip := s.chip.setInv n (Invocation.past { v with emits := v.emits ++ [.emit (w.toNat % 2 ^ 14)] } 1) }) ∧
  (∀ (s : State) (n : Nat) (v : Invocation) (w : Word), 
    s.chip.passes .running = true →
    s.chip.issues n v 0x3e 1 = true ∧ w = s.chip.nextInsn v →
    v.emits.length < 16 ∧ (v.reg (fRd w)).toNat ≤ 2048 →
    exec (.pawnSend n) s = .next { s with chip := s.chip.setInv n (Invocation.past { v with emits := v.emits ++ [.send (w.toNat % 2 ^ 14) ((List.range (v.reg (fRd w)).toNat).map fun j => byteAt v.out j) v.capmin v.dlmin v.sub] } 1) }) ∧
  (∀ (s : State) (n : Nat) (v : Invocation) (w : Word) (j : Nat), 
    s.chip.passes .running = true →
    s.chip.issues n v 0x3f 0 = true ∧ w = s.chip.nextInsn v →
    j = (v.reg (fRa w) + BitVec.ofNat 64 (w.toNat % 2 ^ 12)).toNat ∧ j < 4096 ∧ fld (s.chip.pastView.twordAt v.epoch (timerOff j)) 62 61 = v.part ∧ v.timers.length < 16 →
    exec (.pawnTstart n) s = .next { s with chip := s.chip.setInv n (Invocation.past { v with timers := v.timers ++ [{ timer := j, start := true, after := (v.reg (fRd w)).toNat }] } 1) }) ∧
  (∀ (s : State) (n : Nat) (v : Invocation) (w : Word) (j : Nat), 
    s.chip.passes .running = true →
    s.chip.issues n v 0x3f 1 = true ∧ w = s.chip.nextInsn v →
    j = (v.reg (fRa w) + BitVec.ofNat 64 (w.toNat % 2 ^ 12)).toNat ∧ j < 4096 ∧ fld (s.chip.pastView.twordAt v.epoch (timerOff j)) 62 61 = v.part ∧ v.timers.length < 16 →
    exec (.pawnTstop n) s = .next { s with chip := s.chip.setInv n (Invocation.past { v with timers := v.timers ++ [{ timer := j, start := false, after := 0 }] } 1) }) ∧
  (∀ (s : State) (n : Nat) (v : Invocation) (w : Word), 
    s.chip.passes .running = true →
    s.chip.issues n v 0x3d 0 = true ∧ w = s.chip.nextInsn v ∧ n < 16 →
    64 ≤ v.writes.length →
    s.chip.digestHeld n = false →
    ∃ d, exec (.pawnSwr n) s = .next { s with chip := d } ∧
      d.invOf n = none ∧ d.reg (Reg.PAWN.LAST_FAULT n) = BitVec.ofNat 32 (2 ^ 31 + 8 * 2 ^ 24 + 0 * 2 ^ 16 + v.prog) ∧
      d.reg (Reg.PAWN.FAULTS n) = sat32 ((s.chip.reg (Reg.PAWN.FAULTS n)).toNat + 1) ∧
      d.reg (Reg.PAWN.INVOKED n) = sat32 ((s.chip.reg (Reg.PAWN.INVOKED n)).toNat + 1) ∧
      d.reg (Reg.PAWN.LAST_FAULT_TIME n) = s.chip.ns41 ∧ d.tbl = s.chip.tbl ∧ d.sig = s.chip.sig) ∧
  (∀ (s : State) (n : Nat) (v : Invocation) (w : Word), 
    s.chip.passes .running = true →
    s.chip.issues n v 0x3e 0 = true ∧ w = s.chip.nextInsn v ∧ n < 16 →
    16 ≤ v.emits.length →
    s.chip.digestHeld n = false →
    ∃ d, exec (.pawnEmit n) s = .next { s with chip := d } ∧
      d.invOf n = none ∧ d.reg (Reg.PAWN.LAST_FAULT n) = BitVec.ofNat 32 (2 ^ 31 + 8 * 2 ^ 24 + 0 * 2 ^ 16 + v.prog) ∧
      d.reg (Reg.PAWN.FAULTS n) = sat32 ((s.chip.reg (Reg.PAWN.FAULTS n)).toNat + 1) ∧
      d.reg (Reg.PAWN.INVOKED n) = sat32 ((s.chip.reg (Reg.PAWN.INVOKED n)).toNat + 1) ∧
      d.reg (Reg.PAWN.LAST_FAULT_TIME n) = s.chip.ns41 ∧ d.tbl = s.chip.tbl ∧ d.sig = s.chip.sig) ∧
  (∀ (s : State) (n : Nat) (v : Invocation) (w : Word), 
    s.chip.passes .running = true →
    s.chip.issues n v 0x3e 1 = true ∧ w = s.chip.nextInsn v ∧ n < 16 →
    2048 < (v.reg (fRd w)).toNat →
    s.chip.digestHeld n = false →
    ∃ d, exec (.pawnSend n) s = .next { s with chip := d } ∧
      d.invOf n = none ∧ d.reg (Reg.PAWN.LAST_FAULT n) = BitVec.ofNat 32 (2 ^ 31 + 7 * 2 ^ 24 + 0 * 2 ^ 16 + v.prog) ∧
      d.reg (Reg.PAWN.FAULTS n) = sat32 ((s.chip.reg (Reg.PAWN.FAULTS n)).toNat + 1) ∧
      d.reg (Reg.PAWN.INVOKED n) = sat32 ((s.chip.reg (Reg.PAWN.INVOKED n)).toNat + 1) ∧
      d.reg (Reg.PAWN.LAST_FAULT_TIME n) = s.chip.ns41 ∧ d.tbl = s.chip.tbl ∧ d.sig = s.chip.sig) ∧
  (∀ (s : State) (n : Nat) (v : Invocation) (w : Word), 
    s.chip.passes .running = true →
    s.chip.issues n v 0x3f 0 = true ∧ w = s.chip.nextInsn v ∧ n < 16 →
    4096 ≤ (v.reg (fRa w) + BitVec.ofNat 64 (w.toNat % 2 ^ 12)).toNat →
    s.chip.digestHeld n = false →
    ∃ d, exec (.pawnTstart n) s = .next { s with chip := d } ∧
      d.invOf n = none ∧ d.reg (Reg.PAWN.LAST_FAULT n) = BitVec.ofNat 32 (2 ^ 31 + 9 * 2 ^ 24 + 0 * 2 ^ 16 + v.prog) ∧
      d.reg (Reg.PAWN.FAULTS n) = sat32 ((s.chip.reg (Reg.PAWN.FAULTS n)).toNat + 1) ∧
      d.reg (Reg.PAWN.INVOKED n) = sat32 ((s.chip.reg (Reg.PAWN.INVOKED n)).toNat + 1) ∧
      d.reg (Reg.PAWN.LAST_FAULT_TIME n) = s.chip.ns41 ∧ d.tbl = s.chip.tbl ∧ d.sig = s.chip.sig) ∧
  (∀ (s : State) (n : Nat) (v : Invocation) (w : Word), 
    s.chip.passes .running = true →
    s.chip.issues n v 0x3f 1 = true ∧ w = s.chip.nextInsn v ∧ n < 16 →
    fld (s.chip.pastView.twordAt v.epoch (timerOff ((v.reg (fRa w) + BitVec.ofNat 64 (w.toNat % 2 ^ 12)).toNat))) 62 61 ≠ v.part →
    s.chip.digestHeld n = false →
    ∃ d, exec (.pawnTstop n) s = .next { s with chip := d } ∧
      d.invOf n = none ∧ d.reg (Reg.PAWN.LAST_FAULT n) = BitVec.ofNat 32 (2 ^ 31 + 9 * 2 ^ 24 + 0 * 2 ^ 16 + v.prog) ∧
      d.reg (Reg.PAWN.FAULTS n) = sat32 ((s.chip.reg (Reg.PAWN.FAULTS n)).toNat + 1) ∧
      d.reg (Reg.PAWN.INVOKED n) = sat32 ((s.chip.reg (Reg.PAWN.INVOKED n)).toNat + 1) ∧
      d.reg (Reg.PAWN.LAST_FAULT_TIME n) = s.chip.ns41 ∧ d.tbl = s.chip.tbl ∧ d.sig = s.chip.sig)

/-- COPY_LAUNCH_GRANT of an input whose one candidate is eligible puts its next cell, numbered with the flow's next SEQ, into the middle of this Tour slot. CELL_ARRIVE_RESEQUENCER takes the cell that a middle sends: the expected one advances the flow's expected SEQ, an unreadable one is counted in ECC_DROP. RESEQ_TIMEOUT counts the skipped cell in RESEQ_SKIP and raises its source. AGER_SCAN records its time and discards a waiting copy that has outstayed MAX_RES, counted in RES_DROP. HOLD_RECLAIM discards the oldest held copy. BUF_SPLIT_WRITE takes a split that both pools admit and refuses another with PAGE_ERR.BLOCK. -/
def Obligations.FabricCommandsComplete : Prop :=
  (∀ (s : State) (i : Nat) (k : Copy), 
    s.chip.passes .running = true →
    i < 16 ∧ sget 0 s.chip.fab.sentAt i ≠ s.chip.fab.tour + 1 ∧ s.chip.launchOrder i = [k] →
    k.sent = 0 ∧ k.cls < 7 ∧ s.chip.residenceOver k = false ∧ s.chip.pastDeadline k = false ∧ s.chip.mayGrant k = true →
    ((s.chip.midHere ((i + s.chip.fab.tour) % 16)).filter fun x => x.port == outPort k.output && decide (x.cls < 7)).length < s.chip.midLim →
    (s.chip.midHere ((i + s.chip.fab.tour) % 16)).length < 4096 →
    ∃ d, exec (.copyLaunchGrant i) s = .next { s with chip := d } ∧
      d.fab.mids = s.chip.fab.mids ++ [⟨(i + s.chip.fab.tour) % 16, outPort k.output, k.id, k.cls, k.flow, sget 0 s.chip.fab.seqOut k.flow, s.chip.fab.tour⟩] ∧
      sget 0 d.fab.seqOut k.flow = (sget 0 s.chip.fab.seqOut k.flow + 1) % 2 ^ 18 ∧
      sget 0 d.fab.sentAt i = s.chip.fab.tour + 1) ∧
  (∀ (s : State) (j : Nat) (x : MidCell), 
    s.chip.passes .running = true →
    j < 16 ∧ 4 ≤ s.chip.fab.tour ∧ sget 0 s.chip.fab.takenAt j ≠ s.chip.fab.tour + 1 →
    s.chip.midPick ((s.chip.fab.tour - 4 + 16 - j) % 16) j (s.chip.fab.tour - 4) = some x →
    s.chip.plState s.chip.move = 0 →
    ∃ d, exec (.cellArriveResequencer j { bad := 1 }) s = .next { s with chip := d } ∧
      d.fab.mids.all (fun y => !(y.flow == x.flow && y.seq == x.seq)) = true ∧
      d.reg Reg.FAB.ECC_DROP = sat32 ((s.chip.reg Reg.FAB.ECC_DROP).toNat + 1) ∧ d.bitOf (hIrqStat 0x040) 3 = true ∧
      (s.chip.plState 0 < 2 → d.bitOf (Reg.PL.FLAGS 0) 0 = true ∧ d.reg (Reg.MEM.INST_UE 0x4B) = sat32 ((s.chip.reg (Reg.MEM.INST_UE 0x4B)).toNat + 1)) ∧
      d.fab.copies = s.chip.fab.copies) ∧
  (∀ (s : State) (j : Nat) (x : MidCell), 
    s.chip.passes .running = true →
    j < 16 ∧ 4 ≤ s.chip.fab.tour ∧ sget 0 s.chip.fab.takenAt j ≠ s.chip.fab.tour + 1 →
    s.chip.midPick ((s.chip.fab.tour - 4 + 16 - j) % 16) j (s.chip.fab.tour - 4) = some x →
    x.seq = sget 0 s.chip.fab.seqExp x.flow ∧ s.chip.fab.rsq = [] →
    ∃ d, exec (.cellArriveResequencer j {}) s = .next { s with chip := d } ∧
      d.fab.mids.all (fun y => !(y.flow == x.flow && y.seq == x.seq)) = true ∧ d.fab.rsq = [] ∧
      sget 0 d.fab.seqExp x.flow = (x.seq + 1) % 2 ^ 18 ∧ sget 0 d.fab.takenAt j = s.chip.fab.tour + 1) ∧
  (∀ (s : State) (i o c : Nat) (x : RsqCell), 
    s.chip.passes .running = true →
    x ∈ s.chip.fab.rsq ∧ x.flow = (i * 128 + o) * 8 + c ∧ x.since + s.chip.reseqTo ≤ s.chip.fab.tour →
    ∃ d, exec (.reseqTimeout i o c) s = .next { s with chip := d } ∧
      d.reg Reg.FAB.RESEQ_SKIP = sat32 ((s.chip.reg Reg.FAB.RESEQ_SKIP).toNat + 1) ∧ d.bitOf (hIrqStat 0x040) 1 = true) ∧
  (∀ (s : State), 
    s.chip.passes .running = true →
    s.chip.bitOf Reg.BUF.CTRL 31 = true ∧ s.chip.fab.lastAge + s.chip.ageScan * fsUs ≤ s.chip.now ∧ s.chip.fab.copies = [] →
    ∃ d, exec .agerScan s = .next { s with chip := d } ∧
      d.fab.lastAge = s.chip.now ∧ d.fab.copies = [] ∧ s.chip.keeps d [Reg.BUF.ING_FREE, Reg.BUF.EGR_FREE, Reg.BUF.ING_MIN, Reg.BUF.EGR_MIN, hIrqStat 0x041]) ∧
  (∀ (s : State) (k : Copy), 
    s.chip.passes .running = true →
    s.chip.bitOf Reg.BUF.CTRL 31 = true ∧ s.chip.fab.lastAge + s.chip.ageScan * fsUs ≤ s.chip.now →
    s.chip.fab.copies = [k] ∧ k.output < 40 ∧ k.appended = false ∧ k.sent = 0 ∧ 0 < k.cells ∧ k.txCells = 0 ∧ k.held = false ∧ k.passed = false ∧ s.chip.residenceOver k = true →
    ∃ d, exec .agerScan s = .next { s with chip := d } ∧
      d.fab.lastAge = s.chip.now ∧ d.fab.copies = [] ∧
      d.reg Reg.BUF.RES_DROP = sat32 ((s.chip.reg Reg.BUF.RES_DROP).toNat + 1) ∧ d.bitOf (hIrqStat 0x041) 1 = true) ∧
  (∀ (s : State) (k : Copy), 
    s.chip.passes .running = true →
    s.chip.ingFree < s.chip.fldOf Reg.BUF.HOLD_RECLAIM 17 0 ∨ s.chip.egrFree < s.chip.fldOf Reg.BUF.HOLD_RECLAIM 17 0 →
    s.chip.fab.reclaimAt ≠ s.chip.fab.tour + 1 →
    s.chip.fab.copies.filter (fun j => s.chip.inHold j.output && (j.sent == 0 || (j.appended && j.sent == j.cells)) && j.txCells == 0) = [k] →
    ∃ d, exec .holdReclaim s = .next { s with chip := d } ∧
      d.fab.copies = s.chip.fab.copies.filter (fun j => j.id != k.id) ∧
      d.reg Reg.BUF.HOLD_RECLAIM_CNT = sat32 ((s.chip.reg Reg.BUF.HOLD_RECLAIM_CNT).toNat + 1) ∧ d.bitOf (hIrqStat 0x041) 2 = true) ∧
  (∀ (s : State) (k : Nat) (v : Word), 
    s.chip.passes .running = true →
    s.chip.accepts k Reg.BUF.SPLIT = true ∧ 8 ≤ v.toNat % 64 ∧ v.toNat % 64 ≤ 56 →
    s.chip.ingUsed ≤ s.chip.ingPoolOf (v.toNat % 64) ∧ s.chip.egrUsed ≤ s.chip.egrPoolOf (v.toNat % 64) →
    ∃ d, exec (.bufSplitWrite k v 0xF) s = .next { s with chip := d } ∧
      d.fldOf Reg.BUF.SPLIT 5 0 = v.toNat % 64 ∧ d.fab.copies = s.chip.fab.copies ∧ s.chip.keeps d [Reg.BUF.SPLIT, Reg.BUF.ING_FREE, Reg.BUF.EGR_FREE, Reg.BUF.ING_MIN, Reg.BUF.EGR_MIN, hIrqStat 0x041]) ∧
  (∀ (s : State) (k : Nat) (v : Word), 
    s.chip.passes .running = true →
    s.chip.accepts k Reg.BUF.SPLIT = true →
    v.toNat % 64 < 8 ∨ 56 < v.toNat % 64 ∨ s.chip.ingPoolOf (v.toNat % 64) < s.chip.ingUsed ∨ s.chip.egrPoolOf (v.toNat % 64) < s.chip.egrUsed →
    ∃ d, exec (.bufSplitWrite k v 0xF) s = .next { s with chip := d } ∧
      d.reg Reg.BUF.SPLIT = s.chip.reg Reg.BUF.SPLIT ∧ d.bitOf (hErr 0x041) 7 = true ∧ d.fab = s.chip.fab ∧
      s.chip.keeps d [hErr 0x041, hIrqStat 0x041])

/-- ADJ_ITEM_COMPARE of a cell on which both planes and the drive agree releases it where its output takes it; one on which they differ is counted in DIS_CELL, kept back and waits for a decision. ADJ_DECISION after the windows: flags on the partner alone retire the partner, flags on the active plane alone give the partner the move, retire the former active plane and open the gap, and with no flags the disagreement is UNDECIDED. A PARITY or BUDGET flag of one plane that comes with a compared item is set, timed and counted for that plane. SWITCHOVER_GAP_END closes the gap. DIAG_DONE without a bad region clears DIAG. TABLE_SWEEP when due and SWEEP_NOW by the owner count a sweep, and a bad region sets FAIL and REGION. -/
def Obligations.AdjudicationCommands : Prop :=
  (∀ (s : State) (o c : Nat) (k : Copy), 
    s.chip.passes .running = true →
    o < 68 ∧ c < 8 ∧ s.chip.itemHeld false o = false →
    s.chip.fab.copies.find? (fun k => k.appended && k.output == o && k.cls == c && decide (k.compared < k.arrived)) = some k →
    k.passed = true ∨ (s.chip.outputTakes k = true ∧ (40 ≤ k.output ∨ s.chip.canRecOk k.output k.data = true) ∧ s.chip.residenceOver k = false ∧ s.chip.pastDeadline k = false) →
    ∃ d, exec (.adjItemCompare 0 o c {} true) s = .next { s with chip := d } ∧
      d.fab.copies = s.chip.fab.copies.map (fun j => if j.id = k.id then { j with passed := true, compared := j.compared + 1 } else j) ∧
      s.chip.keeps d [Reg.BUF.ING_FREE, Reg.BUF.EGR_FREE, Reg.BUF.ING_MIN, Reg.BUF.EGR_MIN, hIrqStat 0x041] ∧ d = { s.chip with fab := d.fab, regs := d.regs, out := d.out, pba := d.pba }) ∧
  (∀ (s : State) (o c : Nat) (dr : Bool) (k : Copy), 
    s.chip.passes .running = true →
    o < 68 ∧ c < 8 ∧ s.chip.itemHeld false o = false ∧ s.chip.lockstep = true →
    s.chip.fab.copies.find? (fun k => k.appended && k.output == o && k.cls == c && decide (k.compared < k.arrived)) = some k →
    k.passed = true ∨ (s.chip.outputTakes k = true ∧ (40 ≤ k.output ∨ s.chip.canRecOk k.output k.data = true) ∧ s.chip.residenceOver k = false ∧ s.chip.pastDeadline k = false) →
    ∃ d, exec (.adjItemCompare 0 o c { same := false } dr) s = .next { s with chip := d } ∧
      d.reg Reg.ADJ.DIS_CELL = sat32 ((s.chip.reg Reg.ADJ.DIS_CELL).toNat + 1) ∧
      d.fab.copies = s.chip.fab.copies.map (fun j => if j.id = k.id then { j with passed := true } else j) ∧
      d.adj.pend.map (fun p => (p.point, p.loc, p.cls, p.copy, p.d, p.act)) =
        s.chip.adj.pend.map (fun p => (p.point, p.loc, p.cls, p.copy, p.d, p.act)) ++ [(0, o, c, k.id, s.chip.fab.tour, s.chip.move)] ∧
      s.chip.keeps d [Reg.ADJ.DIS_CELL] ∧ d = { s.chip with regs := d.regs, adj := d.adj, fab := d.fab }) ∧
  (∀ (s : State) (n x f : Nat), 
    s.chip.passes .running = true →
    x < 2 ∧ s.chip.planeComputes x = true ∧ s.chip.planeComputes 0 = true ∧ (f = 1 ∨ f = 2) ∧ s.chip.digestHeld n = true →
    ∃ d, exec (.adjItemCompare 1 n 0 { white := if x = 0 then 2 ^ f else 0, black := if x = 1 then 2 ^ f else 0 } true) s = .next { s with chip := d } ∧
      d.bitOf (Reg.PL.FLAGS x) f = true ∧ d.reg (flagCounter x f) = sat32 ((s.chip.reg (flagCounter x f)).toNat + 1) ∧
      d.reg (Reg.PL.FLAG_TIME x) = s.chip.ns41 ∧ d.fab = s.chip.fab) ∧
  (∀ (s : State) (p : Dis) (rest : List Dis), 
    s.chip.passes .running = true →
    s.chip.adj.pend = p :: rest ∧ p.d + 66 ≤ s.chip.fab.tour ∧ s.chip.halted = false ∧ s.chip.lockstep = true ∧ p.join = false →
    p.outcome = 0 →
    ∃ d, exec .adjDecision s = .next { s with chip := d } ∧
      d.adj.pend = rest ∧ d.move = s.chip.move ∧ d.plState s.chip.partner = 2 ∧
      d.fldOf (Reg.PL.PL_STATE s.chip.partner) 15 8 = 1 ∧ d.fldOf Reg.ADJ.STATUS 18 16 = 2 ∧
      d.reg Reg.ADJ.RETIREMENTS = sat32 ((s.chip.reg Reg.ADJ.RETIREMENTS).toNat + 1) ∧ d.fab = s.chip.fab) ∧
  (∀ (s : State) (p : Dis) (rest : List Dis), 
    s.chip.passes .running = true →
    s.chip.adj.pend = p :: rest ∧ p.d + 66 ≤ s.chip.fab.tour ∧ s.chip.halted = false ∧ s.chip.lockstep = true ∧ p.join = false →
    p.outcome = 1 ∧ p.act = s.chip.move ∧ (p.point ≠ 5 ∨ p.flags (1 - p.act) < 8) →
    ∃ d, exec .adjDecision s = .next { s with chip := d } ∧
      d.adj.pend = rest ∧ d.move = s.chip.partner ∧ d.plState s.chip.move = 2 ∧ d.plState s.chip.partner = 0 ∧
      d.bitOf Reg.ADJ.STATUS 1 = true ∧ d.adj.gapFrom = some (p.d, p.dFs) ∧
      d.reg Reg.ADJ.SWITCHOVERS = sat32 ((s.chip.reg Reg.ADJ.SWITCHOVERS).toNat + 1) ∧ d.bitOf (hIrqStat 0x030) 2 = true) ∧
  (∀ (s : State) (p : Dis) (rest : List Dis), 
    s.chip.passes .running = true →
    s.chip.adj.pend = p :: rest ∧ p.d + 66 ≤ s.chip.fab.tour ∧ s.chip.halted = false ∧ s.chip.lockstep = true ∧ p.join = false →
    p.outcome = 2 ∧ p.point ≠ 1 ∧ p.wFlags < 8 ∧ p.bFlags < 8 ∧ s.chip.bitOf Reg.ADJ.STATUS 2 = false ∧ s.chip.arbRunning = true →
    ∃ d, exec .adjDecision s = .next { s with chip := d } ∧
      d.adj.pend = rest ∧ d.move = s.chip.move ∧ d.plState s.chip.partner = 1 ∧ d.bitOf Reg.ADJ.STATUS 2 = true ∧
      d.reg Reg.ADJ.UNDECIDED = sat32 ((s.chip.reg Reg.ADJ.UNDECIDED).toNat + 1) ∧ d.bitOf (hIrqStat 0x030) 1 = true) ∧
  (∀ (s : State) (t fs : Nat), 
    s.chip.passes .running = true →
    s.chip.adj.gapFrom = some (t, fs) →
    ∃ d, exec .switchoverGapEnd s = .next { s with chip := d } ∧
      d.adj.gapFrom = none ∧ d.bitOf Reg.ADJ.STATUS 1 = false ∧
      d.fldOf Reg.ADJ.GAP_MAX 11 0 = max (s.chip.fldOf Reg.ADJ.GAP_MAX 11 0) (min 0xFFF ((s.chip.now - fs) / 10 ^ 6)) ∧
      s.chip.keeps d [Reg.ADJ.GAP_MAX, Reg.ADJ.STATUS] ∧ d = { s.chip with regs := d.regs, adj := d.adj }) ∧
  (∀ (s : State), 
    s.chip.passes .running = true →
    s.chip.bitOf Reg.ADJ.STATUS 2 = true ∧ s.chip.arbRunning = true ∧ s.chip.adj.diagFor = none ∧ s.chip.planeRuns 0 = true ∧ s.chip.planeRuns 1 = true →
    ∃ d, exec (.diagDone 0 0) s = .next { s with chip := d } ∧
      d.bitOf Reg.ADJ.STATUS 2 = false ∧ d.bitOf (hIrqStat 0x030) 0 = true ∧
      d.fldOf (Reg.PL.SWEEP_STAT 0) 15 0 = (s.chip.fldOf (Reg.PL.SWEEP_STAT 0) 15 0 + 1) % 2 ^ 16 ∧
      d.fldOf (Reg.PL.SWEEP_STAT 1) 15 0 = (s.chip.fldOf (Reg.PL.SWEEP_STAT 1) 15 0 + 1) % 2 ^ 16 ∧
      s.chip.keeps d [Reg.ADJ.STATUS, hIrqStat 0x030, Reg.PL.SWEEP_STAT 0, Reg.PL.SWEEP_STAT 1]) ∧
  (∀ (s : State) (x : Nat), 
    s.chip.passes .running = true →
    x < 2 ∧ s.chip.planeRuns x = true ∧ s.chip.fldOf (Reg.PL.SWEEP_CFG x) 15 0 ≠ 0 →
    sget 0 s.chip.adj.sweepAt x + clampNat 100 60000 (s.chip.fldOf (Reg.PL.SWEEP_CFG x) 15 0) * fsMs ≤ s.chip.now →
    ∃ d, exec (.tableSweep x 0) s = .next { s with chip := d } ∧
      d.fldOf (Reg.PL.SWEEP_STAT x) 15 0 = (s.chip.fldOf (Reg.PL.SWEEP_STAT x) 15 0 + 1) % 2 ^ 16 ∧
      sget 0 d.adj.sweepAt x = s.chip.now ∧ s.chip.keeps d [Reg.PL.SWEEP_STAT x] ∧ d = { s.chip with regs := d.regs, adj := d.adj }) ∧
  (∀ (s : State) (k x : Nat) (v : Word), 
    s.chip.passes .running = true →
    x < 2 ∧ s.chip.accepts k (Reg.PL.SWEEP_NOW x) = true ∧ bit v 0 = true ∧ s.chip.planeRuns x = true →
    ∃ d, exec (.sweepNow k x v 0) s = .next { s with chip := d } ∧
      d.fldOf (Reg.PL.SWEEP_STAT x) 15 0 = (s.chip.fldOf (Reg.PL.SWEEP_STAT x) 15 0 + 1) % 2 ^ 16 ∧
      s.chip.keeps d [Reg.PL.SWEEP_STAT x] ∧ d = { s.chip with regs := d.regs }) ∧
  (∀ (s : State) (k x b : Nat) (v : Word), 
    s.chip.passes .running = true →
    x < 2 ∧ s.chip.accepts k (Reg.PL.SWEEP_NOW x) = true ∧ bit v 0 = true ∧ s.chip.planeRuns x = true →
    1 ≤ b ∧ b ≤ 8 ∧ s.chip.bitOf (Reg.PL.SWEEP_STAT x) 30 = false ∧ s.chip.halted = false ∧ s.chip.lockstep = true ∧ x = s.chip.partner →
    s.chip.adj.pend = [] →
    ∃ d, exec (.sweepNow k x v b) s = .next { s with chip := d } ∧
      d.bitOf (Reg.PL.SWEEP_STAT x) 30 = true ∧ d.fldOf (Reg.PL.SWEEP_STAT x) 23 16 = b ∧ d.plState x = 2 ∧
      d.bitOf (hIrqStat (0x031 + x)) 1 = true ∧ d.bitOf (Reg.PL.FLAGS x) 3 = true ∧ d.move = s.chip.move)

/-- PL_CTRL_RESET retires the plane that has not the move and is refused for the other. REINT with its key, put off while the Arbiter does not run, and REINT_AUTO_START begin a re-integration at WIPING; REINT_WIPE_DONE goes to COPYING, or back to RETIRED when too many words failed; REINT_COPY_DONE goes to SNAPSHOT, REINT_COPY_TIMEOUT retires the plane and counts REINT_FAILS, REINT_SNAPSHOT_DONE goes to JOINING and REINT_JOIN_DONE to lockstep, counted. SWAP with its key, PROOF_SWAP_DUE and PROOF_SWAP_RESUME exchange the roles of two planes in lockstep and count the swap, and PROOF_SWAP_DUE moves PROOF_NEXT on by PROOF_INT. -/
def Obligations.ReintegrationCommands : Prop :=
  (∀ (s : State) (k x : Nat) (v : Word), 
    s.chip.passes .running = true →
    x < 2 ∧ s.chip.accepts k (Reg.PL.PL_CTRL x) = true ∧ bit v 0 = true ∧ x = s.chip.partner ∧ s.chip.plState x ≠ 2 →
    ∃ d, exec (.plCtrlReset k x v) s = .next { s with chip := d } ∧
      d.plState x = 2 ∧ d.fldOf (Reg.PL.PL_STATE x) 15 8 = 5 ∧ d.move = s.chip.move ∧
      d.reg Reg.ADJ.RETIREMENTS = sat32 ((s.chip.reg Reg.ADJ.RETIREMENTS).toNat + 1) ∧
      d.bitOf Reg.GLB.ALARM_STAT 2 = true ∧ d.bitOf Reg.GLB.ALARM_STAT 3 = true ∧ d.bitOf (hIrqStat 0x030) 3 = true ∧ d.fab = s.chip.fab) ∧
  (∀ (s : State) (k x : Nat) (v : Word), 
    s.chip.passes .running = true →
    x < 2 ∧ s.chip.accepts k (Reg.PL.PL_CTRL x) = true ∧ bit v 0 = true ∧ x = s.chip.move →
    ∃ d, exec (.plCtrlReset k x v) s = .next { s with chip := d } ∧
      d.plState x = s.chip.plState x ∧ d.bitOf (hErr (0x031 + x)) 7 = true ∧ s.chip.keeps d [hErr (0x031 + x), hIrqStat (0x031 + x)]) ∧
  (∀ (s : State) (k : Nat) (v : Word), 
    s.chip.passes .running = true →
    s.chip.accepts k Reg.ADJ.REINT = true ∧ fld v 15 0 = 0x5249 ∧ s.chip.plState s.chip.partner = 2 ∧ s.chip.halted = false ∧ s.chip.arbRunning = true →
    s.chip.bitOf Reg.ADJ.CTRL 1 = false ∨ s.chip.autoStopped = true →
    ∃ d, exec (.reint k v) s = .next { s with chip := d } ∧
      d.plState s.chip.partner = 3 ∧ d.move = s.chip.move ∧ d.adj.reintFrom = some s.chip.now ∧ d.autoStopped = false ∧
      d.reg (Reg.PL.ECC_EVT s.chip.partner) = 0 ∧ d.reg (Reg.PL.SWEEP_STAT s.chip.partner) = 0) ∧
  (∀ (s : State) (k : Nat) (v : Word), 
    s.chip.passes .running = true →
    s.chip.accepts k Reg.ADJ.REINT = true ∧ fld v 15 0 = 0x5249 →
    s.chip.plState s.chip.partner ≠ 2 ∨ (s.chip.bitOf Reg.ADJ.CTRL 1 = true ∧ s.chip.autoStopped = false) →
    ∃ d, exec (.reint k v) s = .next { s with chip := d } ∧
      d.bitOf (hErr 0x030) 7 = true ∧ s.chip.keeps d [hErr 0x030, hIrqStat 0x030] ∧ d = { s.chip with regs := d.regs, out := d.out, pba := d.pba }) ∧
  (∀ (s : State) (k : Nat) (v : Word), 
    s.chip.passes .running = true →
    s.chip.accepts k Reg.ADJ.REINT = true ∧ fld v 15 0 = 0x5249 ∧ s.chip.plState s.chip.partner = 2 ∧ s.chip.halted = false ∧ s.chip.arbRunning = false →
    s.chip.bitOf Reg.ADJ.CTRL 1 = false ∨ s.chip.autoStopped = true →
    ∃ d, exec (.reint k v) s = .next { s with chip := d } ∧
      d = { s.chip with adj := { s.chip.adj with autoOff := s.chip.adj.autoOff.filter (fun y => y != s.chip.partner), fails := s.chip.adj.fails.filter (fun e => e.1 != s.chip.partner), reintDue := true } }) ∧
  (∀ (s : State), 
    s.chip.passes .running = true →
    s.chip.bitOf Reg.ADJ.CTRL 1 = true ∧ s.chip.plState s.chip.partner = 2 ∧ s.chip.autoStopped = false ∧ s.chip.arbRunning = true ∧ s.chip.halted = false →
    ∃ d, exec .reintAutoStart s = .next { s with chip := d } ∧
      d.plState s.chip.partner = 3 ∧ d.move = s.chip.move ∧ d.adj.reintFrom = some s.chip.now ∧ d.fab = s.chip.fab) ∧
  (∀ (s : State) (u b : Nat), 
    s.chip.passes .running = true →
    s.chip.plState s.chip.partner = 3 ∧ s.chip.arbRunning = true ∧ b ≤ 8 →
    ∃ d, exec (.reintWipeDone u b) s = .next { s with chip := d } ∧
      d.plState s.chip.partner = 4 ∧ d.adj.stepFrom = s.chip.now ∧ d.move = s.chip.move) ∧
  (∀ (s : State) (u b : Nat), 
    s.chip.passes .running = true →
    s.chip.plState s.chip.partner = 3 ∧ s.chip.arbRunning = true ∧ 8 < b →
    ∃ d, exec (.reintWipeDone u b) s = .next { s with chip := d } ∧
      d.plState s.chip.partner = 2 ∧ d.reg Reg.ADJ.REINT_FAILS = sat32 ((s.chip.reg Reg.ADJ.REINT_FAILS).toNat + 1)) ∧
  (∀ (s : State), 
    s.chip.passes .running = true →
    s.chip.plState s.chip.partner = 4 ∧ s.chip.arbRunning = true ∧ s.chip.now ≤ s.chip.adj.stepFrom + 10 * fsMs →
    ∃ d, exec .reintCopyDone s = .next { s with chip := d } ∧
      d.plState s.chip.partner = 5 ∧ d.adj.stepFrom = s.chip.now ∧
      s.chip.keeps d [Reg.PL.PL_STATE s.chip.partner, Reg.ADJ.STATUS] ∧ d = { s.chip with regs := d.regs, adj := d.adj }) ∧
  (∀ (s : State), 
    s.chip.passes .running = true →
    s.chip.plState s.chip.partner = 4 ∧ s.chip.arbRunning = true ∧ s.chip.adj.stepFrom + 10 * fsMs ≤ s.chip.now →
    ∃ d, exec .reintCopyTimeout s = .next { s with chip := d } ∧
      d.plState s.chip.partner = 2 ∧ d.fldOf (Reg.PL.PL_STATE s.chip.partner) 15 8 = 6 ∧ d.move = s.chip.move ∧
      d.reg Reg.ADJ.REINT_FAILS = sat32 ((s.chip.reg Reg.ADJ.REINT_FAILS).toNat + 1) ∧ d.bitOf (hIrqStat 0x030) 5 = true) ∧
  (∀ (s : State), 
    s.chip.passes .running = true →
    s.chip.plState s.chip.partner = 5 ∧ s.chip.arbRunning = true →
    ∃ d, exec .reintSnapshotDone s = .next { s with chip := d } ∧
      d.plState s.chip.partner = 6 ∧ d.adj.joinNs = s.chip.ns ∧
      s.chip.keeps d ([Reg.PL.PL_STATE s.chip.partner, Reg.ADJ.STATUS] ++
        (List.range 64).flatMap fun q => [Reg.STG.RD_PTR_W q, Reg.STG.RD_PTR_B q, Reg.STG.MARK_STAT q]) ∧ d = { s.chip with regs := d.regs, adj := d.adj, stg := d.stg }) ∧
  (∀ (s : State), 
    s.chip.passes .running = true →
    s.chip.plState s.chip.partner = 6 ∧ s.chip.arbRunning = true ∧ s.chip.fab.copies.all (fun k => decide (s.chip.adj.joinNs ≤ k.entry)) = true →
    s.chip.cx.jobs.any (fun j => j.copy.any s.chip.preJoin) = false ∧ s.chip.adj.pend = [] →
    ∃ d, exec .reintJoinDone s = .next { s with chip := d } ∧
      d.plState s.chip.partner = 1 ∧ d.adj.reintFrom = none ∧ d.bitOf (hIrqStat 0x030) 6 = true ∧
      d.reg Reg.ADJ.REINT_DONE = sat32 ((s.chip.reg Reg.ADJ.REINT_DONE).toNat + 1) ∧
      s.chip.keeps d [Reg.PL.PL_STATE s.chip.partner, Reg.ADJ.STATUS, Reg.PL.REINT_TIME s.chip.partner, Reg.ADJ.REINT_DONE, hIrqStat 0x030]) ∧
  (∀ (s : State) (k : Nat) (v : Word), 
    s.chip.passes .running = true →
    s.chip.accepts k Reg.ADJ.SWAP = true ∧ fld v 15 0 = 0x5357 ∧ s.chip.swapBlocked = false →
    ∃ d, exec (.swap k v) s = .next { s with chip := d } ∧
      d.move = s.chip.partner ∧ d.plState s.chip.partner = 0 ∧ d.plState s.chip.move = 1 ∧
      d.reg Reg.ADJ.PROOF_SWAPS = sat32 ((s.chip.reg Reg.ADJ.PROOF_SWAPS).toNat + 1) ∧ d.bitOf (hIrqStat 0x030) 4 = true ∧
      s.chip.keeps d [Reg.ADJ.STATUS, Reg.PL.PL_STATE 0, Reg.PL.PL_STATE 1, Reg.ADJ.PROOF_SWAPS, hIrqStat 0x030] ∧
      d = { s.chip with regs := d.regs, out := d.out, pba := d.pba }) ∧
  (∀ (s : State) (k : Nat) (v : Word), 
    s.chip.passes .running = true →
    s.chip.accepts k Reg.ADJ.SWAP = true ∧ fld v 15 0 = 0x5357 ∧ s.chip.swapBlocked = true →
    ∃ d, exec (.swap k v) s = .next { s with chip := d } ∧
      d.move = s.chip.move ∧ d.bitOf (hErr 0x030) 7 = true ∧ s.chip.keeps d [hErr 0x030, hIrqStat 0x030]) ∧
  (∀ (s : State), 
    s.chip.passes .running = true →
    s.chip.proofNext ≤ s.chip.ns ∧ s.chip.fldOf Reg.GLB.BOOT_STAT 3 0 < 14 ∧ s.chip.bitOf Reg.ADJ.CTRL 0 = true ∧ s.chip.swapBlocked = false →
    s.chip.proofNext + s.chip.proofInt < 2 ^ 64 →
    ∃ d, exec .proofSwapDue s = .next { s with chip := d } ∧
      d.move = s.chip.partner ∧ d.proofNext = s.chip.proofNext + s.chip.proofInt ∧
      d.reg Reg.ADJ.PROOF_SWAPS = sat32 ((s.chip.reg Reg.ADJ.PROOF_SWAPS).toNat + 1)) ∧
  (∀ (s : State), 
    s.chip.passes .running = true →
    s.chip.adj.proofDue = true ∧ s.chip.bitOf Reg.ADJ.CTRL 0 = true ∧ s.chip.swapBlocked = false →
    ∃ d, exec .proofSwapResume s = .next { s with chip := d } ∧
      d.adj.proofDue = false ∧ d.move = s.chip.partner ∧
      d.reg Reg.ADJ.PROOF_SWAPS = sat32 ((s.chip.reg Reg.ADJ.PROOF_SWAPS).toNat + 1))

/-- TXN_CMD writes by the partition k of the bank: BEGIN opens an idle transaction with STATE OPEN, RESULT 1 and the next count, and answers BUSY_TXN where one is open. A commit of an open untainted transaction with entries becomes PENDING in its mode, its target latched from TXN_AT in mode 2; a core cycle writes one entry, and the cycle of the last one sets the target of mode 1, the first multiple of 1,000 ns at or after its end, and LATE where Tempo had reached that of mode 2 before; an empty one ends with RESULT OK, and without one the RESULT is 7. ROLLBACK discards. An undefined word sets RESULT BAD_CMD. A write of a shadowable register while the transaction is open goes into its journal and changes no register. TXN_AUTO_ABORT after TXN_CFG seconds discards, counts ABORT_CNT and raises ABORTED. -/
def Obligations.TransactionCommands : Prop :=
  (∀ (s : State) (w k : Nat), 
    s.chip.passes .running = true →
    k < 4 ∧ s.chip.accepts w (Reg.EPOCH.TXN_CMD k) = true ∧ (s.chip.txn k).state = 0 →
    ∃ d, exec (.txnBegin w k) s = .next { s with chip := d } ∧
      (d.txn k).state = 1 ∧ (d.txn k).journal = [] ∧ (d.txn k).taint = 0 ∧ (d.txn k).seq = nextCount (s.chip.txn k).seq ∧
      d.fldOf (Reg.EPOCH.TXN_STAT k) 30 28 = 1 ∧ d.fldOf (Reg.EPOCH.TXN_STAT k) 27 24 = 1 ∧
      d.fldOf (Reg.EPOCH.TXN_STAT k) 15 0 = s.chip.fldOf (Reg.EPOCH.TXN_STAT k) 15 0 ∧
      d.fldOf (Reg.EPOCH.TXN_ID k) 31 30 = k ∧ d.reg (Reg.EPOCH.LAST_REJECT k) = 0 ∧
      s.chip.keeps d [Reg.EPOCH.TXN_STAT k, Reg.EPOCH.TXN_ID k, Reg.EPOCH.LAST_REJECT k] ∧ d = { s.chip with regs := d.regs, ep := d.ep }) ∧
  (∀ (s : State) (w k : Nat), 
    s.chip.passes .running = true →
    k < 4 ∧ s.chip.accepts w (Reg.EPOCH.TXN_CMD k) = true ∧ (s.chip.txn k).state ≠ 0 →
    ∃ d, exec (.txnBegin w k) s = .next { s with chip := d } ∧
      d.fldOf (Reg.EPOCH.TXN_STAT k) 27 24 = 8 ∧ s.chip.keeps d [Reg.EPOCH.TXN_STAT k] ∧ d = { s.chip with regs := d.regs }) ∧
  (∀ (s : State) (w k : Nat), 
    s.chip.passes .running = true →
    k < 4 ∧ s.chip.accepts w (Reg.EPOCH.TXN_CMD k) = true ∧ (s.chip.txn k).state = 1 ∧ (s.chip.txn k).taint = 0 ∧ (s.chip.txn k).journal ≠ [] →
    (s.chip.txn k).journal.any s.chip.itemBusy = false →
    ∃ d, exec (.txnCommitImmediate w k) s = .next { s with chip := d } ∧
      (d.txn k).state = 2 ∧ (d.txn k).mode = 0 ∧ (d.txn k).journal = (s.chip.txn k).journal ∧
      (d.txn k).target = 0 ∧
      (d.txn k).left = (s.chip.txn k).journal.length ∧ (d.txn k).late = false ∧
      d.fldOf (Reg.EPOCH.TXN_STAT k) 30 28 = 2 ∧ s.chip.keeps d [Reg.EPOCH.TXN_STAT k] ∧ d = { s.chip with regs := d.regs, ep := d.ep }) ∧
  (∀ (s : State) (w k : Nat), 
    s.chip.passes .running = true →
    k < 4 ∧ s.chip.accepts w (Reg.EPOCH.TXN_CMD k) = true ∧ (s.chip.txn k).state = 1 ∧ (s.chip.txn k).taint = 0 ∧ (s.chip.txn k).journal ≠ [] →
    (s.chip.txn k).journal.any s.chip.itemBusy = false →
    ∃ d, exec (.txnCommitNextBoundary w k) s = .next { s with chip := d } ∧
      (d.txn k).state = 2 ∧ (d.txn k).mode = 1 ∧ (d.txn k).journal = (s.chip.txn k).journal ∧
      (d.txn k).target = 0 ∧
      (d.txn k).left = (s.chip.txn k).journal.length ∧ (d.txn k).late = false ∧
      d.fldOf (Reg.EPOCH.TXN_STAT k) 30 28 = 2 ∧ s.chip.keeps d [Reg.EPOCH.TXN_STAT k] ∧ d = { s.chip with regs := d.regs, ep := d.ep }) ∧
  (∀ (s : State) (w k : Nat), 
    s.chip.passes .running = true →
    k < 4 ∧ s.chip.accepts w (Reg.EPOCH.TXN_CMD k) = true ∧ (s.chip.txn k).state = 1 ∧ (s.chip.txn k).taint = 0 ∧ (s.chip.txn k).journal ≠ [] →
    (s.chip.txn k).journal.any s.chip.itemBusy = false →
    ∃ d, exec (.txnCommitAtTime w k) s = .next { s with chip := d } ∧
      (d.txn k).state = 2 ∧ (d.txn k).mode = 2 ∧ (d.txn k).journal = (s.chip.txn k).journal ∧
      (d.txn k).target = (s.chip.reg (Reg.EPOCH.TXN_AT_HI k)).toNat * 2 ^ 32 + (s.chip.reg (Reg.EPOCH.TXN_AT_LO k)).toNat ∧
      (d.txn k).left = (s.chip.txn k).journal.length ∧ (d.txn k).late = false ∧
      d.fldOf (Reg.EPOCH.TXN_STAT k) 30 28 = 2 ∧ s.chip.keeps d [Reg.EPOCH.TXN_STAT k] ∧ d = { s.chip with regs := d.regs, ep := d.ep }) ∧
  (∀ (c : Chip) (k : Nat), 
    k < 5 ∧ (c.txn k).state = 2 ∧ 1 < (c.txn k).left →
    (c.txnCycle.txn k).left = (c.txn k).left - 1 ∧ (c.txnCycle.txn k).target = (c.txn k).target ∧
      (c.txnCycle.txn k).late = (c.txn k).late ∧ c.txnCycle.regs = c.regs) ∧
  (∀ (c : Chip) (k : Nat), 
    k < 5 ∧ (c.txn k).state = 2 ∧ (c.txn k).left = 1 →
    (c.txnCycle.txn k).left = 0 ∧ (c.txnCycle.txn k).state = 2 ∧
      ((c.txn k).mode = 1 → (c.txnCycle.txn k).target = (c.tempo.value + c.cycleRate + (1000 * 2 ^ 48 - 1)) / (1000 * 2 ^ 48) * 1000) ∧
      ((c.txn k).mode = 2 → (c.txnCycle.txn k).target = (c.txn k).target) ∧
      ((c.txn k).mode = 2 → (c.txn k).late = false → (c.txn k).reached = false →
        ((c.txnCycle.txn k).late = true ↔ (c.txn k).target ≤ c.ns))) ∧
  (∀ (s : State) (w k : Nat), 
    s.chip.passes .running = true →
    k < 4 ∧ s.chip.accepts w (Reg.EPOCH.TXN_CMD k) = true ∧ (s.chip.txn k).state = 1 ∧ (s.chip.txn k).taint = 0 ∧ (s.chip.txn k).journal = [] →
    ∃ d, exec (.txnCommitImmediate w k) s = .next { s with chip := d } ∧
      (d.txn k).state = 0 ∧ d.fldOf (Reg.EPOCH.TXN_STAT k) 30 28 = 0 ∧ d.fldOf (Reg.EPOCH.TXN_STAT k) 27 24 = 1 ∧
      d.fldOf (Reg.EPOCH.TXN_STAT k) 15 0 = s.chip.epoch ∧ d.epoch = s.chip.epoch ∧
      d.reg Reg.EPOCH.EMPTY_COMMITS = sat32 ((s.chip.reg Reg.EPOCH.EMPTY_COMMITS).toNat + 1) ∧ d.bitOf (hIrqStat 0x020) (4 * k) = true) ∧
  (∀ (s : State) (w k : Nat), 
    s.chip.passes .running = true →
    k < 4 ∧ s.chip.accepts w (Reg.EPOCH.TXN_CMD k) = true ∧ (s.chip.txn k).state ≠ 1 →
    ∃ d, exec (.txnCommitImmediate w k) s = .next { s with chip := d } ∧
      d.fldOf (Reg.EPOCH.TXN_STAT k) 27 24 = 7 ∧ s.chip.keeps d [Reg.EPOCH.TXN_STAT k] ∧ d = { s.chip with regs := d.regs }) ∧
  (∀ (s : State) (w k : Nat), 
    s.chip.passes .running = true →
    k < 4 ∧ s.chip.accepts w (Reg.EPOCH.TXN_CMD k) = true ∧ (s.chip.txn k).state = 1 ∧ (s.chip.txn k).taint = 1 →
    ∃ d, exec (.txnCommitNextBoundary w k) s = .next { s with chip := d } ∧
      (d.txn k).state = 0 ∧ (d.txn k).journal = [] ∧ d.fldOf (Reg.EPOCH.TXN_STAT k) 27 24 = 4 ∧ d.epoch = s.chip.epoch ∧
      d.reg Reg.EPOCH.FAIL_CNT = sat32 ((s.chip.reg Reg.EPOCH.FAIL_CNT).toNat + 1) ∧ d.bitOf (hIrqStat 0x020) (4 * k + 1) = true) ∧
  (∀ (s : State) (w k : Nat), 
    s.chip.passes .running = true →
    k < 4 ∧ s.chip.accepts w (Reg.EPOCH.TXN_CMD k) = true ∧ (s.chip.txn k).state ≠ 0 →
    ∃ d, exec (.txnRollback w k) s = .next { s with chip := d } ∧
      (d.txn k).state = 0 ∧ (d.txn k).journal = [] ∧ d.fldOf (Reg.EPOCH.TXN_STAT k) 30 28 = 0 ∧ d.fldOf (Reg.EPOCH.TXN_STAT k) 27 24 = 0xA ∧
      s.chip.keeps d [Reg.EPOCH.TXN_STAT k] ∧ d = { s.chip with regs := d.regs, ep := d.ep }) ∧
  (∀ (s : State) (w k : Nat) (v : Word), 
    s.chip.passes .running = true →
    k < 4 ∧ s.chip.accepts w (Reg.EPOCH.TXN_CMD k) = true ∧ txnWord v = none →
    ∃ d, exec (.txnBadCmd w k v) s = .next { s with chip := d } ∧
      d.fldOf (Reg.EPOCH.TXN_STAT k) 27 24 = 0xB ∧ d.fldOf (Reg.EPOCH.TXN_STAT k) 30 28 = s.chip.fldOf (Reg.EPOCH.TXN_STAT k) 30 28 ∧
      s.chip.keeps d [Reg.EPOCH.TXN_STAT k] ∧ d = { s.chip with regs := d.regs }) ∧
  (∀ (s : State) (k a : Nat) (v : Word64), 
    s.chip.passes .running = true →
    k < 4 ∧ (s.chip.txn k).state = 1 ∧ a % 4 = 0 ∧ (rowOf a).any (fun r => r.shadow) = true ∧ (pageKind (a / 0x1000)).any isShadow = true →
    s.chip.implemented (a / 0x1000) = true ∧ s.chip.mayWrite k a = true ∧ s.chip.held (a / 0x1000) = false →
    s.chip.journalOwner (a / 0x1000) = none ∧ s.chip.journalFree ≠ 0 ∧ (s.chip.txn k).journal = [] →
    ∃ d, exec (.txnJournalWrite k false a v 0xF 0) s = .next { s with chip := d } ∧
      (d.txn k).journal = [.reg a (v.setWidth 32) 0xFFFFFFFF] ∧ (d.txn k).timer = s.chip.now ∧ (d.txn k).state = 1 ∧
      d = { s.chip with ep := d.ep }) ∧
  (∀ (s : State) (k j a : Nat) (v : Word64), 
    s.chip.passes .running = true →
    k < 4 ∧ (s.chip.txn k).state = 1 ∧ a % 4 = 0 ∧ (rowOf a).any (fun r => r.shadow) = true ∧ (pageKind (a / 0x1000)).any isShadow = true →
    s.chip.implemented (a / 0x1000) = true ∧ s.chip.mayWrite k a = true ∧ s.chip.held (a / 0x1000) = false →
    s.chip.journalOwner (a / 0x1000) = some j ∧ j ≠ k ∧ (s.chip.txn k).taint = 0 →
    ∃ d, exec (.txnJournalWrite k false a v 0xF 0) s = .next { s with chip := d } ∧
      d.bitOf (hErr (a / 0x1000)) 3 = true ∧ (d.txn k).taint = 2 ∧ (d.txn k).journal = (s.chip.txn k).journal ∧
      d.fldOf (Reg.EPOCH.LAST_REJECT k) 30 29 = 2 ∧ d.bitOf (Reg.EPOCH.LAST_REJECT k) 31 = true ∧ d.bitOf (Reg.EPOCH.TXN_STAT k) 31 = true ∧
      s.chip.keeps d [hErr (a / 0x1000), hIrqStat (a / 0x1000), Reg.EPOCH.LAST_REJECT k, Reg.EPOCH.TXN_STAT k]) ∧
  (∀ (s : State) (k : Nat), 
    s.chip.passes .running = true →
    k < 4 ∧ (s.chip.txn k).state = 1 ∧ s.chip.fldOf (Reg.EPOCH.TXN_CFG k) 11 0 ≠ 0 →
    (s.chip.txn k).timer + min 3600 (s.chip.fldOf (Reg.EPOCH.TXN_CFG k) 11 0) * fsSec ≤ s.chip.now →
    ∃ d, exec (.txnAutoAbort k) s = .next { s with chip := d } ∧
      (d.txn k).state = 0 ∧ (d.txn k).journal = [] ∧ d.fldOf (Reg.EPOCH.TXN_STAT k) 27 24 = 6 ∧
      d.reg Reg.EPOCH.ABORT_CNT = sat32 ((s.chip.reg Reg.EPOCH.ABORT_CNT).toNat + 1) ∧ d.bitOf (hIrqStat 0x020) (4 * k + 2) = true ∧
      (s.chip.score.queue.length < 64 → s.chip.scoreFresh = true → d.score.queue.map (fun e => (e.code, e.part)) = s.chip.score.queue.map (fun e => (e.code, e.part)) ++ [(0x0080, some k)]))

/-- EPOCH_SWITCH with one due transaction of a partition and no live old epoch: CUR counts one up modulo 65,536, OLD takes the former epoch with VALID, COMMITS counts, the transaction ends with RESULT OK, DONE and the new epoch, its one table word takes the journalled value within the writable bits, and the old version of that word stays readable for the old epoch. With a live old epoch a due transaction that does not wait fails with RESULT 2. OLD_EPOCH_RETIRE, once nothing carries the old epoch, drops the old versions and clears OLD.VALID. BEGIN opens an empty transaction, ROLLBACK and the inactivity timer close it, a bad word ends with BAD_CMD, and a first write is journalled. -/
def Obligations.EpochSwitchCommands : Prop :=
  (∀ (s : State) (k f : Nat) (v m : Word64) (r : Region) (i : Nat), 
    s.chip.passes .running = true →
    s.chip.dueTxns = [k] ∧ k < 4 ∧ s.chip.bitOf Reg.EPOCH.OLD 31 = false ∧ (s.chip.txn k).journal = [.entry f [v]] ∧ f % 8 = 0 →
    regionAt f = some (r, i, 0) ∧ (r.tag = .source ∨ r.tag = .frerGen) ∧ m = BitVec.ofNat 64 (r.masks.getD 0 0) →
    ∃ d, exec .epochSwitch s = .next { s with chip := d } ∧
      d.epoch = (s.chip.epoch + 1) % 65536 ∧ d.bitOf Reg.EPOCH.OLD 31 = true ∧ d.fldOf Reg.EPOCH.OLD 15 0 = s.chip.epoch ∧
      d.tword f = (s.chip.tword f &&& ~~~ m) ||| (v &&& m) ∧ d.twordAt s.chip.epoch f = s.chip.tword f ∧ s.chip.keepsTable d [f] ∧
      (d.txn k).state = 0 ∧ (d.txn k).journal = [] ∧ d.fldOf (Reg.EPOCH.TXN_STAT k) 27 24 = 1 ∧
      d.fldOf (Reg.EPOCH.TXN_STAT k) 15 0 = (s.chip.epoch + 1) % 65536 ∧
      d.reg Reg.EPOCH.COMMITS = sat32 ((s.chip.reg Reg.EPOCH.COMMITS).toNat + 1) ∧ d.bitOf (hIrqStat 0x020) (4 * k) = true) ∧
  (∀ (s : State) (k : Nat), 
    s.chip.passes .running = true →
    s.chip.dueTxns = [k] ∧ k < 4 ∧ s.chip.bitOf Reg.EPOCH.OLD 31 = true ∧ (s.chip.txn k).wait = false →
    ∃ d, exec .epochSwitch s = .next { s with chip := d } ∧
      d.epoch = s.chip.epoch ∧ d.tbl = s.chip.tbl ∧ (d.txn k).state = 0 ∧ (d.txn k).journal = [] ∧ d.fldOf (Reg.EPOCH.TXN_STAT k) 27 24 = 2 ∧
      d.reg Reg.EPOCH.BUSY_CNT = sat32 ((s.chip.reg Reg.EPOCH.BUSY_CNT).toNat + 1) ∧ d.bitOf (hIrqStat 0x020) (4 * k + 1) = true ∧
      d.bitOf (hIrqStat 0x020) 17 = true) ∧
  (∀ (s : State), 
    s.chip.passes .running = true →
    s.chip.bitOf Reg.EPOCH.OLD 31 = true ∧ s.chip.usersOf (s.chip.fldOf Reg.EPOCH.OLD 15 0) = 0 ∧ s.chip.dueTxns = [] →
    ∃ d, exec .oldEpochRetire s = .next { s with chip := d } ∧
      d.bitOf Reg.EPOCH.OLD 31 = false ∧ d.ep.oldTbl = [] ∧ d.ep.oldRegs = [] ∧ d.epoch = s.chip.epoch ∧ d.bitOf (hIrqStat 0x020) 16 = true ∧
      s.chip.keeps d [Reg.EPOCH.OLD, Reg.EPOCH.DRAIN_MAX, hIrqStat 0x020] ∧ d = { s.chip with regs := d.regs, out := d.out, pba := d.pba, ep := d.ep }) ∧
  (∀ (s : State) (w k : Nat), 
    s.chip.passes .running = true →
    k < 4 ∧ s.chip.accepts w (Reg.EPOCH.TXN_CMD k) = true ∧ (s.chip.txn k).state = 0 →
    ∃ d, exec (.txnBegin w k) s = .next { s with chip := d } ∧
      (d.txn k).state = 1 ∧ (d.txn k).journal = []) ∧
  (∀ (s : State) (w k : Nat), 
    s.chip.passes .running = true →
    k < 4 ∧ s.chip.accepts w (Reg.EPOCH.TXN_CMD k) = true ∧ (s.chip.txn k).state ≠ 0 →
    ∃ d, exec (.txnRollback w k) s = .next { s with chip := d } ∧
      (d.txn k).state = 0 ∧ (d.txn k).journal = []) ∧
  (∀ (s : State) (w k : Nat) (v : Word), 
    s.chip.passes .running = true →
    k < 4 ∧ s.chip.accepts w (Reg.EPOCH.TXN_CMD k) = true ∧ txnWord v = none →
    ∃ d, exec (.txnBadCmd w k v) s = .next { s with chip := d } ∧
      d.fldOf (Reg.EPOCH.TXN_STAT k) 27 24 = 0xB) ∧
  (∀ (s : State) (k a : Nat) (v : Word64), 
    s.chip.passes .running = true →
    k < 4 ∧ (s.chip.txn k).state = 1 ∧ a % 4 = 0 ∧ (rowOf a).any (fun r => r.shadow) = true ∧ (pageKind (a / 0x1000)).any isShadow = true →
    s.chip.implemented (a / 0x1000) = true ∧ s.chip.mayWrite k a = true ∧ s.chip.held (a / 0x1000) = false →
    s.chip.journalOwner (a / 0x1000) = none ∧ s.chip.journalFree ≠ 0 ∧ (s.chip.txn k).journal = [] →
    ∃ d, exec (.txnJournalWrite k false a v 0xF 0) s = .next { s with chip := d } ∧
      (d.txn k).journal = [.reg a (v.setWidth 32) 0xFFFFFFFF]) ∧
  (∀ (s : State) (k : Nat), 
    s.chip.passes .running = true →
    k < 4 ∧ (s.chip.txn k).state = 1 ∧ s.chip.fldOf (Reg.EPOCH.TXN_CFG k) 11 0 ≠ 0 →
    (s.chip.txn k).timer + min 3600 (s.chip.fldOf (Reg.EPOCH.TXN_CFG k) 11 0) * fsSec ≤ s.chip.now →
    ∃ d, exec (.txnAutoAbort k) s = .next { s with chip := d } ∧
      (d.txn k).state = 0 ∧ d.fldOf (Reg.EPOCH.TXN_STAT k) 27 24 = 6)

/-- A KCMD word to an idle bank sets BUSY with its OP and starts: LOAD under the checks of R431 stores the decrypted key where the tag agrees and otherwise ends with BAD_TAG; a LOAD that a check refuses ends with that result and leaves every slot; WRAP and STORE make the blob, PUBKEY the public key; IMPORT stores the clear key and GENERATE a random one (its value the model's free value) with the header's attributes; UNLOAD empties the slot, ERASE empties it and raises its generation; UNSTORE leaves the slot. A command to a busy bank is rejected. CASTLE_COMMAND_DONE clears BUSY, shows RESULT, fills or clears KBUF, counts LOADS or LOAD_FAILS, stores the autoload entry of STORE and raises DONE or ERR. SLOT_REMASK keeps the key. RNG_FAIL ends a WRAP with its result. CLEAR_RESIGN, ROOT_RETRY, a firing tamper sensor, the write of SLEEP_LATCH and the deferred autoload complete with their first effect. -/
def Obligations.CastleKeyCommands : Prop :=
  (∀ (s : State) (w k : Nat), 
    s.chip.passes .running = true →
    k < 4 ∧ s.chip.accepts w (Reg.CASTLE.KCMD k) = true ∧ s.chip.bitOf (Reg.CASTLE.KSTAT k) 31 = false →
    s.chip.loadCheck k (s.chip.kslot k) (s.chip.kbuf k) (s.chip.klen k) (fun t => 52 + keyLen t) = 1 ∧ (blobHeader (s.chip.kbuf k)).ktype ≠ 3 →
    ∃ d, exec (.castleLoad w k) s = .next { s with chip := d } ∧ d.reg (Reg.CASTLE.KSTAT k) = BitVec.ofNat 32 (2 ^ 31 + s.chip.fldOf (Reg.CASTLE.KSTAT k) 11 8 * 2 ^ 8 + 1) ∧
      (Config.gcmTag (s.chip.slotKey (parentSlot (blobHeader (s.chip.kbuf k)).parent)) (bytesAt (s.chip.kbuf k) 24 12) (bytesAt (s.chip.kbuf k) 0 36) (bytesAt (s.chip.kbuf k) 36 (keyLen (blobHeader (s.chip.kbuf k)).ktype)) = bytesAt (s.chip.kbuf k) (36 + keyLen (blobHeader (s.chip.kbuf k)).ktype) 16 →
        (lookupKey d.castle.cmds k).map (fun m => (m.op, m.result)) = some (1, 1) ∧
        d.slotKey (s.chip.kslot k) = Config.gcmPlain (s.chip.slotKey (parentSlot (blobHeader (s.chip.kbuf k)).parent)) (bytesAt (s.chip.kbuf k) 24 12) (bytesAt (s.chip.kbuf k) 0 36) (bytesAt (s.chip.kbuf k) 36 (keyLen (blobHeader (s.chip.kbuf k)).ktype))) ∧
      (Config.gcmTag (s.chip.slotKey (parentSlot (blobHeader (s.chip.kbuf k)).parent)) (bytesAt (s.chip.kbuf k) 24 12) (bytesAt (s.chip.kbuf k) 0 36) (bytesAt (s.chip.kbuf k) 36 (keyLen (blobHeader (s.chip.kbuf k)).ktype)) ≠ bytesAt (s.chip.kbuf k) (36 + keyLen (blobHeader (s.chip.kbuf k)).ktype) 16 →
        (lookupKey d.castle.cmds k).map (fun m => (m.op, m.result)) = some (1, 8) ∧ d.castle.slots = s.chip.castle.slots)) ∧
  (∀ (s : State) (w k r : Nat), 
    s.chip.passes .running = true →
    k < 4 ∧ s.chip.accepts w (Reg.CASTLE.KCMD k) = true ∧ s.chip.bitOf (Reg.CASTLE.KSTAT k) 31 = false →
    r = s.chip.loadCheck k (s.chip.kslot k) (s.chip.kbuf k) (s.chip.klen k) (fun t => 52 + keyLen t) ∧ r ≠ 1 →
    ∃ d, exec (.castleLoad w k) s = .next { s with chip := d } ∧ d.reg (Reg.CASTLE.KSTAT k) = BitVec.ofNat 32 (2 ^ 31 + s.chip.fldOf (Reg.CASTLE.KSTAT k) 11 8 * 2 ^ 8 + 1) ∧
      (lookupKey d.castle.cmds k).map (fun m => (m.op, m.result)) = some (1, r) ∧
      d.castle.slots = s.chip.castle.slots ∧ s.chip.keeps d [Reg.CASTLE.KSTAT k] ∧ d = { s.chip with regs := d.regs, castle := d.castle }) ∧
  (∀ (s : State) (w k : Nat), 
    s.chip.passes .running = true →
    k < 4 ∧ s.chip.accepts w (Reg.CASTLE.KCMD k) = true ∧ s.chip.bitOf (Reg.CASTLE.KSTAT k) 31 = true →
    ∃ d, exec (.castleLoad w k) s = .next { s with chip := d } ∧
      d.bitOf (Reg.CASTLE.KSTAT k) 30 = true ∧ d.bitOf (hErr 0x071) 7 = true ∧ d.castle = s.chip.castle ∧
      s.chip.keeps d [Reg.CASTLE.KSTAT k, hErr 0x071, hIrqStat 0x071]) ∧
  (∀ (s : State) (w k : Nat), 
    s.chip.passes .running = true →
    k < 4 ∧ s.chip.accepts w (Reg.CASTLE.KCMD k) = true ∧ s.chip.bitOf (Reg.CASTLE.KSTAT k) 31 = false ∧ s.chip.wrapRefuse k (s.chip.kslot k) = none ∧ s.chip.castle.rngBad = false →
    ∃ d, exec (.castleWrap w k) s = .next { s with chip := d } ∧ d.reg (Reg.CASTLE.KSTAT k) = BitVec.ofNat 32 (2 ^ 31 + s.chip.fldOf (Reg.CASTLE.KSTAT k) 11 8 * 2 ^ 8 + 2) ∧
      lookupKey d.castle.cmds k = some { op := 2, result := 1, out := some (s.chip.blobOf (s.chip.kslot k)).1 } ∧
      d.castle.slots = s.chip.castle.slots ∧ d.castle.gens = s.chip.castle.gens ∧
      s.chip.keeps d [Reg.CASTLE.KSTAT k] ∧ d = { s.chip with regs := d.regs, castle := d.castle, free := d.free }) ∧
  (∀ (s : State) (w k : Nat), 
    s.chip.passes .running = true →
    k < 4 ∧ s.chip.accepts w (Reg.CASTLE.KCMD k) = true ∧ s.chip.bitOf (Reg.CASTLE.KSTAT k) 31 = false ∧ s.chip.rootReady = true ∧ s.chip.importAllowed = true ∧ s.chip.castle.rngBad = false →
    s.chip.loadCheck k (s.chip.kslot k) (s.chip.kbuf k) (s.chip.klen k) (fun t => 24 + keyLen t) = 1 ∧ (blobHeader (s.chip.kbuf k)).ktype ≠ 3 →
    ∃ d, exec (.castleImport w k) s = .next { s with chip := d } ∧ d.reg (Reg.CASTLE.KSTAT k) = BitVec.ofNat 32 (2 ^ 31 + s.chip.fldOf (Reg.CASTLE.KSTAT k) 11 8 * 2 ^ 8 + 3) ∧
      (lookupKey d.castle.cmds k).map (fun m => (m.op, m.result)) = some (3, 1) ∧
      d.slotKey (s.chip.kslot k) = bytesAt (s.chip.kbuf k) 24 (keyLen (blobHeader (s.chip.kbuf k)).ktype) ∧
      (d.slot? (s.chip.kslot k)).map (fun x => (x.owner, x.ktype, x.usage, x.parent)) = some (k, (blobHeader (s.chip.kbuf k)).ktype, (blobHeader (s.chip.kbuf k)).usage, (blobHeader (s.chip.kbuf k)).parent) ∧
      d.slotGen (s.chip.kslot k) = s.chip.slotGen (s.chip.kslot k)) ∧
  (∀ (s : State) (w k : Nat), 
    s.chip.passes .running = true →
    k < 4 ∧ s.chip.accepts w (Reg.CASTLE.KCMD k) = true ∧ s.chip.bitOf (Reg.CASTLE.KSTAT k) 31 = false ∧ s.chip.castle.rngBad = false →
    s.chip.loadCheck k (s.chip.kslot k) (s.chip.kbuf k) (s.chip.klen k) (fun _ => 24) = 1 ∧ (blobHeader (s.chip.kbuf k)).ktype ≠ 3 →
    ∃ d, exec (.castleGenerate w k) s = .next { s with chip := d } ∧ d.reg (Reg.CASTLE.KSTAT k) = BitVec.ofNat 32 (2 ^ 31 + s.chip.fldOf (Reg.CASTLE.KSTAT k) 11 8 * 2 ^ 8 + 4) ∧
      (lookupKey d.castle.cmds k).map (fun m => (m.op, m.result)) = some (4, 1) ∧
      (d.slot? (s.chip.kslot k)).map (fun x => (x.owner, x.ktype, x.usage, x.parent)) = some (k, (blobHeader (s.chip.kbuf k)).ktype, (blobHeader (s.chip.kbuf k)).usage, (blobHeader (s.chip.kbuf k)).parent) ∧
      d.slotKey (s.chip.kslot k) = bytesLE (keyLen (blobHeader (s.chip.kbuf k)).ktype) (Config.freeValue s.chip.free) ∧ d.slotGen (s.chip.kslot k) = s.chip.slotGen (s.chip.kslot k)) ∧
  (∀ (s : State) (w k : Nat), 
    s.chip.passes .running = true →
    k < 4 ∧ s.chip.accepts w (Reg.CASTLE.KCMD k) = true ∧ s.chip.bitOf (Reg.CASTLE.KSTAT k) 31 = false ∧ s.chip.slotRefuse k (s.chip.kslot k) false = none →
    ∃ d, exec (.castleUnload w k) s = .next { s with chip := d } ∧ d.reg (Reg.CASTLE.KSTAT k) = BitVec.ofNat 32 (2 ^ 31 + s.chip.fldOf (Reg.CASTLE.KSTAT k) 11 8 * 2 ^ 8 + 5) ∧
      (lookupKey d.castle.cmds k).map (fun m => (m.op, m.result)) = some (5, 1) ∧
      d.slot? (s.chip.kslot k) = none ∧ d.castle.gens = s.chip.castle.gens ∧ d.castle.orphaned = s.chip.castle.orphaned) ∧
  (∀ (s : State) (w k : Nat), 
    s.chip.passes .running = true →
    k < 4 ∧ s.chip.accepts w (Reg.CASTLE.KCMD k) = true ∧ s.chip.bitOf (Reg.CASTLE.KSTAT k) 31 = false ∧ s.chip.slotRefuse k (s.chip.kslot k) false = none →
    ∃ d, exec (.castleErase w k) s = .next { s with chip := d } ∧ d.reg (Reg.CASTLE.KSTAT k) = BitVec.ofNat 32 (2 ^ 31 + s.chip.fldOf (Reg.CASTLE.KSTAT k) 11 8 * 2 ^ 8 + 6) ∧
      (lookupKey d.castle.cmds k).map (fun m => (m.op, m.result)) = some (6, 1) ∧
      d.slot? (s.chip.kslot k) = none ∧ d.slotGen (s.chip.kslot k) = (s.chip.slotGen (s.chip.kslot k) + 1) % 2 ^ 32) ∧
  (∀ (s : State) (w k : Nat), 
    s.chip.passes .running = true →
    k < 4 ∧ s.chip.accepts w (Reg.CASTLE.KCMD k) = true ∧ s.chip.bitOf (Reg.CASTLE.KSTAT k) 31 = false ∧ s.chip.slotRefuse k (s.chip.kslot k) true = none ∧ (s.chip.slot? (s.chip.kslot k)).map (·.ktype) = some 3 →
    ∃ d, exec (.castlePubkey w k) s = .next { s with chip := d } ∧ d.reg (Reg.CASTLE.KSTAT k) = BitVec.ofNat 32 (2 ^ 31 + s.chip.fldOf (Reg.CASTLE.KSTAT k) 11 8 * 2 ^ 8 + 7) ∧
      lookupKey d.castle.cmds k = some { op := 7, result := 1, out := some (Config.ed448Public (s.chip.slotKey (s.chip.kslot k))) } ∧
      d.castle.slots = s.chip.castle.slots ∧ s.chip.keeps d [Reg.CASTLE.KSTAT k] ∧ d = { s.chip with regs := d.regs, castle := d.castle }) ∧
  (∀ (s : State) (w k : Nat), 
    s.chip.passes .running = true →
    k < 4 ∧ s.chip.accepts w (Reg.CASTLE.KCMD k) = true ∧ s.chip.bitOf (Reg.CASTLE.KSTAT k) 31 = false ∧ s.chip.wrapRefuse k (s.chip.kslot k) = none →
    ∃ d, exec (.castleStore w k) s = .next { s with chip := d } ∧ d.reg (Reg.CASTLE.KSTAT k) = BitVec.ofNat 32 (2 ^ 31 + s.chip.fldOf (Reg.CASTLE.KSTAT k) 11 8 * 2 ^ 8 + 8) ∧
      lookupKey d.castle.cmds k = some { op := 8, result := 1, slot := s.chip.kslot k, out := some (s.chip.blobOf (s.chip.kslot k)).1 } ∧
      d.castle.slots = s.chip.castle.slots ∧ d.castle.autoload = s.chip.castle.autoload ∧ s.chip.keeps d [Reg.CASTLE.KSTAT k] ∧ d = { s.chip with regs := d.regs, castle := d.castle, free := d.free }) ∧
  (∀ (s : State) (w k : Nat), 
    s.chip.passes .running = true →
    k < 4 ∧ s.chip.accepts w (Reg.CASTLE.KCMD k) = true ∧ s.chip.bitOf (Reg.CASTLE.KSTAT k) 31 = false ∧ s.chip.slotRefuse k (s.chip.kslot k) false = none →
    ∃ d, exec (.castleUnstore w k) s = .next { s with chip := d } ∧ d.reg (Reg.CASTLE.KSTAT k) = BitVec.ofNat 32 (2 ^ 31 + s.chip.fldOf (Reg.CASTLE.KSTAT k) 11 8 * 2 ^ 8 + 9) ∧
      (lookupKey d.castle.cmds k).map (fun m => (m.op, m.result)) = some (9, 1) ∧
      d.castle.slots = s.chip.castle.slots ∧ d.castle.autoload = s.chip.castle.autoload ∧ s.chip.keeps d [Reg.CASTLE.KSTAT k] ∧ d = { s.chip with regs := d.regs, castle := d.castle }) ∧
  (∀ (s : State) (k : Nat) (m : CastleCmd) (b : List Byte), 
    s.chip.passes .running = true →
    k < 4 ∧ lookupKey s.chip.castle.cmds k = some m ∧ (m.op = 2 ∨ m.op = 7) ∧ m.result = 1 ∧ m.out = some b ∧ b.length ≤ 255 →
    ∃ d, exec (.castleCommandDone k) s = .next { s with chip := d } ∧ lookupKey d.castle.cmds k = none ∧ d.bitOf (Reg.CASTLE.KSTAT k) 31 = false ∧ d.fldOf (Reg.CASTLE.KSTAT k) 11 8 = m.result % 16 ∧ d.fldOf (Reg.CASTLE.KSTAT k) 7 0 = m.op % 256 ∧
      d.bitOf (Reg.CASTLE.KSTAT k) 30 = s.chip.bitOf (Reg.CASTLE.KSTAT k) 30 ∧
      d.klen k = b.length ∧ (List.range 64).all (fun j => d.reg (Reg.CASTLE.KBUF k j) == BitVec.ofNat 32 (leAt b (4 * j) 4)) = true ∧
      d.bitOf (hIrqStat 0x071) (2 * k) = true ∧ d.castle = { s.chip.castle with cmds := d.castle.cmds }) ∧
  (∀ (s : State) (k : Nat) (m : CastleCmd), 
    s.chip.passes .running = true →
    k < 4 ∧ lookupKey s.chip.castle.cmds k = some m ∧ (m.op = 1 ∨ m.op = 3 ∨ m.op = 4) →
    ∃ d, exec (.castleCommandDone k) s = .next { s with chip := d } ∧ lookupKey d.castle.cmds k = none ∧ d.bitOf (Reg.CASTLE.KSTAT k) 31 = false ∧ d.fldOf (Reg.CASTLE.KSTAT k) 11 8 = m.result % 16 ∧ d.fldOf (Reg.CASTLE.KSTAT k) 7 0 = m.op % 256 ∧
      d.reg Reg.CASTLE.LOADS = sat32 ((s.chip.reg Reg.CASTLE.LOADS).toNat + (if m.result = 1 then 1 else 0)) ∧
      d.reg Reg.CASTLE.LOAD_FAILS = sat32 ((s.chip.reg Reg.CASTLE.LOAD_FAILS).toNat + (if m.result = 1 then 0 else 1)) ∧
      (List.range 64).all (fun j => d.reg (Reg.CASTLE.KBUF k j) == 0) = true ∧
      d.bitOf (hIrqStat 0x071) (if m.result = 1 then 2 * k else 2 * k + 1) = true ∧ d.castle.slots = s.chip.castle.slots) ∧
  (∀ (s : State) (k : Nat) (m : CastleCmd) (b : List Byte), 
    s.chip.passes .running = true →
    k < 4 ∧ lookupKey s.chip.castle.cmds k = some m ∧ m.op = 8 ∧ m.result = 1 ∧ m.out = some b ∧ s.chip.arbRunning = true →
    ∃ d, exec (.castleCommandDone k) s = .next { s with chip := d } ∧ lookupKey d.castle.cmds k = none ∧ d.bitOf (Reg.CASTLE.KSTAT k) 31 = false ∧ d.fldOf (Reg.CASTLE.KSTAT k) 11 8 = m.result % 16 ∧ d.fldOf (Reg.CASTLE.KSTAT k) 7 0 = m.op % 256 ∧
      lookupKey d.castle.autoload m.slot = some b ∧ d.bitOf (hIrqStat 0x071) (2 * k) = true) ∧
  (∀ (s : State) (n : Nat) (x : KeySlot), 
    s.chip.passes .running = true →
    s.chip.slot? n = some x ∧ x.maskAt / s.chip.remaskFs < s.chip.now / s.chip.remaskFs →
    ∃ d, exec (.slotRemask n) s = .next { s with chip := d } ∧
      (d.slot? n).map (fun y => (y.key, y.owner, y.ktype, y.usage, y.maskAt)) = some (x.key, x.owner, x.ktype, x.usage, s.chip.now) ∧
      (d.slot? n).map (·.mask) = some (bytesLE x.key.length (Config.freeValue s.chip.free)) ∧
      d = { s.chip with castle := d.castle, free := d.free }) ∧
  (∀ (s : State) (k : Nat) (m : CastleCmd), 
    s.chip.passes .running = true →
    s.chip.castle.cmds = [(k, m)] ∧ m.op = 2 ∧ m.result = 1 ∧ m.undo = [] →
    ∃ d, exec .rngFail s = .next { s with chip := d } ∧
      d.castle.rngBad = true ∧ lookupKey d.castle.cmds k = some { m with result := 0xE, out := none } ∧ d.castle.slots = s.chip.castle.slots ∧
      d.bitOf (hIrqStat 0x071) 12 = true ∧ s.chip.keeps d [hIrqStat 0x071] ∧ d = { s.chip with regs := d.regs, castle := d.castle, out := d.out, pba := d.pba }) ∧
  (∀ (s : State) (w k : Nat), 
    s.chip.passes .running = true →
    k < 4 ∧ s.chip.accepts w (Reg.CASTLE.KCMD k) = true ∧ s.chip.bitOf (Reg.CASTLE.KSTAT k) 31 = false ∧ k = s.chip.supervisor ∧ s.chip.otp.lc = 0 →
    ∃ d, exec (.castleClearResign w k) s = .next { s with chip := d } ∧
      (lookupKey d.castle.cmds k).map (fun m => (m.op, m.result)) = some (16, 1) ∧ d.castle.clearMarked = true) ∧
  (∀ (s : State) (w k : Nat), 
    s.chip.passes .running = true →
    k < 4 ∧ s.chip.accepts w (Reg.CASTLE.KCMD k) = true ∧ s.chip.bitOf (Reg.CASTLE.KSTAT k) 31 = false ∧ k = s.chip.supervisor ∧ s.chip.rootState = 3 ∧ s.chip.resignLatched = false ∧ s.chip.otp.lc ≠ 4 →
    ∃ d, exec (.castleRootRetry w k true) s = .next { s with chip := d } ∧
      d.rootState = 2) ∧
  (∀ (s : State) (n : Nat) (r : TamperReading), 
    n < 15 ∧ (s.chip.power.mode = .play ∨ s.chip.power.mode = .quiet) ∧ s.chip.bitOf Reg.TAMPER.LIVE n = false →
    s.chip.tamperResp n = 1 ∧ s.chip.starting = false ∧ (s.chip.rootState = 2 ∨ s.chip.rootState = 4) →
    s.chip.sensorEvaluated n = true ∧ s.chip.sensorOut n r = true →
    ∃ d, exec (.tamperSensorFire n r) s = .next { s with chip := d } ∧
      d.bitOf Reg.TAMPER.LIVE n = true ∧ d.bitOf Reg.TAMPER.FIRED n = true) ∧
  (∀ (s : State) (k : Nat) (v : Word) (be : Nat) (x : Word), 
    s.chip.passes .running = true →
    s.chip.accepts k Reg.TAMPER.SLEEP_LATCH = true ∧ x = s.chip.reg Reg.TAMPER.SLEEP_LATCH &&& ~~~ (v &&& beMask be &&& 0x7FFF) →
    ∃ d, exec (.sleepLatchWrite k v be) s = .next { s with chip := d } ∧
      d.reg Reg.TAMPER.SLEEP_LATCH = x) ∧
  (∀ (s : State) (n : Nat) (b : List Byte), 
    s.chip.passes .running = true →
    s.chip.castle.deferred = true ∧ s.chip.sleepHold = false ∧ s.chip.arbRunning = true ∧ s.chip.rootReady = true →
    s.chip.castle.autoload = [(n, b)] ∧ s.chip.loadCheck (leAt b 8 1 % 4) n b (leAt b 4 2) (fun t => 52 + keyLen t) ≠ 1 →
    ∃ d, exec .autoloadDeferred s = .next { s with chip := d } ∧
      d.castle.deferred = false)

/-- CLEAR_RESIGN by the supervisor draws a new challenge and in MANUFACTURE marks the clearing; from another partition it ends with BAD_CMD. ROOT_RETRY acts only in FAILED: with good helper data the root is regenerated and READY, otherwise it stays FAILED with its source. TAMPER_SENSOR_FIRE sets LIVE and LAST; LOG writes an entry only, ALARM also sets FIRED, its source and the alarm, RESIGN empties every slot, drops root, identity and SAs, fuses the mark, clears the Scoresheet ring and alarms; an ALARM before READY leaves the Castle empty in RESIGNED with no latch; in ADJOURNED the always-on latch and SLEEP_LATCH hold a RESIGN, in a held reset the latch and the empty Castle (the model's reading, log 60); a sensor back in its window clears LIVE. SLEEP_LATCH_WRITE clears bits written 1 and with the last ends the hold. AUTOLOAD_DEFERRED counts a refused load. -/
def Obligations.CastleSafetyCommands : Prop :=
  (∀ (s : State) (w k : Nat), 
    s.chip.passes .running = true →
    k < 4 ∧ s.chip.accepts w (Reg.CASTLE.KCMD k) = true ∧ s.chip.bitOf (Reg.CASTLE.KSTAT k) 31 = false ∧ k = s.chip.supervisor ∧ s.chip.otp.lc = 0 →
    ∃ d, exec (.castleClearResign w k) s = .next { s with chip := d } ∧ d.reg (Reg.CASTLE.KSTAT k) = BitVec.ofNat 32 (2 ^ 31 + s.chip.fldOf (Reg.CASTLE.KSTAT k) 11 8 * 2 ^ 8 + 16) ∧
      (lookupKey d.castle.cmds k).map (fun m => (m.op, m.result)) = some (16, 1) ∧
      d.castle.clearMarked = true ∧ (List.range 4).all (fun j => d.reg (Reg.CASTLE.CHAL j) == BitVec.ofNat 32 (leAt (bytesLE 16 (Config.freeValue s.chip.free)) (4 * j) 4)) = true ∧
      d.castle.slots = s.chip.castle.slots ∧ d = { s.chip with regs := d.regs, castle := d.castle, free := d.free }) ∧
  (∀ (s : State) (w k : Nat), 
    s.chip.passes .running = true →
    k < 4 ∧ s.chip.accepts w (Reg.CASTLE.KCMD k) = true ∧ s.chip.bitOf (Reg.CASTLE.KSTAT k) 31 = false ∧ k ≠ s.chip.supervisor →
    ∃ d, exec (.castleClearResign w k) s = .next { s with chip := d } ∧ d.reg (Reg.CASTLE.KSTAT k) = BitVec.ofNat 32 (2 ^ 31 + s.chip.fldOf (Reg.CASTLE.KSTAT k) 11 8 * 2 ^ 8 + 16) ∧
      (lookupKey d.castle.cmds k).map (fun m => (m.op, m.result)) = some (16, 3) ∧
      d.castle.clearMarked = s.chip.castle.clearMarked ∧ s.chip.keeps d [Reg.CASTLE.KSTAT k] ∧ d = { s.chip with regs := d.regs, castle := d.castle }) ∧
  (∀ (s : State) (w k : Nat) (g : Bool), 
    s.chip.passes .running = true →
    k < 4 ∧ s.chip.accepts w (Reg.CASTLE.KCMD k) = true ∧ s.chip.bitOf (Reg.CASTLE.KSTAT k) 31 = false ∧ k = s.chip.supervisor ∧ s.chip.rootState ≠ 3 →
    ∃ d, exec (.castleRootRetry w k g) s = .next { s with chip := d } ∧ d.reg (Reg.CASTLE.KSTAT k) = BitVec.ofNat 32 (2 ^ 31 + s.chip.fldOf (Reg.CASTLE.KSTAT k) 11 8 * 2 ^ 8 + 17) ∧
      (lookupKey d.castle.cmds k).map (fun m => (m.op, m.result)) = some (17, if s.chip.rootState = 2 then 1 else 0xC) ∧
      d.castle.root = s.chip.castle.root ∧ s.chip.keeps d [Reg.CASTLE.KSTAT k] ∧ d = { s.chip with regs := d.regs, castle := d.castle }) ∧
  (∀ (s : State) (w k : Nat), 
    s.chip.passes .running = true →
    k < 4 ∧ s.chip.accepts w (Reg.CASTLE.KCMD k) = true ∧ s.chip.bitOf (Reg.CASTLE.KSTAT k) 31 = false ∧ k = s.chip.supervisor ∧ s.chip.rootState = 3 ∧ s.chip.resignLatched = false ∧ s.chip.otp.lc ≠ 4 →
    ∃ d, exec (.castleRootRetry w k true) s = .next { s with chip := d } ∧ d.reg (Reg.CASTLE.KSTAT k) = BitVec.ofNat 32 (2 ^ 31 + s.chip.fldOf (Reg.CASTLE.KSTAT k) 11 8 * 2 ^ 8 + 17) ∧
      (lookupKey d.castle.cmds k).map (fun m => (m.op, m.result)) = some (17, 1) ∧
      d.rootState = 2 ∧ d.castle.root = some (Config.deviceRoot s.chip.castle.helper) ∧ d.castle.rngBad = false) ∧
  (∀ (s : State) (w k : Nat), 
    s.chip.passes .running = true →
    k < 4 ∧ s.chip.accepts w (Reg.CASTLE.KCMD k) = true ∧ s.chip.bitOf (Reg.CASTLE.KSTAT k) 31 = false ∧ k = s.chip.supervisor ∧ s.chip.rootState = 3 ∧ s.chip.resignLatched = false →
    ∃ d, exec (.castleRootRetry w k false) s = .next { s with chip := d } ∧ d.reg (Reg.CASTLE.KSTAT k) = BitVec.ofNat 32 (2 ^ 31 + s.chip.fldOf (Reg.CASTLE.KSTAT k) 11 8 * 2 ^ 8 + 17) ∧
      (lookupKey d.castle.cmds k).map (fun m => (m.op, m.result)) = some (17, 12) ∧
      d.rootState = 3 ∧ d.castle.root = none ∧ d.castle.slots = [] ∧ d.bitOf (hIrqStat 0x071) 9 = true) ∧
  (∀ (s : State) (n : Nat) (r : TamperReading), 
    n < 15 ∧ (s.chip.power.mode = .play ∨ s.chip.power.mode = .quiet) ∧ s.chip.bitOf Reg.TAMPER.LIVE n = false →
    s.chip.tamperResp n = 0 ∧ s.chip.starting = false →
    s.chip.sensorEvaluated n = true ∧ s.chip.sensorOut n r = true →
    ∃ d, exec (.tamperSensorFire n r) s = .next { s with chip := d } ∧
      d.bitOf Reg.TAMPER.LIVE n = true ∧ d.reg Reg.TAMPER.LAST = BitVec.ofNat 32 (2 ^ 31 + n * 2 ^ 16) ∧
      d.reg Reg.TAMPER.LAST_TIME = s.chip.ns41 ∧ d.reg Reg.TAMPER.FIRED = s.chip.reg Reg.TAMPER.FIRED ∧
      (s.chip.score.queue.length < 64 → s.chip.scoreFresh = true → d.score.queue.map (fun e => (e.code, e.sev)) = s.chip.score.queue.map (fun e => (e.code, e.sev)) ++ [(0x0030, 2)]) ∧
      d.castle = s.chip.castle ∧ d.otp = s.chip.otp) ∧
  (∀ (s : State) (n : Nat) (r : TamperReading), 
    n < 15 ∧ (s.chip.power.mode = .play ∨ s.chip.power.mode = .quiet) ∧ s.chip.bitOf Reg.TAMPER.LIVE n = false →
    s.chip.tamperResp n = 1 ∧ s.chip.starting = false ∧ (s.chip.rootState = 2 ∨ s.chip.rootState = 4) →
    s.chip.sensorEvaluated n = true ∧ s.chip.sensorOut n r = true →
    ∃ d, exec (.tamperSensorFire n r) s = .next { s with chip := d } ∧
      d.bitOf Reg.TAMPER.LIVE n = true ∧ d.reg Reg.TAMPER.LAST = BitVec.ofNat 32 (2 ^ 31 + n * 2 ^ 16 + 2 ^ 8) ∧
      d.bitOf Reg.TAMPER.FIRED n = true ∧ d.bitOf (hIrqStat 0x072) n = true ∧ d.bitOf Reg.GLB.ALARM_STAT 0 = true ∧
      d.castle = s.chip.castle ∧ d.otp = s.chip.otp) ∧
  (∀ (s : State) (n : Nat) (r : TamperReading), 
    n < 15 ∧ (s.chip.power.mode = .play ∨ s.chip.power.mode = .quiet) ∧ s.chip.bitOf Reg.TAMPER.LIVE n = false →
    s.chip.tamperResp n = 1 ∧ s.chip.rootState ≠ 2 ∧ s.chip.rootState ≠ 4 →
    s.chip.sensorEvaluated n = true ∧ s.chip.sensorOut n r = true →
    ∃ d, exec (.tamperSensorFire n r) s = .next { s with chip := d } ∧
      d.rootState = 4 ∧ d.castle.slots = [] ∧ d.castle.root = none ∧ d.castle.aoLatch = s.chip.castle.aoLatch ∧ d.otp = s.chip.otp ∧
      d.bitOf Reg.TAMPER.FIRED n = true ∧ d.bitOf (hIrqStat 0x072) n = true ∧ d.bitOf Reg.GLB.ALARM_STAT 0 = true ∧ d.bitOf Reg.GLB.ALARM_STAT 1 = true) ∧
  (∀ (s : State) (n : Nat) (r : TamperReading), 
    n < 15 ∧ (s.chip.power.mode = .play ∨ s.chip.power.mode = .quiet) ∧ s.chip.bitOf Reg.TAMPER.LIVE n = false →
    s.chip.tamperResp n = 2 ∧ s.chip.otp.resignMark < 32 →
    s.chip.sensorEvaluated n = true ∧ s.chip.sensorOut n r = true →
    ∃ d, exec (.tamperSensorFire n r) s = .next { s with chip := d } ∧
      d.rootState = 4 ∧ d.castle.slots = [] ∧ d.castle.root = none ∧ d.castle.aoLatch = true ∧ d.otp.resignMark = s.chip.otp.resignMark + 1 ∧
      d.bitOf Reg.CASTLE.STATE 8 = true ∧ d.unitId = 0 ∧ d.sas = [] ∧ d.score.ring = [] ∧
      d.bitOf (hIrqStat 0x071) 10 = true ∧ d.bitOf (hIrqStat 0x072) n = true ∧ d.bitOf Reg.TAMPER.FIRED n = true ∧
      d.bitOf Reg.GLB.ALARM_STAT 0 = true ∧ d.bitOf Reg.GLB.ALARM_STAT 1 = true) ∧
  (∀ (s : State) (n : Nat) (r : TamperReading) (lim : Word), 
    n < 15 ∧ (s.chip.power.mode = .play ∨ s.chip.power.mode = .quiet) ∧ s.chip.sensorEvaluated n = true ∧ (n < 9 ∨ n = 10) →
    lim = s.chip.reg (Reg.TAMPER.TS_LIM n) ∧ (lim.setWidth 16).toInt ≤ r.value ∧ r.value ≤ ((lim >>> 16).setWidth 16).toInt →
    ∃ d, exec (.tamperSensorFire n r) s = .next { s with chip := d } ∧
      d.bitOf Reg.TAMPER.LIVE n = false ∧ s.chip.keeps d [Reg.TAMPER.LIVE] ∧ d = { s.chip with regs := d.regs }) ∧
  (∀ (s : State) (n : Nat) (r : TamperReading), 
    (n = 2 ∨ (9 ≤ n ∧ n < 15)) ∧ s.chip.power.mode = .adjournedCold ∧ s.chip.bitOf Reg.TAMPER.LIVE n = false →
    s.chip.tamperResp n = 2 →
    s.chip.sensorEvaluated n = true ∧ s.chip.sensorOut n r = true →
    ∃ d, exec (.tamperSensorFire n r) s = .next { s with chip := d } ∧
      d.bitOf Reg.TAMPER.SLEEP_LATCH n = true ∧ d.castle.aoLatch = true ∧ d.castle.resignPending = s.chip.castle.resignPending + 1 ∧
      d.bitOf Reg.GLB.ALARM_STAT 0 = true ∧ d.castle.slots = s.chip.castle.slots ∧ d.score = s.chip.score) ∧
  (∀ (s : State) (n : Nat) (r : TamperReading), 
    (n = 2 ∨ (9 ≤ n ∧ n < 15)) ∧ s.chip.power.mode = .held ∧ s.chip.bitOf Reg.TAMPER.LIVE n = false →
    s.chip.tamperResp n = 2 →
    s.chip.sensorEvaluated n = true ∧ s.chip.sensorOut n r = true →
    ∃ d, exec (.tamperSensorFire n r) s = .next { s with chip := d } ∧
      d.rootState = 4 ∧ d.castle.aoLatch = true ∧ d.castle.resignPending = s.chip.castle.resignPending + 1 ∧
      d.bitOf Reg.TAMPER.FIRED n = true ∧ d.bitOf (hIrqStat 0x072) n = true ∧ d.bitOf Reg.GLB.ALARM_STAT 0 = true) ∧
  (∀ (s : State) (k : Nat) (v : Word) (be : Nat) (x : Word), 
    s.chip.passes .running = true →
    s.chip.accepts k Reg.TAMPER.SLEEP_LATCH = true ∧ x = s.chip.reg Reg.TAMPER.SLEEP_LATCH &&& ~~~ (v &&& beMask be &&& 0x7FFF) →
    ∃ d, exec (.sleepLatchWrite k v be) s = .next { s with chip := d } ∧
      d.reg Reg.TAMPER.SLEEP_LATCH = x ∧ d.sleepHold = (if x = 0 then false else s.chip.sleepHold) ∧
      s.chip.keeps d [Reg.TAMPER.SLEEP_LATCH, Reg.CASTLE.STATE] ∧ d = { s.chip with regs := d.regs }) ∧
  (∀ (s : State) (n : Nat) (b : List Byte), 
    s.chip.passes .running = true →
    s.chip.castle.deferred = true ∧ s.chip.sleepHold = false ∧ s.chip.arbRunning = true ∧ s.chip.rootReady = true →
    s.chip.castle.autoload = [(n, b)] ∧ s.chip.loadCheck (leAt b 8 1 % 4) n b (leAt b 4 2) (fun t => 52 + keyLen t) ≠ 1 →
    ∃ d, exec .autoloadDeferred s = .next { s with chip := d } ∧
      d.castle.deferred = false ∧ d.castle.slots = s.chip.castle.slots ∧
      d.reg Reg.CASTLE.LOAD_FAILS = sat32 ((s.chip.reg Reg.CASTLE.LOAD_FAILS).toNat + 1) ∧ d.reg Reg.CASTLE.LOADS = s.chip.reg Reg.CASTLE.LOADS)

/-- Where a core takes the next job with the named operation, its command marks the job running with its outcome and changes nothing else: GCM and CCM encrypt give ciphertext and tag, GMAC, CMAC and SHAKE256 their tag or digest over header and payload, ED448_SIGN the signature; the decrypting and verifying operations give their output where the tag agrees with the given one and otherwise TAG_FAIL with no output; ED448_VERIFY likewise; ATTEST signs the record that begins with AT, version 1, the life-cycle state and UNIT_ID. A job whose slot holds no key fails with NO_KEY. The primitives stand uninterpreted (the model's Config); the rest is as R453 and R460 say. A descriptor fetch, a tail write, the end of a job, SEAL and VERIFY complete with their first effect. -/
def Obligations.CipherOperationCommands : Prop :=
  (∀ (s : State) (j : CxJob), 
    s.chip.passes .running = true →
    s.chip.cxTakes 0x01 j = true →
    ∃ d, exec .gcmEncrypt s = .next { s with chip := d } ∧
      d.cx.jobs = s.chip.cxTaken j { j with out := Config.gcmCipher (s.chip.cxKey j) j.iv j.aad j.payload, tagOut := (Config.gcmTag (s.chip.cxKey j) j.iv j.aad (Config.gcmCipher (s.chip.cxKey j) j.iv j.aad j.payload)).take j.tagLen } ∧ d = { s.chip with cx := d.cx }) ∧
  (∀ (s : State) (j : CxJob), 
    s.chip.passes .running = true →
    s.chip.cxTakes 0x02 j = true →
    ∃ d, exec .gcmDecrypt s = .next { s with chip := d } ∧
      d.cx.jobs = s.chip.cxTaken j (if (Config.gcmTag (s.chip.cxKey j) j.iv j.aad j.payload).take j.tagLen = j.tagIn then { j with out := Config.gcmPlain (s.chip.cxKey j) j.iv j.aad j.payload } else { j with fail := 1 }) ∧ d = { s.chip with cx := d.cx }) ∧
  (∀ (s : State) (j : CxJob), 
    s.chip.passes .running = true →
    s.chip.cxTakes 0x03 j = true →
    ∃ d, exec .gmacGenerate s = .next { s with chip := d } ∧
      d.cx.jobs = s.chip.cxTaken j { j with out := [], tagOut := (Config.gcmTag (s.chip.cxKey j) j.iv (j.aad ++ j.payload) []).take j.tagLen } ∧ d = { s.chip with cx := d.cx }) ∧
  (∀ (s : State) (j : CxJob), 
    s.chip.passes .running = true →
    s.chip.cxTakes 0x04 j = true →
    ∃ d, exec .gmacVerify s = .next { s with chip := d } ∧
      d.cx.jobs = s.chip.cxTaken j (if (Config.gcmTag (s.chip.cxKey j) j.iv (j.aad ++ j.payload) []).take j.tagLen = j.tagIn then { j with out := [] } else { j with fail := 1 }) ∧ d = { s.chip with cx := d.cx }) ∧
  (∀ (s : State) (j : CxJob), 
    s.chip.passes .running = true →
    s.chip.cxTakes 0x05 j = true →
    ∃ d, exec .ccmEncrypt s = .next { s with chip := d } ∧
      d.cx.jobs = s.chip.cxTaken j { j with out := Config.ccmCipher (s.chip.cxKey j) j.tagLen j.iv j.aad j.payload, tagOut := (Config.ccmTag (s.chip.cxKey j) j.tagLen j.iv j.aad j.payload).take j.tagLen } ∧ d = { s.chip with cx := d.cx }) ∧
  (∀ (s : State) (j : CxJob), 
    s.chip.passes .running = true →
    s.chip.cxTakes 0x06 j = true →
    ∃ d, exec .ccmDecrypt s = .next { s with chip := d } ∧
      d.cx.jobs = s.chip.cxTaken j (if (Config.ccmTag (s.chip.cxKey j) j.tagLen j.iv j.aad (Config.ccmPlain (s.chip.cxKey j) j.tagLen j.iv j.aad j.payload)).take j.tagLen = j.tagIn then { j with out := Config.ccmPlain (s.chip.cxKey j) j.tagLen j.iv j.aad j.payload } else { j with fail := 1 }) ∧ d = { s.chip with cx := d.cx }) ∧
  (∀ (s : State) (j : CxJob), 
    s.chip.passes .running = true →
    s.chip.cxTakes 0x07 j = true →
    ∃ d, exec .cmacGenerate s = .next { s with chip := d } ∧
      d.cx.jobs = s.chip.cxTaken j { j with out := [], tagOut := (Config.cmac (s.chip.cxKey j) (j.aad ++ j.payload)).take j.tagLen } ∧ d = { s.chip with cx := d.cx }) ∧
  (∀ (s : State) (j : CxJob), 
    s.chip.passes .running = true →
    s.chip.cxTakes 0x08 j = true →
    ∃ d, exec .cmacVerify s = .next { s with chip := d } ∧
      d.cx.jobs = s.chip.cxTaken j (if (Config.cmac (s.chip.cxKey j) (j.aad ++ j.payload)).take j.tagLen = j.tagIn then { j with out := [] } else { j with fail := 1 }) ∧ d = { s.chip with cx := d.cx }) ∧
  (∀ (s : State) (j : CxJob), 
    s.chip.passes .running = true →
    s.chip.cxTakes 0x09 j = true →
    ∃ d, exec .shake256 s = .next { s with chip := d } ∧
      d.cx.jobs = s.chip.cxTaken j { j with out := Config.shake256 (j.aad ++ j.payload) j.outCap, tagOut := [] } ∧ d = { s.chip with cx := d.cx }) ∧
  (∀ (s : State) (j : CxJob), 
    s.chip.passes .running = true →
    s.chip.cxTakes 0x0a j = true →
    ∃ d, exec .ed448Sign s = .next { s with chip := d } ∧
      d.cx.jobs = s.chip.cxTaken j { j with out := Config.ed448Sign (s.chip.cxKey j) (j.aad ++ j.payload), tagOut := [] } ∧ d = { s.chip with cx := d.cx }) ∧
  (∀ (s : State) (j : CxJob), 
    s.chip.passes .running = true →
    s.chip.cxTakes 0x0b j = true →
    ∃ d, exec .ed448Verify s = .next { s with chip := d } ∧
      d.cx.jobs = s.chip.cxTaken j (if Config.ed448Verify (j.aad.take 57) j.payload (j.aad.drop 57) then j else { j with fail := 1 }) ∧ d = { s.chip with cx := d.cx }) ∧
  (∀ (s : State) (j : CxJob) (b : List Byte), 
    s.chip.passes .running = true →
    s.chip.cxTakes 0x0C j = true →
    ∃ d, exec .attest s = .next { s with chip := d } ∧
      d.cx.jobs = s.chip.cxTaken j { j with out := s.chip.attestBody j.payload (Config.shake256 s.chip.activeSet.manifest 32) ++ Config.ed448Sign (s.chip.cxKey j) (s.chip.attestBody j.payload (Config.shake256 s.chip.activeSet.manifest 32)), tagOut := [] } ∧
      (s.chip.attestBody j.payload b).take 12 = [0x41, 0x54, 1, BitVec.ofNat 8 s.chip.otp.lc] ++ bytesLE 8 s.chip.unitId ∧ d = { s.chip with cx := d.cx }) ∧
  (∀ (s : State) (j : CxJob), 
    s.chip.passes .running = true →
    s.chip.fab.copies.all (fun k => !(k.appended && k.output == 68)) = true →
    (s.chip.cx.jobs.filter fun i => i.running && cxCore i.op == 0).length < 6 ∧ s.chip.cxNext 0 = some j ∧ j.op = 1 ∧ j.usesKey = true →
    s.chip.slot? j.slot = none ∧ sget false s.chip.castle.orphaned j.slot = false →
    ∃ d, exec .gcmEncrypt s = .next { s with chip := d } ∧
      d.cx.jobs = s.chip.cx.jobs.map (fun i => if i.id = j.id then { i with fail := 6 } else i) ∧ d = { s.chip with cx := d.cx }) ∧
  (∀ (s : State) (k i n : Nat) (desc : List Byte), 
    s.chip.passes .running = true →
    k < 4 ∧ s.chip.fab.copies.all (fun x => !(x.appended && x.output == 68)) = true ∧ s.chip.jrSize k = some n →
    (s.chip.part k).linkUp = true ∧ s.chip.bitOf (Reg.PART.SEAT k) 31 = false ∧ i = sget 0 s.chip.cx.fetch k ∧ i ≠ s.chip.fldOf (Reg.CX.JR_TAIL k) 11 0 % n →
    s.chip.cxRoom k = true ∧ s.chip.bitOf Reg.CX.CTRL 0 = true →
    ∃ d, exec (.cxDescriptorFetch k desc [] false) s = .next { s with chip := d } ∧
      sget 0 d.cx.fetch k = (i + 1) % n) ∧
  (∀ (s : State) (w k : Nat) (v : Word), 
    s.chip.passes .running = true →
    k < 4 ∧ s.chip.accepts w (Reg.CX.JR_TAIL k) = true →
    ∃ d, exec (.jrTailWrite w k v 0xF) s = .next { s with chip := d } ∧
      d.fldOf (Reg.CX.JR_TAIL k) 11 0 = v.toNat % 2 ^ 12) ∧
  (∀ (s : State) (id : Nat) (j : CxJob) (k : Copy), 
    s.chip.passes .running = true →
    s.chip.cx.jobs.find? (fun i => i.id == id && (i.running || i.fail != 0)) = some j ∧ j.copy = some k ∧ j.fail = 0x13 →
    bit (s.chip.regAt k.epoch Reg.CX.FAIL_SMP) 6 = false →
    ∃ d, exec (.cxJobDone id 0) s = .next { s with chip := d } ∧
      d.cx.jobs = s.chip.cx.jobs.filter (fun i => i.id != id)) ∧
  (∀ (s : State) (j : CxJob) (k : Copy) (w0 w1 w2 : Word64) (t : Nat) (p : List Byte), 
    s.chip.passes .running = true →
    s.chip.cxTakes 0x101 j = true ∧ j.copy = some k ∧ j.profile < 1024 →
    w0 = s.chip.cxWord j.epoch j.profile 0 ∧ w1 = s.chip.cxWord j.epoch j.profile 1 ∧ w2 = s.chip.tword (cxProfileOff j.profile + 16) →
    sealBadLen k w0 w1 = false ∧ s.chip.tempoState ≠ 0 ∧ t = s.chip.ns / 1000000 ∧ fld w2 63 16 ≠ t % 2 ^ 48 →
    p = (canRecData k.data).take (cxPlen w1) →
    ∃ d, exec .sealJob s = .next { s with chip := d } ∧
      d.tword (cxProfileOff j.profile + 16) = BitVec.ofNat 64 (t % 2 ^ 48 * 2 ^ 16 + 1)) ∧
  (∀ (s : State) (j : CxJob) (k : Copy) (w0 w1 w2 : Word64) (n : Nat) (b : List Byte) (t : Int), 
    s.chip.passes .running = true →
    s.chip.cxTakes 0x102 j = true ∧ j.copy = some k ∧ j.profile < 1024 →
    w0 = s.chip.cxWord j.epoch j.profile 0 ∧ w1 = s.chip.cxWord j.epoch j.profile 1 ∧ w2 = s.chip.tword (cxProfileOff j.profile + 16) →
    n = cxPlen w1 ∧ b = canRecData k.data ∧ k.kind = .can ∧ (canOfRecord k.data).fmt ≠ 0 ∧ n + 3 + macLen w0 ≤ b.length →
    t = sealTime (s.chip.ns / 1000000) (beAt b n 2) ∧ s.chip.tempoState = 2 →
    (t - Int.ofNat (s.chip.ns / 1000000)).natAbs ≤ (if fld w1 15 8 = 0 then 4 else fld w1 15 8) →
    bit w2 0 = false ∨ Int.ofNat (fld w2 63 16) < t →
    ∃ d, exec .verifyJob s = .next { s with chip := d } ∧
      (sealMac (s.chip.cxKey j) w0 (b.take n) (beAt b n 2) (beAt b (n + 2) 1) = bytesAt b (n + 3) (macLen w0) → d.cx.jobs = s.chip.cxTaken j { j with out := reRecord k.data (b.take n) } ∧ d.tword (cxProfileOff j.profile + 16) = BitVec.ofInt 64 (t % 2 ^ 48 * 2 ^ 16 + beAt b (n + 2) 1 * 256 + 1)))

/-- CX_DESCRIPTOR_FETCH of a ring with an offered descriptor and room queues its job with index and descriptor address and moves the fetch index on; JR_TAIL_WRITE stores the tail. CX_JOB_DONE removes the job, counts JOBS_DONE, and for a failed host job writes its DONE_WORD to host memory and raises the ring's source, for a fabric job that failed as a replay counts REPLAY, fills LAST_FAIL and discards it. SEAL_JOB of a CAN frame that fits, at the first seal of its millisecond, appends the freshness value with counter 0 and the MAC and records them in the profile; one that does not fit fails BAD_LEN. VERIFY_JOB within window and after the last freshness value gives the payload and records the value, or fails TAG_FAIL. -/
def Obligations.CipherJobCommands : Prop :=
  (∀ (s : State) (k i n : Nat) (desc : List Byte), 
    s.chip.passes .running = true →
    k < 4 ∧ s.chip.fab.copies.all (fun x => !(x.appended && x.output == 68)) = true ∧ s.chip.jrSize k = some n →
    (s.chip.part k).linkUp = true ∧ s.chip.bitOf (Reg.PART.SEAT k) 31 = false ∧ i = sget 0 s.chip.cx.fetch k ∧ i ≠ s.chip.fldOf (Reg.CX.JR_TAIL k) 11 0 % n →
    s.chip.cxRoom k = true ∧ s.chip.bitOf Reg.CX.CTRL 0 = true →
    ∃ d, exec (.cxDescriptorFetch k desc [] false) s = .next { s with chip := d } ∧
      d.cx.jobs = s.chip.cx.jobs ++ [{ cxParse k desc [] false with id := s.chip.cx.nextId, index := i, descAddr := s.chip.jrBase k + 64 * i }] ∧
      sget 0 d.cx.fetch k = (i + 1) % n ∧ d = { s.chip with cx := d.cx }) ∧
  (∀ (s : State) (w k : Nat) (v : Word), 
    s.chip.passes .running = true →
    k < 4 ∧ s.chip.accepts w (Reg.CX.JR_TAIL k) = true →
    ∃ d, exec (.jrTailWrite w k v 0xF) s = .next { s with chip := d } ∧
      d.fldOf (Reg.CX.JR_TAIL k) 11 0 = v.toNat % 2 ^ 12 ∧ s.chip.keeps d [Reg.CX.JR_TAIL k] ∧ d = { s.chip with regs := d.regs }) ∧
  (∀ (s : State) (id : Nat) (j : CxJob), 
    s.chip.passes .running = true →
    s.chip.cx.jobs.find? (fun i => i.id == id && (i.running || i.fail != 0)) = some j ∧ j.copy = none ∧ j.bnl = none ∧ j.fail ≠ 0 ∧ j.part < 4 →
    ∃ d, exec (.cxJobDone id 0) s = .next { s with chip := d } ∧
      d.cx.jobs = s.chip.cx.jobs.filter (fun i => i.id != id) ∧
      d.reg Reg.CX.JOBS_DONE = sat32 ((s.chip.reg Reg.CX.JOBS_DONE).toNat + 1) ∧ d.bitOf (hIrqStat 0x070) (2 * j.part) = true ∧
      (d.out.drop s.chip.out.length).head? = some { kind := .hostWrite, unit := j.part, arg := j.descAddr + 44, data := bytesLE 4 (2 ^ 31 + j.fail * 2 ^ 16) } ∧
      d.fab = s.chip.fab ∧ d.tbl = s.chip.tbl ∧ d.castle = s.chip.castle) ∧
  (∀ (s : State) (id : Nat) (j : CxJob) (k : Copy), 
    s.chip.passes .running = true →
    s.chip.cx.jobs.find? (fun i => i.id == id && (i.running || i.fail != 0)) = some j ∧ j.copy = some k ∧ j.fail = 0x13 →
    bit (s.chip.regAt k.epoch Reg.CX.FAIL_SMP) 6 = false →
    ∃ d, exec (.cxJobDone id 0) s = .next { s with chip := d } ∧
      d.cx.jobs = s.chip.cx.jobs.filter (fun i => i.id != id) ∧
      d.reg Reg.CX.REPLAY = sat32 ((s.chip.reg Reg.CX.REPLAY).toNat + 1) ∧ d.bitOf (hIrqStat 0x070) 9 = true ∧
      d.reg Reg.CX.LAST_FAIL = BitVec.ofNat 32 (2 ^ 31 + 0x13 * 2 ^ 16 + j.profile % 1024) ∧ d.fab = s.chip.fab) ∧
  (∀ (s : State) (j : CxJob) (k : Copy) (w0 w1 w2 : Word64) (t : Nat) (p : List Byte), 
    s.chip.passes .running = true →
    s.chip.cxTakes 0x101 j = true ∧ j.copy = some k ∧ j.profile < 1024 →
    w0 = s.chip.cxWord j.epoch j.profile 0 ∧ w1 = s.chip.cxWord j.epoch j.profile 1 ∧ w2 = s.chip.tword (cxProfileOff j.profile + 16) →
    sealBadLen k w0 w1 = false ∧ s.chip.tempoState ≠ 0 ∧ t = s.chip.ns / 1000000 ∧ fld w2 63 16 ≠ t % 2 ^ 48 →
    p = (canRecData k.data).take (cxPlen w1) →
    ∃ d, exec .sealJob s = .next { s with chip := d } ∧
      d.tword (cxProfileOff j.profile + 16) = BitVec.ofNat 64 (t % 2 ^ 48 * 2 ^ 16 + 1) ∧ s.chip.keepsTable d [cxProfileOff j.profile + 16] ∧
      d.cx.jobs = s.chip.cxTaken j { j with out := reRecord k.data (p ++ bytesBE 2 (t % 65536) ++ [0] ++ (Config.cmac (s.chip.cxKey j) (bytesBE 4 (fld w0 31 0) ++ p ++ bytesBE 2 (t % 65536) ++ [0])).take (macLen w0)) } ∧
      d.regs = s.chip.regs ∧ d.fab = s.chip.fab) ∧
  (∀ (s : State) (j : CxJob) (k : Copy), 
    s.chip.passes .running = true →
    s.chip.cxTakes 0x101 j = true ∧ j.copy = some k ∧ sealBadLen k (s.chip.cxWord j.epoch j.profile 0) (s.chip.cxWord j.epoch j.profile 1) = true →
    ∃ d, exec .sealJob s = .next { s with chip := d } ∧ d.cx.jobs = s.chip.cxTaken j { j with fail := 0x10 } ∧ d = { s.chip with cx := d.cx }) ∧
  (∀ (s : State) (j : CxJob) (k : Copy) (w0 w1 w2 : Word64) (n : Nat) (b : List Byte) (t : Int), 
    s.chip.passes .running = true →
    s.chip.cxTakes 0x102 j = true ∧ j.copy = some k ∧ j.profile < 1024 →
    w0 = s.chip.cxWord j.epoch j.profile 0 ∧ w1 = s.chip.cxWord j.epoch j.profile 1 ∧ w2 = s.chip.tword (cxProfileOff j.profile + 16) →
    n = cxPlen w1 ∧ b = canRecData k.data ∧ k.kind = .can ∧ (canOfRecord k.data).fmt ≠ 0 ∧ n + 3 + macLen w0 ≤ b.length →
    t = sealTime (s.chip.ns / 1000000) (beAt b n 2) ∧ s.chip.tempoState = 2 →
    (t - Int.ofNat (s.chip.ns / 1000000)).natAbs ≤ (if fld w1 15 8 = 0 then 4 else fld w1 15 8) →
    bit w2 0 = false ∨ Int.ofNat (fld w2 63 16) < t →
    ∃ d, exec .verifyJob s = .next { s with chip := d } ∧
      (sealMac (s.chip.cxKey j) w0 (b.take n) (beAt b n 2) (beAt b (n + 2) 1) ≠ bytesAt b (n + 3) (macLen w0) →
        d.cx.jobs = s.chip.cxTaken j { j with fail := 1 } ∧ d.tbl = s.chip.tbl) ∧
      (sealMac (s.chip.cxKey j) w0 (b.take n) (beAt b n 2) (beAt b (n + 2) 1) = bytesAt b (n + 3) (macLen w0) →
        d.cx.jobs = s.chip.cxTaken j { j with out := reRecord k.data (b.take n) } ∧
        d.tword (cxProfileOff j.profile + 16) = BitVec.ofInt 64 (t % 2 ^ 48 * 2 ^ 16 + beAt b (n + 2) 1 * 256 + 1)) ∧
      s.chip.keepsTable d [cxProfileOff j.profile + 16] ∧ d.regs = s.chip.regs ∧ d.fab = s.chip.fab)

/-- SCRUB_READ of a word of a square's memory: without an error it changes nothing, at the end of a pass the pass number of the instance counts on; a correctable error counts CE_TOTAL and INST_CE, fills LAST_CE and raises the bucket by one; an uncorrectable one not known before counts UE_TOTAL and INST_UE, fills LAST_UE, raises its source and the alarm and is logged. BUCKET_LEAK lowers a level by one. RETIRE_GO with its key lists the range of RETIRE_ARG, or leaves the list and shows why not in RESULT. ALLOC_RETIRE_COMPLETE clears DRAIN. BIST_RUN of an instance in reset shows the remapped words or FAIL. RET_INIT by the owner clears INIT_NEEDED. -/
def Obligations.MemoryCommandsComplete : Prop :=
  (∀ (s : State) (m a : Nat), 
    s.chip.passes .running = true →
    m < 0x40 ∧ a < 2 ^ 22 ∧ s.chip.bitOf Reg.MEM.CTRL 0 = true ∧ s.chip.rangeRetired m (a / 512) = false →
    s.chip.now ≤ sget 0 s.chip.mem.passStart m + s.chip.scrubPass →
    exec (.scrubRead m a 0 false) s = .next s) ∧
  (∀ (s : State) (m a : Nat), 
    s.chip.passes .running = true →
    m < 0x40 ∧ a < 2 ^ 22 ∧ s.chip.bitOf Reg.MEM.CTRL 0 = true ∧ s.chip.rangeRetired m (a / 512) = false →
    s.chip.now ≤ sget 0 s.chip.mem.passStart m + s.chip.scrubPass →
    ∃ d, exec (.scrubRead m a 0 true) s = .next { s with chip := d } ∧
      d.fldOf (Reg.MEM.INST_STAT m) 6 0 = (s.chip.fldOf (Reg.MEM.INST_STAT m) 6 0 + 1) % 128 ∧ d.bitOf (Reg.MEM.INST_STAT m) 14 = false ∧
      sget 0 d.mem.passStart m = s.chip.now ∧ s.chip.keeps d [Reg.MEM.INST_STAT m] ∧ d = { s.chip with regs := d.regs, mem := d.mem }) ∧
  (∀ (s : State) (m a r : Nat), 
    s.chip.passes .running = true →
    m < 0x40 ∧ a < 2 ^ 22 ∧ s.chip.bitOf Reg.MEM.CTRL 0 = true ∧ s.chip.rangeRetired m (a / 512) = false →
    s.chip.now ≤ sget 0 s.chip.mem.passStart m + s.chip.scrubPass →
    r = 1 ∨ r = 3 →
    s.chip.fldOf (Reg.MEM.INST_STAT m) 31 24 < s.chip.fldOf Reg.MEM.BUCKET_CFG 7 0 →
    ∃ d, exec (.scrubRead m a r false) s = .next { s with chip := d } ∧
      d.reg Reg.MEM.CE_TOTAL = sat32 ((s.chip.reg Reg.MEM.CE_TOTAL).toNat + 1) ∧ d.reg (Reg.MEM.INST_CE m) = sat32 ((s.chip.reg (Reg.MEM.INST_CE m)).toNat + 1) ∧
      d.reg Reg.MEM.LAST_CE = BitVec.ofNat 32 (2 ^ 31 + m * 2 ^ 16) ∧ d.reg Reg.MEM.LAST_CE_ADDR = BitVec.ofNat 32 a ∧
      d.fldOf (Reg.MEM.INST_STAT m) 31 24 = s.chip.fldOf (Reg.MEM.INST_STAT m) 31 24 + 1 ∧ d.reg Reg.MEM.UE_TOTAL = s.chip.reg Reg.MEM.UE_TOTAL) ∧
  (∀ (s : State) (m a : Nat), 
    s.chip.passes .running = true →
    m < 0x40 ∧ a < 2 ^ 22 ∧ s.chip.bitOf Reg.MEM.CTRL 0 = true ∧ s.chip.rangeRetired m (a / 512) = false →
    s.chip.now ≤ sget 0 s.chip.mem.passStart m + s.chip.scrubPass ∧ sget false s.chip.mem.bad (memKey m a) = false →
    ∃ d, exec (.scrubRead m a 2 false) s = .next { s with chip := d } ∧
      d.reg Reg.MEM.UE_TOTAL = sat32 ((s.chip.reg Reg.MEM.UE_TOTAL).toNat + 1) ∧ d.reg (Reg.MEM.INST_UE m) = sat32 ((s.chip.reg (Reg.MEM.INST_UE m)).toNat + 1) ∧ d.reg Reg.MEM.LAST_UE = BitVec.ofNat 32 (2 ^ 31 + 2 ^ 24 + m * 2 ^ 16) ∧
      d.reg Reg.MEM.LAST_UE_ADDR = BitVec.ofNat 32 a ∧ sget false d.mem.bad (memKey m a) = true ∧ d.bitOf (hIrqStat 0x080) 1 = true ∧
      d.bitOf Reg.GLB.ALARM_STAT 4 = true ∧ (s.chip.score.queue.length < 64 → s.chip.scoreFresh = true → d.score.queue.map (fun e => (e.code, e.sev)) = s.chip.score.queue.map (fun e => (e.code, e.sev)) ++ [(0x0050, 3)])) ∧
  (∀ (s : State) (m : Nat), 
    s.chip.passes .running = true →
    memExists m = true ∧ s.chip.leakFs ≠ 0 ∧ s.chip.fldOf (Reg.MEM.INST_STAT m) 31 24 ≠ 0 ∧ sget 0 s.chip.mem.leakAt m / s.chip.leakFs < s.chip.now / s.chip.leakFs →
    ∃ d, exec (.bucketLeak m) s = .next { s with chip := d } ∧
      d.fldOf (Reg.MEM.INST_STAT m) 31 24 = s.chip.fldOf (Reg.MEM.INST_STAT m) 31 24 - 1 ∧ s.chip.keeps d [Reg.MEM.INST_STAT m] ∧
      d = { s.chip with regs := d.regs, mem := d.mem }) ∧
  (∀ (s : State) (k m p n : Nat) (v : Word), 
    s.chip.passes .running = true →
    s.chip.accepts k Reg.MEM.RETIRE_GO = true ∧ fld v 15 0 = 0x5254 ∧ m = s.chip.fldOf Reg.MEM.RETIRE_ARG 23 16 ∧ p = s.chip.fldOf Reg.MEM.RETIRE_ARG 11 0 →
    memKind m ≠ 0 ∧ memKind m ≠ 2 ∧ p < instPages m ∧ s.chip.rangeRetired m p = false ∧ n = s.chip.fldOf Reg.MEM.RETIRE_STAT 6 0 ∧ n < 64 →
    ∃ d, exec (.retireGo k v) s = .next { s with chip := d } ∧
      d.reg (Reg.MEM.RETIRED n) = BitVec.ofNat 32 (2 ^ 31 + m * 2 ^ 16 + p) ∧ d.fldOf Reg.MEM.RETIRE_STAT 6 0 = n + 1 ∧
      d.fldOf Reg.MEM.RETIRE_STAT 27 24 = 1 ∧ d.rangeRetired m p = true ∧
      s.chip.keeps d [Reg.MEM.RETIRED n, Reg.MEM.RETIRE_STAT] ∧ d = { s.chip with regs := d.regs }) ∧
  (∀ (s : State) (k r : Nat) (v : Word), 
    s.chip.passes .running = true →
    s.chip.accepts k Reg.MEM.RETIRE_GO = true ∧ fld v 15 0 = 0x5254 →
    r = s.chip.retireResult (s.chip.fldOf Reg.MEM.RETIRE_ARG 23 16) (s.chip.fldOf Reg.MEM.RETIRE_ARG 11 0) ∧ r ≠ 1 →
    ∃ d, exec (.retireGo k v) s = .next { s with chip := d } ∧
      d.fldOf Reg.MEM.RETIRE_STAT 27 24 = r ∧ d.fldOf Reg.MEM.RETIRE_STAT 6 0 = s.chip.fldOf Reg.MEM.RETIRE_STAT 6 0 ∧
      s.chip.keeps d [Reg.MEM.RETIRE_STAT] ∧ d = { s.chip with regs := d.regs }) ∧
  (∀ (s : State), 
    s.chip.passes .running = true →
    ∃ d, exec .allocRetireComplete s = .next { s with chip := d } ∧
      d.bitOf Reg.MEM.RETIRE_STAT 31 = false ∧ s.chip.keeps d [Reg.MEM.RETIRE_STAT] ∧ d = { s.chip with regs := d.regs }) ∧
  (∀ (s : State) (k m b : Nat) (v : Word), 
    s.chip.passes .running = true →
    s.chip.accepts k Reg.MEM.BIST_RUN = true ∧ fld v 31 16 = 0x4254 ∧ m = fld v 7 0 ∧ memExists m = true ∧ s.chip.memInReset m = true ∧ b ≤ 8 →
    ∃ d, exec (.bistRun k v b) s = .next { s with chip := d } ∧
      d.fldOf (Reg.MEM.INST_STAT m) 19 16 = b ∧ d.bitOf (Reg.MEM.INST_STAT m) 15 = false ∧ s.chip.keeps d [Reg.MEM.INST_STAT m] ∧
      d = { s.chip with regs := d.regs }) ∧
  (∀ (s : State) (k m b : Nat) (v : Word), 
    s.chip.passes .running = true →
    s.chip.accepts k Reg.MEM.BIST_RUN = true ∧ fld v 31 16 = 0x4254 ∧ m = fld v 7 0 ∧ memExists m = true ∧ s.chip.memInReset m = true ∧ 8 < b →
    ∃ d, exec (.bistRun k v b) s = .next { s with chip := d } ∧
      d.bitOf (Reg.MEM.INST_STAT m) 15 = true ∧ d.bitOf (hIrqStat 0x080) 4 = true ∧ s.chip.keeps d [Reg.MEM.INST_STAT m, hIrqStat 0x080]) ∧
  (∀ (s : State) (k : Nat) (v : Word), 
    s.chip.passes .running = true →
    k < 4 ∧ s.chip.accepts k Reg.MEM.RET_INIT = true ∧ fld v 15 0 = 0x5249 →
    ∃ d, exec (.retInit k v) s = .next { s with chip := d } ∧
      d.bitOf Reg.MEM.RET_STAT 0 = false ∧ s.chip.keeps d [Reg.MEM.RET_STAT] ∧ d = { s.chip with regs := d.regs })

/-- ARB_CORE_MISMATCH, ARB_WATCHDOG_EXPIRY and RESTART with its key by the supervisor begin a warm restart: STATUS RESTARTING, RESTART_CNT and LAST_RESTART with the cause, the SRAM's bucket cleared, a Scoresheet entry, and for the first two the alarm. ARB_RESTART_DONE with firmware that verifies runs again with RESTART_TIME; the third restart within 600 s ends in FAILED. PING, FLUSH, ARCH_READ, EYE_SCAN and MKA to an idle bank set BUSY with their OP; to a busy bank they are refused with PAGE_ERR.BLOCK; in FAILED they end at once with UNAVAILABLE. ARB_COMMAND_DONE of PING answers FW_VER and HEARTBEAT with DONE, of EYE_SCAN on no SerDes square BAD_ARG with FAIL. A sensor sample, the periodic eye scan, the Scoresheet's writing and flushing of an entry and a read of ENT7 complete with their first effect. -/
def Obligations.ArbiterCommandsComplete : Prop :=
  (∀ (s : State), 
    s.chip.passes .running = true →
    s.chip.arbState = 1 ∧ s.chip.arb.cmds = [] →
    ∃ d, exec .arbCoreMismatch s = .next { s with chip := d } ∧ d.arbState = 2 ∧ d.reg Reg.ARB.RESTART_CNT = sat32 ((s.chip.reg Reg.ARB.RESTART_CNT).toNat + 1) ∧ d.reg Reg.ARB.LAST_RESTART = BitVec.ofNat 32 (2 ^ 31 + 2) ∧
      d.arb.restartFrom = s.chip.now ∧ d.fldOf (Reg.MEM.INST_STAT 0xA1) 31 24 = 0 ∧ (s.chip.score.queue.length < 64 → s.chip.scoreFresh = true → d.score.queue.map (fun e => (e.code, e.sev)) = s.chip.score.queue.map (fun e => (e.code, e.sev)) ++ [(0x0010, 3)]) ∧ d.bitOf Reg.GLB.ALARM_STAT 7 = true) ∧
  (∀ (s : State), 
    s.chip.passes .running = true →
    s.chip.arbState = 1 ∧ s.chip.arb.cmds = [] →
    ∃ d, exec .arbWatchdogExpiry s = .next { s with chip := d } ∧ d.arbState = 2 ∧ d.reg Reg.ARB.RESTART_CNT = sat32 ((s.chip.reg Reg.ARB.RESTART_CNT).toNat + 1) ∧ d.reg Reg.ARB.LAST_RESTART = BitVec.ofNat 32 (2 ^ 31 + 1) ∧
      d.arb.restartFrom = s.chip.now ∧ d.fldOf (Reg.MEM.INST_STAT 0xA1) 31 24 = 0 ∧ (s.chip.score.queue.length < 64 → s.chip.scoreFresh = true → d.score.queue.map (fun e => (e.code, e.sev)) = s.chip.score.queue.map (fun e => (e.code, e.sev)) ++ [(0x0010, 3)]) ∧ d.bitOf Reg.GLB.ALARM_STAT 7 = true) ∧
  (∀ (s : State) (k : Nat) (v : Word), 
    s.chip.passes .running = true →
    s.chip.accepts k Reg.ARB.RESTART = true ∧ fld v 15 0 = 0x4152 ∧ s.chip.arbState ≠ 2 ∧ s.chip.arb.cmds = [] →
    ∃ d, exec (.restart k v) s = .next { s with chip := d } ∧ d.arbState = 2 ∧ d.reg Reg.ARB.RESTART_CNT = sat32 ((s.chip.reg Reg.ARB.RESTART_CNT).toNat + 1) ∧ d.reg Reg.ARB.LAST_RESTART = BitVec.ofNat 32 (2 ^ 31 + 0) ∧
      d.arb.restartFrom = s.chip.now ∧ d.fldOf (Reg.MEM.INST_STAT 0xA1) 31 24 = 0 ∧ (s.chip.score.queue.length < 64 → s.chip.scoreFresh = true → d.score.queue.map (fun e => (e.code, e.sev)) = s.chip.score.queue.map (fun e => (e.code, e.sev)) ++ [(0x0010, 3)]) ∧ d.bitOf Reg.GLB.ALARM_STAT 7 = s.chip.bitOf Reg.GLB.ALARM_STAT 7) ∧
  (∀ (s : State) (a b : Bool), 
    s.chip.passes .running = true →
    s.chip.arbState = 2 ∧ s.chip.arb.restarts = [] ∧ s.chip.record.trial = false ∧ (if s.chip.activeSlot = 0 then a else b) = true →
    s.chip.activeSet.entry 1 = none ∧ s.chip.plState s.chip.partner < 3 →
    ∃ d, exec (.arbRestartDone a b) s = .next { s with chip := d } ∧
      d.arbState = 1 ∧ d.bitOf (hIrqStat 0x090) 8 = true ∧ d.reg Reg.ARB.RESTART_TIME = BitVec.ofNat 32 (min ((s.chip.now - s.chip.arb.restartFrom) / fsUs) 0x1FFFF) ∧
      d.move = s.chip.move ∧ d.fab = s.chip.fab) ∧
  (∀ (s : State) (a b : Bool) (t u : Nat), 
    s.chip.passes .running = true →
    s.chip.arbState = 2 ∧ s.chip.arb.restarts = [t, u] ∧ s.chip.arb.cmds = [] →
    s.chip.now < s.chip.arb.restartFrom + 600 * fsSec ∧ s.chip.now < t + 600 * fsSec ∧ s.chip.now < u + 600 * fsSec →
    ∃ d, exec (.arbRestartDone a b) s = .next { s with chip := d } ∧
      d.arbState = 3 ∧ d.bitOf (hIrqStat 0x090) 9 = true ∧ d.bitOf Reg.GLB.ALARM_STAT 7 = true ∧ (s.chip.score.queue.length < 64 → s.chip.scoreFresh = true → d.score.queue.map (fun e => (e.code, e.sev)) = s.chip.score.queue.map (fun e => (e.code, e.sev)) ++ [(0x0011, 4)])) ∧
  (∀ (s : State) (w k : Nat), 
    s.chip.passes .running = true →
    k < 4 ∧ s.chip.accepts w (Reg.ARB.CMD k) = true ∧ s.chip.bitOf (Reg.ARB.CSTAT k) 31 = false ∧ s.chip.arbState ≠ 3 →
    ∃ d, exec (.arbPing w k) s = .next { s with chip := d } ∧
      lookupKey d.arb.cmds k = some { op := 1 } ∧ d.reg (Reg.ARB.CSTAT k) = BitVec.ofNat 32 (2 ^ 31 + s.chip.fldOf (Reg.ARB.CSTAT k) 11 8 * 2 ^ 8 + 1) ∧
      s.chip.keeps d [Reg.ARB.CSTAT k] ∧ d = { s.chip with regs := d.regs, arb := d.arb }) ∧
  (∀ (s : State) (w k : Nat), 
    s.chip.passes .running = true →
    k < 4 ∧ s.chip.accepts w (Reg.ARB.CMD k) = true ∧ s.chip.bitOf (Reg.ARB.CSTAT k) 31 = false ∧ s.chip.arbState ≠ 3 →
    ∃ d, exec (.arbFlush w k) s = .next { s with chip := d } ∧
      lookupKey d.arb.cmds k = some { op := 2 } ∧ d.reg (Reg.ARB.CSTAT k) = BitVec.ofNat 32 (2 ^ 31 + s.chip.fldOf (Reg.ARB.CSTAT k) 11 8 * 2 ^ 8 + 2) ∧
      s.chip.keeps d [Reg.ARB.CSTAT k] ∧ d = { s.chip with regs := d.regs, arb := d.arb }) ∧
  (∀ (s : State) (w k : Nat), 
    s.chip.passes .running = true →
    k < 4 ∧ s.chip.accepts w (Reg.ARB.CMD k) = true ∧ s.chip.bitOf (Reg.ARB.CSTAT k) 31 = false ∧ s.chip.arbState ≠ 3 →
    ∃ d, exec (.arbArchRead w k) s = .next { s with chip := d } ∧
      lookupKey d.arb.cmds k = some { op := 3 } ∧ d.reg (Reg.ARB.CSTAT k) = BitVec.ofNat 32 (2 ^ 31 + s.chip.fldOf (Reg.ARB.CSTAT k) 11 8 * 2 ^ 8 + 3) ∧
      s.chip.keeps d [Reg.ARB.CSTAT k] ∧ d = { s.chip with regs := d.regs, arb := d.arb }) ∧
  (∀ (s : State) (w k : Nat), 
    s.chip.passes .running = true →
    k < 4 ∧ s.chip.accepts w (Reg.ARB.CMD k) = true ∧ s.chip.bitOf (Reg.ARB.CSTAT k) 31 = false ∧ s.chip.arbState ≠ 3 →
    ∃ d, exec (.arbEyeScan w k) s = .next { s with chip := d } ∧
      lookupKey d.arb.cmds k = some { op := 4 } ∧ d.reg (Reg.ARB.CSTAT k) = BitVec.ofNat 32 (2 ^ 31 + s.chip.fldOf (Reg.ARB.CSTAT k) 11 8 * 2 ^ 8 + 4) ∧
      s.chip.keeps d [Reg.ARB.CSTAT k] ∧ d = { s.chip with regs := d.regs, arb := d.arb }) ∧
  (∀ (s : State) (w k : Nat), 
    s.chip.passes .running = true →
    k < 4 ∧ s.chip.accepts w (Reg.ARB.CMD k) = true ∧ s.chip.bitOf (Reg.ARB.CSTAT k) 31 = false ∧ s.chip.arbState ≠ 3 →
    ∃ d, exec (.arbMka w k) s = .next { s with chip := d } ∧
      lookupKey d.arb.cmds k = some { op := 5 } ∧ d.reg (Reg.ARB.CSTAT k) = BitVec.ofNat 32 (2 ^ 31 + s.chip.fldOf (Reg.ARB.CSTAT k) 11 8 * 2 ^ 8 + 5) ∧
      s.chip.keeps d [Reg.ARB.CSTAT k] ∧ d = { s.chip with regs := d.regs, arb := d.arb }) ∧
  (∀ (s : State) (w k : Nat), 
    s.chip.passes .running = true →
    k < 4 ∧ s.chip.accepts w (Reg.ARB.CMD k) = true ∧ s.chip.bitOf (Reg.ARB.CSTAT k) 31 = true →
    ∃ d, exec (.arbPing w k) s = .next { s with chip := d } ∧
      d.bitOf (hErr 0x090) 7 = true ∧ d.arb = s.chip.arb ∧ s.chip.keeps d [hErr 0x090, hIrqStat 0x090]) ∧
  (∀ (s : State) (w k : Nat), 
    s.chip.passes .running = true →
    k < 4 ∧ s.chip.accepts w (Reg.ARB.CMD k) = true ∧ s.chip.bitOf (Reg.ARB.CSTAT k) 31 = false ∧ s.chip.arbState = 3 →
    ∃ d, exec (.arbPing w k) s = .next { s with chip := d } ∧
      d.reg (Reg.ARB.CSTAT k) = BitVec.ofNat 32 (6 * 2 ^ 8 + 1) ∧ d.bitOf (hIrqStat 0x090) (2 * k + 1) = true ∧ s.chip.keeps d [Reg.ARB.CSTAT k, hIrqStat 0x090]) ∧
  (∀ (s : State) (k e : Nat), 
    s.chip.passes .recovery = true →
    k < 4 ∧ lookupKey s.chip.arb.cmds k = some { op := 1 } ∧ s.chip.arbRunning = true →
    ∃ d, exec (.arbCommandDone k e) s = .next { s with chip := d } ∧
      lookupKey d.arb.cmds k = none ∧ d.reg (Reg.ARB.CSTAT k) = BitVec.ofNat 32 (2 ^ 8 + 1) ∧ d.bitOf (hIrqStat 0x090) (2 * k) = true ∧
      d.reg (Reg.ARB.RSP k 0) = s.chip.reg Reg.ARB.FW_VER ∧ d.reg (Reg.ARB.RSP k 1) = s.chip.reg Reg.ARB.HEARTBEAT ∧
      (List.range 6).all (fun j => d.reg (Reg.ARB.RSP k (j + 2)) == 0) = true ∧ d = { s.chip with regs := d.regs, out := d.out, pba := d.pba, arb := d.arb }) ∧
  (∀ (s : State) (k e : Nat), 
    s.chip.passes .recovery = true →
    k < 4 ∧ lookupKey s.chip.arb.cmds k = some { op := 4 } ∧ s.chip.arbRunning = true ∧ (s.chip.reg (Reg.ARB.ARG k 0)).toNat < 48 →
    ∃ d, exec (.arbCommandDone k e) s = .next { s with chip := d } ∧
      lookupKey d.arb.cmds k = none ∧ d.reg (Reg.ARB.CSTAT k) = BitVec.ofNat 32 (2 * 2 ^ 8 + 4) ∧ d.bitOf (hIrqStat 0x090) (2 * k + 1) = true ∧
      d.score = s.chip.score ∧ d = { s.chip with regs := d.regs, out := d.out, pba := d.pba, arb := d.arb }) ∧
  (∀ (s : State) (c v : Nat), 
    s.chip.passes .running = true →
    c < 24 ∧ lookupKey s.chip.arb.sampled c = none ∧ v < 65536 ∧ s.chip.bitOf Reg.SENS.CTRL 0 = false →
    ∃ d, exec (.sensSample c v) s = .next { s with chip := d } ∧
      d.fldOf (Reg.SENS.VAL c) 15 0 = v) ∧
  (∀ (s : State) (l : List Nat), 
    s.chip.passes .running = true →
    s.chip.fldOf Reg.SENS.EYE_CFG 31 16 ≠ 0 ∧ s.chip.arbRunning = true ∧ s.chip.arb.eyeAt + s.chip.fldOf Reg.SENS.EYE_CFG 31 16 * fsSec ≤ s.chip.now →
    s.chip.fldOf Reg.SENS.EYE_CFG 15 0 = 0 →
    ∃ d, exec (.eyeScanPeriodic l) s = .next { s with chip := d } ∧
      d.arb.eyeAt = s.chip.now) ∧
  (∀ (s : State) (e : ScoreEntry) (rest : List ScoreEntry) (i q : Nat), 
    s.chip.passes .running = true →
    s.chip.bitOf Reg.MEM.RET_STAT 0 = false ∧ s.chip.score.queue = e :: rest ∧ i = s.chip.fldOf Reg.SCORE.WR_IDX 12 0 →
    q = (if s.chip.reg Reg.SCORE.LAST_SEQ = 0xFFFFFFFF then 1 else (s.chip.reg Reg.SCORE.LAST_SEQ).toNat + 1) →
    ∃ d, exec .scoreEntryWrite s = .next { s with chip := d } ∧
      sget {} d.score.ring i = { e with seq := q, loss := e.loss || s.chip.score.lossNext } ∧ d.score.queue = rest) ∧
  (∀ (s : State), 
    s.chip.passes .running = true →
    s.chip.arbRunning = true ∧ s.chip.flushDue = true ∧ s.chip.unflushed = [] →
    ∃ d, exec .scoreFlush s = .next { s with chip := d } ∧
      d.reg Reg.SCORE.FLUSHED_SEQ = s.chip.reg Reg.SCORE.LAST_SEQ) ∧
  (∀ (s : State) (seen : Bool), 
    s.chip.passes .running = true →
    s.chip.implemented 0x091 = true ∧ s.chip.held 0x091 = false →
    ∃ d, exec (.ent7Read (s.chip.owner 0x091) seen) s = .next { s with chip := d } ∧
      d.fldOf Reg.SCORE.CURSOR 12 0 = (s.chip.fldOf Reg.SCORE.CURSOR 12 0 + 1) % 8192)

/-- SENS_SAMPLE of a channel that is due stores VAL and widens MINMAX; above HI it sets FIRED and LIVE, alarms and logs. EYE_SCAN_PERIODIC stores the measured eye of the SerDes squares with a link. SCORE_ENTRY_WRITE puts the oldest queued entry with the next SEQ into the ring at WR_IDX, which moves on modulo 8,192, and raises its source from SEV_IRQ on. SCORE_FLUSH when due with nothing unflushed sets FLUSHED_SEQ to LAST_SEQ. ENT7_READ by the owner moves CURSOR on modulo 8,192 and echoes the word. -/
def Obligations.SensorAndScoresheetCommands : Prop :=
  (∀ (s : State) (c v : Nat), 
    s.chip.passes .running = true →
    c < 24 ∧ lookupKey s.chip.arb.sampled c = none ∧ v < 65536 ∧ s.chip.bitOf Reg.SENS.CTRL 0 = false →
    ∃ d, exec (.sensSample c v) s = .next { s with chip := d } ∧
      d.fldOf (Reg.SENS.VAL c) 15 0 = v ∧
      d.s16 (Reg.SENS.MINMAX c) 31 = max (s.chip.s16 (Reg.SENS.MINMAX c) 31) (BitVec.ofNat 16 v).toInt ∧
      d.s16 (Reg.SENS.MINMAX c) 15 = min (s.chip.s16 (Reg.SENS.MINMAX c) 15) (BitVec.ofNat 16 v).toInt ∧
      lookupKey d.arb.sampled c = some s.chip.now ∧ s.chip.keeps d [Reg.SENS.VAL c, Reg.SENS.MINMAX c] ∧ d = { s.chip with regs := d.regs, arb := d.arb }) ∧
  (∀ (s : State) (c v : Nat), 
    s.chip.passes .running = true →
    c < 24 ∧ lookupKey s.chip.arb.sampled c = none ∧ v < 65536 ∧ s.chip.bitOf Reg.SENS.CTRL 0 = true ∧ sget 0 s.chip.arb.side c = 0 →
    s.chip.s16 (Reg.SENS.LIM c) 31 < (BitVec.ofNat 16 v).toInt ∧ s.chip.s16 (Reg.SENS.LIM c) 15 ≤ (BitVec.ofNat 16 v).toInt →
    ∃ d, exec (.sensSample c v) s = .next { s with chip := d } ∧
      d.fldOf (Reg.SENS.VAL c) 15 0 = v ∧ d.bitOf Reg.SENS.FIRED c = true ∧ d.bitOf Reg.SENS.LIVE c = true ∧ sget 0 d.arb.side c = 2 ∧
      d.bitOf (hIrqStat 0x092) 0 = true ∧ d.bitOf Reg.GLB.ALARM_STAT 10 = true ∧ (s.chip.score.queue.length < 64 → s.chip.scoreFresh = true → d.score.queue.map (fun e => (e.code, e.sev)) = s.chip.score.queue.map (fun e => (e.code, e.sev)) ++ [(0x0020, 2)])) ∧
  (∀ (s : State) (l : List Nat), 
    s.chip.passes .running = true →
    s.chip.fldOf Reg.SENS.EYE_CFG 31 16 ≠ 0 ∧ s.chip.arbRunning = true ∧ s.chip.arb.eyeAt + s.chip.fldOf Reg.SENS.EYE_CFG 31 16 * fsSec ≤ s.chip.now →
    s.chip.fldOf Reg.SENS.EYE_CFG 15 0 = 0 →
    ∃ d, exec (.eyeScanPeriodic l) s = .next { s with chip := d } ∧
      (List.range 16).all (fun i => d.reg (Reg.SDS.EYE (48 + i)) == (if s.chip.bitOf (Reg.ETH.STATUS (48 + i)) 0 then BitVec.ofNat 32 (l.getD i 0) else s.chip.reg (Reg.SDS.EYE (48 + i)))) = true ∧
      d.arb.eyeAt = s.chip.now ∧ s.chip.keeps d ((List.range 16).map fun i => Reg.SDS.EYE (48 + i)) ∧ d = { s.chip with regs := d.regs, arb := d.arb }) ∧
  (∀ (s : State) (e : ScoreEntry) (rest : List ScoreEntry) (i q : Nat), 
    s.chip.passes .running = true →
    s.chip.bitOf Reg.MEM.RET_STAT 0 = false ∧ s.chip.score.queue = e :: rest ∧ i = s.chip.fldOf Reg.SCORE.WR_IDX 12 0 →
    q = (if s.chip.reg Reg.SCORE.LAST_SEQ = 0xFFFFFFFF then 1 else (s.chip.reg Reg.SCORE.LAST_SEQ).toNat + 1) →
    ∃ d, exec .scoreEntryWrite s = .next { s with chip := d } ∧
      sget {} d.score.ring i = { e with seq := q, loss := e.loss || s.chip.score.lossNext } ∧ d.score.queue = rest ∧
      d.fldOf Reg.SCORE.WR_IDX 12 0 = (i + 1) % 8192 ∧ d.reg Reg.SCORE.LAST_SEQ = BitVec.ofNat 32 q ∧
      (s.chip.fldOf Reg.SCORE.SEV_IRQ 2 0 ≤ e.sev → d.bitOf (hIrqStat 0x091) 2 = true)) ∧
  (∀ (s : State), 
    s.chip.passes .running = true →
    s.chip.arbRunning = true ∧ s.chip.flushDue = true ∧ s.chip.unflushed = [] →
    ∃ d, exec .scoreFlush s = .next { s with chip := d } ∧
      d.reg Reg.SCORE.FLUSHED_SEQ = s.chip.reg Reg.SCORE.LAST_SEQ ∧ d.score.lastFlush = s.chip.now ∧ d.score.archive = s.chip.score.archive ∧
      s.chip.keeps d [Reg.SCORE.FLUSHED_SEQ] ∧ d = { s.chip with regs := d.regs, score := d.score }) ∧
  (∀ (s : State) (e : ScoreEntry), 
    s.chip.passes .running = true →
    s.chip.arbRunning = true ∧ s.chip.flushDue = true ∧ s.chip.unflushed = [e] ∧ s.chip.score.archPage = none ∧ e.seq ≠ 0 →
    ∃ d, exec .scoreFlush s = .next { s with chip := d } ∧
      d.reg Reg.SCORE.FLUSHED_SEQ = s.chip.reg Reg.SCORE.LAST_SEQ ∧ lookupKey d.score.archive ((e.seq - 1) % 128) = some e ∧ d.score.archPage = some 0 ∧
      d.reg Reg.XSPI.ERASES = sat32 ((s.chip.reg Reg.XSPI.ERASES).toNat + 1)) ∧
  (∀ (s : State) (seen : Bool), 
    s.chip.passes .running = true →
    s.chip.implemented 0x091 = true ∧ s.chip.held 0x091 = false →
    ∃ d, exec (.ent7Read (s.chip.owner 0x091) seen) s = .next { s with chip := d } ∧
      d.fldOf Reg.SCORE.CURSOR 12 0 = (s.chip.fldOf Reg.SCORE.CURSOR 12 0 + 1) % 8192 ∧
      d.reg (hEchoData 0x091) = BitVec.ofNat 32 (leAt (sget ({} : ScoreEntry) s.chip.score.ring (s.chip.fldOf Reg.SCORE.CURSOR 12 0)).bytes 28 4) ∧
      s.chip.keeps d [Reg.SCORE.CURSOR, hEchoData 0x091, hEchoAddr 0x091, hErr 0x091, hIrqStat 0x091] ∧
      d = { s.chip with regs := d.regs, out := d.out, pba := d.pba, echoUnread := d.echoUnread })

/-- FUNCTION_LEVEL_RESET of an endpoint without semaphores puts its HDMA page back at reset but for STATUS and the header, and forgets its requests that were not sent and its vectors' masks and pending bits; PERST_ASSERT also takes the link down and holds it, PERST_N_RELEASE lets it train, PCIE_LINK_UP shows width and speed, DL_DOWN notes the time. HDMA_TX_TAIL_WRITE stores the tail. HDMA_TX_FETCH of the ring served next counts a record that passes in TX_RECORDS and one that a check stops in TX_ERR; its DONE_WORD, when it is not held, is written to host memory, moves the head on and signals. HDMA_RX_DELIVER drops and counts what an unattached host cannot take, and otherwise writes the copy to host memory and moves RX_HEAD on. RX_IRQ_TIMER signals the pending completions. -/
def Obligations.HostLinkAndRingCommands : Prop :=
  (∀ (s : State) (k : Nat), 
    s.chip.passes .recovery = true →
    k < 4 ∧ s.chip.host.sems.all (fun e => e.2.part != k) = true →
    ∃ d, exec (.functionLevelReset k) s = .next { s with chip := d } ∧
      d.host.brg = s.chip.host.brg.filter (fun r => !(decide (r.ep = k) && decide (r.stage = 0))) ∧
      d.reg (Reg.HDMA.CTRL k) = resetOf (Reg.HDMA.CTRL k) ∧ d.reg (Reg.HDMA.STATUS k) = s.chip.reg (Reg.HDMA.STATUS k) ∧
      (List.range 32).all (fun t => d.reg (Reg.HDMA.TX_TAIL k t) == 0 && d.reg (Reg.HDMA.RX_TAIL k t) == 0) = true ∧
      d.owner (0x0C0 + k) = s.chip.owner (0x0C0 + k) ∧ d.host.sems = s.chip.host.sems ∧ d.fab = s.chip.fab ∧
      d.pba = s.chip.pba.filter (fun e => e.1 != k && d.activeVecs.contains e) ∧ d.part k = { s.chip.part k with unmasked := [] } ∧
      d = { s.chip with regs := d.regs, host := d.host, pba := d.pba, parts := d.parts }) ∧
  (∀ (s : State) (k : Nat), 
    s.chip.passes .recovery = true →
    k < 4 ∧ s.chip.host.sems.all (fun e => e.2.part != k) = true →
    ∃ d, exec (.perstAssert k) s = .next { s with chip := d } ∧
      (d.part k).linkUp = false ∧ (d.part k).perst = true ∧ d.reg (Reg.HDMA.STATUS k) = 0 ∧ d.reg (Reg.HDMA.CTRL k) = resetOf (Reg.HDMA.CTRL k) ∧
      d.pba = s.chip.pba.filter (fun e => e.1 != k && d.activeVecs.contains e) ∧ (d.part k).unmasked = [] ∧
      d = { s.chip with regs := d.regs, host := d.host, pba := d.pba, parts := d.parts }) ∧
  (∀ (s : State) (k : Nat), 
    s.chip.passes .recovery = true →
    k < 4 →
    exec (.perstNRelease k) s = .next { s with chip := s.chip.setPart k { s.chip.part k with perst := false } }) ∧
  (∀ (s : State) (k w g : Nat), 
    s.chip.passes .recovery = true →
    k < 4 ∧ (s.chip.part k).perst = false ∧ (s.chip.part k).linkUp = false ∧ s.chip.bitOf (Reg.PART.SEAT k) 31 = false ∧ 1 ≤ w ∧ w ≤ 2 ∧ 1 ≤ g ∧ g ≤ 4 →
    ∃ d, exec (.pcieLinkUp k w g) s = .next { s with chip := d } ∧
      (d.part k).linkUp = true ∧ (d.part k).absentSince = none ∧ d.reg (Reg.HDMA.STATUS k) = BitVec.ofNat 32 (2 ^ 16 + w * 2 ^ 8 + g) ∧
      s.chip.keeps d [Reg.HDMA.STATUS k] ∧ d = { s.chip with regs := d.regs, parts := d.parts, out := d.out, pba := d.pba }) ∧
  (∀ (s : State) (k : Nat), 
    s.chip.passes .recovery = true →
    k < 4 →
    ∃ d, exec (.dlDown k) s = .next { s with chip := d } ∧
      (d.part k).linkUp = false ∧ d.reg (Reg.HDMA.STATUS k) = 0 ∧
      ((s.chip.part k).linkUp = true → (d.part k).absentSince = some s.chip.now) ∧
      s.chip.keeps d [Reg.HDMA.STATUS k] ∧ d = { s.chip with regs := d.regs, parts := d.parts }) ∧
  (∀ (s : State) (w k t : Nat) (v : Word), 
    s.chip.passes .running = true →
    k < 4 ∧ t < 32 ∧ s.chip.accepts w (Reg.HDMA.TX_TAIL k t) = true →
    ∃ d, exec (.hdmaTxTailWrite w k t v 0xF) s = .next { s with chip := d } ∧
      d.fldOf (Reg.HDMA.TX_TAIL k t) 11 0 = v.toNat % 2 ^ 12 ∧ s.chip.keeps d [Reg.HDMA.TX_TAIL k t] ∧ d = { s.chip with regs := d.regs }) ∧
  (∀ (s : State) (k t n e : Nat) (desc rcd : List Byte) (err : Bool), 
    s.chip.passes .running = true →
    s.chip.hdmaOn k = true ∧ s.chip.txRingNext k = some t ∧ s.chip.txRing k t = some n ∧ lookupKey s.chip.host.done k = none →
    e = s.chip.txCheck k desc rcd err ∧ 1 ≤ e ∧ e ≤ 3 →
    ∃ d, exec (.hdmaTxFetch k desc rcd err) s = .next { s with chip := d } ∧
      d.reg (Reg.HDMA.TX_ERR k t) = sat32 ((s.chip.reg (Reg.HDMA.TX_ERR k t)).toNat + 1) ∧ d.bitOf (hIrqStat (0x0C0 + k)) 1 = true ∧
      lookupKey d.host.done k = some { ring := t, size := n, status := e, stamp := 0 } ∧
      d.reg (Reg.HDMA.TX_RECORDS k) = s.chip.reg (Reg.HDMA.TX_RECORDS k) ∧ d.fab = s.chip.fab) ∧
  (∀ (s : State) (k t n : Nat) (desc rcd : List Byte), 
    s.chip.passes .running = true →
    s.chip.hdmaOn k = true ∧ s.chip.txRingNext k = some t ∧ s.chip.txRing k t = some n ∧ t < 32 ∧ lookupKey s.chip.host.done k = none →
    s.chip.txCheck k desc rcd false = 0 ∧ leAt desc 11 1 = 0 →
    ∃ d, exec (.hdmaTxFetch k desc rcd false) s = .next { s with chip := d } ∧
      d.reg (Reg.HDMA.TX_RECORDS k) = sat32 ((s.chip.reg (Reg.HDMA.TX_RECORDS k)).toNat + 1) ∧ lookupKey d.host.done k = some { ring := t, size := n, status := 0, stamp := s.chip.ns } ∧ sget 31 d.host.txLast (4 * k + s.chip.fldOf (Reg.HDMA.TX_CFG k t) 9 8) = t) ∧
  (∀ (c : Chip) (k h : Nat) (x : HdmaDone), 
    c.host.done = [(k, x)] ∧ k < 4 ∧ c.itemHeld true k = false ∧ c.hdmaOn k = true ∧ x.ring < 32 ∧ 0 < x.size ∧ x.size ≤ 4096 →
    h = c.fldOf (Reg.HDMA.TX_HEAD k x.ring) 11 0 →
    c.dmaRelease.host.done = [] ∧ c.dmaRelease.fldOf (Reg.HDMA.TX_HEAD k x.ring) 11 0 = (h + 1) % x.size ∧
      c.dmaRelease.bitOf (Reg.HDMA.TX_IRQ k) x.ring = true ∧
      ((c.dmaRelease.out.drop c.out.length).head?.map (fun e => (e.kind, e.unit, bytesAt e.data 0 4))) = some (.hostWrite, k, bytesLE 4 (2 ^ 31 + x.status * 2 ^ 16))) ∧
  (∀ (s : State) (p : Nat) (desc : List Byte), 
    s.chip.passes .running = true →
    p < 4 ∧ s.chip.hdmaOn p = false →
    ∃ d, exec (.hdmaRxDeliver p desc) s = .next { s with chip := d } ∧
      d.fab.copies = s.chip.fab.copies.filter (fun k => !(k.appended && decide (k.output = 64 + p))) ∧
      d.reg (Reg.HDMA.UNATTACHED_DROP p) = sat32 ((s.chip.reg (Reg.HDMA.UNATTACHED_DROP p)).toNat + (s.chip.fab.copies.filter (fun k => k.appended && decide (k.output = 64 + p))).length)) ∧
  (∀ (s : State) (p n : Nat) (desc : List Byte) (k : Copy), 
    s.chip.passes .running = true →
    s.chip.hdmaOn p = true ∧ s.chip.itemHeld true p = false ∧ s.chip.fab.copies = [k] ∧ k.appended = true ∧ k.output = 64 + p ∧ k.cls < 8 ∧ k.ready = true →
    s.chip.residenceOver k = false ∧ s.chip.rxRing p k.ring = some n ∧ k.discarded = false ∧ k.ring < 32 →
    ∃ d, exec (.hdmaRxDeliver p desc) s = .next { s with chip := d } ∧
      d.fab.copies = [] ∧ d.reg (Reg.HDMA.RX_COPIES p) = sat32 ((s.chip.reg (Reg.HDMA.RX_COPIES p)).toNat + 1) ∧ d.fldOf (Reg.HDMA.RX_HEAD p k.ring) 11 0 = (s.chip.fldOf (Reg.HDMA.RX_HEAD p k.ring) 11 0 + 1) % n ∧
      (0 < min k.data.length (leAt desc 8 2) → (d.out.drop s.chip.out.length).head? = some { kind := .hostWrite, unit := p, arg := leAt desc 0 8, data := k.data.take (leAt desc 8 2) })) ∧
  (∀ (s : State) (k r : Nat) (p : RxPend), 
    s.chip.passes .running = true →
    k < 4 ∧ r < 32 ∧ p = sget {} s.chip.host.rx (32 * k + r) ∧ p.count ≠ 0 ∧ p.since + s.chip.fldOf (Reg.HDMA.RX_CFG k r) 31 16 * fsUs ≤ s.chip.now →
    ∃ d, exec (.rxIrqTimer k r) s = .next { s with chip := d } ∧
      d.bitOf (Reg.HDMA.RX_IRQ k) r = true ∧ sget {} d.host.rx (32 * k + r) = {} ∧ s.chip.keeps d [Reg.HDMA.RX_IRQ k] ∧
      d = { s.chip with regs := d.regs, out := d.out, pba := d.pba, host := d.host })

/-- A BAR4 access of an attached endpoint to a mapped window that is not FAULTED takes the lowest tag and is in flight, an AtomicOp with the window's semaphore at its LOCK step; an unmapped read completes with Unsupported Request. A response completes the read with its data, or makes the window of a failed posted write FAULTED with a WERR entry. BRIDGE_TAG_TIMEOUT of a read counts it and completes with Completer Abort; BRIDGE_BUSY_RETRY sends again. A read of SEM by the window's owner takes a free semaphore and reads 1, or 0 where it is held; SEM_RELEASE and SEM_HOLD_TIMEOUT give it back; SEM_LEASE_RENEW notes the time. WERR_POP pops the oldest entry. -/
def Obligations.BridgeCommandsComplete : Prop :=
  (∀ (s : State) (k off n : Nat), 
    s.chip.passes .running = true →
    k < 4 ∧ (s.chip.part k).linkUp = true ∧ s.chip.winMapped k off n = true ∧ s.chip.faulted (off / 2 ^ 24) = false ∧ s.chip.host.brg = [] ∧ 1 ≤ n ∧ n ≤ 512 →
    ∃ d, exec (.bar4Read k off n) s = .next { s with chip := d } ∧
      d.host.brg = [{ win := off / 2 ^ 24, ep := k, write := false, off := off % 2 ^ 24, len := n, tag := 0, stage := 1, since := s.chip.now }] ∧
      d.host.sems = s.chip.host.sems ∧ d.host.werr = s.chip.host.werr) ∧
  (∀ (s : State) (k off n : Nat), 
    s.chip.passes .running = true →
    k < 4 ∧ (s.chip.part k).linkUp = true ∧ s.chip.winMapped k off n = false ∧ 1 ≤ n ∧ n ≤ 512 →
    ∃ d, exec (.bar4Read k off n) s = .next { s with chip := d } ∧
      d = { s.chip with out := d.out } ∧ (d.out.drop s.chip.out.length).head? = some { kind := .hostDone, unit := k, arg := 1 }) ∧
  (∀ (s : State) (k off n : Nat) (b : List Byte), 
    s.chip.passes .running = true →
    k < 4 ∧ (s.chip.part k).linkUp = true ∧ s.chip.winMapped k off n = true ∧ s.chip.faulted (off / 2 ^ 24) = false ∧ s.chip.host.brg = [] ∧ n = b.length ∧ 1 ≤ n ∧ n ≤ 256 →
    ∃ d, exec (.bar4Write k off b) s = .next { s with chip := d } ∧
      d.host.brg = [{ win := off / 2 ^ 24, ep := k, write := true, off := off % 2 ^ 24, len := n, data := b, tag := 0, stage := 1, since := s.chip.now }]) ∧
  (∀ (s : State) (k off n op a b : Nat), 
    s.chip.passes .running = true →
    k < 4 ∧ (s.chip.part k).linkUp = true ∧ s.chip.winMapped k off n = true ∧ s.chip.faulted (off / 2 ^ 24) = false ∧ s.chip.host.brg = [] ∧ op ≤ 2 ∧ (n = 4 ∨ n = 8) ∧ lookupKey s.chip.host.sems (off / 2 ^ 24) = none →
    ∃ d, exec (.bar4AtomicOp k off op n a b) s = .next { s with chip := d } ∧
      d.host.brg = [{ win := off / 2 ^ 24, ep := k, write := true, off := off % 2 ^ 24, len := n, tag := 0, stage := 1, since := s.chip.now, atomic := some { op := op, a := a, b := b, step := 1 } }] ∧
      lookupKey d.host.sems (off / 2 ^ 24) = some { part := 4, since := s.chip.now, renewed := s.chip.now }) ∧
  (∀ (s : State) (m : BnlReq) (r : BrgReq), 
    s.chip.passes .running = true →
    s.chip.host.responses = [m] ∧ s.chip.host.brg = [r] ∧ r.stage = 1 ∧ r.atomic = none ∧ r.write = false ∧ r.win < 16 ∧ r.tag < 64 →
    m.tag = r.win * 64 + r.tag ∧ m.typ = 0x90 ∧ leAt m.body 0 1 = 0 →
    ∃ d, exec .bnlResponseReceived s = .next { s with chip := d } ∧
      d.host.brg = [] ∧ d.host.responses = [] ∧ (d.out.drop s.chip.out.length).head? = some { kind := .hostDone, unit := r.ep, arg := 0, data := bytesAt m.body 4 r.len } ∧
      d = { s.chip with out := d.out, host := d.host }) ∧
  (∀ (s : State) (m : BnlReq) (r : BrgReq) (e : Nat), 
    s.chip.passes .running = true →
    s.chip.host.responses = [m] ∧ s.chip.host.brg = [r] ∧ r.stage = 1 ∧ r.atomic = none ∧ r.write = true ∧ r.win < 16 ∧ r.tag < 64 →
    m.tag = r.win * 64 + r.tag ∧ m.typ = 0x91 ∧ e = leAt m.body 0 1 ∧ e ≠ 0 ∧ e ≠ 4 ∧ s.chip.host.werr.length < 16 →
    ∃ d, exec .bnlResponseReceived s = .next { s with chip := d } ∧
      d.host.brg = [] ∧ d.faulted r.win = true ∧ d.bitOf (hIrqStat 0x0B0) r.win = true ∧
      d.host.werr.map (fun x => (x.kind, x.win, x.status, x.tag, x.off)) = s.chip.host.werr.map (fun x => (x.kind, x.win, x.status, x.tag, x.off)) ++ [(1, r.win, e, r.tag, r.off)]) ∧
  (∀ (s : State) (w t : Nat) (r : BrgReq), 
    s.chip.passes .running = true →
    s.chip.host.brg = [r] ∧ r.stage = 1 ∧ r.win = w ∧ r.tag = t ∧ r.atomic = none ∧ r.write = false ∧ r.since + s.chip.brgTimeout ≤ s.chip.now →
    ∃ d, exec (.bridgeTagTimeout w t) s = .next { s with chip := d } ∧
      d.host.brg = [] ∧ d.reg Reg.BRG.TIMEOUTS = sat32 ((s.chip.reg Reg.BRG.TIMEOUTS).toNat + 1) ∧ d.reg Reg.BRG.CA_CNT = sat32 ((s.chip.reg Reg.BRG.CA_CNT).toNat + 1) ∧ (d.out.drop s.chip.out.length).head? = some { kind := .hostDone, unit := r.ep, arg := 4 } ∧ d.faulted w = s.chip.faulted w) ∧
  (∀ (s : State) (w t : Nat) (r : BrgReq), 
    s.chip.passes .running = true →
    s.chip.host.brg = [r] ∧ r.stage = 2 ∧ r.win = w ∧ r.tag = t ∧ r.retryAt ≤ s.chip.now →
    ∃ d, exec (.bridgeBusyRetry w t) s = .next { s with chip := d } ∧
      d.host.brg = [{ r with stage := 1 }] ∧ d.host.sems = s.chip.host.sems) ∧
  (∀ (s : State) (k w : Nat) (seen : Bool), 
    s.chip.passes .running = true →
    w < 16 ∧ (lookupKey s.chip.inReset 0x0B0).isNone = true ∧ s.chip.winOwner w = k ∧ lookupKey s.chip.host.sems w = none →
    ∃ d, exec (.semAcquireRead k w seen) s = .next { s with chip := d } ∧
      lookupKey d.host.sems w = some { part := k, since := s.chip.now, renewed := s.chip.now } ∧ d.reg (hEchoData 0x0B0) = 1) ∧
  (∀ (s : State) (k w : Nat) (seen : Bool) (h : SemHold), 
    s.chip.passes .running = true →
    w < 16 ∧ (lookupKey s.chip.inReset 0x0B0).isNone = true ∧ s.chip.winOwner w = k ∧ lookupKey s.chip.host.sems w = some h →
    ∃ d, exec (.semAcquireRead k w seen) s = .next { s with chip := d } ∧
      d.host = s.chip.host ∧ d.reg (hEchoData 0x0B0) = 0 ∧ s.chip.keeps d [hEchoData 0x0B0, hEchoAddr 0x0B0, hErr 0x0B0, hIrqStat 0x0B0]) ∧
  (∀ (s : State) (k w : Nat) (h : SemHold), 
    s.chip.passes .running = true →
    w < 16 ∧ (lookupKey s.chip.inReset 0x0B0).isNone = true ∧ s.chip.winOwner w = k ∧ lookupKey s.chip.host.sems w = some h ∧ h.part = k ∧ s.chip.host.brg = [] →
    ∃ d, exec (.semRelease k w) s = .next { s with chip := d } ∧
      lookupKey d.host.sems w = none ∧ d.host.brg = [] ∧ d.faulted w = s.chip.faulted w) ∧
  (∀ (s : State) (w : Nat) (h : SemHold), 
    s.chip.passes .running = true →
    lookupKey s.chip.host.sems w = some h ∧ h.part ≠ 4 ∧ h.renewed + 500 * fsUs ≤ s.chip.now →
    ∃ d, exec (.semLeaseRenew w) s = .next { s with chip := d } ∧
      lookupKey d.host.sems w = some { h with renewed := s.chip.now }) ∧
  (∀ (s : State) (w : Nat) (h : SemHold), 
    s.chip.passes .running = true →
    lookupKey s.chip.host.sems w = some h ∧ h.part ≠ 4 ∧ h.since + s.chip.fldOf Reg.BRG.SEM_HOLD 15 0 * fsUs ≤ s.chip.now ∧ s.chip.host.brg = [] →
    ∃ d, exec (.semHoldTimeout w) s = .next { s with chip := d } ∧
      lookupKey d.host.sems w = none ∧ d.bitOf (hIrqStat 0x0B0) 17 = true) ∧
  (∀ (s : State) (e : WErr) (rest : List WErr) (seen : Bool), 
    s.chip.passes .running = true →
    s.chip.host.werr = e :: rest ∧ s.chip.implemented 0x0B0 = true ∧ s.chip.held 0x0B0 = false →
    ∃ d, exec (.werrPop (s.chip.owner 0x0B0) seen) s = .next { s with chip := d } ∧
      d.host.werr = rest ∧ d.bitOf (hEchoData 0x0B0) 31 = true ∧ d.fldOf (hEchoData 0x0B0) 27 24 = e.win % 16 ∧ d.fldOf (hEchoData 0x0B0) 30 28 = e.kind % 8 ∧
      d.reg Reg.BRG.WERR_ADDR = BitVec.ofNat 32 e.off ∧ s.chip.keeps d [Reg.BRG.WERR_ADDR, Reg.BRG.WERR_TIME, hEchoData 0x0B0, hEchoAddr 0x0B0, hErr 0x0B0, hIrqStat 0x0B0])

/-- BNL_MESSAGE_RECEIVED takes a diverted frame: dropped without a token, RX_BAD_MSG where it is too short, RX_BAD_TAG where the tag is wrong, else RX_OK, the sender's highest SEQ, and the request joins the agent's queue. An unknown Arbiter OP is answered BAD_CMD, a known one with its result and response words; CX_JOB becomes a job or is answered UNAVAILABLE; GAMBIT with OP 0 answers its status; SCORE_READ for the supervisor's partition answers the entries. -/
def Obligations.BenolsiaMessagesAndRequests : Prop :=
  (∀ (s : State) (k : Copy), 
    s.chip.passes .running = true →
    s.chip.fab.copies = [k] ∧ k.appended = true ∧ k.output = 70 ∧ k.kind = .eth ∧ k.mirror = false ∧ k.arrived = k.cells ∧ k.cls < 8 ∧ s.chip.residenceOver k = false →
    s.chip.bnlLevel.tokens < oneToken →
    ∃ d, exec .bnlMessageReceived s = .next { s with chip := d } ∧
      d.fab.copies = [] ∧ d.reg Reg.BNL.RX_RATE_DROP = sat32 ((s.chip.reg Reg.BNL.RX_RATE_DROP).toNat + 1) ∧ d.reg Reg.BNL.RX_OK = s.chip.reg Reg.BNL.RX_OK ∧ d.host.agent = s.chip.host.agent) ∧
  (∀ (s : State) (k : Copy), 
    s.chip.passes .running = true →
    s.chip.fab.copies = [k] ∧ k.appended = true ∧ k.output = 70 ∧ k.kind = .eth ∧ k.mirror = false ∧ k.arrived = k.cells ∧ k.cls < 8 ∧ s.chip.residenceOver k = false →
    oneToken ≤ s.chip.bnlLevel.tokens ∧ ((frameBytes k.data).drop (bnlOffset (frameBytes k.data))).length < 32 →
    ∃ d, exec .bnlMessageReceived s = .next { s with chip := d } ∧
      d.fab.copies = [] ∧ d.reg Reg.BNL.RX_BAD_MSG = sat32 ((s.chip.reg Reg.BNL.RX_BAD_MSG).toNat + 1) ∧ d.reg Reg.BNL.RX_OK = s.chip.reg Reg.BNL.RX_OK ∧ d.host.agent = s.chip.host.agent) ∧
  (∀ (s : State) (k : Copy) (m : List Byte) (n : Nat) (key : SaInst), 
    s.chip.passes .running = true →
    s.chip.fab.copies = [k] ∧ k.appended = true ∧ k.output = 70 ∧ k.kind = .eth ∧ k.mirror = false ∧ k.arrived = k.cells ∧ k.cls < 8 ∧ s.chip.residenceOver k = false →
    oneToken ≤ s.chip.bnlLevel.tokens ∧ m = (frameBytes k.data).drop (bnlOffset (frameBytes k.data)) ∧ 32 + beAt m 12 2 ≤ m.length →
    leAt m 0 1 = 1 ∧ beAt m 12 2 ≤ 1024 ∧ agentTypes.contains (leAt m 1 1) = true ∧ leAt m 14 1 = 0 →
    s.chip.bnlPeer (beAt m 2 2) = some n ∧ beAt m 4 2 = s.chip.fldOf Reg.BNL.GWID 15 0 ∧ lookupKey s.chip.host.bnlKeys 0 = some key →
    sget 0 s.chip.host.peerKey n = 1 ∧ (s.chip.reg (Reg.BNL.PEER_SEQ n)).toNat < beAt m 8 4 ∧ s.chip.arbRunning = true →
    ∃ d, exec .bnlMessageReceived s = .next { s with chip := d } ∧
      d.fab.copies = [] ∧
      (Config.gcmTag key.key (m.take 12) (m.take 16) ((m.drop 16).take (beAt m 12 2)) ≠ (m.drop (16 + beAt m 12 2)).take 16 →
        d.reg Reg.BNL.RX_BAD_TAG = sat32 ((s.chip.reg Reg.BNL.RX_BAD_TAG).toNat + 1) ∧ d.host.agent = s.chip.host.agent) ∧
      (Config.gcmTag key.key (m.take 12) (m.take 16) ((m.drop 16).take (beAt m 12 2)) = (m.drop (16 + beAt m 12 2)).take 16 →
        d.reg Reg.BNL.RX_OK = sat32 ((s.chip.reg Reg.BNL.RX_OK).toNat + 1) ∧ d.reg (Reg.BNL.PEER_SEQ n) = BitVec.ofNat 32 (beAt m 8 4) ∧
        d.host.agent.map (fun q => (q.typ, q.peer, q.tag)) = s.chip.host.agent.map (fun q => (q.typ, q.peer, q.tag)) ++ [(leAt m 1 1, n, beAt m 6 2)])) ∧
  (∀ (s : State) (r : BnlReq) (eye : Nat), 
    s.chip.passes .running = true →
    s.chip.serves r 2 = true ∧ r.body.length = 36 ∧ arbKnown (leAt r.body 0 1) = false →
    exec (.bnlArbCmd eye) s = .next { s with chip := s.chip.served.bnlRespond r ([0, 2, 0, 0] ++ List.replicate 32 0) }) ∧
  (∀ (s : State) (r : BnlReq) (eye : Nat) (x : Chip × Nat × List Nat), 
    s.chip.passes .running = true →
    s.chip.serves r 2 = true ∧ r.body.length = 36 ∧ arbKnown (leAt r.body 0 1) = true →
    x = s.chip.served.arbWork (s.chip.peerPart r.peer) (leAt r.body 0 1) ((List.range 8).map fun j => beAt r.body (4 + 4 * j) 4) eye →
    exec (.bnlArbCmd eye) s = .next { s with chip := x.1.bnlRespond r ([0, BitVec.ofNat 8 x.2.1, 0, 0] ++ (List.range 8).flatMap fun j => bytesBE 4 (x.2.2.getD j 0)) }) ∧
  (∀ (s : State) (r : BnlReq), 
    s.chip.passes .running = true →
    s.chip.serves r 3 = true ∧ 36 + beAt r.body 6 2 ≤ r.body.length ∧ s.chip.fab.copies.all (fun k => !(k.appended && k.output == 68)) = true →
    s.chip.cxRoom (s.chip.peerPart r.peer) = true →
    ∃ d, exec .bnlCxJob s = .next { s with chip := d } ∧
      d.cx.jobs.map (fun j => j.bnl) = s.chip.cx.jobs.map (fun j => j.bnl) ++ [some r] ∧ d.host.agent = s.chip.host.agent.tail ∧
      d = { s.chip with cx := d.cx, host := d.host }) ∧
  (∀ (s : State) (r : BnlReq), 
    s.chip.passes .running = true →
    s.chip.serves r 3 = true ∧ 36 + beAt r.body 6 2 ≤ r.body.length ∧ s.chip.fab.copies.all (fun k => !(k.appended && k.output == 68)) = true →
    s.chip.cxRoom (s.chip.peerPart r.peer) = false →
    exec .bnlCxJob s = .next { s with chip := s.chip.served.bnlRespond r [7] }) ∧
  (∀ (s : State) (r : BnlReq), 
    s.chip.passes .running = true →
    s.chip.serves r 4 = true ∧ r.bcast = false ∧ r.body.length = 8 ∧ leAt r.body 0 1 = 0 ∧ beAt r.body 2 2 ≤ 1024 →
    exec .bnlGambit s = .next { s with chip := s.chip.served.bnlRespond r ([0, if s.chip.owner 0x0A0 = s.chip.peerPart r.peer then 1 else 3, 0, 0] ++ bytesBE 4 0 ++ bytesBE 4 s.chip.gambit.staging.chunks.length) }) ∧
  (∀ (s : State) (r : BnlReq), 
    s.chip.passes .running = true →
    s.chip.serves r 5 = true ∧ r.body.length = 5 ∧ 1 ≤ leAt r.body 4 1 ∧ leAt r.body 4 1 ≤ 31 ∧ s.chip.peerPart r.peer = s.chip.supervisor →
    exec .bnlScoreRead s = .next { s with chip := s.chip.served.bnlRespond r ([0, BitVec.ofNat 8 (s.chip.scoreFrom (beAt r.body 0 4) (leAt r.body 4 1)).length, 0, 0] ++ (s.chip.scoreFrom (beAt r.body 0 4) (leAt r.body 4 1)).flatMap ScoreEntry.bytes) })

/-- READ and WRITE of a peer are answered BAD_ADDR outside the agent's space, BUSY under another peer's lease, DENIED without WRITE, LEASE_LOST, or done as accesses of its partition. LOCK adds a lease of 1 ms, UNLOCK ends it, LEASE_EXPIRY drops those that ended; a sent answer advances TX_SEQ and TX_MSGS. A KEY write with VALID installs the key of a fitting slot, otherwise it removes it, with PAGE_ERR.BLOCK for a slot that does not fit; TX_SEL restarts TX_SEQ at 1; PEER_CFG resets the peer's replay state. A good message reaches the agent, and the agent serves ARB_CMD, CX_JOB, GAMBIT and SCORE_READ. -/
def Obligations.BenolsiaAccessLeasesAndKeys : Prop :=
  (∀ (s : State) (r : BnlReq) (seen ue : Bool) (x : Chip × List Byte), 
    s.chip.passes .running = true →
    s.chip.serves r 16 = true ∧ r.body.length = 10 ∧ 1 ≤ beAt r.body 8 2 ∧ beAt r.body 8 2 ≤ 512 ∧ beAt r.body 0 8 + beAt r.body 8 2 ≤ 0x1000000 →
    s.chip.leased r.peer (beAt r.body 0 8) (beAt r.body 8 2) = false →
    s.chip.served.readBar0 (s.chip.peerPart r.peer) (beAt r.body 0 8) (beAt r.body 8 2) seen = some x →
    exec (.bnlRead seen ue) s = .next { s with chip := x.1.bnlRespond r ([0, 0, 0, 0] ++ x.2) }) ∧
  (∀ (s : State) (r : BnlReq) (seen ue : Bool), 
    s.chip.passes .running = true →
    s.chip.serves r 16 = true ∧ r.body.length = 10 ∧ 1 ≤ beAt r.body 8 2 ∧ beAt r.body 8 2 ≤ 512 →
    ∃ d, exec (.bnlRead seen ue) s = .next { s with chip := d } ∧
      (bnlSpace (beAt r.body 0 8) (beAt r.body 8 2) = false → d = s.chip.served.bnlRespond r [2]) ∧
      (bnlSpace (beAt r.body 0 8) (beAt r.body 8 2) = true → s.chip.leased r.peer (beAt r.body 0 8) (beAt r.body 8 2) = true → d = s.chip.served.bnlRespond r [4])) ∧
  (∀ (s : State) (r : BnlReq) (ecc : Nat) (env : WriteEnv) (a : Nat) (b : List Byte), 
    s.chip.passes .running = true →
    s.chip.serves r 17 = true ∧ 11 ≤ r.body.length ∧ r.body.length ≤ 266 ∧ a = beAt r.body 0 8 ∧ b = r.body.drop 10 →
    ∃ d, exec (.bnlWrite ecc env) s = .next { s with chip := d } ∧
      (s.chip.peerWrite r.peer = false → d = s.chip.served.bnlRespond r [3]) ∧
      (s.chip.peerWrite r.peer = true → bnlSpace a b.length = false → d = s.chip.served.bnlRespond r [2]) ∧
      (s.chip.peerWrite r.peer = true → a + b.length ≤ 0x1000000 → s.chip.leased r.peer a b.length = false → leAt r.body 8 1 % 2 = 0 →
        d = (s.chip.served.hostWrites (s.chip.peerPart r.peer) (a / 4 * 4) (dwordsOf a b) env).bnlRespond r [0]) ∧
      (s.chip.peerWrite r.peer = true → bnlSpace a b.length = true → s.chip.leased r.peer a b.length = false → leAt r.body 8 1 % 2 = 1 →
        s.chip.holdsLease r.peer a b.length = false → d = s.chip.served.bnlRespond r [5])) ∧
  (∀ (s : State) (r : BnlReq) (a n : Nat), 
    s.chip.passes .running = true →
    s.chip.serves r 18 = true ∧ r.body.length = 13 ∧ r.bcast = false ∧ a = beAt r.body 0 8 ∧ n = beAt r.body 8 4 →
    s.chip.peerWrite r.peer = true ∧ bnlSpace a n = true ∧ s.chip.leased r.peer a n = false ∧ s.chip.host.leases.length < 16 →
    ∃ d, exec .bnlLock s = .next { s with chip := d } ∧
      d.host.leases = (s.chip.liveLeases.filter fun l => !(l.peer = r.peer && l.base = a && l.len = n)) ++ [{ peer := r.peer, base := a, len := n, until_ := s.chip.now + fsMs }] ∧
      d.host.agent = s.chip.host.agent.tail ∧
      (s.chip.bnlCanSend = true → isEth r.square = true → d.reg Reg.BNL.TX_SEQ = s.chip.reg Reg.BNL.TX_SEQ + 1 ∧ d.reg Reg.BNL.TX_MSGS = sat32 ((s.chip.reg Reg.BNL.TX_MSGS).toNat + 1)) ∧
      (s.chip.bnlCanSend = false ∨ isEth r.square = false → d = { s.chip with host := d.host })) ∧
  (∀ (s : State) (r : BnlReq) (a : Nat), 
    s.chip.passes .running = true →
    s.chip.serves r 19 = true ∧ r.body.length = 8 ∧ a = beAt r.body 0 8 ∧ s.chip.peerWrite r.peer = true ∧ bnlSpace a 0 = true →
    ∃ d, exec .bnlUnlock s = .next { s with chip := d } ∧
      d.host.leases = s.chip.liveLeases.filter (fun l => !(l.peer = r.peer && l.base = a)) ∧ d.host.agent = s.chip.host.agent.tail) ∧
  (∀ (s : State), 
    s.chip.passes .running = true →
    exec .leaseExpiry s = .next { s with chip := s.chip.setHost { s.chip.host with leases := s.chip.host.leases.filter fun l => s.chip.now < l.until_ } }) ∧
  (∀ (s : State) (w x : Nat) (v : Word) (q : KeySlot), 
    s.chip.passes .running = true →
    x < 2 ∧ s.chip.accepts w (if x = 0 then Reg.BNL.KEY0 else Reg.BNL.KEY1) = true ∧ bit v 31 = true →
    s.chip.slot? (fld v 9 0) = some q ∧ q.ktype = 2 ∧ q.sys = false ∧ q.owner = s.chip.owner 0x0B1 ∧ natBits q.usage 1 0 = 3 →
    ∃ d, exec (.bnlKeyWrite w x v 0xF) s = .next { s with chip := d } ∧
      lookupKey d.host.bnlKeys x = some { slot := fld v 9 0, key := q.key } ∧ lookupKey d.host.bnlKeys (1 - x) = lookupKey s.chip.host.bnlKeys (1 - x) ∧
      s.chip.keeps d [if x = 0 then Reg.BNL.KEY0 else Reg.BNL.KEY1] ∧ d = { s.chip with regs := d.regs, host := d.host }) ∧
  (∀ (s : State) (w x : Nat) (v : Word), 
    s.chip.passes .running = true →
    x < 2 ∧ s.chip.accepts w (if x = 0 then Reg.BNL.KEY0 else Reg.BNL.KEY1) = true ∧ (bit v 31 = false ∨ s.chip.slot? (fld v 9 0) = none) →
    ∃ d, exec (.bnlKeyWrite w x v 0xF) s = .next { s with chip := d } ∧
      lookupKey d.host.bnlKeys x = none ∧ (bit v 31 = true → d.bitOf (hErr 0x0B1) 7 = true) ∧ (bit v 31 = false → d.reg (hErr 0x0B1) = s.chip.reg (hErr 0x0B1))) ∧
  (∀ (s : State) (w : Nat) (v : Word), 
    s.chip.passes .running = true →
    s.chip.accepts w Reg.BNL.TX_SEL = true →
    ∃ d, exec (.txSelWrite w v 0xF) s = .next { s with chip := d } ∧
      d.bitOf Reg.BNL.TX_SEL 0 = bit v 0 ∧ d.reg Reg.BNL.TX_SEQ = 1 ∧ s.chip.keeps d [Reg.BNL.TX_SEL, Reg.BNL.TX_SEQ] ∧ d = { s.chip with regs := d.regs }) ∧
  (∀ (s : State) (w n : Nat) (v : Word), 
    s.chip.passes .running = true →
    n < 64 ∧ s.chip.accepts w (Reg.BNL.PEER_CFG n) = true →
    ∃ d, exec (.peerCfgWrite w n v 0xF) s = .next { s with chip := d } ∧
      d.fldOf (Reg.BNL.PEER_CFG n) 15 0 = fld v 15 0 ∧ d.fldOf (Reg.BNL.PEER_CFG n) 31 28 = fld v 31 28 ∧
      d.reg (Reg.BNL.PEER_SEQ n) = 0 ∧ d.reg (Reg.BNL.PEER_MAP_LO n) = 0 ∧ d.reg (Reg.BNL.PEER_MAP_HI n) = 0 ∧ lookupKey d.host.peerKey n = none ∧
      s.chip.keeps d [Reg.BNL.PEER_CFG n, Reg.BNL.PEER_SEQ n, Reg.BNL.PEER_MAP_LO n, Reg.BNL.PEER_MAP_HI n] ∧ d = { s.chip with regs := d.regs, host := d.host }) ∧
  (∀ (s : State) (k : Copy) (m : List Byte) (n : Nat) (key : SaInst), 
    s.chip.passes .running = true →
    s.chip.fab.copies = [k] ∧ k.appended = true ∧ k.output = 70 ∧ k.kind = .eth ∧ k.mirror = false ∧ k.arrived = k.cells ∧ k.cls < 8 ∧ s.chip.residenceOver k = false →
    oneToken ≤ s.chip.bnlLevel.tokens ∧ m = (frameBytes k.data).drop (bnlOffset (frameBytes k.data)) ∧ 32 + beAt m 12 2 ≤ m.length →
    leAt m 0 1 = 1 ∧ beAt m 12 2 ≤ 1024 ∧ agentTypes.contains (leAt m 1 1) = true ∧ leAt m 14 1 = 0 →
    s.chip.bnlPeer (beAt m 2 2) = some n ∧ beAt m 4 2 = s.chip.fldOf Reg.BNL.GWID 15 0 ∧ lookupKey s.chip.host.bnlKeys 0 = some key →
    sget 0 s.chip.host.peerKey n = 1 ∧ (s.chip.reg (Reg.BNL.PEER_SEQ n)).toNat < beAt m 8 4 ∧ s.chip.arbRunning = true →
    ∃ d, exec .bnlMessageReceived s = .next { s with chip := d } ∧
      (Config.gcmTag key.key (m.take 12) (m.take 16) ((m.drop 16).take (beAt m 12 2)) = (m.drop (16 + beAt m 12 2)).take 16 → d.reg Reg.BNL.RX_OK = sat32 ((s.chip.reg Reg.BNL.RX_OK).toNat + 1) ∧ d.reg (Reg.BNL.PEER_SEQ n) = BitVec.ofNat 32 (beAt m 8 4) ∧ d.host.agent.map (fun q => (q.typ, q.peer, q.tag)) = s.chip.host.agent.map (fun q => (q.typ, q.peer, q.tag)) ++ [(leAt m 1 1, n, beAt m 6 2)])) ∧
  (∀ (s : State) (r : BnlReq) (eye : Nat) (x : Chip × Nat × List Nat), 
    s.chip.passes .running = true →
    s.chip.serves r 2 = true ∧ r.body.length = 36 ∧ arbKnown (leAt r.body 0 1) = true →
    x = s.chip.served.arbWork (s.chip.peerPart r.peer) (leAt r.body 0 1) ((List.range 8).map fun j => beAt r.body (4 + 4 * j) 4) eye →
    exec (.bnlArbCmd eye) s = .next { s with chip := x.1.bnlRespond r ([0, BitVec.ofNat 8 x.2.1, 0, 0] ++ (List.range 8).flatMap fun j => bytesBE 4 (x.2.2.getD j 0)) }) ∧
  (∀ (s : State) (r : BnlReq), 
    s.chip.passes .running = true →
    s.chip.serves r 3 = true ∧ 36 + beAt r.body 6 2 ≤ r.body.length ∧ s.chip.fab.copies.all (fun k => !(k.appended && k.output == 68)) = true →
    s.chip.cxRoom (s.chip.peerPart r.peer) = true →
    ∃ d, exec .bnlCxJob s = .next { s with chip := d } ∧
      d.cx.jobs.map (fun j => j.bnl) = s.chip.cx.jobs.map (fun j => j.bnl) ++ [some r]) ∧
  (∀ (s : State) (r : BnlReq), 
    s.chip.passes .running = true →
    s.chip.serves r 4 = true ∧ r.bcast = false ∧ r.body.length = 8 ∧ leAt r.body 0 1 = 0 ∧ beAt r.body 2 2 ≤ 1024 →
    exec .bnlGambit s = .next { s with chip := s.chip.served.bnlRespond r ([0, if s.chip.owner 0x0A0 = s.chip.peerPart r.peer then 1 else 3, 0, 0] ++ bytesBE 4 0 ++ bytesBE 4 s.chip.gambit.staging.chunks.length) }) ∧
  (∀ (s : State) (r : BnlReq), 
    s.chip.passes .running = true →
    s.chip.serves r 5 = true ∧ r.body.length = 5 ∧ 1 ≤ leAt r.body 4 1 ∧ leAt r.body 4 1 ≤ 31 ∧ s.chip.peerPart r.peer = s.chip.supervisor →
    exec .bnlScoreRead s = .next { s with chip := s.chip.served.bnlRespond r ([0, BitVec.ofNat 8 (s.chip.scoreFrom (beAt r.body 0 4) (leAt r.body 4 1)).length, 0, 0] ++ (s.chip.scoreFrom (beAt r.body 0 4) (leAt r.body 4 1)).flatMap ScoreEntry.bytes) })

/-- STAGE, CHUNK, ACTIVATE, CONFIRM and ABANDON to an idle bank begin; in RECOVERY the boot ROM takes STAGE to ACTIVATE and no CONFIRM. Their end: for another partition than GAMBIT's owner only NOT_PERMITTED; a manifest too short ends BAD_FORMAT, a chunk without staging NO_MANIFEST, ACTIVATE beside another phase BUSY, CONFIRM outside a trial NO_TRIAL; CONFIRM in the trial writes a pointer record without TRIAL; ABANDON erases staging. -/
def Obligations.GambitCommandResults : Prop :=
  (∀ (s : State) (w k : Nat), 
    s.chip.passes .recovery = true →
    k < 4 ∧ s.chip.accepts w (Reg.ARB.CMD k) = true ∧ s.chip.bitOf (Reg.ARB.CSTAT k) 31 = false ∧ s.chip.arbState ≠ 3 ∧ s.chip.inRecovery = false →
    ∃ d, exec (.gambitStage w k) s = .next { s with chip := d } ∧
      lookupKey d.arb.cmds k = some { op := 0x40 } ∧ d.reg (Reg.ARB.CSTAT k) = BitVec.ofNat 32 (2 ^ 31 + s.chip.fldOf (Reg.ARB.CSTAT k) 11 8 * 2 ^ 8 + 0x40) ∧
      s.chip.keeps d [Reg.ARB.CSTAT k] ∧ d = { s.chip with regs := d.regs, arb := d.arb }) ∧
  (∀ (s : State) (w k : Nat), 
    s.chip.passes .recovery = true →
    k < 4 ∧ s.chip.accepts w (Reg.ARB.CMD k) = true ∧ s.chip.bitOf (Reg.ARB.CSTAT k) 31 = false ∧ s.chip.arbState ≠ 3 ∧ s.chip.inRecovery = false →
    ∃ d, exec (.gambitChunk w k) s = .next { s with chip := d } ∧
      lookupKey d.arb.cmds k = some { op := 0x41 } ∧ d.reg (Reg.ARB.CSTAT k) = BitVec.ofNat 32 (2 ^ 31 + s.chip.fldOf (Reg.ARB.CSTAT k) 11 8 * 2 ^ 8 + 0x41) ∧
      s.chip.keeps d [Reg.ARB.CSTAT k] ∧ d = { s.chip with regs := d.regs, arb := d.arb }) ∧
  (∀ (s : State) (w k : Nat), 
    s.chip.passes .recovery = true →
    k < 4 ∧ s.chip.accepts w (Reg.ARB.CMD k) = true ∧ s.chip.bitOf (Reg.ARB.CSTAT k) 31 = false ∧ s.chip.arbState ≠ 3 ∧ s.chip.inRecovery = false →
    ∃ d, exec (.gambitActivate w k) s = .next { s with chip := d } ∧
      lookupKey d.arb.cmds k = some { op := 0x42 } ∧ d.reg (Reg.ARB.CSTAT k) = BitVec.ofNat 32 (2 ^ 31 + s.chip.fldOf (Reg.ARB.CSTAT k) 11 8 * 2 ^ 8 + 0x42) ∧
      s.chip.keeps d [Reg.ARB.CSTAT k] ∧ d = { s.chip with regs := d.regs, arb := d.arb }) ∧
  (∀ (s : State) (w k : Nat), 
    s.chip.passes .recovery = true →
    k < 4 ∧ s.chip.accepts w (Reg.ARB.CMD k) = true ∧ s.chip.bitOf (Reg.ARB.CSTAT k) 31 = false ∧ s.chip.arbState ≠ 3 ∧ s.chip.inRecovery = false →
    ∃ d, exec (.gambitConfirm w k) s = .next { s with chip := d } ∧
      lookupKey d.arb.cmds k = some { op := 0x43 } ∧ d.reg (Reg.ARB.CSTAT k) = BitVec.ofNat 32 (2 ^ 31 + s.chip.fldOf (Reg.ARB.CSTAT k) 11 8 * 2 ^ 8 + 0x43) ∧
      s.chip.keeps d [Reg.ARB.CSTAT k] ∧ d = { s.chip with regs := d.regs, arb := d.arb }) ∧
  (∀ (s : State) (w k : Nat), 
    s.chip.passes .recovery = true →
    k < 4 ∧ s.chip.accepts w (Reg.ARB.CMD k) = true ∧ s.chip.bitOf (Reg.ARB.CSTAT k) 31 = false ∧ s.chip.arbState ≠ 3 ∧ s.chip.inRecovery = false →
    ∃ d, exec (.gambitAbandon w k) s = .next { s with chip := d } ∧
      lookupKey d.arb.cmds k = some { op := 0x44 } ∧ d.reg (Reg.ARB.CSTAT k) = BitVec.ofNat 32 (2 ^ 31 + s.chip.fldOf (Reg.ARB.CSTAT k) 11 8 * 2 ^ 8 + 0x44) ∧
      s.chip.keeps d [Reg.ARB.CSTAT k] ∧ d = { s.chip with regs := d.regs, arb := d.arb }) ∧
  (∀ (s : State) (k : Nat), 
    s.chip.passes .recovery = true →
    k < 4 ∧ s.chip.inRecovery = true ∧ lookupKey s.chip.arb.cmds k = none →
    exec (.gambitStage k k) s = .next { s with chip := s.chip.setArb { s.chip.arb with cmds := insertKey s.chip.arb.cmds k { op := 0x40 } } }) ∧
  (∀ (s : State) (w k : Nat), 
    s.chip.passes .recovery = true →
    s.chip.inRecovery = true →
    exec (.gambitConfirm w k) s = .next s) ∧
  (∀ (s : State) (k e op : Nat), 
    s.chip.passes .recovery = true →
    k < 4 ∧ lookupKey s.chip.arb.cmds k = some { op := op } ∧ 0x40 ≤ op ∧ op ≤ 0x44 ∧ s.chip.arbRunning = true ∧ s.chip.owner 0x0A0 ≠ k →
    ∃ d, exec (.arbCommandDone k e) s = .next { s with chip := d } ∧
      d.reg (Reg.ARB.CSTAT k) = BitVec.ofNat 32 (3 * 2 ^ 8 + op) ∧ d.bitOf (hIrqStat 0x090) (2 * k + 1) = true ∧ d.gambit = s.chip.gambit ∧
      d.reg Reg.GAMBIT.LAST_RESULT = s.chip.reg Reg.GAMBIT.LAST_RESULT ∧ d = { s.chip with regs := d.regs, out := d.out, pba := d.pba, arb := d.arb }) ∧
  (∀ (s : State) (k e : Nat), 
    s.chip.passes .recovery = true →
    k < 4 ∧ lookupKey s.chip.arb.cmds k = some { op := 0x40 } ∧ s.chip.arbRunning = true ∧ s.chip.owner 0x0A0 = k →
    (s.chip.reg (Reg.ARB.ARG k 0)).toNat < 64 →
    ∃ d, exec (.arbCommandDone k e) s = .next { s with chip := d } ∧
      lookupKey d.arb.cmds k = none ∧ d.reg (Reg.ARB.CSTAT k) = BitVec.ofNat 32 (2 ^ 8 + 0x40) ∧ d.reg (Reg.ARB.RSP k 0) = 1 ∧
      d.reg Reg.GAMBIT.LAST_RESULT = BitVec.ofNat 32 (0x40 * 256 + 1) ∧ d.gambit = s.chip.gambit ∧ d.phase = s.chip.phase) ∧
  (∀ (s : State) (k e : Nat), 
    s.chip.passes .recovery = true →
    k < 4 ∧ lookupKey s.chip.arb.cmds k = some { op := 0x41 } ∧ s.chip.arbRunning = true ∧ s.chip.owner 0x0A0 = k →
    s.chip.gambit.staging.manifest = [] →
    ∃ d, exec (.arbCommandDone k e) s = .next { s with chip := d } ∧
      lookupKey d.arb.cmds k = none ∧ d.reg (Reg.ARB.CSTAT k) = BitVec.ofNat 32 (2 ^ 8 + 0x41) ∧ d.reg (Reg.ARB.RSP k 0) = 6 ∧
      d.reg Reg.GAMBIT.LAST_RESULT = BitVec.ofNat 32 (0x41 * 256 + 6) ∧ d.gambit = s.chip.gambit ∧ d.phase = s.chip.phase) ∧
  (∀ (s : State) (k e : Nat), 
    s.chip.passes .recovery = true →
    k < 4 ∧ lookupKey s.chip.arb.cmds k = some { op := 0x42 } ∧ s.chip.arbRunning = true ∧ s.chip.owner 0x0A0 = k →
    s.chip.phase ≠ 0 →
    ∃ d, exec (.arbCommandDone k e) s = .next { s with chip := d } ∧
      lookupKey d.arb.cmds k = none ∧ d.reg (Reg.ARB.CSTAT k) = BitVec.ofNat 32 (2 ^ 8 + 0x42) ∧ d.reg (Reg.ARB.RSP k 0) = 0xC ∧
      d.reg Reg.GAMBIT.LAST_RESULT = BitVec.ofNat 32 (0x42 * 256 + 0xC) ∧ d.gambit = s.chip.gambit ∧ d.phase = s.chip.phase) ∧
  (∀ (s : State) (k e : Nat), 
    s.chip.passes .recovery = true →
    k < 4 ∧ lookupKey s.chip.arb.cmds k = some { op := 0x43 } ∧ s.chip.arbRunning = true ∧ s.chip.owner 0x0A0 = k →
    s.chip.phase ≠ 3 →
    ∃ d, exec (.arbCommandDone k e) s = .next { s with chip := d } ∧
      lookupKey d.arb.cmds k = none ∧ d.reg (Reg.ARB.CSTAT k) = BitVec.ofNat 32 (2 ^ 8 + 0x43) ∧ d.reg (Reg.ARB.RSP k 0) = 0xD ∧
      d.reg Reg.GAMBIT.LAST_RESULT = BitVec.ofNat 32 (0x43 * 256 + 0xD) ∧ d.gambit = s.chip.gambit ∧ d.phase = s.chip.phase) ∧
  (∀ (s : State) (k e : Nat) (p : PtrRec), 
    s.chip.passes .recovery = true →
    k < 4 ∧ lookupKey s.chip.arb.cmds k = some { op := 0x43 } ∧ s.chip.arbRunning = true ∧ s.chip.owner 0x0A0 = k →
    s.chip.phase = 3 ∧ s.chip.pointer = some p ∧ p.trial = true ∧ s.chip.activeSet.manifest = [] →
    ∃ d, exec (.arbCommandDone k e) s = .next { s with chip := d } ∧
      lookupKey d.arb.cmds k = none ∧ d.reg (Reg.ARB.CSTAT k) = BitVec.ofNat 32 (2 ^ 8 + 0x43) ∧ d.reg (Reg.ARB.RSP k 0) = 0 ∧
      d.reg Reg.GAMBIT.LAST_RESULT = BitVec.ofNat 32 (0x43 * 256 + 0) ∧ d.phase = 0 ∧ d.record = { p with trial := false, count := (p.count + 1) % 2 ^ 32 } ∧ d.gambit.trialEnd = none ∧ d.gambit.svn = s.chip.gambit.svn ∧
      d.reg Reg.XSPI.ERASES = sat32 ((s.chip.reg Reg.XSPI.ERASES).toNat + 1) ∧ d.bitOf (hIrqStat 0x0A0) 0 = true ∧ (s.chip.score.queue.length < 64 → s.chip.scoreFresh = true → d.score.queue.map (fun e => (e.code, e.sev)) = s.chip.score.queue.map (fun e => (e.code, e.sev)) ++ [(0x0092, 1)])) ∧
  (∀ (s : State) (k e : Nat), 
    s.chip.passes .recovery = true →
    k < 4 ∧ lookupKey s.chip.arb.cmds k = some { op := 0x44 } ∧ s.chip.arbRunning = true ∧ s.chip.owner 0x0A0 = k →
    (s.chip.phase = 0 ∨ s.chip.phase = 3 ∨ s.chip.phase = 4) ∧ s.chip.flashAlive = true →
    ∃ d, exec (.arbCommandDone k e) s = .next { s with chip := d } ∧
      lookupKey d.arb.cmds k = none ∧ d.reg (Reg.ARB.CSTAT k) = BitVec.ofNat 32 (2 ^ 8 + 0x44) ∧ d.reg (Reg.ARB.RSP k 0) = 0 ∧
      d.reg Reg.GAMBIT.LAST_RESULT = BitVec.ofNat 32 (0x44 * 256 + 0) ∧ d.gambit = { s.chip.gambit with staging := {} } ∧ d.reg Reg.XSPI.ERASES = sat32 ((s.chip.reg Reg.XSPI.ERASES).toNat + 8208) ∧ d.reg Reg.GAMBIT.STAGED = 0 ∧ d.phase = s.chip.phase)

/-- GAMBIT_APPLY_RETRY with nothing left to apply clears APPLY_PEND and the trial runs to the end of its window; after APPLY_TO, and at TRIAL_WINDOW_EXPIRY, the part falls back: the pointer record names the other set, marks the failed one bad and has APPLY_PEND, the alarm and the source are raised. ACT_DONE of a bad copy gives it up with FLASH_ERR; of a good one it makes the copy the active set on trial, where a previous set is usable. FLASH_DEVICE_FAIL shows the primary gone, or counts a failed read and its repair from the mirror. Each Gambit command that a mailbox takes waits there for the firmware. -/
def Obligations.GambitTrialAndFallBack : Prop :=
  (∀ (s : State) (p : PtrRec), 
    s.chip.passes .running = true →
    s.chip.pointer = some p ∧ p.applyPend = true ∧ p.trial = true ∧ (s.chip.phase = 2 ∨ s.chip.phase = 4) ∧ s.chip.arbRunning = true ∧ s.chip.gambit.retryAt ≤ s.chip.now →
    s.chip.now < s.chip.gambit.applyFrom + s.chip.applyFs ∧ (s.chip.txn 4).state = 0 ∧ s.chip.activeSet.manifest = [] →
    ∃ d, exec .gambitApplyRetry s = .next { s with chip := d } ∧
      d.record = { p with applyPend := false, count := (p.count + 1) % 2 ^ 32 } ∧ d.phase = 3 ∧ d.bitOf (hIrqStat 0x0A0) 2 = true ∧ d.reg Reg.XSPI.ERASES = sat32 ((s.chip.reg Reg.XSPI.ERASES).toNat + 1) ∧
      d.gambit.trialEnd = some (s.chip.gambit.trialEnd.getD (s.chip.now + max 1 (s.chip.fldOf Reg.GAMBIT.CTRL 31 16) * fsSec))) ∧
  (∀ (s : State) (p : PtrRec), 
    s.chip.passes .running = true →
    s.chip.pointer = some p ∧ p.applyPend = true ∧ p.prevValid = true ∧ s.chip.phase = 2 ∧ s.chip.arbRunning = true ∧ s.chip.gambit.retryAt ≤ s.chip.now →
    s.chip.gambit.applyFrom + s.chip.applyFs ≤ s.chip.now ∧ (s.chip.txn 4).state = 0 →
    ∃ d, exec .gambitApplyRetry s = .next { s with chip := d } ∧
      d.record = { p with trial := false, active := 1 - p.active, prevValid := false, aBad := p.aBad || p.active == 0, bBad := p.bBad || p.active == 1, applyPend := true, buildAct := p.buildPrev, buildPrev := 0, count := (p.count + 1) % 2 ^ 32 } ∧
      d.phase = 4 ∧ d.gambit.trialEnd = none ∧ d.gambit.copy = none ∧ d.gambit.retryAt = s.chip.now ∧ d.bitOf Reg.GLB.ALARM_STAT 9 = true ∧ d.bitOf (hIrqStat 0x0A0) 4 = true ∧
      d.reg Reg.XSPI.ERASES = sat32 ((s.chip.reg Reg.XSPI.ERASES).toNat + 1)) ∧
  (∀ (s : State) (p : PtrRec) (t : Nat), 
    s.chip.passes .running = true →
    s.chip.pointer = some p ∧ p.trial = true ∧ p.prevValid = true ∧ s.chip.gambit.trialEnd = some t ∧ t ≤ s.chip.now ∧ (s.chip.txn 4).state = 0 →
    ∃ d, exec .trialWindowExpiry s = .next { s with chip := d } ∧
      d.record = { p with trial := false, active := 1 - p.active, prevValid := false, aBad := p.aBad || p.active == 0, bBad := p.bBad || p.active == 1, applyPend := true, buildAct := p.buildPrev, buildPrev := 0, count := (p.count + 1) % 2 ^ 32 } ∧
      d.phase = 4 ∧ d.gambit.trialEnd = none ∧ d.gambit.copy = none ∧ d.gambit.retryAt = s.chip.now ∧ d.bitOf Reg.GLB.ALARM_STAT 9 = true ∧ d.bitOf (hIrqStat 0x0A0) 4 = true ∧
      d.reg Reg.XSPI.ERASES = sat32 ((s.chip.reg Reg.XSPI.ERASES).toNat + 1) ∧ (s.chip.score.queue.length < 64 → s.chip.scoreFresh = true → d.score.queue.map (fun e => (e.code, e.sev)) = s.chip.score.queue.map (fun e => (e.code, e.sev)) ++ [(0x0093, 3)])) ∧
  (∀ (s : State), 
    s.chip.passes .recovery = true →
    s.chip.gambit.dev0Fail = false →
    ∃ d, exec (.flashDeviceFail true) s = .next { s with chip := d } ∧
      d.gambit = { s.chip.gambit with dev0Fail := true } ∧ d.bitOf Reg.XSPI.STATUS 0 = false ∧ d.bitOf (hIrqStat 0x0A1) 1 = true ∧
      s.chip.keeps d [Reg.XSPI.STATUS, hIrqStat 0x0A1] ∧ d = { s.chip with regs := d.regs, out := d.out, pba := d.pba, gambit := d.gambit }) ∧
  (∀ (s : State), 
    s.chip.passes .recovery = true →
    s.chip.gambit.dev0Fail = false ∧ s.chip.mirrorAlive = true →
    ∃ d, exec (.flashDeviceFail false) s = .next { s with chip := d } ∧
      d.reg Reg.XSPI.READ_ERR = sat32 ((s.chip.reg Reg.XSPI.READ_ERR).toNat + 1) ∧ d.reg Reg.XSPI.MIRROR_REPAIR = sat32 ((s.chip.reg Reg.XSPI.MIRROR_REPAIR).toNat + 1) ∧ d.bitOf (hIrqStat 0x0A1) 0 = true ∧
      s.chip.keeps d [Reg.XSPI.READ_ERR, Reg.XSPI.MIRROR_REPAIR, hIrqStat 0x0A1] ∧ d = { s.chip with regs := d.regs, out := d.out, pba := d.pba }) ∧
  (∀ (s : State) (st : FlashSet) (env : StartEnv), 
    s.chip.passes .recovery = true →
    s.chip.gambit.copy = some st ∧ s.chip.flashAlive = true ∧ s.chip.inRecovery = false ∧ s.chip.arbRunning = true →
    ∃ d, exec (.actDone false env) s = .next { s with chip := d } ∧
      d.gambit = { s.chip.gambit with copy := none } ∧ d.phase = 0 ∧ d.reg Reg.GAMBIT.LAST_RESULT = 0x420B ∧ d.reg Reg.XSPI.PROG_ERR = sat32 ((s.chip.reg Reg.XSPI.PROG_ERR).toNat + 1) ∧ (s.chip.score.queue.length < 64 → s.chip.scoreFresh = true → d.score.queue.map (fun e => (e.code, e.sev)) = s.chip.score.queue.map (fun e => (e.code, e.sev)) ++ [(0x0094, 3)])) ∧
  (∀ (s : State) (st : FlashSet) (p : PtrRec) (env : StartEnv), 
    s.chip.passes .recovery = true →
    s.chip.gambit.copy = some st ∧ s.chip.flashAlive = true ∧ s.chip.inRecovery = false ∧ s.chip.arbRunning = true ∧ s.chip.pointer = some p ∧ p.active < 2 ∧ s.chip.slotUsable p.active = true →
    ∃ d, exec (.actDone true env) s = .next { s with chip := d } ∧
      d.record = { p with trial := true, active := 1 - p.active, prevValid := true, aBad := p.aBad && 1 - p.active != 0, bBad := p.bBad && 1 - p.active != 1, applyPend := true, trials := 0, buildAct := manBuild st.manifest, buildPrev := p.buildAct, count := (p.count + 1) % 2 ^ 32 } ∧
      d.activeSet = st ∧ d.setOf p.active = s.chip.setOf p.active ∧ d.phase = 2 ∧ d.gambit.copy = none ∧ d.gambit.applyFrom = s.chip.now ∧ d.gambit.retryAt = s.chip.now ∧ d.gambit.trialEnd = none ∧
      d.bitOf (hIrqStat 0x0A0) 1 = true ∧ (s.chip.score.queue.length < 64 → s.chip.scoreFresh = true → d.score.queue.map (fun e => (e.code, e.sev)) = s.chip.score.queue.map (fun e => (e.code, e.sev)) ++ [(0x0091, 1)])) ∧
  (∀ (s : State) (w k : Nat), 
    s.chip.passes .recovery = true →
    k < 4 ∧ s.chip.accepts w (Reg.ARB.CMD k) = true ∧ s.chip.bitOf (Reg.ARB.CSTAT k) 31 = false ∧ s.chip.arbState ≠ 3 ∧ s.chip.inRecovery = false →
    ∃ d, exec (.gambitStage w k) s = .next { s with chip := d } ∧
      lookupKey d.arb.cmds k = some { op := 0x40 }) ∧
  (∀ (s : State) (w k : Nat), 
    s.chip.passes .recovery = true →
    k < 4 ∧ s.chip.accepts w (Reg.ARB.CMD k) = true ∧ s.chip.bitOf (Reg.ARB.CSTAT k) 31 = false ∧ s.chip.arbState ≠ 3 ∧ s.chip.inRecovery = false →
    ∃ d, exec (.gambitChunk w k) s = .next { s with chip := d } ∧
      lookupKey d.arb.cmds k = some { op := 0x41 }) ∧
  (∀ (s : State) (w k : Nat), 
    s.chip.passes .recovery = true →
    k < 4 ∧ s.chip.accepts w (Reg.ARB.CMD k) = true ∧ s.chip.bitOf (Reg.ARB.CSTAT k) 31 = false ∧ s.chip.arbState ≠ 3 ∧ s.chip.inRecovery = false →
    ∃ d, exec (.gambitActivate w k) s = .next { s with chip := d } ∧
      lookupKey d.arb.cmds k = some { op := 0x42 }) ∧
  (∀ (s : State) (w k : Nat), 
    s.chip.passes .recovery = true →
    k < 4 ∧ s.chip.accepts w (Reg.ARB.CMD k) = true ∧ s.chip.bitOf (Reg.ARB.CSTAT k) 31 = false ∧ s.chip.arbState ≠ 3 ∧ s.chip.inRecovery = false →
    ∃ d, exec (.gambitConfirm w k) s = .next { s with chip := d } ∧
      lookupKey d.arb.cmds k = some { op := 0x43 }) ∧
  (∀ (s : State) (w k : Nat), 
    s.chip.passes .recovery = true →
    k < 4 ∧ s.chip.accepts w (Reg.ARB.CMD k) = true ∧ s.chip.bitOf (Reg.ARB.CSTAT k) 31 = false ∧ s.chip.arbState ≠ 3 ∧ s.chip.inRecovery = false →
    ∃ d, exec (.gambitAbandon w k) s = .next { s with chip := d } ∧
      lookupKey d.arb.cmds k = some { op := 0x44 })

/-- Where the supervisor's write of PWR.CMD is taken and no change is in progress, PLAY and QUIET wait for their switch and ADJOURNED_WARM and ADJOURNED_COLD begin an entry, with RESULT OK. Without an enabled wake source an entry is refused with NO_WAKE, out of QUIET with BAD_CMD, and any command with BUSY beside another change or an activation. -/
def Obligations.PowerCommands : Prop :=
  (∀ (s : State) (w : Nat), 
    s.chip.passes .running = true →
    s.chip.accepts w Reg.PWR.CMD = true ∧ s.chip.power.switchTo = none ∧ s.chip.power.entering = none ∧ s.chip.phase ≠ 1 ∧ s.chip.phase ≠ 2 ∧ s.chip.power.mode = .quiet →
    ∃ d, exec (.pwrPlay w) s = .next { s with chip := d } ∧
      d.fldOf Reg.PWR.STATUS 19 16 = 1 ∧ d.power = { s.chip.power with switchTo := some .play } ∧ s.chip.keeps d [Reg.PWR.STATUS] ∧ d = { s.chip with regs := d.regs, power := d.power }) ∧
  (∀ (s : State) (w : Nat), 
    s.chip.passes .running = true →
    s.chip.accepts w Reg.PWR.CMD = true ∧ s.chip.power.switchTo = none ∧ s.chip.power.entering = none ∧ s.chip.phase ≠ 1 ∧ s.chip.phase ≠ 2 ∧ s.chip.power.mode = .play →
    ∃ d, exec (.pwrQuiet w) s = .next { s with chip := d } ∧
      d.fldOf Reg.PWR.STATUS 19 16 = 1 ∧ d.power = { s.chip.power with switchTo := some .quiet } ∧ s.chip.keeps d [Reg.PWR.STATUS] ∧ d = { s.chip with regs := d.regs, power := d.power }) ∧
  (∀ (s : State) (w : Nat), 
    s.chip.passes .running = true →
    s.chip.accepts w Reg.PWR.CMD = true ∧ s.chip.power.switchTo = none ∧ s.chip.power.entering = none ∧ s.chip.phase ≠ 1 ∧ s.chip.phase ≠ 2 ∧ s.chip.power.mode = .play ∧ s.chip.wakeEnabled = true →
    ∃ d, exec (.pwrAdjournedWarm w) s = .next { s with chip := d } ∧
      d.fldOf Reg.PWR.STATUS 19 16 = 1 ∧ d.bitOf Reg.PWR.STATUS 8 = true ∧ d.power = { s.chip.power with entering := some .adjournedWarm, woken := false, captured := [] } ∧ s.chip.keeps d [Reg.PWR.STATUS] ∧
      d = { s.chip with regs := d.regs, power := d.power }) ∧
  (∀ (s : State) (w : Nat), 
    s.chip.passes .running = true →
    s.chip.accepts w Reg.PWR.CMD = true ∧ s.chip.power.switchTo = none ∧ s.chip.power.entering = none ∧ s.chip.phase ≠ 1 ∧ s.chip.phase ≠ 2 ∧ s.chip.power.mode = .play ∧ s.chip.wakeEnabled = true →
    ∃ d, exec (.pwrAdjournedCold w) s = .next { s with chip := d } ∧
      d.fldOf Reg.PWR.STATUS 19 16 = 1 ∧ d.bitOf Reg.PWR.STATUS 8 = true ∧ d.power = { s.chip.power with entering := some .adjournedCold, woken := false, captured := [] } ∧ s.chip.keeps d [Reg.PWR.STATUS] ∧
      d = { s.chip with regs := d.regs, power := d.power }) ∧
  (∀ (s : State) (w : Nat), 
    s.chip.passes .running = true →
    s.chip.accepts w Reg.PWR.CMD = true ∧ s.chip.power.switchTo = none ∧ s.chip.power.entering = none ∧ s.chip.phase ≠ 1 ∧ s.chip.phase ≠ 2 ∧ s.chip.power.mode = .play ∧ s.chip.wakeEnabled = false →
    ∃ d, exec (.pwrAdjournedWarm w) s = .next { s with chip := d } ∧ d.fldOf Reg.PWR.STATUS 19 16 = 4 ∧ s.chip.keeps d [Reg.PWR.STATUS] ∧ d = { s.chip with regs := d.regs }) ∧
  (∀ (s : State) (w : Nat), 
    s.chip.passes .running = true →
    s.chip.accepts w Reg.PWR.CMD = true ∧ s.chip.power.mode = .quiet →
    ∃ d, exec (.pwrAdjournedCold w) s = .next { s with chip := d } ∧ d.fldOf Reg.PWR.STATUS 19 16 = 2 ∧ s.chip.keeps d [Reg.PWR.STATUS] ∧ d = { s.chip with regs := d.regs }) ∧
  (∀ (s : State) (w : Nat), 
    s.chip.passes .running = true →
    s.chip.accepts w Reg.PWR.CMD = true ∧ (s.chip.power.switchTo.isSome ∨ s.chip.power.entering.isSome ∨ s.chip.phase = 1 ∨ s.chip.phase = 2) →
    ∃ d, exec (.pwrPlay w) s = .next { s with chip := d } ∧ d.fldOf Reg.PWR.STATUS 19 16 = 3 ∧ s.chip.keeps d [Reg.PWR.STATUS] ∧ d = { s.chip with regs := d.regs })

/-- While the detectors are armed and nothing has fired, a rule, pattern or event that matches sets PEND and CAUSE with KIND, index and rule, counts WAKES and drives WAKE_OUT; a frame that matches asleep is captured; an errored frame counts in SKIP_CNT. Awake, a CAN rule only raises its source and may end QUIET. Firings on the same always-on tick join PEND, CAUSE keeps the lowest; later ones change nothing. The RC oscillator starts on an edge and stops after 1 ms without one. -/
def Obligations.WakeDetectors : Prop :=
  (∀ (s : State) (q n : Nat) (f : CanFrame), 
    s.chip.armed = true ∧ s.chip.power.woken = false ∧ s.chip.power.wakeTick ≠ some s.chip.tempo.ao ∧ s.chip.asleep = true →
    q < 40 ∧ s.chip.decodes q = true ∧ s.chip.wakeOn = true ∧ f.fmt = 0 ∧ s.chip.canRule q f = some n →
    s.chip.power.captured.all (fun x => x.square != q) = true →
    ∃ d, exec (.wakeCanRule q f false) s = .next { s with chip := d } ∧
      d.reg Reg.WAKE.PEND = oneBit 32 1 ∧ d.reg Reg.WAKE.CAUSE = BitVec.ofNat 32 (2 ^ 31 + 1 * 2 ^ 24 + q * 2 ^ 16 + n) ∧ d.reg Reg.WAKE.WAKES = sat32 ((s.chip.reg Reg.WAKE.WAKES).toNat + 1) ∧
      d.power.woken = true ∧ d.power.wakeOut = true ∧ d.power.wokeAt = s.chip.now ∧ d.power.wakeTick = some s.chip.tempo.ao ∧ d.power.mode = s.chip.power.mode ∧ d.power.captured = s.chip.power.captured ++ [{ square := q, frame := f, tick := s.chip.tempo.ao }] ∧ s.chip.keeps d [Reg.WAKE.PEND, Reg.WAKE.CAUSE, Reg.WAKE.CAUSE_TIME, Reg.WAKE.WAKES] ∧ d = { s.chip with regs := d.regs, out := d.out, pba := d.pba, power := d.power }) ∧
  (∀ (s : State) (q : Nat) (f : CanFrame), 
    s.chip.asleep = true ∧ q < 40 ∧ s.chip.decodes q = true →
    ∃ d, exec (.wakeCanRule q f true) s = .next { s with chip := d } ∧
      d.reg Reg.WAKE.SKIP_CNT = sat32 ((s.chip.reg Reg.WAKE.SKIP_CNT).toNat + 1) ∧ s.chip.keeps d [Reg.WAKE.SKIP_CNT] ∧ d = { s.chip with regs := d.regs, power := { s.chip.power with rcEdge := s.chip.now } }) ∧
  (∀ (s : State) (q n : Nat) (f : CanFrame), 
    s.chip.awake = true ∧ s.chip.power.entering = none ∧ s.chip.power.woken = false ∧ s.chip.power.wakeTick ≠ some s.chip.tempo.ao →
    q < 40 ∧ s.chip.decodes q = true ∧ s.chip.wakeOn = true ∧ s.chip.canRule q f = some n →
    ∃ d, exec (.wakeCanRule q f false) s = .next { s with chip := d } ∧
      d.reg Reg.WAKE.PEND = oneBit 32 1 ∧ d.reg Reg.WAKE.CAUSE = BitVec.ofNat 32 (2 ^ 31 + 2 ^ 24 + q * 2 ^ 16 + n) ∧ d.bitOf (hIrqStat 0x002) 0 = true ∧
      (s.chip.power.mode = .quiet → s.chip.bitOf Reg.WAKE.CTRL 1 = true → d.power.switchTo = some .play) ∧ d.power.woken = false ∧ d.reg Reg.WAKE.WAKES = s.chip.reg Reg.WAKE.WAKES) ∧
  (∀ (s : State) (q n : Nat) (b : List Byte), 
    s.chip.armed = true ∧ s.chip.power.woken = false ∧ s.chip.power.wakeTick ≠ some s.chip.tempo.ao →
    40 ≤ q ∧ q < 48 ∧ s.chip.decodes q = true ∧ s.chip.wakeOn = true →
    ((List.range 64).find? fun n => s.chip.ruleMatch n q (fld (s.chip.wakeRule n 0) 28 16 * 2 ^ 16 + beAt b 12 2) (wakeData (b.drop 14))) = some n →
    ∃ d, exec (.wakeT1sRule q b) s = .next { s with chip := d } ∧ d.reg Reg.WAKE.PEND = oneBit 32 2 ∧ d.reg Reg.WAKE.CAUSE = BitVec.ofNat 32 (2 ^ 31 + 2 * 2 ^ 24 + q * 2 ^ 16 + n) ∧ d.reg Reg.WAKE.WAKES = sat32 ((s.chip.reg Reg.WAKE.WAKES).toNat + 1) ∧
      d.power.woken = true ∧ d.power.wakeOut = true ∧ d.power.wokeAt = s.chip.now ∧ d.power.wakeTick = some s.chip.tempo.ao ∧ d.power.mode = s.chip.power.mode ∧ s.chip.keeps d [Reg.WAKE.PEND, Reg.WAKE.CAUSE, Reg.WAKE.CAUSE_TIME, Reg.WAKE.WAKES] ∧ d = { s.chip with regs := d.regs, out := d.out, pba := d.pba, power := d.power }) ∧
  (∀ (s : State) (q : Nat), 
    s.chip.armed = true ∧ s.chip.power.woken = false ∧ s.chip.power.wakeTick ≠ some s.chip.tempo.ao →
    40 ≤ q ∧ q < 48 ∧ s.chip.wakeOn = true ∧ bit (s.chip.wakeCfg q 0) 62 = true →
    ∃ d, exec (.wakeT1sEnergy q) s = .next { s with chip := d } ∧ d.reg Reg.WAKE.PEND = oneBit 32 3 ∧ d.reg Reg.WAKE.CAUSE = BitVec.ofNat 32 (2 ^ 31 + 3 * 2 ^ 24 + q * 2 ^ 16 + 0) ∧ d.reg Reg.WAKE.WAKES = sat32 ((s.chip.reg Reg.WAKE.WAKES).toNat + 1) ∧
      d.power.woken = true ∧ d.power.wakeOut = true ∧ d.power.wokeAt = s.chip.now ∧ d.power.wakeTick = some s.chip.tempo.ao ∧ d.power.mode = s.chip.power.mode ∧ s.chip.keeps d [Reg.WAKE.PEND, Reg.WAKE.CAUSE, Reg.WAKE.CAUSE_TIME, Reg.WAKE.WAKES] ∧ d = { s.chip with regs := d.regs, out := d.out, pba := d.pba, power := d.power }) ∧
  (∀ (s : State) (q n : Nat) (b : List Byte), 
    s.chip.armed = true ∧ s.chip.power.woken = false ∧ s.chip.power.wakeTick ≠ some s.chip.tempo.ao →
    40 ≤ q ∧ q < 48 ∧ s.chip.decodes q = true ∧ s.chip.wakeOn = true →
    ((List.range 32).find? fun n => s.chip.patMatch n q (b ++ bytesLE 4 (ethFcs b).toNat)) = some n →
    ∃ d, exec (.wakeEthPattern q b) s = .next { s with chip := d } ∧ d.reg Reg.WAKE.PEND = oneBit 32 4 ∧ d.reg Reg.WAKE.CAUSE = BitVec.ofNat 32 (2 ^ 31 + 4 * 2 ^ 24 + q * 2 ^ 16 + n) ∧ d.reg Reg.WAKE.WAKES = sat32 ((s.chip.reg Reg.WAKE.WAKES).toNat + 1) ∧
      d.power.woken = true ∧ d.power.wakeOut = true ∧ d.power.wokeAt = s.chip.now ∧ d.power.wakeTick = some s.chip.tempo.ao ∧ d.power.mode = s.chip.power.mode ∧ s.chip.keeps d [Reg.WAKE.PEND, Reg.WAKE.CAUSE, Reg.WAKE.CAUSE_TIME, Reg.WAKE.WAKES] ∧ d = { s.chip with regs := d.regs, out := d.out, pba := d.pba, power := d.power }) ∧
  (∀ (s : State) (q : Nat), 
    s.chip.armed = true ∧ s.chip.power.woken = false ∧ s.chip.power.wakeTick ≠ some s.chip.tempo.ao →
    48 ≤ q ∧ q < 64 ∧ s.chip.wakeOn = true ∧ bit (s.chip.wakeCfg q 0) 61 = true →
    ∃ d, exec (.wakeSignalDetect q) s = .next { s with chip := d } ∧ d.reg Reg.WAKE.PEND = oneBit 32 5 ∧ d.reg Reg.WAKE.CAUSE = BitVec.ofNat 32 (2 ^ 31 + 5 * 2 ^ 24 + q * 2 ^ 16 + 0) ∧ d.reg Reg.WAKE.WAKES = sat32 ((s.chip.reg Reg.WAKE.WAKES).toNat + 1) ∧
      d.power.woken = true ∧ d.power.wakeOut = true ∧ d.power.wokeAt = s.chip.now ∧ d.power.wakeTick = some s.chip.tempo.ao ∧ d.power.mode = s.chip.power.mode ∧ s.chip.keeps d [Reg.WAKE.PEND, Reg.WAKE.CAUSE, Reg.WAKE.CAUSE_TIME, Reg.WAKE.WAKES] ∧ d = { s.chip with regs := d.regs, out := d.out, pba := d.pba, power := d.power }) ∧
  (∀ (s : State) (n : Nat) (rising : Bool), 
    s.chip.armed = true ∧ s.chip.power.woken = false ∧ s.chip.power.wakeTick ≠ some s.chip.tempo.ao →
    n < 32 ∧ s.chip.bitOf Reg.WAKE.GPIO_EN n = true ∧ s.chip.bitOf Reg.WAKE.GPIO_POL n = rising →
    ∃ d, exec (.wakeGpioEdge n rising) s = .next { s with chip := d } ∧ d.reg Reg.WAKE.PEND = oneBit 32 7 ∧ d.reg Reg.WAKE.CAUSE = BitVec.ofNat 32 (2 ^ 31 + 7 * 2 ^ 24 + n * 2 ^ 16 + 0) ∧ d.reg Reg.WAKE.WAKES = sat32 ((s.chip.reg Reg.WAKE.WAKES).toNat + 1) ∧
      d.power.woken = true ∧ d.power.wakeOut = true ∧ d.power.wokeAt = s.chip.now ∧ d.power.wakeTick = some s.chip.tempo.ao ∧ d.power.mode = s.chip.power.mode ∧ s.chip.keeps d [Reg.WAKE.PEND, Reg.WAKE.CAUSE, Reg.WAKE.CAUSE_TIME, Reg.WAKE.WAKES] ∧ d = { s.chip with regs := d.regs, out := d.out, pba := d.pba, power := d.power }) ∧
  (∀ (s : State) (k : Nat), 
    s.chip.armed = true ∧ s.chip.power.woken = false ∧ s.chip.power.wakeTick ≠ some s.chip.tempo.ao →
    k < 4 ∧ s.chip.bitOf Reg.WAKE.HOST_EN k = true →
    ∃ d, exec (.wakeHostSideband k) s = .next { s with chip := d } ∧ d.reg Reg.WAKE.PEND = oneBit 32 8 ∧ d.reg Reg.WAKE.CAUSE = BitVec.ofNat 32 (2 ^ 31 + 8 * 2 ^ 24 + k * 2 ^ 16 + 0) ∧ d.reg Reg.WAKE.WAKES = sat32 ((s.chip.reg Reg.WAKE.WAKES).toNat + 1) ∧
      d.power.woken = true ∧ d.power.wakeOut = true ∧ d.power.wokeAt = s.chip.now ∧ d.power.wakeTick = some s.chip.tempo.ao ∧ d.power.mode = s.chip.power.mode ∧ s.chip.keeps d [Reg.WAKE.PEND, Reg.WAKE.CAUSE, Reg.WAKE.CAUSE_TIME, Reg.WAKE.WAKES] ∧ d = { s.chip with regs := d.regs, out := d.out, pba := d.pba, power := d.power }) ∧
  (∀ (s : State) (k : Nat), 
    s.chip.armed = true ∧ k < 4 ∧ s.chip.bitOf Reg.WAKE.HOST_EN k = true ∧ s.chip.power.woken = true ∧ s.chip.power.wakeTick = some s.chip.tempo.ao →
    ∃ d, exec (.wakeHostSideband k) s = .next { s with chip := d } ∧
      d.reg Reg.WAKE.PEND = s.chip.reg Reg.WAKE.PEND ||| oneBit 32 8 ∧ (d.reg Reg.WAKE.CAUSE).toNat = min (s.chip.reg Reg.WAKE.CAUSE).toNat (2 ^ 31 + 8 * 2 ^ 24 + k * 2 ^ 16) ∧
      s.chip.keeps d [Reg.WAKE.PEND, Reg.WAKE.CAUSE] ∧ d = { s.chip with regs := d.regs }) ∧
  (∀ (s : State) (k : Nat), 
    s.chip.armed = true ∧ k < 4 ∧ s.chip.power.woken = true ∧ s.chip.power.wakeTick ≠ some s.chip.tempo.ao →
    exec (.wakeHostSideband k) s = .next s) ∧
  (∀ (s : State), 
    s.chip.asleep = true ∧ s.chip.power.rc = false →
    exec .wakeRcStart s = .next { s with chip := s.chip.setPower { s.chip.power with rc := true, rcEdge := s.chip.now } }) ∧
  (∀ (s : State), 
    s.chip.power.rc = true ∧ s.chip.power.rcEdge + fsMs ≤ s.chip.now →
    exec .wakeRcIdleStop s = .next { s with chip := s.chip.setPower { s.chip.power with rc := false } })

/-- ADJOURNED_ENTRY_DONE waits for invocations, CAN frames and host jobs. Up to step 4 it discards every copy and queued request; to its end the part sleeps at the depth named: the Castle holds no key and no root, Tempo is latched with the always-on counter, ENTRIES counts, WAKE_OUT is low unless a wake event came too late. WAKE_EVENT before that abandons the entry with RESULT ABANDONED and ABANDON_CNT; without one fired it does nothing. BOOK_HANDOVER on the opening book makes Gambit's transaction pending; BOOK_LATE raises its source once. -/
def Obligations.AdjournedEntryAndHandover : Prop :=
  (∀ (s : State) (n : Nat) (m : PowerMode), 
    s.chip.awake = true ∧ s.chip.power.entering = some m ∧ s.chip.entryHeldUp = true →
    exec (.adjournedEntryDone n) s = .next s) ∧
  (∀ (s : State) (m : PowerMode), 
    s.chip.awake = true ∧ s.chip.power.entering = some m ∧ s.chip.entryHeldUp = false →
    ∃ d, exec (.adjournedEntryDone 4) s = .next { s with chip := d } ∧
      d.power = s.chip.power ∧ d.fab.copies = [] ∧ d.pawn.queue = [] ∧ d.castle = s.chip.castle ∧ d.cx.jobs = s.chip.cx.jobs.filter (fun j => j.copy.isNone) ∧ d.tempo = s.chip.tempo) ∧
  (∀ (s : State) (m : PowerMode), 
    s.chip.awake = true ∧ s.chip.power.entering = some m ∧ s.chip.entryHeldUp = false ∧ (m = .adjournedWarm ∨ m = .adjournedCold) →
    ∃ d, exec (.adjournedEntryDone 0) s = .next { s with chip := d } ∧
      d.asleep = true ∧ d.power.mode = m ∧ d.power.entering = none ∧ d.power.wakeOut = s.chip.power.woken ∧ d.fab.copies = [] ∧ d.pawn.queue = [] ∧ d.cx.jobs.all (fun j => j.copy.isNone) = true ∧
      d.castle.slots = [] ∧ d.castle.root = none ∧ d.castle.cmds = [] ∧ d.rootState = 0 ∧ d.arb.cmds = [] ∧ d.bitOf Reg.PWR.STATUS 8 = false ∧ d.reg Reg.PWR.ENTRIES = sat32 ((s.chip.reg Reg.PWR.ENTRIES).toNat + 1) ∧
      d.tempo.entryTempo = s.chip.tempo.value ∧ d.tempo.entryAo = s.chip.tempo.ao ∧ d.otp = s.chip.otp ∧ d.gambit = s.chip.gambit) ∧
  (∀ (s : State) (m : PowerMode) (env : StartEnv), 
    s.chip.power.entering = some m ∧ s.chip.power.woken = true →
    ∃ d, exec (.wakeEvent env) s = .next { s with chip := d } ∧
      d.power = { s.chip.power with entering := none, woken := false, captured := [] } ∧ d.bitOf Reg.PWR.STATUS 8 = false ∧ d.fldOf Reg.PWR.STATUS 19 16 = 5 ∧ d.reg Reg.PWR.ABANDON_CNT = sat32 ((s.chip.reg Reg.PWR.ABANDON_CNT).toNat + 1) ∧
      d.bitOf (hIrqStat 0x001) 1 = true ∧ s.chip.keeps d [Reg.PWR.STATUS, Reg.PWR.ABANDON_CNT, hIrqStat 0x001] ∧ d = { s.chip with regs := d.regs, out := d.out, pba := d.pba, power := d.power }) ∧
  (∀ (s : State) (env : StartEnv), 
    s.chip.power.woken = false →
    exec (.wakeEvent env) s = .next s) ∧
  (∀ (s : State), 
    s.chip.passes .running = true →
    s.chip.onBook = true ∧ s.chip.arbRunning = true ∧ (s.chip.txn 4).state = 0 ∧ s.chip.activeSet.manifest = [] ∧ s.chip.bookProfiles = [] →
    ∃ d, exec .bookHandover s = .next { s with chip := d } ∧
      (d.txn 4).state = 2 ∧ (d.txn 4).journal = [] ∧ (d.txn 4).mode = 0 ∧ d.onBook = true ∧ d = { s.chip with regs := d.regs, out := d.out, pba := d.pba, ep := d.ep }) ∧
  (∀ (s : State), 
    s.chip.passes .running = true →
    s.chip.onBook = true ∧ s.chip.power.bookLate = false ∧ s.chip.power.wokeAt + 120 * fsMs ≤ s.chip.now ∧ s.chip.arbRunning = false →
    ∃ d, exec .bookLate s = .next { s with chip := d } ∧
      d.power = { s.chip.power with bookLate := true } ∧ d.bitOf (hIrqStat 0x002) 2 = true ∧ s.chip.keeps d [hIrqStat 0x002] ∧ d = { s.chip with regs := d.regs, out := d.out, pba := d.pba, power := d.power })

/-- POWER_ON_RESET while RESET_N is low leaves every register at its reset value but RST_CAUSE and INIT_NEEDED, no table word, no Scoresheet ring, and the part held; with nothing holding it the part starts. RESET_N_ASSERT, BROWNOUT and TEST_MODE_HIGH outside MANUFACTURE hold the running part: engines, queues, keys and root are gone; OTP, flash, archive and, but for power-on, the ring stay; Tempo is latched; the cause is recorded. RESET_N_RELEASE, BROWNOUT_RELEASE and TEST_MODE low start the part where nothing else holds it. RST_CMD with its key is a cold reset; any other value does nothing. VDD_AO_LOSS turns the part off and clears the always-on log and latch. -/
def Obligations.CoreResets : Prop :=
  (∀ (s : State) (env : StartEnv), 
    s.chip.power.resetLow = true ∧ s.chip.otp.supervisor = 0 →
    ∃ d, exec (.powerOnReset env) s = .next { s with chip := d } ∧
      d.power.mode = .held ∧ d.power.wakeOut = false ∧ d.castle.slots = [] ∧ d.castle.root = none ∧ d.fab = {} ∧ d.pawn = {} ∧ d.cx = {} ∧ d.host = {} ∧ d.ep = {} ∧ d.inReset = [] ∧
      d.otp = s.chip.otp ∧ d.supervisor = s.chip.otp.supervisor ∧ d.now = s.chip.now ∧ d.score.archive = s.chip.score.archive ∧ d.gambit.slotA = s.chip.gambit.slotA ∧ d.gambit.slotB = s.chip.gambit.slotB ∧ d.gambit.staging = s.chip.gambit.staging ∧ d.tbl = [] ∧ d.tempo = {} ∧ d.score.ring = [] ∧ d.regs.all (fun e => [Reg.GLB.RST_CAUSE, Reg.MEM.RET_STAT].contains e.1) = true ∧ d.reg Reg.GLB.RST_CAUSE = 1 ∧ d.bitOf Reg.MEM.RET_STAT 0 = true) ∧
  (∀ (s : State) (env : StartEnv), 
    s.chip.power.resetLow = false ∧ s.chip.power.brownout = false ∧ (s.chip.power.testMode = false ∨ s.chip.otp.lc = 0) →
    exec (.powerOnReset env) s = .next { s with chip := ((s.chip.resetCore .powerOn).resetCause 0).startUp env }) ∧
  (∀ (s : State), 
    s.chip.awake = true ∧ s.chip.power.resetLow = false →
    ∃ d, exec .resetNAssert s = .next { s with chip := d } ∧
      d.power.mode = .held ∧ d.power.wakeOut = false ∧ d.castle.slots = [] ∧ d.castle.root = none ∧ d.fab = {} ∧ d.pawn = {} ∧ d.cx = {} ∧ d.host = {} ∧ d.ep = {} ∧ d.inReset = [] ∧
      d.otp = s.chip.otp ∧ d.supervisor = s.chip.otp.supervisor ∧ d.now = s.chip.now ∧ d.score.archive = s.chip.score.archive ∧ d.gambit.slotA = s.chip.gambit.slotA ∧ d.gambit.slotB = s.chip.gambit.slotB ∧ d.gambit.staging = s.chip.gambit.staging ∧ d.power.resetLow = true ∧ d.bitOf Reg.GLB.RST_CAUSE 2 = true ∧ d.score.ring = s.chip.score.ring ∧ d.tempo.entryTempo = s.chip.tempo.value ∧ d.tempo.entryAo = s.chip.tempo.ao ∧
      d.reg Reg.TAMPER.SLEEP_LATCH = s.chip.reg Reg.TAMPER.SLEEP_LATCH ∧ d.reg Reg.GLB.REF_SWITCHES = s.chip.reg Reg.GLB.REF_SWITCHES) ∧
  (∀ (s : State), 
    s.chip.power.mode = .off ∨ s.chip.power.resetLow = true →
    exec .resetNAssert s = .next { s with chip := s.chip.setPower { s.chip.power with resetLow := true } }) ∧
  (∀ (s : State) (env : StartEnv), 
    s.chip.power.resetLow = true ∧ (s.chip.power.mode ≠ .held ∨ s.chip.power.brownout = true ∨ (s.chip.power.testMode = true ∧ s.chip.otp.lc ≠ 0)) →
    exec (.resetNRelease env) s = .next { s with chip := s.chip.setPower { s.chip.power with resetLow := false } }) ∧
  (∀ (s : State) (env : StartEnv), 
    s.chip.power.resetLow = true ∧ s.chip.power.mode = .held ∧ s.chip.power.brownout = false ∧ (s.chip.power.testMode = false ∨ s.chip.otp.lc = 0) →
    exec (.resetNRelease env) s = .next { s with chip := (s.chip.setPower { s.chip.power with resetLow := false }).startUp env }) ∧
  (∀ (s : State) (w : Nat) (env : StartEnv), 
    s.chip.passes .recovery = true →
    s.chip.accepts w Reg.GLB.RST_CMD = true ∧ s.chip.power.resetLow = false ∧ s.chip.power.brownout = false ∧ (s.chip.power.testMode = false ∨ s.chip.otp.lc = 0) →
    exec (.rstCmd w 0x52530001 env) s = .next { s with chip := ((s.chip.resetCore .cold).resetCause 3).startUp env }) ∧
  (∀ (s : State) (w : Nat) (v : Word) (env : StartEnv), 
    s.chip.passes .recovery = true →
    s.chip.accepts w Reg.GLB.RST_CMD = true ∧ v ≠ 0x52530001 →
    exec (.rstCmd w v env) s = .next s) ∧
  (∀ (s : State), 
    s.chip.awake = true →
    ∃ d, exec .brownout s = .next { s with chip := d } ∧
      d.power.mode = .held ∧ d.power.wakeOut = false ∧ d.castle.slots = [] ∧ d.castle.root = none ∧ d.fab = {} ∧ d.pawn = {} ∧ d.cx = {} ∧ d.host = {} ∧ d.ep = {} ∧ d.inReset = [] ∧
      d.otp = s.chip.otp ∧ d.supervisor = s.chip.otp.supervisor ∧ d.now = s.chip.now ∧ d.score.archive = s.chip.score.archive ∧ d.gambit.slotA = s.chip.gambit.slotA ∧ d.gambit.slotB = s.chip.gambit.slotB ∧ d.gambit.staging = s.chip.gambit.staging ∧ d.power.brownout = true ∧ d.bitOf Reg.GLB.RST_CAUSE 4 = true ∧ d.score.ring = s.chip.score.ring ∧ d.tempo.entryTempo = s.chip.tempo.value) ∧
  (∀ (s : State) (env : StartEnv), 
    s.chip.power.brownout = true ∧ s.chip.power.mode = .held ∧ s.chip.power.resetLow = false ∧ (s.chip.power.testMode = false ∨ s.chip.otp.lc = 0) →
    exec (.brownoutRelease env) s = .next { s with chip := (s.chip.setPower { s.chip.power with brownout := false }).startUp env }) ∧
  (∀ (s : State) (env : StartEnv), 
    s.chip.power.brownout = true ∧ (s.chip.power.mode ≠ .held ∨ s.chip.power.resetLow = true) →
    exec (.brownoutRelease env) s = .next { s with chip := s.chip.setPower { s.chip.power with brownout := false } }) ∧
  (∀ (s : State) (env : StartEnv), 
    s.chip.awake = true ∧ s.chip.otp.lc ≠ 0 →
    ∃ d, exec (.testModeHigh true env) s = .next { s with chip := d } ∧
      d.power.mode = .held ∧ d.power.wakeOut = false ∧ d.castle.slots = [] ∧ d.castle.root = none ∧ d.fab = {} ∧ d.pawn = {} ∧ d.cx = {} ∧ d.host = {} ∧ d.ep = {} ∧ d.inReset = [] ∧
      d.otp = s.chip.otp ∧ d.supervisor = s.chip.otp.supervisor ∧ d.now = s.chip.now ∧ d.score.archive = s.chip.score.archive ∧ d.gambit.slotA = s.chip.gambit.slotA ∧ d.gambit.slotB = s.chip.gambit.slotB ∧ d.gambit.staging = s.chip.gambit.staging ∧ d.power.testMode = true ∧ d.reg Reg.GLB.RST_CAUSE = s.chip.reg Reg.GLB.RST_CAUSE) ∧
  (∀ (s : State) (env : StartEnv), 
    s.chip.awake = false ∨ s.chip.otp.lc = 0 →
    exec (.testModeHigh true env) s = .next { s with chip := s.chip.setPower { s.chip.power with testMode := true } }) ∧
  (∀ (s : State) (env : StartEnv), 
    s.chip.power.mode = .held ∧ s.chip.power.resetLow = false ∧ s.chip.power.brownout = false →
    exec (.testModeHigh false env) s = .next { s with chip := (s.chip.setPower { s.chip.power with testMode := false }).startUp env }) ∧
  (∀ (s : State), 
    s.chip.otp.supervisor = 0 →
    ∃ d, exec .vddAoLoss s = .next { s with chip := d } ∧
      d.power.mode = .off ∧ d.power.wakeOut = false ∧ d.castle.slots = [] ∧ d.castle.aoLog = [] ∧ d.castle.aoCount = none ∧ d.castle.resignPending = 0 ∧ d.tbl = [] ∧ d.tempo = {} ∧ d.score.ring = [] ∧
      d.regs.all (fun e => [Reg.MEM.RET_STAT].contains e.1) = true ∧ d.otp = s.chip.otp ∧ d.gambit.slotA = s.chip.gambit.slotA ∧ d.score.archive = s.chip.score.archive)

/-- BLK_RST without its key does nothing; for a page of another partition it is denied and counted; for GLB, PART, an absent page or one that a transaction holds it sets PAGE_ERR.BLOCK. Of a page in a wider reset it does nothing. Of BNL it removes the keys and restarts TX_SEQ at 1. Of a square it puts its pages into reset; a CAN square that sends nothing takes its reset values at once. CAN_SQUARE_RESET after the controller's own frame, and ETH_SQUARE_RESET after the frame being sent or 10 µs, return controller and staging FIFO to their reset values, with BIST's remap counts, and the pages leave reset; an Ethernet square waits while it sends; a failing BIST leaves a square in reset. POWER_ON_RESET while RESET_N is low, RESET_N_ASSERT, RST_CMD with its key, TEST_MODE_HIGH and VDD_AO_LOSS complete. -/
def Obligations.BlockAndSquareResets : Prop :=
  (∀ (s : State) (w : Nat) (v : Word), 
    s.chip.passes .recovery = true →
    fld v 31 16 ≠ 0x4252 →
    exec (.blkRst w v) s = .next s) ∧
  (∀ (s : State) (w p : Nat) (v : Word), 
    s.chip.passes .recovery = true →
    fld v 31 16 = 0x4252 ∧ fld v 11 0 = p ∧ s.chip.implemented p = true ∧ s.chip.owner p ≠ w ∧ w < 4 →
    ∃ d, exec (.blkRst w v) s = .next { s with chip := d } ∧
      d.reg (Reg.PART.DENY_CNT w) = sat32 ((s.chip.reg (Reg.PART.DENY_CNT w)).toNat + 1) ∧ s.chip.keeps d [Reg.PART.DENY_CNT w, hIrqStat (0x008 + w)] ∧ d = { s.chip with regs := d.regs, parts := d.parts, out := d.out, pba := d.pba }) ∧
  (∀ (s : State) (w p : Nat) (v : Word), 
    s.chip.passes .recovery = true →
    fld v 31 16 = 0x4252 ∧ fld v 11 0 = p ∧ s.chip.owner p = w ∧ (p = 0 ∨ (8 ≤ p ∧ p ≤ 11) ∨ s.chip.implemented p = false ∨ (s.chip.journalOwner p).isSome = true) →
    ∃ d, exec (.blkRst w v) s = .next { s with chip := d } ∧
      d.bitOf (hErr 0) 7 = true ∧ s.chip.keeps d [hErr 0, hIrqStat 0] ∧ d = { s.chip with regs := d.regs, out := d.out, pba := d.pba }) ∧
  (∀ (s : State) (w p : Nat) (v : Word), 
    s.chip.passes .recovery = true →
    fld v 31 16 = 0x4252 ∧ fld v 11 0 = p ∧ p = 0x0B1 ∧ s.chip.implemented p = true ∧ s.chip.owner p = w ∧ s.chip.journalOwner p = none ∧ s.chip.held p = false →
    ∃ d, exec (.blkRst w v) s = .next { s with chip := d } ∧
      d.host.bnlKeys = [] ∧ d.host.peerKey = [] ∧ d.reg Reg.BNL.TX_SEQ = 1 ∧ d.reg Reg.BNL.CTRL = resetOf Reg.BNL.CTRL ∧ d.reg Reg.BNL.RX_OK = 0 ∧ d.owner 0x0B1 = w ∧
      d.host.leases = s.chip.host.leases ∧ d.fab = s.chip.fab ∧ d.castle = s.chip.castle) ∧
  (∀ (s : State) (w p : Nat) (v : Word), 
    s.chip.passes .recovery = true →
    fld v 31 16 = 0x4252 ∧ fld v 11 0 = p ∧ s.chip.implemented p = true ∧ p ≠ 0 ∧ (p < 8 ∨ 11 < p) ∧ s.chip.owner p = w ∧ s.chip.journalOwner p = none ∧ s.chip.held p = true →
    exec (.blkRst w v) s = .next s) ∧
  (∀ (s : State) (w p q : Nat) (v : Word), 
    s.chip.passes .recovery = true →
    fld v 31 16 = 0x4252 ∧ fld v 11 0 = p ∧ p = 0x100 + q ∧ q < 40 ∧ s.chip.implemented p = true ∧ s.chip.owner p = w ∧ s.chip.journalOwner p = none ∧ s.chip.held p = false ∧ (s.chip.canSq q).onBus.isSome = true →
    ∃ d, exec (.blkRst w v) s = .next { s with chip := d } ∧
      (d.canSq q).resetReq = true ∧ (lookupKey d.inReset (pSq q)).isSome = true ∧ (lookupKey d.inReset (pStg q)).isSome = true ∧ d = { s.chip with inReset := d.inReset, can := d.can }) ∧
  (∀ (s : State) (w p q : Nat) (v : Word), 
    s.chip.passes .recovery = true →
    fld v 31 16 = 0x4252 ∧ fld v 11 0 = p ∧ p = 0x100 + q ∧ q < 40 ∧ s.chip.implemented p = true ∧ s.chip.owner p = w ∧ s.chip.journalOwner p = none ∧ s.chip.held p = false ∧ (s.chip.canSq q).onBus = none →
    ∃ d, exec (.blkRst w v) s = .next { s with chip := d } ∧
      (d.canSq q).resetReq = true ∧ (lookupKey d.inReset (pSq q)).isSome = true ∧ (lookupKey d.inReset (pStg q)).isSome = true ∧ d.reg (Reg.CAN.CTRL q) = resetOf (Reg.CAN.CTRL q) ∧ d.reg (Reg.STG.WR_PTR q) = resetOf (Reg.STG.WR_PTR q) ∧
      (d.stgSq q).pkts = [] ∧ (d.canSq q).cls = [] ∧ d.eth = s.chip.eth ∧ d.castle = s.chip.castle) ∧
  (∀ (s : State) (w p q : Nat) (v : Word), 
    s.chip.passes .recovery = true →
    fld v 31 16 = 0x4252 ∧ fld v 11 0 = p ∧ p = 0x100 + q ∧ 40 ≤ q ∧ q < 64 ∧ s.chip.implemented p = true ∧ s.chip.owner p = w ∧ s.chip.journalOwner p = none ∧ s.chip.held p = false ∧ (s.chip.ethSq q).resetAt = none →
    ∃ d, exec (.blkRst w v) s = .next { s with chip := d } ∧
      (d.ethSq q).resetAt = some s.chip.now ∧ (lookupKey d.inReset (pSq q)).isSome = true ∧ (lookupKey d.inReset (pStg q)).isSome = true ∧
      (48 ≤ q → (lookupKey d.inReset (pSec q)).isSome = true ∧ (lookupKey d.inReset (pSds q)).isSome = true) ∧ d = { s.chip with inReset := d.inReset, eth := d.eth }) ∧
  (∀ (s : State) (q a b : Nat), 
    s.chip.passes .recovery = true →
    q < 40 ∧ (s.chip.canSq q).resetReq = true ∧ (s.chip.canSq q).onBus = none ∧ a ≤ 8 ∧ b ≤ 8 →
    ∃ d, exec (.canSquareReset q a b) s = .next { s with chip := d } ∧
      d.reg (Reg.CAN.CTRL q) = resetOf (Reg.CAN.CTRL q) ∧ d.reg (Reg.STG.WR_PTR q) = resetOf (Reg.STG.WR_PTR q) ∧ (d.stgSq q).pkts = [] ∧ (d.canSq q).resetReq = false ∧ (d.canSq q).cls = [] ∧
      lookupKey d.inReset (pSq q) = none ∧ lookupKey d.inReset (pStg q) = none ∧ d.fldOf (Reg.MEM.INST_STAT q) 19 16 = a ∧ d.fldOf (Reg.MEM.INST_STAT (0x60 + q)) 19 16 = b ∧
      d.castle = s.chip.castle ∧ d.eth = s.chip.eth) ∧
  (∀ (s : State) (q a b : Nat), 
    s.chip.passes .recovery = true →
    q < 40 ∧ (s.chip.canSq q).resetReq = true ∧ (s.chip.canSq q).onBus = none ∧ 8 < a ∧ b ≤ 8 →
    ∃ d, exec (.canSquareReset q a b) s = .next { s with chip := d } ∧
      d.bitOf (Reg.MEM.INST_STAT q) 15 = true ∧ d.bitOf (hIrqStat 0x080) 4 = true ∧ d.can = s.chip.can ∧ d.inReset = s.chip.inReset ∧ d = { s.chip with regs := d.regs, out := d.out, pba := d.pba, mem := d.mem }) ∧
  (∀ (s : State) (q a b t : Nat), 
    s.chip.passes .recovery = true →
    40 ≤ q ∧ q < 64 ∧ (s.chip.ethSq q).resetAt = some t ∧ ((s.chip.ethSq q).tx = none ∨ t + 10 * fsUs ≤ s.chip.now) ∧ a ≤ 8 ∧ b ≤ 8 →
    ∃ d, exec (.ethSquareReset q a b) s = .next { s with chip := d } ∧
      d.reg (Reg.ETH.CTRL q) = resetOf (Reg.ETH.CTRL q) ∧ d.reg (Reg.STG.WR_PTR q) = resetOf (Reg.STG.WR_PTR q) ∧ (d.stgSq q).pkts = [] ∧ d.ethSq q = {} ∧
      lookupKey d.inReset (pSq q) = none ∧ lookupKey d.inReset (pStg q) = none ∧ (48 ≤ q → lookupKey d.inReset (pSec q) = none ∧ lookupKey d.inReset (pSds q) = none) ∧
      d.fldOf (Reg.MEM.INST_STAT q) 19 16 = a ∧ d.fldOf (Reg.MEM.INST_STAT (0x60 + q)) 19 16 = b ∧ d.bitOf Reg.GAMBIT.UCODE_PEND (q - 40) = false ∧ d.castle = s.chip.castle ∧ d.can = s.chip.can) ∧
  (∀ (s : State) (q a b t : Nat), 
    s.chip.passes .recovery = true →
    40 ≤ q ∧ q < 64 ∧ (s.chip.ethSq q).resetAt = some t ∧ (s.chip.ethSq q).tx.isSome = true ∧ s.chip.now < t + 10 * fsUs →
    exec (.ethSquareReset q a b) s = .next s) ∧
  (∀ (s : State) (env : StartEnv), 
    s.chip.power.resetLow = true ∧ s.chip.otp.supervisor = 0 →
    ∃ d, exec (.powerOnReset env) s = .next { s with chip := d } ∧
      d.power.mode = .held ∧ d.castle.slots = [] ∧ d.castle.root = none) ∧
  (∀ (s : State), 
    s.chip.awake = true ∧ s.chip.power.resetLow = false →
    ∃ d, exec .resetNAssert s = .next { s with chip := d } ∧
      d.power.mode = .held ∧ d.castle.slots = [] ∧ d.castle.root = none) ∧
  (∀ (s : State) (w : Nat) (env : StartEnv), 
    s.chip.passes .recovery = true →
    s.chip.accepts w Reg.GLB.RST_CMD = true ∧ s.chip.power.resetLow = false ∧ s.chip.power.brownout = false ∧ (s.chip.power.testMode = false ∨ s.chip.otp.lc = 0) →
    exec (.rstCmd w 0x52530001 env) s = .next { s with chip := ((s.chip.resetCore .cold).resetCause 3).startUp env }) ∧
  (∀ (s : State) (env : StartEnv), 
    s.chip.awake = true ∧ s.chip.otp.lc ≠ 0 →
    ∃ d, exec (.testModeHigh true env) s = .next { s with chip := d } ∧
      d.power.mode = .held ∧ d.castle.slots = [] ∧ d.castle.root = none) ∧
  (∀ (s : State), 
    s.chip.otp.supervisor = 0 →
    ∃ d, exec .vddAoLoss s = .next { s with chip := d } ∧
      d.power.mode = .off)

/-- The loss of the reference in use switches to the other with AUTO, counted in REF_SWITCHES; of the other one it changes only its flag; of both it puts HOLD_RATE to 20,000 and turns lock into HOLDOVER, until the first return restores HOLD_RATE and is selected. REVERT returns to REFCLK_A once it has been present for 10 s. REF_CTRL's SEL switches, and a write that names a lost reference is discarded with PAGE_ERR.BLOCK. -/
def Obligations.ReferenceClockCommands : Prop :=
  (∀ (s : State) (r : Nat), 
    s.chip.awake = true ∧ r < 2 ∧ s.chip.refLost r = false ∧ s.chip.refLost (1 - r) = false ∧ s.chip.refInUse = r ∧ s.chip.bitOf Reg.GLB.REF_CTRL 0 = true →
    ∃ d, exec (.refclkLoss r) s = .next { s with chip := d } ∧
      d.refLost r = true ∧ d.refLost (1 - r) = false ∧ d.refInUse = 1 - r ∧ d.reg Reg.GLB.REF_SWITCHES = sat32 ((s.chip.reg Reg.GLB.REF_SWITCHES).toNat + 1) ∧ d.bitOf (hIrqStat 0) 1 = true ∧ d.bitOf (hIrqStat 0) 2 = true ∧
      s.chip.keeps d [Reg.GLB.REF_STAT, Reg.GLB.REF_SWITCHES, hIrqStat 0] ∧ d = { s.chip with regs := d.regs, power := d.power, out := d.out, pba := d.pba }) ∧
  (∀ (s : State) (r : Nat), 
    s.chip.awake = true ∧ r < 2 ∧ s.chip.refLost r = false ∧ s.chip.refLost (1 - r) = false ∧ s.chip.refInUse ≠ r →
    ∃ d, exec (.refclkLoss r) s = .next { s with chip := d } ∧
      d.refLost r = true ∧ d.refInUse = s.chip.refInUse ∧ d.reg Reg.GLB.REF_SWITCHES = s.chip.reg Reg.GLB.REF_SWITCHES ∧ s.chip.keeps d [Reg.GLB.REF_STAT, hIrqStat 0]) ∧
  (∀ (s : State) (r : Nat), 
    s.chip.awake = true ∧ r < 2 ∧ s.chip.refLost r = false ∧ s.chip.refLost (1 - r) = true ∧ s.chip.bitOf Reg.TAMPER.LIVE 7 = true →
    ∃ d, exec (.refclkLoss r) s = .next { s with chip := d } ∧
      d.bothLost = true ∧ d.fldOf Reg.TEMPO.HOLD_CFG 15 0 = 20000 ∧ d.power.holdRateSaved = some (s.chip.fldOf Reg.TEMPO.HOLD_CFG 15 0) ∧ (s.chip.tempoState = 2 → d.tempoState = 1) ∧
      (s.chip.tempoState ≠ 2 → d.tempoState = s.chip.tempoState) ∧ d.refInUse = s.chip.refInUse) ∧
  (∀ (s : State) (r h : Nat), 
    s.chip.awake = true ∧ r < 2 ∧ s.chip.refLost r = true ∧ s.chip.bothLost = true ∧ s.chip.power.holdRateSaved = some h ∧ h < 65536 →
    ∃ d, exec (.refclkReturn r) s = .next { s with chip := d } ∧
      d.refLost r = false ∧ d.bothLost = false ∧ d.refInUse = r ∧ d.fldOf Reg.TEMPO.HOLD_CFG 15 0 = h ∧ d.power.holdRateSaved = none ∧ d.bitOf Reg.TAMPER.LIVE 7 = false ∧
      d = { s.chip with regs := d.regs, power := d.power, out := d.out, pba := d.pba }) ∧
  (∀ (s : State) (r : Nat), 
    s.chip.awake = true ∧ r < 2 ∧ s.chip.refLost r = true ∧ s.chip.bothLost = false →
    ∃ d, exec (.refclkReturn r) s = .next { s with chip := d } ∧
      d.refLost r = false ∧ d.refInUse = s.chip.refInUse ∧ (r = 0 → d.power.refASince = some s.chip.now) ∧ s.chip.keeps d [Reg.GLB.REF_STAT] ∧ d = { s.chip with regs := d.regs, power := d.power }) ∧
  (∀ (s : State) (t : Nat), 
    s.chip.awake = true ∧ s.chip.power.refASince = some t ∧ s.chip.bitOf Reg.GLB.REF_CTRL 1 = true ∧ s.chip.refLost 0 = false ∧ t + 10 * fsSec ≤ s.chip.now ∧ s.chip.refInUse = 1 →
    ∃ d, exec .refclkRevert s = .next { s with chip := d } ∧
      d.refInUse = 0 ∧ d.reg Reg.GLB.REF_SWITCHES = sat32 ((s.chip.reg Reg.GLB.REF_SWITCHES).toNat + 1) ∧ s.chip.keeps d [Reg.GLB.REF_STAT, Reg.GLB.REF_SWITCHES, hIrqStat 0] ∧ d = { s.chip with regs := d.regs, out := d.out, pba := d.pba }) ∧
  (∀ (s : State) (w : Nat) (v : Word), 
    s.chip.passes .recovery = true →
    s.chip.accepts w Reg.GLB.REF_CTRL = true ∧ s.chip.refLost (fld v 4 4) = false →
    ∃ d, exec (.refCtrlWrite w v 0xF) s = .next { s with chip := d } ∧
      d.refInUse = fld v 4 4 ∧ d.fldOf Reg.GLB.REF_CTRL 1 0 = fld v 1 0 ∧ d.reg Reg.GLB.REF_SWITCHES = (if s.chip.refInUse = fld v 4 4 then s.chip.reg Reg.GLB.REF_SWITCHES else sat32 ((s.chip.reg Reg.GLB.REF_SWITCHES).toNat + 1)) ∧
      d = { s.chip with regs := d.regs, out := d.out, pba := d.pba }) ∧
  (∀ (s : State) (w : Nat) (v : Word), 
    s.chip.passes .recovery = true →
    s.chip.accepts w Reg.GLB.REF_CTRL = true ∧ s.chip.refLost (fld v 4 4) = true →
    ∃ d, exec (.refCtrlWrite w v 0xF) s = .next { s with chip := d } ∧
      d.bitOf (hErr 0) 7 = true ∧ s.chip.keeps d [hErr 0, hIrqStat 0] ∧ d = { s.chip with regs := d.regs, out := d.out, pba := d.pba })

/-- An unsigned life-cycle request in the order of the table fuses the state, counts a return, and runs the life-cycle reset with LC_STAT OK; one that needs a Skovoc signature does so exactly with it and ends BAD_SIGNATURE without; any other request, any under RESIGN_PERM but DECOMMISSIONED, and any in DECOMMISSIONED ends NOT_ALLOWED. That LC_STAT shows OK after the reset is the model's reading, log entry 15. -/
def Obligations.LifeCycleRequests : Prop :=
  (∀ (s : State) (w : Nat) (env : StartEnv), 
    s.chip.passes .recovery = true →
    s.chip.accepts w Reg.GLB.LC_CMD = true ∧ s.chip.otp.lc = 0 ∧ s.chip.otp.resignPerm = false →
    exec (.lcProvisioned w env) s = .next { s with chip := (((Chip.resetCore { s.chip with otp := { s.chip.otp with lc := 1, returns := s.chip.otp.returns, wipePending := true } } .lifeCycle).resetCause 5).startIfFree env).lcStat 1 }) ∧
  (∀ (s : State) (w : Nat) (env : StartEnv), 
    s.chip.passes .recovery = true →
    s.chip.accepts w Reg.GLB.LC_CMD = true ∧ s.chip.otp.lc = 1 ∧ s.chip.otp.resignPerm = false →
    exec (.lcField w env) s = .next { s with chip := (((Chip.resetCore { s.chip with otp := { s.chip.otp with lc := 2, returns := s.chip.otp.returns, wipePending := true } } .lifeCycle).resetCause 5).startIfFree env).lcStat 1 }) ∧
  (∀ (s : State) (w : Nat) (env : StartEnv), 
    s.chip.passes .recovery = true →
    s.chip.accepts w Reg.GLB.LC_CMD = true ∧ s.chip.otp.lc ≠ 4 →
    exec (.lcDecommissioned w env) s = .next { s with chip := (((Chip.resetCore { s.chip with otp := { s.chip.otp with lc := 4, returns := s.chip.otp.returns, wipePending := true } } .lifeCycle).resetCause 5).startIfFree env).lcStat 1 }) ∧
  (∀ (s : State) (w : Nat) (env : StartEnv), 
    s.chip.passes .recovery = true →
    s.chip.accepts w Reg.GLB.LC_CMD = true ∧ s.chip.otp.lc = 2 ∧ s.chip.otp.resignPerm = false →
    ∃ d, exec (.lcReturn w env) s = .next { s with chip := d } ∧
      (s.chip.lcSignature 3 = true → d = (((Chip.resetCore { s.chip with otp := { s.chip.otp with lc := 3, returns := s.chip.otp.returns, wipePending := true } } .lifeCycle).resetCause 5).startIfFree env).lcStat 1) ∧
      (s.chip.lcSignature 3 = false → d.reg Reg.GLB.LC_STAT = 3 ∧ d.bitOf (hIrqStat 0) 0 = true ∧ s.chip.keeps d [Reg.GLB.LC_STAT, hIrqStat 0] ∧ d.otp = s.chip.otp)) ∧
  (∀ (s : State) (w : Nat) (env : StartEnv), 
    s.chip.passes .recovery = true →
    s.chip.accepts w Reg.GLB.LC_CMD = true ∧ s.chip.otp.lc = 3 ∧ s.chip.otp.returns < 3 ∧ s.chip.otp.resignPerm = false →
    ∃ d, exec (.lcProvisioned w env) s = .next { s with chip := d } ∧
      (s.chip.lcSignature 1 = true → d = (((Chip.resetCore { s.chip with otp := { s.chip.otp with lc := 1, returns := s.chip.otp.returns + 1, wipePending := true } } .lifeCycle).resetCause 5).startIfFree env).lcStat 1) ∧
      (s.chip.lcSignature 1 = false → d.reg Reg.GLB.LC_STAT = 3 ∧ d.bitOf (hIrqStat 0) 0 = true ∧ s.chip.keeps d [Reg.GLB.LC_STAT, hIrqStat 0] ∧ d.otp = s.chip.otp)) ∧
  (∀ (s : State) (w : Nat) (env : StartEnv), 
    s.chip.passes .recovery = true →
    s.chip.accepts w Reg.GLB.LC_CMD = true ∧ (s.chip.otp.lc ≠ 1 ∨ s.chip.otp.resignPerm = true) →
    ∃ d, exec (.lcField w env) s = .next { s with chip := d } ∧
      d.reg Reg.GLB.LC_STAT = 2 ∧ d.bitOf (hIrqStat 0) 0 = true ∧ s.chip.keeps d [Reg.GLB.LC_STAT, hIrqStat 0] ∧ d = { s.chip with regs := d.regs, out := d.out, pba := d.pba }) ∧
  (∀ (s : State) (w : Nat) (env : StartEnv), 
    s.chip.passes .recovery = true →
    s.chip.accepts w Reg.GLB.LC_CMD = true ∧ s.chip.otp.lc = 4 →
    ∃ d, exec (.lcDecommissioned w env) s = .next { s with chip := d } ∧
      d.reg Reg.GLB.LC_STAT = 2 ∧ d = { s.chip with regs := d.regs, out := d.out, pba := d.pba })

/-- While the part is neither asleep nor off, TRST returns the port to IDCODE, BYPASS, SAMPLE/PRELOAD, EXTEST, IDCODE, CLAMP and HIGHZ come into force; EXTEST and CLAMP drive the balls from the boundary register, HIGHZ floats them, IDCODE shifts out 0x26400A5B. While the part is asleep or off nothing changes. -/
def Obligations.TestAccessPortCommands : Prop :=
  (∀ (s : State), 
    s.chip.tapOn = true →
    exec .jtagTrst s = .next { s with chip := { s.chip with tap := { instr := 0, preload := [] } } }) ∧
  (∀ (s : State), 
    s.chip.tapOn = true →
    exec .jtagBypass s = .next { s with chip := { s.chip with tap := { instr := 1, preload := s.chip.tap.preload } } }) ∧
  (∀ (s : State) (bits : List Bool), 
    s.chip.tapOn = true →
    exec (.jtagSamplePreload bits) s = .next { s with chip := { s.chip with tap := { instr := 2, preload := bits } } }) ∧
  (∀ (s : State), 
    s.chip.tapOn = true →
    exec .jtagExtest s = .next { s with chip := { s.chip with tap := { instr := 3, preload := s.chip.tap.preload }, out := s.chip.out ++ [{ kind := .ball, unit := 0, arg := 1, data := s.chip.tap.preload.map fun b => if b then 1 else 0 }] } }) ∧
  (∀ (s : State), 
    s.chip.tapOn = true →
    exec .jtagIdcode s = .next { s with chip := { s.chip with tap := { instr := 0, preload := s.chip.tap.preload }, out := s.chip.out ++ [{ kind := .jtag, unit := 0, data := [0x5B, 0x0A, 0x40, 0x26] }] } }) ∧
  (∀ (s : State), 
    s.chip.tapOn = true →
    exec .jtagClamp s = .next { s with chip := { s.chip with tap := { instr := 4, preload := s.chip.tap.preload }, out := s.chip.out ++ [{ kind := .ball, unit := 0, arg := 1, data := s.chip.tap.preload.map fun b => if b then 1 else 0 }] } }) ∧
  (∀ (s : State), 
    s.chip.tapOn = true →
    exec .jtagHighz s = .next { s with chip := { s.chip with tap := { instr := 5, preload := s.chip.tap.preload }, out := s.chip.out ++ [{ kind := .ball, unit := 0, arg := 0 }] } }) ∧
  (∀ (s : State) (bits : List Bool), 
    s.chip.asleep = true ∨ s.chip.power.mode = .off →
    exec (.jtagSamplePreload bits) s = .next s)

/-- For every command i and every state s: the step of s with i at the front of its queue, and the rest behind it, is exec of i on s with the queue's rest. How commands wait, first in and first out, is the model's own form (notes/assumptions/2.md); that software is serviced by these commands is the spec's. -/
def Obligations.StepRunsTheFrontCommand : Prop :=
  ∀ (s : State) (i : Instr) (rest : List Instr), step { s with pending := i :: rest } = exec i { s with pending := rest }

/-- On an empty queue a step answers a next state that differs only in the part: doTick. In ADJOURNED and while the part is held the always-on clock takes one tick of 30,517,578,125 fs; while the part is off only elapsed time passes. That an idle step is a tick is the model's choice, log entry 2. -/
def Obligations.IdleStepIsOneTick : Prop :=
  (∀ (s : State), 
    s.pending = [] →
    step s = .next { s with chip := doTick s.chip }) ∧
  (∀ (s : State), 
    s.pending = [] ∧ s.chip.power.mode = .held →
    ∃ d, step s = .next { s with chip := d } ∧
      d.now = s.chip.now + 30517578125 ∧ d.tempo.ao = (s.chip.tempo.ao + (s.chip.tempo.aoFs + 30517578125) / 30517578125) % 2 ^ 48 ∧ d = { s.chip with now := d.now, tempo := d.tempo }) ∧
  (∀ (s : State), 
    s.pending = [] ∧ s.chip.power.mode = .off →
    step s = .next { s with chip := { s.chip with now := s.chip.now + 30517578125 } })

/-- No command of the part faults or is refused in the model: for every command i and state s there is a part d with exec i s = next of s with part d. The queue of waiting commands is never changed by a command. -/
def Obligations.EveryCommandAnswers : Prop :=
  ∀ (i : Instr) (s : State), ∃ d, exec i s = .next { s with chip := d }

/-- Right after reset every register reads the reset value of its page map (R63: ALARM_EN 0x7FF; R380: UNDEC_LIM 3 and UNDEC_WIN 10; R516 and R528: TX_SEQ 1, ETYPE 0x88B5, RATE 0x07D00040; R527: TIMEOUT and SEM_HOLD 10,000), every page but PART(k) and HDMA(k) belongs to the supervisor, partition 0 of an unprogrammed part, every table word is zero, the Castle holds no key and no queue holds anything. That flash and OTP are empty, and that the queue of commands is empty, are the model's choices, log entries 1 and 2. -/
def Obligations.ResetStateValues : Prop :=
  State.reset.pending = [] ∧ (∀ a, State.reset.chip.reg a = resetOf a) ∧ (∀ off, State.reset.chip.tword off = 0) ∧
  State.reset.chip.supervisor = 0 ∧ (∀ p, State.reset.chip.owner p = (if 0x008 ≤ p ∧ p < 0x00C then p - 0x008 else if 0x0C0 ≤ p ∧ p < 0x0C4 then p - 0x0C0 else 0)) ∧
  State.reset.chip.reg Reg.GLB.ALARM_EN = 0x7FF ∧ State.reset.chip.fldOf Reg.ADJ.UNDEC_CFG 7 0 = 3 ∧ State.reset.chip.fldOf Reg.ADJ.UNDEC_CFG 31 16 = 10 ∧
  State.reset.chip.reg Reg.BNL.TX_SEQ = 1 ∧ State.reset.chip.reg Reg.BNL.ETYPE = 0x88B5 ∧ State.reset.chip.reg Reg.BNL.RATE = 0x07D00040 ∧
  State.reset.chip.reg Reg.BRG.TIMEOUT = 10000 ∧ State.reset.chip.reg Reg.BRG.SEM_HOLD = 10000 ∧
  State.reset.chip.castle.slots = [] ∧ State.reset.chip.castle.root = none ∧ State.reset.chip.fab.copies = [] ∧ State.reset.chip.pawn.queue = [] ∧ State.reset.chip.cx.jobs = []

/-- At reset the register map and the table map are in their canonical form, and the supervisor and the OTP's supervisor are partitions 0 to 3. That the maps are held in one canonical form is the model's own form; the premise of StepKeepsTheStateSound is met at reset. -/
def Obligations.ResetStateIsSound : Prop :=
  State.reset.chip.sound

/-- For every state whose register map and table map are canonical (addresses rising, no entry equal to what an unlisted address reads as) and whose supervisor and OTP supervisor are partitions 0 to 3: if a step answers a next state, that state is sound too. The statement holds in states that no run reaches. -/
def Obligations.StepKeepsTheStateSound : Prop :=
  (∀ (s t : State), 
    s.chip.sound →
    step s = .next t →
    t.chip.sound)

/-- For every command other than those that come from outside the core or act in the always-on domain (resets, rails, references, wake sources, tamper sensors, the alarm hold and the test access port): if the part is asleep, held in reset or off, exec leaves the whole state as it is. With the core running but boot stopped in RECOVERY or before, only those and the commands of RECOVERY act. That a command which cannot act is taken without effect is the model's choice, log entry 3. -/
def Obligations.OnlyAlwaysActingCommandsReachASleepingPart : Prop :=
  (∀ (s : State) (i : Instr), 
    s.chip.awake = false ∧ alwaysActs i = false →
    exec i s = .next s) ∧
  (∀ (s : State) (i : Instr), 
    s.chip.fldOf Reg.GLB.BOOT_STAT 3 0 = 14 ∧ alwaysActs i = false →
    exec i s = .next s) ∧
  (∀ (s : State) (i : Instr), 
    s.chip.fldOf Reg.GLB.BOOT_STAT 3 0 = 15 ∧ alwaysActs i = false ∧ recoveryActs i = false →
    exec i s = .next s)

/-- For every state in which the part is off, and every step from it: the part is still off unless the command at the front of the queue is POWER_ON_RESET. The OTP keeps its contents meanwhile. -/
def Obligations.OffIsLeftOnlyByPowerOn : Prop :=
  (∀ (s t : State), 
    s.chip.power.mode = .off →
    step s = .next t →
    (∀ env, s.pending.head? ≠ some (.powerOnReset env)) →
    t.chip.power.mode = .off ∧ t.chip.otp = s.chip.otp)

/-- For every state in which the part is held in reset and every step from it: if the part is then neither held nor off, the command was POWER_ON_RESET with RESET_N high, the rails in range and no TEST_MODE hold; or RESET_N_RELEASE, BROWNOUT_RELEASE or TEST_MODE going low with neither of the other two causes present. R589's hold applies in every life-cycle state but MANUFACTURE. -/
def Obligations.HeldPartStartsOnlyWhenReleased : Prop :=
  (∀ (s t : State), 
    s.chip.power.mode = .held →
    step s = .next t →
    t.chip.power.mode ≠ .held ∧ t.chip.power.mode ≠ .off →
    ((∃ env, s.pending.head? = some (.powerOnReset env)) ∧ s.chip.resetHeld = false) ∨
    ((∃ env, s.pending.head? = some (.resetNRelease env)) ∧ s.chip.power.resetLow = true ∧ s.chip.power.brownout = false ∧ (s.chip.power.testMode = false ∨ s.chip.otp.lc = 0)) ∨
    ((∃ env, s.pending.head? = some (.brownoutRelease env)) ∧ s.chip.power.brownout = true ∧ s.chip.power.resetLow = false ∧ (s.chip.power.testMode = false ∨ s.chip.otp.lc = 0)) ∨
    ((∃ env, s.pending.head? = some (.testModeHigh false env)) ∧ s.chip.power.resetLow = false ∧ s.chip.power.brownout = false))

/-- R567: BROWNOUT of the running part holds it in reset with RST_CAUSE.BROWNOUT set. While the brown-out lasts, every step but the loss of VDD_AO leaves the part held, unless BROWNOUT_RELEASE (every rail back for 1 ms) comes. BROWNOUT_RELEASE then starts the part exactly as RESET_N_RELEASE starts it from the same state held by RESET_N instead. -/
def Obligations.BrownoutHoldsThePart : Prop :=
  (∀ (s : State), 
    s.chip.awake = true →
    ∃ d, exec .brownout s = .next { s with chip := d } ∧
      d.power.mode = .held ∧ d.power.brownout = true ∧ d.bitOf Reg.GLB.RST_CAUSE 4 = true) ∧
  (∀ (s t : State) (i : Instr), 
    s.chip.power.mode = .held ∧ s.chip.power.brownout = true ∧ i ≠ .vddAoLoss →
    (∀ env, i ≠ .brownoutRelease env) →
    exec i s = .next t →
    t.chip.power.mode = .held ∧ t.chip.power.brownout = true) ∧
  (∀ (s : State) (env : StartEnv), 
    s.chip.power.mode = .held ∧ s.chip.power.brownout = false ∧ s.chip.power.resetLow = false →
    exec (.brownoutRelease env) { s with chip := s.chip.setPower { s.chip.power with brownout := true } } = exec (.resetNRelease env) { s with chip := s.chip.setPower { s.chip.power with resetLow := true } })

/-- For every state in which the part is asleep, held or off and the Castle holds no key and no root: after any step that leaves the core not running, the Castle still holds none. With it, entering ADJOURNED and every core reset leave none (AdjournedEntryAndHandover, CoreResets). -/
def Obligations.NoKeyAppearsWhileTheCoreStands : Prop :=
  (∀ (s t : State), 
    s.chip.awake = false ∧ s.chip.castle.slots = [] ∧ s.chip.castle.root = none →
    step s = .next t →
    t.chip.awake = false →
    t.chip.castle.slots = [] ∧ t.chip.castle.root = none)

/-- RESET_N_RELEASE of a part that nothing else holds: the core runs in PLAY with WAKE_OUT high, RESET_N is no longer low, and the OTP's life-cycle state is what it was. Where no set has firmware that verifies, boot stops in RECOVERY, BOOT_STAT.PHASE 0xF. That the start-up is one atomic step is the model's choice, log entry 14. -/
def Obligations.StartUpRunsTheCore : Prop :=
  (∀ (s : State) (env : StartEnv), 
    s.chip.power.resetLow = true ∧ s.chip.power.mode = .held ∧ s.chip.power.brownout = false ∧ (s.chip.power.testMode = false ∨ s.chip.otp.lc = 0) →
    ∃ d, exec (.resetNRelease env) s = .next { s with chip := d } ∧
      d.power.mode = .play ∧ d.power.wakeOut = true ∧ d.power.resetLow = false ∧ d.otp.lc = s.chip.otp.lc ∧
      (env.fwA = false ∧ env.fwB = false → d.inRecovery = true))

/-- WAKE_EVENT of a part that sleeps and has fired: the core runs in PLAY with WAKE_OUT high, the wake event is used up, and the OTP's life-cycle state is what it was. That the wake is one atomic step is the model's choice, log entry 14. -/
def Obligations.WakeRunsTheCore : Prop :=
  (∀ (s : State) (env : StartEnv), 
    s.chip.asleep = true ∧ s.chip.power.woken = true ∧ s.chip.power.entering = none →
    ∃ d, exec (.wakeEvent env) s = .next { s with chip := d } ∧
      d.power.mode = .play ∧ d.power.wakeOut = true ∧ d.power.woken = false ∧ d.power.entering = none ∧ d.otp.lc = s.chip.otp.lc)

/-- A read of an absent page, or of an unimplemented offset, returns 0, the latter with PAGE_ERR.UNIMPL. PAGE_ID, PAGE_CAPS, PAGE_OWNER and PAGE_STATUS are read by every partition. A block register without a bank is read by owner and supervisor, and by others only with READ_SHARE; otherwise the data is 0 and the denial is counted. While the page's block is in reset, a register that may be read reads as its reset value. The effect of reads is stated of hostRead, through which Benolsia's READ reads. WIDE_READ_REJECT sets PAGE_ERR.WIDE of the page, and the owner's DENY_POP takes the oldest entry into the echo register. -/
def Obligations.ReadsFollowOwnership : Prop :=
  (∀ (c : Chip) (k a : Nat), 
    c.implemented (a / 0x1000) = false ∧ bankOf a = none →
    c.hostRead k a = (0, c)) ∧
  (∀ (c : Chip) (k a : Nat), 
    c.implemented (a / 0x1000) = true ∧ 0x30 ≤ a % 0x1000 ∧ rowOf a = none →
    (c.hostRead k a).1 = 0 ∧ (c.hostRead k a).2.bitOf (hErr (a / 0x1000)) 1 = true) ∧
  (∀ (c : Chip) (k a : Nat), 
    c.implemented (a / 0x1000) = true ∧ a % 0x1000 < 0x00C →
    c.hostRead k a = (c.reg a, c)) ∧
  (∀ (c : Chip) (k a : Nat), 
    c.implemented (a / 0x1000) = true ∧ a % 0x1000 = 0x00C →
    ∃ w, c.hostRead k a = (w, c) ∧ w.getLsbD 1 = c.held (a / 0x1000) ∧ w.getLsbD 2 = (c.reg (hErr (a / 0x1000)) != 0)) ∧
  (∀ (c : Chip) (k a : Nat), 
    c.implemented (a / 0x1000) = true ∧ 0x30 ≤ a % 0x1000 ∧ (rowOf a).isSome = true ∧ bankOf a = none ∧ pageKind (a / 0x1000) ≠ some .brg ∧ k < 4 →
    k ≠ c.owner (a / 0x1000) ∧ k ≠ c.supervisor ∧ c.bitOf (hOwner (a / 0x1000)) 16 = false →
    (c.hostRead k a).1 = 0 ∧ (c.hostRead k a).2.reg (Reg.PART.DENY_CNT k) = sat32 ((c.reg (Reg.PART.DENY_CNT k)).toNat + 1)) ∧
  (∀ (c : Chip) (k a : Nat), 
    c.implemented (a / 0x1000) = true ∧ 0x30 ≤ a % 0x1000 ∧ (rowOf a).isSome = true ∧ c.held (a / 0x1000) = true ∧ bankOf a = none ∧ pageKind (a / 0x1000) ≠ some .brg →
    k = c.owner (a / 0x1000) ∨ k = c.supervisor ∨ c.bitOf (hOwner (a / 0x1000)) 16 = true →
    c.hostRead k a = (resetOf a, c)) ∧
  (∀ (s : State) (p off n : Nat) (r : WideRead), 
    s.chip.passes .recovery = true →
    s.chip.implemented p = true ∧ p * 0x1000 + off + 4 * n ≤ 0x1000000 →
    ((pageKind p).any isVolatile = true ∧ (n ≠ 1 ∨ r.be ≠ 0xF ∨ off % 4 ≠ 0)) ∨ n = 0 ∨ 32 < n ∨ 0x1000 < off + 4 * n →
    r.part = none →
    ∃ d, exec (.wideReadReject p off n r) s = .next { s with chip := d } ∧
      d.bitOf (hErr p) 0 = true) ∧
  (∀ (s : State) (j : Nat) (seen : Bool) (e : DenyEntry) (rest : List DenyEntry), 
    s.chip.passes .recovery = true →
    j < 4 ∧ (s.chip.part j).deny = e :: rest →
    s.chip.held (0x008 + j) = false →
    ∃ d, exec (.denyPop (s.chip.owner (0x008 + j)) j seen) s = .next { s with chip := d } ∧
      (d.part j).deny = rest ∧ d.reg (hEchoData (0x008 + j)) = e.word)

/-- For every register of the squares' pages (0x100 on), and every other one whose write is no command of its own: a write to an absent page does nothing; to an unimplemented offset it sets PAGE_ERR.UNIMPL; by a partition that may not write the register it is denied, counted and, while the log has room, logged; while the block is in reset it is discarded and sets PAGE_ERR.IN_RESET_WR. In each case no other register and no other state changes. A write that may act on a plain page changes the register as its map says; PAGE_OWNER, PAGE_IRQ_FORCE and SUPV_XFER act for those who may write them; SUPV_WATCH_CHECK moves the role; ALARM_N goes high after its hold. -/
def Obligations.WritesFollowOwnership : Prop :=
  (∀ (s : State) (k a p : Nat) (v : Word) (be : Nat) (env : WriteEnv), 
    s.chip.passes .recovery = true →
    k < 4 ∧ a % 4 = 0 ∧ a < 0x1000000 ∧ 0x30 ≤ a % 0x1000 ∧ p = a / 0x1000 →
    0x100 ≤ p ∨ s.chip.ownWrite k a v be env = none →
    env.msix = none →
    s.chip.implemented p = false →
    exec (.registerWrite k a [(v, be)] env) s = .next s) ∧
  (∀ (s : State) (k a p : Nat) (v : Word) (be : Nat) (env : WriteEnv), 
    s.chip.passes .recovery = true →
    k < 4 ∧ a % 4 = 0 ∧ a < 0x1000000 ∧ 0x30 ≤ a % 0x1000 ∧ p = a / 0x1000 →
    0x100 ≤ p ∨ s.chip.ownWrite k a v be env = none →
    env.msix = none →
    s.chip.implemented p = true ∧ rowOf a = none →
    ∃ d, exec (.registerWrite k a [(v, be)] env) s = .next { s with chip := d } ∧
      d.bitOf (hErr p) 1 = true ∧ s.chip.keeps d [hErr p, hIrqStat p] ∧ d = { s.chip with regs := d.regs, out := d.out, pba := d.pba }) ∧
  (∀ (s : State) (k a p : Nat) (v : Word) (be : Nat) (env : WriteEnv), 
    s.chip.passes .recovery = true →
    k < 4 ∧ a % 4 = 0 ∧ a < 0x1000000 ∧ 0x30 ≤ a % 0x1000 ∧ p = a / 0x1000 →
    0x100 ≤ p ∨ s.chip.ownWrite k a v be env = none →
    env.msix = none →
    s.chip.implemented p = true ∧ (rowOf a).isSome = true ∧ s.chip.mayWrite k a = false →
    ∃ d, exec (.registerWrite k a [(v, be)] env) s = .next { s with chip := d } ∧
      d.reg (Reg.PART.DENY_CNT k) = sat32 ((s.chip.reg (Reg.PART.DENY_CNT k)).toNat + 1) ∧ d.bitOf (hIrqStat (0x008 + k)) 0 = true ∧
      ((s.chip.part k).deny.length < 16 → (d.part k).deny = (s.chip.part k).deny ++ [{ write := true, bar2 := false, page := p, off := a % 0x1000, time := s.chip.ns }]) ∧
      ((s.chip.part k).deny.length ≥ 16 → d.parts = s.chip.parts) ∧
      s.chip.keeps d [Reg.PART.DENY_CNT k, hIrqStat (0x008 + k)] ∧ d = { s.chip with regs := d.regs, parts := d.parts, out := d.out, pba := d.pba }) ∧
  (∀ (s : State) (k a p : Nat) (v : Word) (be : Nat) (env : WriteEnv), 
    s.chip.passes .recovery = true →
    k < 4 ∧ a % 4 = 0 ∧ a < 0x1000000 ∧ 0x30 ≤ a % 0x1000 ∧ p = a / 0x1000 →
    0x100 ≤ p ∨ s.chip.ownWrite k a v be env = none →
    env.msix = none →
    s.chip.implemented p = true ∧ (rowOf a).isSome = true ∧ s.chip.mayWrite k a = true ∧ s.chip.held p = true →
    ∃ d, exec (.registerWrite k a [(v, be)] env) s = .next { s with chip := d } ∧
      d.bitOf (hErr p) 8 = true ∧ s.chip.keeps d [hErr p, hIrqStat p] ∧ d = { s.chip with regs := d.regs, out := d.out, pba := d.pba }) ∧
  (∀ (s : State) (k a : Nat) (v : Word) (be : Nat) (env : WriteEnv) (r : RegRow), 
    s.chip.passes .recovery = true →
    k < 4 ∧ a % 4 = 0 ∧ a < 0x1000000 ∧ 0x30 ≤ a % 0x1000 →
    plainPage (a / 0x1000) = true ∧ s.chip.implemented (a / 0x1000) = true →
    rowOf a = some r ∧ r.sup = false ∧ s.chip.owner (a / 0x1000) = k →
    s.chip.held (a / 0x1000) = false ∧ s.chip.unjournalled k (a / 0x1000) = true ∧ env.msix = none →
    ∃ d, exec (.registerWrite k a [(v, be)] env) s = .next { s with chip := d } ∧
      d.reg a = r.apply (s.chip.reg a) v (beMask be)) ∧
  (∀ (s : State) (k p : Nat) (v : Word), 
    s.chip.passes .recovery = true →
    s.chip.implemented p = true ∧ pageKind p ≠ some .part →
    s.chip.owner p = k ∧ s.chip.supervisor ≠ k →
    fld v 1 0 = k ∧ bit v 16 = s.chip.bitOf (hOwner p) 16 ∧ bit v 31 = s.chip.bitOf (hOwner p) 31 →
    ∃ d, exec (.pageOwnerWrite k p v 0xF) s = .next { s with chip := d } ∧
      d.fldOf (hOwner p) 13 8 = fld v 13 8) ∧
  (∀ (s : State) (k p : Nat) (v : Word) (be : Nat), 
    s.chip.passes .recovery = true →
    s.chip.implemented p = true ∧ s.chip.owner p = k ∧ allBankBits p = 0 →
    ∃ d, exec (.pageIrqForceWrite k p v be) s = .next { s with chip := d } ∧
      d.reg (hIrqStat p) = s.chip.reg (hIrqStat p) ||| (v &&& beMask be &&& irqImplemented p)) ∧
  (∀ (s : State) (j : Nat) (v : Word), 
    s.chip.passes .recovery = true →
    j < 4 ∧ fld v 15 0 = 0x5356 ∧ s.chip.held (0x008 + j) = false →
    ∃ d, exec (.supvXfer s.chip.supervisor j v) s = .next { s with chip := d } ∧
      d.supervisor = j) ∧
  (∀ (s : State) (k : Nat), 
    s.chip.passes .recovery = true →
    s.chip.tempo.lastSupvCheck + 10 ^ 13 ≤ s.chip.now →
    s.chip.absent s.chip.supervisor = true ∧ k < 4 ∧ k ≠ s.chip.supervisor ∧ s.chip.absent k = false →
    0 < s.chip.fldOf (Reg.PART.SUPV_WATCH k) 15 0 →
    s.chip.fldOf (Reg.PART.SUPV_WATCH k) 15 0 * 10 ^ 13 < s.chip.absentFor s.chip.supervisor →
    (∀ j, j < k → j = s.chip.supervisor ∨ s.chip.absent j = true ∨ s.chip.absentFor s.chip.supervisor ≤ s.chip.fldOf (Reg.PART.SUPV_WATCH j) 15 0 * 10 ^ 13 ∨ s.chip.fldOf (Reg.PART.SUPV_WATCH j) 15 0 = 0) →
    ∃ d, exec .supvWatchCheck s = .next { s with chip := d } ∧
      d.supervisor = k) ∧
  (∀ (s : State) (t : Nat), 
    s.chip.alarmLow = some t ∧ t + 10 ^ 11 ≤ s.chip.now →
    s.chip.awake = true ∧ s.chip.reg Reg.GLB.ALARM_STAT &&& s.chip.reg Reg.GLB.ALARM_EN = 0 ∧ s.chip.fldOf Reg.GLB.BOOT_STAT 3 0 < 14 →
    exec .alarmNHoldExpiry s = .next { s with chip := { s.chip with
      alarmLow := none, out := s.chip.out ++ [{ kind := .alarmN, unit := 0, arg := 1 }] } })

/-- R412: COMMIT, in each of its three modes, of an open transaction whose journal is empty and which has lost no write: RESULT OK, DONE raised, no epoch created (current and old epoch stay), EMPTY_COMMITS counts it, the transaction is closed, and TXN_STAT.EPOCH shows the current epoch. -/
def Obligations.EmptyCommitCreatesNoEpoch : Prop :=
  (∀ (s : State) (w k : Nat) (i : Instr), 
    s.chip.passes .running = true →
    k < 4 ∧ s.chip.accepts w (Reg.EPOCH.TXN_CMD k) = true ∧ (s.chip.txn k).state = 1 ∧ (s.chip.txn k).taint = 0 ∧ (s.chip.txn k).journal = [] →
    i = .txnCommitImmediate w k ∨ i = .txnCommitNextBoundary w k ∨ i = .txnCommitAtTime w k →
    ∃ d, exec i s = .next { s with chip := d } ∧
      d.fldOf (Reg.EPOCH.TXN_STAT k) 27 24 = 1 ∧ d.bitOf (hIrqStat 0x020) (4 * k) = true ∧ d.epoch = s.chip.epoch ∧ d.reg Reg.EPOCH.OLD = s.chip.reg Reg.EPOCH.OLD ∧ d.tbl = s.chip.tbl ∧
      d.reg Reg.EPOCH.EMPTY_COMMITS = sat32 ((s.chip.reg Reg.EPOCH.EMPTY_COMMITS).toNat + 1) ∧ (d.txn k).state = 0 ∧ d.fldOf (Reg.EPOCH.TXN_STAT k) 30 28 = 0 ∧
      d.fldOf (Reg.EPOCH.TXN_STAT k) 15 0 = s.chip.epoch)

/-- R202: for the tables of any epoch and any key, the TCAM answers entry n exactly when (key XOR VALUE) AND MASK is zero and VALID is 1 for n and for no lower entry; and the CAN masked entries answer the same way over K. -/
def Obligations.MaskedLookupTakesTheLowestMatch : Prop :=
  (∀ (c : Chip) (e n : Nat) (key : BitVec 256), c.tcamHit e key = some n ↔
    (n < 4096 ∧ bit (c.twordAt e (clsBase + 0x100000 + 128 * n + 64)) 63 = true ∧ (List.range 4).all (fun j => ((BitVec.ofNat 64 (fld key (64 * j + 63) (64 * j)) ^^^ c.twordAt e (clsBase + 0x100000 + 128 * n + 8 * j)) &&& c.twordAt e (clsBase + 0x100000 + 128 * n + 32 + 8 * j)) == 0) = true) ∧ ∀ m, m < n → ¬ (m < 4096 ∧ bit (c.twordAt e (clsBase + 0x100000 + 128 * m + 64)) 63 = true ∧ (List.range 4).all (fun j => ((BitVec.ofNat 64 (fld key (64 * j + 63) (64 * j)) ^^^ c.twordAt e (clsBase + 0x100000 + 128 * m + 8 * j)) &&& c.twordAt e (clsBase + 0x100000 + 128 * m + 32 + 8 * j)) == 0) = true)) ∧
  (∀ (c : Chip) (e n : Nat) (k : Word64), c.maskedHit e k = some n ↔
    (n < 2048 ∧ bit (c.twordAt e (clsBase + 0x20000 + 32 * n + 16)) 63 = true ∧ ((k ^^^ c.twordAt e (clsBase + 0x20000 + 32 * n)) &&& c.twordAt e (clsBase + 0x20000 + 32 * n + 8)) = 0) ∧ ∀ m, m < n → ¬ (m < 2048 ∧ bit (c.twordAt e (clsBase + 0x20000 + 32 * m + 16)) 63 = true ∧ ((k ^^^ c.twordAt e (clsBase + 0x20000 + 32 * m)) &&& c.twordAt e (clsBase + 0x20000 + 32 * m + 8)) = 0))
end

