-- ==== Sys2Proof/Laws/Sparse.lean ====
section
/-! SUPPORT. The laws of the sparse maps: a read after a write of the same key gives the value written, a write leaves
every other key alone, and every operation keeps the canonical form. The first two hold of every list, canonical or
not. -/

namespace Sys2Proof.Machine

variable {α : Type}

theorem lookupKey_insertKey (m : Sparse α) (q : Nat) (x : α) (k : Nat) :
    lookupKey (insertKey m q x) k = if k = q then some x else lookupKey m k := by
  induction m with
  | nil => simp [insertKey, lookupKey]
  | cons e rest ih =>
    obtain ⟨a, v⟩ := e
    by_cases h1 : q < a
    · simp [insertKey, h1, lookupKey]
    · by_cases h2 : q = a
      · subst h2
        by_cases h3 : k = q <;> simp [insertKey, lookupKey, h3]
      · by_cases h3 : k = a
        · have h4 : ¬ a = q := fun h => h2 h.symm
          simp [insertKey, h1, h2, lookupKey, h3, h4]
        · simp [insertKey, h1, h2, lookupKey, h3, ih]

theorem lookupKey_eraseKey (m : Sparse α) (q k : Nat) :
    lookupKey (eraseKey m q) k = if k = q then none else lookupKey m k := by
  induction m with
  | nil => simp [eraseKey, lookupKey]
  | cons e rest ih =>
    obtain ⟨a, v⟩ := e
    by_cases h2 : q = a
    · subst h2
      by_cases h3 : k = q
      · subst h3; simp [eraseKey, ih]
      · simp [eraseKey, lookupKey, h3, ih]
    · by_cases h3 : k = a
      · have h4 : ¬ a = q := fun h => h2 h.symm
        simp [eraseKey, h2, lookupKey, h3, h4]
      · simp [eraseKey, h2, lookupKey, h3, ih]

/-- A read after a write, with one value for every unlisted key. -/
theorem sget_sset [DecidableEq α] (d : α) (m : Sparse α) (q : Nat) (v : α) (k : Nat) :
    sget d (sset d m q v) k = if k = q then v else sget d m k := by
  unfold sget sset
  by_cases h : v = d
  · by_cases hk : k = q <;> simp [h, lookupKey_eraseKey, hk]
  · by_cases hk : k = q <;> simp [h, lookupKey_insertKey, hk]

/-- A read after a write, where each unlisted key reads as a value of its own. -/
theorem sget_sset_at [DecidableEq α] (d : Nat → α) (m : Sparse α) (q : Nat) (v : α) (k : Nat) :
    sget (d k) (sset (d q) m q v) k = if k = q then v else sget (d k) m k := by
  unfold sget sset
  by_cases h : v = d q
  · by_cases hk : k = q
    · subst hk; simp [h, lookupKey_eraseKey]
    · simp [h, lookupKey_eraseKey, hk]
  · by_cases hk : k = q <;> simp [h, lookupKey_insertKey, hk]

theorem keysRise_mono {lo lo' : Nat} (h : lo' ≤ lo) {m : Sparse α} (hm : keysRise lo m = true) : keysRise lo' m = true := by
  cases m with
  | nil => rfl
  | cons e rest =>
    obtain ⟨a, v⟩ := e
    simp only [keysRise, Bool.and_eq_true, Nat.ble_eq] at hm ⊢
    exact ⟨by omega, hm.2⟩

theorem keysRise_insertKey {lo : Nat} {m : Sparse α} (hm : keysRise lo m = true) {q : Nat} (hq : lo ≤ q) (x : α) :
    keysRise lo (insertKey m q x) = true := by
  induction m generalizing lo with
  | nil => simp [insertKey, keysRise, hq]
  | cons e rest ih =>
    obtain ⟨a, v⟩ := e
    simp only [keysRise, Bool.and_eq_true, Nat.ble_eq] at hm
    by_cases h1 : q < a
    · simp only [insertKey, h1, if_true, keysRise, Bool.and_eq_true, Nat.ble_eq]
      exact ⟨hq, h1, hm.2⟩
    · by_cases h2 : q = a
      · subst h2; simp only [insertKey, h1, if_true, if_false, keysRise, Bool.and_eq_true, Nat.ble_eq]
        exact ⟨hq, hm.2⟩
      · simp only [insertKey, h1, h2, if_false, keysRise, Bool.and_eq_true, Nat.ble_eq]
        exact ⟨hm.1, ih hm.2 (by omega)⟩

theorem keysRise_filter (p : Nat × α → Bool) {lo : Nat} {m : Sparse α} (hm : keysRise lo m = true) :
    keysRise lo (m.filter p) = true := by
  induction m generalizing lo with
  | nil => rfl
  | cons e rest ih =>
    obtain ⟨a, v⟩ := e
    simp only [keysRise, Bool.and_eq_true, Nat.ble_eq] at hm
    by_cases h : p (a, v) = true
    · simp only [List.filter_cons, h, if_true, keysRise, Bool.and_eq_true, Nat.ble_eq]
      exact ⟨hm.1, ih hm.2⟩
    · simp only [List.filter_cons, h]
      exact ih (keysRise_mono (by omega) hm.2)

theorem eraseKey_eq_filter (m : Sparse α) (q : Nat) : eraseKey m q = m.filter fun e => !(decide (q = e.1)) := by
  induction m with
  | nil => rfl
  | cons e rest ih =>
    obtain ⟨a, v⟩ := e
    by_cases h : q = a
    · subst h; simp [eraseKey, ih]
    · simp [eraseKey, h, ih]

theorem all_insertKey (p : Nat × α → Bool) {m : Sparse α} (hm : m.all p = true) {q : Nat} {x : α} (hx : p (q, x) = true) :
    (insertKey m q x).all p = true := by
  induction m with
  | nil => simp [insertKey, hx]
  | cons e rest ih =>
    obtain ⟨a, v⟩ := e
    simp only [List.all_cons, Bool.and_eq_true] at hm
    by_cases h1 : q < a
    · simp [insertKey, h1, hx, hm.1, hm.2]
    · by_cases h2 : q = a
      · simp [insertKey, h2, h2 ▸ hx, hm.2]
      · simp [insertKey, h1, h2, hm.1, ih hm.2]

variable [DecidableEq α]

/-- A part of a canonical map is canonical. -/
theorem sparseWf_filter (d : Nat → α) (p : Nat × α → Bool) {m : Sparse α} (hm : sparseWf d m = true) :
    sparseWf d (m.filter p) = true := by
  simp only [sparseWf, Bool.and_eq_true] at hm ⊢
  refine ⟨keysRise_filter p hm.1, ?_⟩
  have h := hm.2
  simp only [List.all_eq_true] at h ⊢
  exact fun e he => h e (List.mem_filter.mp he).1

/-- Writing keeps the canonical form. -/
theorem sparseWf_sset (d : Nat → α) {m : Sparse α} (hm : sparseWf d m = true) (q : Nat) (v : α) :
    sparseWf d (sset (d q) m q v) = true := by
  unfold sset
  by_cases h : v = d q
  · simp only [h, if_true, eraseKey_eq_filter]
    exact sparseWf_filter d _ hm
  · simp only [h, if_false]
    simp only [sparseWf, Bool.and_eq_true] at hm ⊢
    exact ⟨keysRise_insertKey hm.1 (Nat.zero_le q) v, all_insertKey _ hm.2 (by simp [h])⟩

end Sys2Proof.Machine
end

