-- ==== Sys2Proof/Laws/State.lean ====
section
/-! SUPPORT. One lemma per field of the part and per update of it: what each named update leaves as it was. -/

namespace Sys2Proof.Machine

/-! ### setReg -/
@[simp] theorem Chip.setReg_tbl (c : Chip) (a : Nat) (v : Word) : (c.setReg a v).tbl = c.tbl := rfl
@[simp] theorem Chip.setReg_now (c : Chip) (a : Nat) (v : Word) : (c.setReg a v).now = c.now := rfl
@[simp] theorem Chip.setReg_out (c : Chip) (a : Nat) (v : Word) : (c.setReg a v).out = c.out := rfl
@[simp] theorem Chip.setReg_pba (c : Chip) (a : Nat) (v : Word) : (c.setReg a v).pba = c.pba := rfl
@[simp] theorem Chip.setReg_free (c : Chip) (a : Nat) (v : Word) : (c.setReg a v).free = c.free := rfl
@[simp] theorem Chip.setReg_supervisor (c : Chip) (a : Nat) (v : Word) : (c.setReg a v).supervisor = c.supervisor := rfl
@[simp] theorem Chip.setReg_parts (c : Chip) (a : Nat) (v : Word) : (c.setReg a v).parts = c.parts := rfl
@[simp] theorem Chip.setReg_echoUnread (c : Chip) (a : Nat) (v : Word) : (c.setReg a v).echoUnread = c.echoUnread := rfl
@[simp] theorem Chip.setReg_inReset (c : Chip) (a : Nat) (v : Word) : (c.setReg a v).inReset = c.inReset := rfl
@[simp] theorem Chip.setReg_alarmLow (c : Chip) (a : Nat) (v : Word) : (c.setReg a v).alarmLow = c.alarmLow := rfl
@[simp] theorem Chip.setReg_tempo (c : Chip) (a : Nat) (v : Word) : (c.setReg a v).tempo = c.tempo := rfl
@[simp] theorem Chip.setReg_ep (c : Chip) (a : Nat) (v : Word) : (c.setReg a v).ep = c.ep := rfl
@[simp] theorem Chip.setReg_score (c : Chip) (a : Nat) (v : Word) : (c.setReg a v).score = c.score := rfl
@[simp] theorem Chip.setReg_stg (c : Chip) (a : Nat) (v : Word) : (c.setReg a v).stg = c.stg := rfl
@[simp] theorem Chip.setReg_can (c : Chip) (a : Nat) (v : Word) : (c.setReg a v).can = c.can := rfl
@[simp] theorem Chip.setReg_fab (c : Chip) (a : Nat) (v : Word) : (c.setReg a v).fab = c.fab := rfl
@[simp] theorem Chip.setReg_pol (c : Chip) (a : Nat) (v : Word) : (c.setReg a v).pol = c.pol := rfl
@[simp] theorem Chip.setReg_guard (c : Chip) (a : Nat) (v : Word) : (c.setReg a v).guard = c.guard := rfl
@[simp] theorem Chip.setReg_eth (c : Chip) (a : Nat) (v : Word) : (c.setReg a v).eth = c.eth := rfl
@[simp] theorem Chip.setReg_adj (c : Chip) (a : Nat) (v : Word) : (c.setReg a v).adj = c.adj := rfl
@[simp] theorem Chip.setReg_frer (c : Chip) (a : Nat) (v : Word) : (c.setReg a v).frer = c.frer := rfl
@[simp] theorem Chip.setReg_sas (c : Chip) (a : Nat) (v : Word) : (c.setReg a v).sas = c.sas := rfl
@[simp] theorem Chip.setReg_sig (c : Chip) (a : Nat) (v : Word) : (c.setReg a v).sig = c.sig := rfl
@[simp] theorem Chip.setReg_pawn (c : Chip) (a : Nat) (v : Word) : (c.setReg a v).pawn = c.pawn := rfl
@[simp] theorem Chip.setReg_castle (c : Chip) (a : Nat) (v : Word) : (c.setReg a v).castle = c.castle := rfl
@[simp] theorem Chip.setReg_otp (c : Chip) (a : Nat) (v : Word) : (c.setReg a v).otp = c.otp := rfl
@[simp] theorem Chip.setReg_cx (c : Chip) (a : Nat) (v : Word) : (c.setReg a v).cx = c.cx := rfl
@[simp] theorem Chip.setReg_host (c : Chip) (a : Nat) (v : Word) : (c.setReg a v).host = c.host := rfl
@[simp] theorem Chip.setReg_power (c : Chip) (a : Nat) (v : Word) : (c.setReg a v).power = c.power := rfl
@[simp] theorem Chip.setReg_mem (c : Chip) (a : Nat) (v : Word) : (c.setReg a v).mem = c.mem := rfl
@[simp] theorem Chip.setReg_gambit (c : Chip) (a : Nat) (v : Word) : (c.setReg a v).gambit = c.gambit := rfl
@[simp] theorem Chip.setReg_arb (c : Chip) (a : Nat) (v : Word) : (c.setReg a v).arb = c.arb := rfl
@[simp] theorem Chip.setReg_tap (c : Chip) (a : Nat) (v : Word) : (c.setReg a v).tap = c.tap := rfl

/-! ### setTword -/
@[simp] theorem Chip.setTword_regs (c : Chip) (off : Nat) (v : Word64) : (c.setTword off v).regs = c.regs := rfl
@[simp] theorem Chip.setTword_now (c : Chip) (off : Nat) (v : Word64) : (c.setTword off v).now = c.now := rfl
@[simp] theorem Chip.setTword_out (c : Chip) (off : Nat) (v : Word64) : (c.setTword off v).out = c.out := rfl
@[simp] theorem Chip.setTword_pba (c : Chip) (off : Nat) (v : Word64) : (c.setTword off v).pba = c.pba := rfl
@[simp] theorem Chip.setTword_free (c : Chip) (off : Nat) (v : Word64) : (c.setTword off v).free = c.free := rfl
@[simp] theorem Chip.setTword_supervisor (c : Chip) (off : Nat) (v : Word64) : (c.setTword off v).supervisor = c.supervisor := rfl
@[simp] theorem Chip.setTword_parts (c : Chip) (off : Nat) (v : Word64) : (c.setTword off v).parts = c.parts := rfl
@[simp] theorem Chip.setTword_echoUnread (c : Chip) (off : Nat) (v : Word64) : (c.setTword off v).echoUnread = c.echoUnread := rfl
@[simp] theorem Chip.setTword_inReset (c : Chip) (off : Nat) (v : Word64) : (c.setTword off v).inReset = c.inReset := rfl
@[simp] theorem Chip.setTword_alarmLow (c : Chip) (off : Nat) (v : Word64) : (c.setTword off v).alarmLow = c.alarmLow := rfl
@[simp] theorem Chip.setTword_tempo (c : Chip) (off : Nat) (v : Word64) : (c.setTword off v).tempo = c.tempo := rfl
@[simp] theorem Chip.setTword_ep (c : Chip) (off : Nat) (v : Word64) : (c.setTword off v).ep = c.ep := rfl
@[simp] theorem Chip.setTword_score (c : Chip) (off : Nat) (v : Word64) : (c.setTword off v).score = c.score := rfl
@[simp] theorem Chip.setTword_stg (c : Chip) (off : Nat) (v : Word64) : (c.setTword off v).stg = c.stg := rfl
@[simp] theorem Chip.setTword_can (c : Chip) (off : Nat) (v : Word64) : (c.setTword off v).can = c.can := rfl
@[simp] theorem Chip.setTword_fab (c : Chip) (off : Nat) (v : Word64) : (c.setTword off v).fab = c.fab := rfl
@[simp] theorem Chip.setTword_pol (c : Chip) (off : Nat) (v : Word64) : (c.setTword off v).pol = c.pol := rfl
@[simp] theorem Chip.setTword_guard (c : Chip) (off : Nat) (v : Word64) : (c.setTword off v).guard = c.guard := rfl
@[simp] theorem Chip.setTword_eth (c : Chip) (off : Nat) (v : Word64) : (c.setTword off v).eth = c.eth := rfl
@[simp] theorem Chip.setTword_adj (c : Chip) (off : Nat) (v : Word64) : (c.setTword off v).adj = c.adj := rfl
@[simp] theorem Chip.setTword_frer (c : Chip) (off : Nat) (v : Word64) : (c.setTword off v).frer = c.frer := rfl
@[simp] theorem Chip.setTword_sas (c : Chip) (off : Nat) (v : Word64) : (c.setTword off v).sas = c.sas := rfl
@[simp] theorem Chip.setTword_sig (c : Chip) (off : Nat) (v : Word64) : (c.setTword off v).sig = c.sig := rfl
@[simp] theorem Chip.setTword_pawn (c : Chip) (off : Nat) (v : Word64) : (c.setTword off v).pawn = c.pawn := rfl
@[simp] theorem Chip.setTword_castle (c : Chip) (off : Nat) (v : Word64) : (c.setTword off v).castle = c.castle := rfl
@[simp] theorem Chip.setTword_otp (c : Chip) (off : Nat) (v : Word64) : (c.setTword off v).otp = c.otp := rfl
@[simp] theorem Chip.setTword_cx (c : Chip) (off : Nat) (v : Word64) : (c.setTword off v).cx = c.cx := rfl
@[simp] theorem Chip.setTword_host (c : Chip) (off : Nat) (v : Word64) : (c.setTword off v).host = c.host := rfl
@[simp] theorem Chip.setTword_power (c : Chip) (off : Nat) (v : Word64) : (c.setTword off v).power = c.power := rfl
@[simp] theorem Chip.setTword_mem (c : Chip) (off : Nat) (v : Word64) : (c.setTword off v).mem = c.mem := rfl
@[simp] theorem Chip.setTword_gambit (c : Chip) (off : Nat) (v : Word64) : (c.setTword off v).gambit = c.gambit := rfl
@[simp] theorem Chip.setTword_arb (c : Chip) (off : Nat) (v : Word64) : (c.setTword off v).arb = c.arb := rfl
@[simp] theorem Chip.setTword_tap (c : Chip) (off : Nat) (v : Word64) : (c.setTword off v).tap = c.tap := rfl

/-! ### setPart -/
@[simp] theorem Chip.setPart_regs (c : Chip) (k : Nat) (v : PartState) : (c.setPart k v).regs = c.regs := rfl
@[simp] theorem Chip.setPart_tbl (c : Chip) (k : Nat) (v : PartState) : (c.setPart k v).tbl = c.tbl := rfl
@[simp] theorem Chip.setPart_now (c : Chip) (k : Nat) (v : PartState) : (c.setPart k v).now = c.now := rfl
@[simp] theorem Chip.setPart_out (c : Chip) (k : Nat) (v : PartState) : (c.setPart k v).out = c.out := rfl
@[simp] theorem Chip.setPart_pba (c : Chip) (k : Nat) (v : PartState) : (c.setPart k v).pba = c.pba := rfl
@[simp] theorem Chip.setPart_free (c : Chip) (k : Nat) (v : PartState) : (c.setPart k v).free = c.free := rfl
@[simp] theorem Chip.setPart_supervisor (c : Chip) (k : Nat) (v : PartState) : (c.setPart k v).supervisor = c.supervisor := rfl
@[simp] theorem Chip.setPart_echoUnread (c : Chip) (k : Nat) (v : PartState) : (c.setPart k v).echoUnread = c.echoUnread := rfl
@[simp] theorem Chip.setPart_inReset (c : Chip) (k : Nat) (v : PartState) : (c.setPart k v).inReset = c.inReset := rfl
@[simp] theorem Chip.setPart_alarmLow (c : Chip) (k : Nat) (v : PartState) : (c.setPart k v).alarmLow = c.alarmLow := rfl
@[simp] theorem Chip.setPart_tempo (c : Chip) (k : Nat) (v : PartState) : (c.setPart k v).tempo = c.tempo := rfl
@[simp] theorem Chip.setPart_ep (c : Chip) (k : Nat) (v : PartState) : (c.setPart k v).ep = c.ep := rfl
@[simp] theorem Chip.setPart_score (c : Chip) (k : Nat) (v : PartState) : (c.setPart k v).score = c.score := rfl
@[simp] theorem Chip.setPart_stg (c : Chip) (k : Nat) (v : PartState) : (c.setPart k v).stg = c.stg := rfl
@[simp] theorem Chip.setPart_can (c : Chip) (k : Nat) (v : PartState) : (c.setPart k v).can = c.can := rfl
@[simp] theorem Chip.setPart_fab (c : Chip) (k : Nat) (v : PartState) : (c.setPart k v).fab = c.fab := rfl
@[simp] theorem Chip.setPart_pol (c : Chip) (k : Nat) (v : PartState) : (c.setPart k v).pol = c.pol := rfl
@[simp] theorem Chip.setPart_guard (c : Chip) (k : Nat) (v : PartState) : (c.setPart k v).guard = c.guard := rfl
@[simp] theorem Chip.setPart_eth (c : Chip) (k : Nat) (v : PartState) : (c.setPart k v).eth = c.eth := rfl
@[simp] theorem Chip.setPart_adj (c : Chip) (k : Nat) (v : PartState) : (c.setPart k v).adj = c.adj := rfl
@[simp] theorem Chip.setPart_frer (c : Chip) (k : Nat) (v : PartState) : (c.setPart k v).frer = c.frer := rfl
@[simp] theorem Chip.setPart_sas (c : Chip) (k : Nat) (v : PartState) : (c.setPart k v).sas = c.sas := rfl
@[simp] theorem Chip.setPart_sig (c : Chip) (k : Nat) (v : PartState) : (c.setPart k v).sig = c.sig := rfl
@[simp] theorem Chip.setPart_pawn (c : Chip) (k : Nat) (v : PartState) : (c.setPart k v).pawn = c.pawn := rfl
@[simp] theorem Chip.setPart_castle (c : Chip) (k : Nat) (v : PartState) : (c.setPart k v).castle = c.castle := rfl
@[simp] theorem Chip.setPart_otp (c : Chip) (k : Nat) (v : PartState) : (c.setPart k v).otp = c.otp := rfl
@[simp] theorem Chip.setPart_cx (c : Chip) (k : Nat) (v : PartState) : (c.setPart k v).cx = c.cx := rfl
@[simp] theorem Chip.setPart_host (c : Chip) (k : Nat) (v : PartState) : (c.setPart k v).host = c.host := rfl
@[simp] theorem Chip.setPart_power (c : Chip) (k : Nat) (v : PartState) : (c.setPart k v).power = c.power := rfl
@[simp] theorem Chip.setPart_mem (c : Chip) (k : Nat) (v : PartState) : (c.setPart k v).mem = c.mem := rfl
@[simp] theorem Chip.setPart_gambit (c : Chip) (k : Nat) (v : PartState) : (c.setPart k v).gambit = c.gambit := rfl
@[simp] theorem Chip.setPart_arb (c : Chip) (k : Nat) (v : PartState) : (c.setPart k v).arb = c.arb := rfl
@[simp] theorem Chip.setPart_tap (c : Chip) (k : Nat) (v : PartState) : (c.setPart k v).tap = c.tap := rfl

/-! ### setTxn -/
@[simp] theorem Chip.setTxn_regs (c : Chip) (k : Nat) (t : Txn) : (c.setTxn k t).regs = c.regs := rfl
@[simp] theorem Chip.setTxn_tbl (c : Chip) (k : Nat) (t : Txn) : (c.setTxn k t).tbl = c.tbl := rfl
@[simp] theorem Chip.setTxn_now (c : Chip) (k : Nat) (t : Txn) : (c.setTxn k t).now = c.now := rfl
@[simp] theorem Chip.setTxn_out (c : Chip) (k : Nat) (t : Txn) : (c.setTxn k t).out = c.out := rfl
@[simp] theorem Chip.setTxn_pba (c : Chip) (k : Nat) (t : Txn) : (c.setTxn k t).pba = c.pba := rfl
@[simp] theorem Chip.setTxn_free (c : Chip) (k : Nat) (t : Txn) : (c.setTxn k t).free = c.free := rfl
@[simp] theorem Chip.setTxn_supervisor (c : Chip) (k : Nat) (t : Txn) : (c.setTxn k t).supervisor = c.supervisor := rfl
@[simp] theorem Chip.setTxn_parts (c : Chip) (k : Nat) (t : Txn) : (c.setTxn k t).parts = c.parts := rfl
@[simp] theorem Chip.setTxn_echoUnread (c : Chip) (k : Nat) (t : Txn) : (c.setTxn k t).echoUnread = c.echoUnread := rfl
@[simp] theorem Chip.setTxn_inReset (c : Chip) (k : Nat) (t : Txn) : (c.setTxn k t).inReset = c.inReset := rfl
@[simp] theorem Chip.setTxn_alarmLow (c : Chip) (k : Nat) (t : Txn) : (c.setTxn k t).alarmLow = c.alarmLow := rfl
@[simp] theorem Chip.setTxn_tempo (c : Chip) (k : Nat) (t : Txn) : (c.setTxn k t).tempo = c.tempo := rfl
@[simp] theorem Chip.setTxn_score (c : Chip) (k : Nat) (t : Txn) : (c.setTxn k t).score = c.score := rfl
@[simp] theorem Chip.setTxn_stg (c : Chip) (k : Nat) (t : Txn) : (c.setTxn k t).stg = c.stg := rfl
@[simp] theorem Chip.setTxn_can (c : Chip) (k : Nat) (t : Txn) : (c.setTxn k t).can = c.can := rfl
@[simp] theorem Chip.setTxn_fab (c : Chip) (k : Nat) (t : Txn) : (c.setTxn k t).fab = c.fab := rfl
@[simp] theorem Chip.setTxn_pol (c : Chip) (k : Nat) (t : Txn) : (c.setTxn k t).pol = c.pol := rfl
@[simp] theorem Chip.setTxn_guard (c : Chip) (k : Nat) (t : Txn) : (c.setTxn k t).guard = c.guard := rfl
@[simp] theorem Chip.setTxn_eth (c : Chip) (k : Nat) (t : Txn) : (c.setTxn k t).eth = c.eth := rfl
@[simp] theorem Chip.setTxn_adj (c : Chip) (k : Nat) (t : Txn) : (c.setTxn k t).adj = c.adj := rfl
@[simp] theorem Chip.setTxn_frer (c : Chip) (k : Nat) (t : Txn) : (c.setTxn k t).frer = c.frer := rfl
@[simp] theorem Chip.setTxn_sas (c : Chip) (k : Nat) (t : Txn) : (c.setTxn k t).sas = c.sas := rfl
@[simp] theorem Chip.setTxn_sig (c : Chip) (k : Nat) (t : Txn) : (c.setTxn k t).sig = c.sig := rfl
@[simp] theorem Chip.setTxn_pawn (c : Chip) (k : Nat) (t : Txn) : (c.setTxn k t).pawn = c.pawn := rfl
@[simp] theorem Chip.setTxn_castle (c : Chip) (k : Nat) (t : Txn) : (c.setTxn k t).castle = c.castle := rfl
@[simp] theorem Chip.setTxn_otp (c : Chip) (k : Nat) (t : Txn) : (c.setTxn k t).otp = c.otp := rfl
@[simp] theorem Chip.setTxn_cx (c : Chip) (k : Nat) (t : Txn) : (c.setTxn k t).cx = c.cx := rfl
@[simp] theorem Chip.setTxn_host (c : Chip) (k : Nat) (t : Txn) : (c.setTxn k t).host = c.host := rfl
@[simp] theorem Chip.setTxn_power (c : Chip) (k : Nat) (t : Txn) : (c.setTxn k t).power = c.power := rfl
@[simp] theorem Chip.setTxn_mem (c : Chip) (k : Nat) (t : Txn) : (c.setTxn k t).mem = c.mem := rfl
@[simp] theorem Chip.setTxn_gambit (c : Chip) (k : Nat) (t : Txn) : (c.setTxn k t).gambit = c.gambit := rfl
@[simp] theorem Chip.setTxn_arb (c : Chip) (k : Nat) (t : Txn) : (c.setTxn k t).arb = c.arb := rfl
@[simp] theorem Chip.setTxn_tap (c : Chip) (k : Nat) (t : Txn) : (c.setTxn k t).tap = c.tap := rfl

/-! ### emit -/
@[simp] theorem Chip.emit_regs (c : Chip) (o : Out) : (c.emit o).regs = c.regs := rfl
@[simp] theorem Chip.emit_tbl (c : Chip) (o : Out) : (c.emit o).tbl = c.tbl := rfl
@[simp] theorem Chip.emit_now (c : Chip) (o : Out) : (c.emit o).now = c.now := rfl
@[simp] theorem Chip.emit_pba (c : Chip) (o : Out) : (c.emit o).pba = c.pba := rfl
@[simp] theorem Chip.emit_free (c : Chip) (o : Out) : (c.emit o).free = c.free := rfl
@[simp] theorem Chip.emit_supervisor (c : Chip) (o : Out) : (c.emit o).supervisor = c.supervisor := rfl
@[simp] theorem Chip.emit_parts (c : Chip) (o : Out) : (c.emit o).parts = c.parts := rfl
@[simp] theorem Chip.emit_echoUnread (c : Chip) (o : Out) : (c.emit o).echoUnread = c.echoUnread := rfl
@[simp] theorem Chip.emit_inReset (c : Chip) (o : Out) : (c.emit o).inReset = c.inReset := rfl
@[simp] theorem Chip.emit_alarmLow (c : Chip) (o : Out) : (c.emit o).alarmLow = c.alarmLow := rfl
@[simp] theorem Chip.emit_tempo (c : Chip) (o : Out) : (c.emit o).tempo = c.tempo := rfl
@[simp] theorem Chip.emit_ep (c : Chip) (o : Out) : (c.emit o).ep = c.ep := rfl
@[simp] theorem Chip.emit_score (c : Chip) (o : Out) : (c.emit o).score = c.score := rfl
@[simp] theorem Chip.emit_stg (c : Chip) (o : Out) : (c.emit o).stg = c.stg := rfl
@[simp] theorem Chip.emit_can (c : Chip) (o : Out) : (c.emit o).can = c.can := rfl
@[simp] theorem Chip.emit_fab (c : Chip) (o : Out) : (c.emit o).fab = c.fab := rfl
@[simp] theorem Chip.emit_pol (c : Chip) (o : Out) : (c.emit o).pol = c.pol := rfl
@[simp] theorem Chip.emit_guard (c : Chip) (o : Out) : (c.emit o).guard = c.guard := rfl
@[simp] theorem Chip.emit_eth (c : Chip) (o : Out) : (c.emit o).eth = c.eth := rfl
@[simp] theorem Chip.emit_adj (c : Chip) (o : Out) : (c.emit o).adj = c.adj := rfl
@[simp] theorem Chip.emit_frer (c : Chip) (o : Out) : (c.emit o).frer = c.frer := rfl
@[simp] theorem Chip.emit_sas (c : Chip) (o : Out) : (c.emit o).sas = c.sas := rfl
@[simp] theorem Chip.emit_sig (c : Chip) (o : Out) : (c.emit o).sig = c.sig := rfl
@[simp] theorem Chip.emit_pawn (c : Chip) (o : Out) : (c.emit o).pawn = c.pawn := rfl
@[simp] theorem Chip.emit_castle (c : Chip) (o : Out) : (c.emit o).castle = c.castle := rfl
@[simp] theorem Chip.emit_otp (c : Chip) (o : Out) : (c.emit o).otp = c.otp := rfl
@[simp] theorem Chip.emit_cx (c : Chip) (o : Out) : (c.emit o).cx = c.cx := rfl
@[simp] theorem Chip.emit_host (c : Chip) (o : Out) : (c.emit o).host = c.host := rfl
@[simp] theorem Chip.emit_power (c : Chip) (o : Out) : (c.emit o).power = c.power := rfl
@[simp] theorem Chip.emit_mem (c : Chip) (o : Out) : (c.emit o).mem = c.mem := rfl
@[simp] theorem Chip.emit_gambit (c : Chip) (o : Out) : (c.emit o).gambit = c.gambit := rfl
@[simp] theorem Chip.emit_arb (c : Chip) (o : Out) : (c.emit o).arb = c.arb := rfl
@[simp] theorem Chip.emit_tap (c : Chip) (o : Out) : (c.emit o).tap = c.tap := rfl

/-! ### setFldOf -/
@[simp] theorem Chip.setFldOf_tbl (c : Chip) (a hi lo n : Nat) : (c.setFldOf a hi lo n).tbl = c.tbl := rfl
@[simp] theorem Chip.setFldOf_now (c : Chip) (a hi lo n : Nat) : (c.setFldOf a hi lo n).now = c.now := rfl
@[simp] theorem Chip.setFldOf_out (c : Chip) (a hi lo n : Nat) : (c.setFldOf a hi lo n).out = c.out := rfl
@[simp] theorem Chip.setFldOf_pba (c : Chip) (a hi lo n : Nat) : (c.setFldOf a hi lo n).pba = c.pba := rfl
@[simp] theorem Chip.setFldOf_free (c : Chip) (a hi lo n : Nat) : (c.setFldOf a hi lo n).free = c.free := rfl
@[simp] theorem Chip.setFldOf_supervisor (c : Chip) (a hi lo n : Nat) : (c.setFldOf a hi lo n).supervisor = c.supervisor := rfl
@[simp] theorem Chip.setFldOf_parts (c : Chip) (a hi lo n : Nat) : (c.setFldOf a hi lo n).parts = c.parts := rfl
@[simp] theorem Chip.setFldOf_echoUnread (c : Chip) (a hi lo n : Nat) : (c.setFldOf a hi lo n).echoUnread = c.echoUnread := rfl
@[simp] theorem Chip.setFldOf_inReset (c : Chip) (a hi lo n : Nat) : (c.setFldOf a hi lo n).inReset = c.inReset := rfl
@[simp] theorem Chip.setFldOf_alarmLow (c : Chip) (a hi lo n : Nat) : (c.setFldOf a hi lo n).alarmLow = c.alarmLow := rfl
@[simp] theorem Chip.setFldOf_tempo (c : Chip) (a hi lo n : Nat) : (c.setFldOf a hi lo n).tempo = c.tempo := rfl
@[simp] theorem Chip.setFldOf_ep (c : Chip) (a hi lo n : Nat) : (c.setFldOf a hi lo n).ep = c.ep := rfl
@[simp] theorem Chip.setFldOf_score (c : Chip) (a hi lo n : Nat) : (c.setFldOf a hi lo n).score = c.score := rfl
@[simp] theorem Chip.setFldOf_stg (c : Chip) (a hi lo n : Nat) : (c.setFldOf a hi lo n).stg = c.stg := rfl
@[simp] theorem Chip.setFldOf_can (c : Chip) (a hi lo n : Nat) : (c.setFldOf a hi lo n).can = c.can := rfl
@[simp] theorem Chip.setFldOf_fab (c : Chip) (a hi lo n : Nat) : (c.setFldOf a hi lo n).fab = c.fab := rfl
@[simp] theorem Chip.setFldOf_pol (c : Chip) (a hi lo n : Nat) : (c.setFldOf a hi lo n).pol = c.pol := rfl
@[simp] theorem Chip.setFldOf_guard (c : Chip) (a hi lo n : Nat) : (c.setFldOf a hi lo n).guard = c.guard := rfl
@[simp] theorem Chip.setFldOf_eth (c : Chip) (a hi lo n : Nat) : (c.setFldOf a hi lo n).eth = c.eth := rfl
@[simp] theorem Chip.setFldOf_adj (c : Chip) (a hi lo n : Nat) : (c.setFldOf a hi lo n).adj = c.adj := rfl
@[simp] theorem Chip.setFldOf_frer (c : Chip) (a hi lo n : Nat) : (c.setFldOf a hi lo n).frer = c.frer := rfl
@[simp] theorem Chip.setFldOf_sas (c : Chip) (a hi lo n : Nat) : (c.setFldOf a hi lo n).sas = c.sas := rfl
@[simp] theorem Chip.setFldOf_sig (c : Chip) (a hi lo n : Nat) : (c.setFldOf a hi lo n).sig = c.sig := rfl
@[simp] theorem Chip.setFldOf_pawn (c : Chip) (a hi lo n : Nat) : (c.setFldOf a hi lo n).pawn = c.pawn := rfl
@[simp] theorem Chip.setFldOf_castle (c : Chip) (a hi lo n : Nat) : (c.setFldOf a hi lo n).castle = c.castle := rfl
@[simp] theorem Chip.setFldOf_otp (c : Chip) (a hi lo n : Nat) : (c.setFldOf a hi lo n).otp = c.otp := rfl
@[simp] theorem Chip.setFldOf_cx (c : Chip) (a hi lo n : Nat) : (c.setFldOf a hi lo n).cx = c.cx := rfl
@[simp] theorem Chip.setFldOf_host (c : Chip) (a hi lo n : Nat) : (c.setFldOf a hi lo n).host = c.host := rfl
@[simp] theorem Chip.setFldOf_power (c : Chip) (a hi lo n : Nat) : (c.setFldOf a hi lo n).power = c.power := rfl
@[simp] theorem Chip.setFldOf_mem (c : Chip) (a hi lo n : Nat) : (c.setFldOf a hi lo n).mem = c.mem := rfl
@[simp] theorem Chip.setFldOf_gambit (c : Chip) (a hi lo n : Nat) : (c.setFldOf a hi lo n).gambit = c.gambit := rfl
@[simp] theorem Chip.setFldOf_arb (c : Chip) (a hi lo n : Nat) : (c.setFldOf a hi lo n).arb = c.arb := rfl
@[simp] theorem Chip.setFldOf_tap (c : Chip) (a hi lo n : Nat) : (c.setFldOf a hi lo n).tap = c.tap := rfl

/-! ### setBitOf -/
@[simp] theorem Chip.setBitOf_tbl (c : Chip) (a n : Nat) (b : Bool) : (c.setBitOf a n b).tbl = c.tbl := rfl
@[simp] theorem Chip.setBitOf_now (c : Chip) (a n : Nat) (b : Bool) : (c.setBitOf a n b).now = c.now := rfl
@[simp] theorem Chip.setBitOf_out (c : Chip) (a n : Nat) (b : Bool) : (c.setBitOf a n b).out = c.out := rfl
@[simp] theorem Chip.setBitOf_pba (c : Chip) (a n : Nat) (b : Bool) : (c.setBitOf a n b).pba = c.pba := rfl
@[simp] theorem Chip.setBitOf_free (c : Chip) (a n : Nat) (b : Bool) : (c.setBitOf a n b).free = c.free := rfl
@[simp] theorem Chip.setBitOf_supervisor (c : Chip) (a n : Nat) (b : Bool) : (c.setBitOf a n b).supervisor = c.supervisor := rfl
@[simp] theorem Chip.setBitOf_parts (c : Chip) (a n : Nat) (b : Bool) : (c.setBitOf a n b).parts = c.parts := rfl
@[simp] theorem Chip.setBitOf_echoUnread (c : Chip) (a n : Nat) (b : Bool) : (c.setBitOf a n b).echoUnread = c.echoUnread := rfl
@[simp] theorem Chip.setBitOf_inReset (c : Chip) (a n : Nat) (b : Bool) : (c.setBitOf a n b).inReset = c.inReset := rfl
@[simp] theorem Chip.setBitOf_alarmLow (c : Chip) (a n : Nat) (b : Bool) : (c.setBitOf a n b).alarmLow = c.alarmLow := rfl
@[simp] theorem Chip.setBitOf_tempo (c : Chip) (a n : Nat) (b : Bool) : (c.setBitOf a n b).tempo = c.tempo := rfl
@[simp] theorem Chip.setBitOf_ep (c : Chip) (a n : Nat) (b : Bool) : (c.setBitOf a n b).ep = c.ep := rfl
@[simp] theorem Chip.setBitOf_score (c : Chip) (a n : Nat) (b : Bool) : (c.setBitOf a n b).score = c.score := rfl
@[simp] theorem Chip.setBitOf_stg (c : Chip) (a n : Nat) (b : Bool) : (c.setBitOf a n b).stg = c.stg := rfl
@[simp] theorem Chip.setBitOf_can (c : Chip) (a n : Nat) (b : Bool) : (c.setBitOf a n b).can = c.can := rfl
@[simp] theorem Chip.setBitOf_fab (c : Chip) (a n : Nat) (b : Bool) : (c.setBitOf a n b).fab = c.fab := rfl
@[simp] theorem Chip.setBitOf_pol (c : Chip) (a n : Nat) (b : Bool) : (c.setBitOf a n b).pol = c.pol := rfl
@[simp] theorem Chip.setBitOf_guard (c : Chip) (a n : Nat) (b : Bool) : (c.setBitOf a n b).guard = c.guard := rfl
@[simp] theorem Chip.setBitOf_eth (c : Chip) (a n : Nat) (b : Bool) : (c.setBitOf a n b).eth = c.eth := rfl
@[simp] theorem Chip.setBitOf_adj (c : Chip) (a n : Nat) (b : Bool) : (c.setBitOf a n b).adj = c.adj := rfl
@[simp] theorem Chip.setBitOf_frer (c : Chip) (a n : Nat) (b : Bool) : (c.setBitOf a n b).frer = c.frer := rfl
@[simp] theorem Chip.setBitOf_sas (c : Chip) (a n : Nat) (b : Bool) : (c.setBitOf a n b).sas = c.sas := rfl
@[simp] theorem Chip.setBitOf_sig (c : Chip) (a n : Nat) (b : Bool) : (c.setBitOf a n b).sig = c.sig := rfl
@[simp] theorem Chip.setBitOf_pawn (c : Chip) (a n : Nat) (b : Bool) : (c.setBitOf a n b).pawn = c.pawn := rfl
@[simp] theorem Chip.setBitOf_castle (c : Chip) (a n : Nat) (b : Bool) : (c.setBitOf a n b).castle = c.castle := rfl
@[simp] theorem Chip.setBitOf_otp (c : Chip) (a n : Nat) (b : Bool) : (c.setBitOf a n b).otp = c.otp := rfl
@[simp] theorem Chip.setBitOf_cx (c : Chip) (a n : Nat) (b : Bool) : (c.setBitOf a n b).cx = c.cx := rfl
@[simp] theorem Chip.setBitOf_host (c : Chip) (a n : Nat) (b : Bool) : (c.setBitOf a n b).host = c.host := rfl
@[simp] theorem Chip.setBitOf_power (c : Chip) (a n : Nat) (b : Bool) : (c.setBitOf a n b).power = c.power := rfl
@[simp] theorem Chip.setBitOf_mem (c : Chip) (a n : Nat) (b : Bool) : (c.setBitOf a n b).mem = c.mem := rfl
@[simp] theorem Chip.setBitOf_gambit (c : Chip) (a n : Nat) (b : Bool) : (c.setBitOf a n b).gambit = c.gambit := rfl
@[simp] theorem Chip.setBitOf_arb (c : Chip) (a n : Nat) (b : Bool) : (c.setBitOf a n b).arb = c.arb := rfl
@[simp] theorem Chip.setBitOf_tap (c : Chip) (a n : Nat) (b : Bool) : (c.setBitOf a n b).tap = c.tap := rfl

/-! ### addTo -/
@[simp] theorem Chip.addTo_tbl (c : Chip) (a n : Nat) : (c.addTo a n).tbl = c.tbl := rfl
@[simp] theorem Chip.addTo_now (c : Chip) (a n : Nat) : (c.addTo a n).now = c.now := rfl
@[simp] theorem Chip.addTo_out (c : Chip) (a n : Nat) : (c.addTo a n).out = c.out := rfl
@[simp] theorem Chip.addTo_pba (c : Chip) (a n : Nat) : (c.addTo a n).pba = c.pba := rfl
@[simp] theorem Chip.addTo_free (c : Chip) (a n : Nat) : (c.addTo a n).free = c.free := rfl
@[simp] theorem Chip.addTo_supervisor (c : Chip) (a n : Nat) : (c.addTo a n).supervisor = c.supervisor := rfl
@[simp] theorem Chip.addTo_parts (c : Chip) (a n : Nat) : (c.addTo a n).parts = c.parts := rfl
@[simp] theorem Chip.addTo_echoUnread (c : Chip) (a n : Nat) : (c.addTo a n).echoUnread = c.echoUnread := rfl
@[simp] theorem Chip.addTo_inReset (c : Chip) (a n : Nat) : (c.addTo a n).inReset = c.inReset := rfl
@[simp] theorem Chip.addTo_alarmLow (c : Chip) (a n : Nat) : (c.addTo a n).alarmLow = c.alarmLow := rfl
@[simp] theorem Chip.addTo_tempo (c : Chip) (a n : Nat) : (c.addTo a n).tempo = c.tempo := rfl
@[simp] theorem Chip.addTo_ep (c : Chip) (a n : Nat) : (c.addTo a n).ep = c.ep := rfl
@[simp] theorem Chip.addTo_score (c : Chip) (a n : Nat) : (c.addTo a n).score = c.score := rfl
@[simp] theorem Chip.addTo_stg (c : Chip) (a n : Nat) : (c.addTo a n).stg = c.stg := rfl
@[simp] theorem Chip.addTo_can (c : Chip) (a n : Nat) : (c.addTo a n).can = c.can := rfl
@[simp] theorem Chip.addTo_fab (c : Chip) (a n : Nat) : (c.addTo a n).fab = c.fab := rfl
@[simp] theorem Chip.addTo_pol (c : Chip) (a n : Nat) : (c.addTo a n).pol = c.pol := rfl
@[simp] theorem Chip.addTo_guard (c : Chip) (a n : Nat) : (c.addTo a n).guard = c.guard := rfl
@[simp] theorem Chip.addTo_eth (c : Chip) (a n : Nat) : (c.addTo a n).eth = c.eth := rfl
@[simp] theorem Chip.addTo_adj (c : Chip) (a n : Nat) : (c.addTo a n).adj = c.adj := rfl
@[simp] theorem Chip.addTo_frer (c : Chip) (a n : Nat) : (c.addTo a n).frer = c.frer := rfl
@[simp] theorem Chip.addTo_sas (c : Chip) (a n : Nat) : (c.addTo a n).sas = c.sas := rfl
@[simp] theorem Chip.addTo_sig (c : Chip) (a n : Nat) : (c.addTo a n).sig = c.sig := rfl
@[simp] theorem Chip.addTo_pawn (c : Chip) (a n : Nat) : (c.addTo a n).pawn = c.pawn := rfl
@[simp] theorem Chip.addTo_castle (c : Chip) (a n : Nat) : (c.addTo a n).castle = c.castle := rfl
@[simp] theorem Chip.addTo_otp (c : Chip) (a n : Nat) : (c.addTo a n).otp = c.otp := rfl
@[simp] theorem Chip.addTo_cx (c : Chip) (a n : Nat) : (c.addTo a n).cx = c.cx := rfl
@[simp] theorem Chip.addTo_host (c : Chip) (a n : Nat) : (c.addTo a n).host = c.host := rfl
@[simp] theorem Chip.addTo_power (c : Chip) (a n : Nat) : (c.addTo a n).power = c.power := rfl
@[simp] theorem Chip.addTo_mem (c : Chip) (a n : Nat) : (c.addTo a n).mem = c.mem := rfl
@[simp] theorem Chip.addTo_gambit (c : Chip) (a n : Nat) : (c.addTo a n).gambit = c.gambit := rfl
@[simp] theorem Chip.addTo_arb (c : Chip) (a n : Nat) : (c.addTo a n).arb = c.arb := rfl
@[simp] theorem Chip.addTo_tap (c : Chip) (a n : Nat) : (c.addTo a n).tap = c.tap := rfl

/-! ### inc -/
@[simp] theorem Chip.inc_tbl (c : Chip) (a : Nat) : (c.inc a).tbl = c.tbl := rfl
@[simp] theorem Chip.inc_now (c : Chip) (a : Nat) : (c.inc a).now = c.now := rfl
@[simp] theorem Chip.inc_out (c : Chip) (a : Nat) : (c.inc a).out = c.out := rfl
@[simp] theorem Chip.inc_pba (c : Chip) (a : Nat) : (c.inc a).pba = c.pba := rfl
@[simp] theorem Chip.inc_free (c : Chip) (a : Nat) : (c.inc a).free = c.free := rfl
@[simp] theorem Chip.inc_supervisor (c : Chip) (a : Nat) : (c.inc a).supervisor = c.supervisor := rfl
@[simp] theorem Chip.inc_parts (c : Chip) (a : Nat) : (c.inc a).parts = c.parts := rfl
@[simp] theorem Chip.inc_echoUnread (c : Chip) (a : Nat) : (c.inc a).echoUnread = c.echoUnread := rfl
@[simp] theorem Chip.inc_inReset (c : Chip) (a : Nat) : (c.inc a).inReset = c.inReset := rfl
@[simp] theorem Chip.inc_alarmLow (c : Chip) (a : Nat) : (c.inc a).alarmLow = c.alarmLow := rfl
@[simp] theorem Chip.inc_tempo (c : Chip) (a : Nat) : (c.inc a).tempo = c.tempo := rfl
@[simp] theorem Chip.inc_ep (c : Chip) (a : Nat) : (c.inc a).ep = c.ep := rfl
@[simp] theorem Chip.inc_score (c : Chip) (a : Nat) : (c.inc a).score = c.score := rfl
@[simp] theorem Chip.inc_stg (c : Chip) (a : Nat) : (c.inc a).stg = c.stg := rfl
@[simp] theorem Chip.inc_can (c : Chip) (a : Nat) : (c.inc a).can = c.can := rfl
@[simp] theorem Chip.inc_fab (c : Chip) (a : Nat) : (c.inc a).fab = c.fab := rfl
@[simp] theorem Chip.inc_pol (c : Chip) (a : Nat) : (c.inc a).pol = c.pol := rfl
@[simp] theorem Chip.inc_guard (c : Chip) (a : Nat) : (c.inc a).guard = c.guard := rfl
@[simp] theorem Chip.inc_eth (c : Chip) (a : Nat) : (c.inc a).eth = c.eth := rfl
@[simp] theorem Chip.inc_adj (c : Chip) (a : Nat) : (c.inc a).adj = c.adj := rfl
@[simp] theorem Chip.inc_frer (c : Chip) (a : Nat) : (c.inc a).frer = c.frer := rfl
@[simp] theorem Chip.inc_sas (c : Chip) (a : Nat) : (c.inc a).sas = c.sas := rfl
@[simp] theorem Chip.inc_sig (c : Chip) (a : Nat) : (c.inc a).sig = c.sig := rfl
@[simp] theorem Chip.inc_pawn (c : Chip) (a : Nat) : (c.inc a).pawn = c.pawn := rfl
@[simp] theorem Chip.inc_castle (c : Chip) (a : Nat) : (c.inc a).castle = c.castle := rfl
@[simp] theorem Chip.inc_otp (c : Chip) (a : Nat) : (c.inc a).otp = c.otp := rfl
@[simp] theorem Chip.inc_cx (c : Chip) (a : Nat) : (c.inc a).cx = c.cx := rfl
@[simp] theorem Chip.inc_host (c : Chip) (a : Nat) : (c.inc a).host = c.host := rfl
@[simp] theorem Chip.inc_power (c : Chip) (a : Nat) : (c.inc a).power = c.power := rfl
@[simp] theorem Chip.inc_mem (c : Chip) (a : Nat) : (c.inc a).mem = c.mem := rfl
@[simp] theorem Chip.inc_gambit (c : Chip) (a : Nat) : (c.inc a).gambit = c.gambit := rfl
@[simp] theorem Chip.inc_arb (c : Chip) (a : Nat) : (c.inc a).arb = c.arb := rfl
@[simp] theorem Chip.inc_tap (c : Chip) (a : Nat) : (c.inc a).tap = c.tap := rfl

/-! ### advanceFree -/
@[simp] theorem Chip.advanceFree_regs (c : Chip) : (c.advanceFree).regs = c.regs := rfl
@[simp] theorem Chip.advanceFree_tbl (c : Chip) : (c.advanceFree).tbl = c.tbl := rfl
@[simp] theorem Chip.advanceFree_now (c : Chip) : (c.advanceFree).now = c.now := rfl
@[simp] theorem Chip.advanceFree_out (c : Chip) : (c.advanceFree).out = c.out := rfl
@[simp] theorem Chip.advanceFree_pba (c : Chip) : (c.advanceFree).pba = c.pba := rfl
@[simp] theorem Chip.advanceFree_supervisor (c : Chip) : (c.advanceFree).supervisor = c.supervisor := rfl
@[simp] theorem Chip.advanceFree_parts (c : Chip) : (c.advanceFree).parts = c.parts := rfl
@[simp] theorem Chip.advanceFree_echoUnread (c : Chip) : (c.advanceFree).echoUnread = c.echoUnread := rfl
@[simp] theorem Chip.advanceFree_inReset (c : Chip) : (c.advanceFree).inReset = c.inReset := rfl
@[simp] theorem Chip.advanceFree_alarmLow (c : Chip) : (c.advanceFree).alarmLow = c.alarmLow := rfl
@[simp] theorem Chip.advanceFree_tempo (c : Chip) : (c.advanceFree).tempo = c.tempo := rfl
@[simp] theorem Chip.advanceFree_ep (c : Chip) : (c.advanceFree).ep = c.ep := rfl
@[simp] theorem Chip.advanceFree_score (c : Chip) : (c.advanceFree).score = c.score := rfl
@[simp] theorem Chip.advanceFree_stg (c : Chip) : (c.advanceFree).stg = c.stg := rfl
@[simp] theorem Chip.advanceFree_can (c : Chip) : (c.advanceFree).can = c.can := rfl
@[simp] theorem Chip.advanceFree_fab (c : Chip) : (c.advanceFree).fab = c.fab := rfl
@[simp] theorem Chip.advanceFree_pol (c : Chip) : (c.advanceFree).pol = c.pol := rfl
@[simp] theorem Chip.advanceFree_guard (c : Chip) : (c.advanceFree).guard = c.guard := rfl
@[simp] theorem Chip.advanceFree_eth (c : Chip) : (c.advanceFree).eth = c.eth := rfl
@[simp] theorem Chip.advanceFree_adj (c : Chip) : (c.advanceFree).adj = c.adj := rfl
@[simp] theorem Chip.advanceFree_frer (c : Chip) : (c.advanceFree).frer = c.frer := rfl
@[simp] theorem Chip.advanceFree_sas (c : Chip) : (c.advanceFree).sas = c.sas := rfl
@[simp] theorem Chip.advanceFree_sig (c : Chip) : (c.advanceFree).sig = c.sig := rfl
@[simp] theorem Chip.advanceFree_pawn (c : Chip) : (c.advanceFree).pawn = c.pawn := rfl
@[simp] theorem Chip.advanceFree_castle (c : Chip) : (c.advanceFree).castle = c.castle := rfl
@[simp] theorem Chip.advanceFree_otp (c : Chip) : (c.advanceFree).otp = c.otp := rfl
@[simp] theorem Chip.advanceFree_cx (c : Chip) : (c.advanceFree).cx = c.cx := rfl
@[simp] theorem Chip.advanceFree_host (c : Chip) : (c.advanceFree).host = c.host := rfl
@[simp] theorem Chip.advanceFree_power (c : Chip) : (c.advanceFree).power = c.power := rfl
@[simp] theorem Chip.advanceFree_mem (c : Chip) : (c.advanceFree).mem = c.mem := rfl
@[simp] theorem Chip.advanceFree_gambit (c : Chip) : (c.advanceFree).gambit = c.gambit := rfl
@[simp] theorem Chip.advanceFree_arb (c : Chip) : (c.advanceFree).arb = c.arb := rfl
@[simp] theorem Chip.advanceFree_tap (c : Chip) : (c.advanceFree).tap = c.tap := rfl

/-! ### the values written -/
@[simp] theorem Chip.emit_out_eq (c : Chip) (o : Out) : (c.emit o).out = c.out ++ [o] := rfl
@[simp] theorem Chip.advanceFree_free_eq (c : Chip) : c.advanceFree.free = c.free + 1 := rfl

/-! ### the step on the part -/
@[simp] theorem State.onChip_pass (s : State) (g : Gate) (f : Chip → Chip) (h : s.chip.passes g = true) :
    s.onChip g f = .next { s with chip := f s.chip } := by simp [State.onChip, h]

theorem State.onChip_block (s : State) (g : Gate) (f : Chip → Chip) (h : s.chip.passes g = false) :
    s.onChip g f = .next s := by simp [State.onChip, h]

end Sys2Proof.Machine
end

