-- ==== Sys2Proof/Laws/Ops.lean ====
section
/-! SUPPORT. What each shared operation does: reading back what it writes, and what it leaves alone. -/

namespace Sys2Proof.Machine

/-! ### registers and tables -/
theorem Chip.reg_setReg (c : Chip) (a b : Nat) (v : Word) : (c.setReg a v).reg b = if b = a then v else c.reg b :=
  sget_sset_at resetOf c.regs a v b

@[simp] theorem Chip.reg_setReg_same (c : Chip) (a : Nat) (v : Word) : (c.setReg a v).reg a = v := by simp [Chip.reg_setReg]

theorem Chip.reg_setReg_ne (c : Chip) {a b : Nat} (v : Word) (h : b ≠ a) : (c.setReg a v).reg b = c.reg b := by
  simp [Chip.reg_setReg, h]

theorem Chip.reg_setFldOf (c : Chip) (a hi lo n b : Nat) :
    (c.setFldOf a hi lo n).reg b = if b = a then setFld (c.reg a) hi lo n else c.reg b := by
  simp [Chip.setFldOf, Chip.reg_setReg]

theorem Chip.reg_setBitOf (c : Chip) (a n b : Nat) (x : Bool) :
    (c.setBitOf a n x).reg b = if b = a then setBit (c.reg a) n x else c.reg b := by
  simp [Chip.setBitOf, Chip.reg_setReg]

theorem Chip.reg_addTo (c : Chip) (a n b : Nat) :
    (c.addTo a n).reg b = if b = a then sat32 ((c.reg a).toNat + n) else c.reg b := by
  simp [Chip.addTo, Chip.reg_setReg]

theorem Chip.reg_inc (c : Chip) (a b : Nat) :
    (c.inc a).reg b = if b = a then sat32 ((c.reg a).toNat + 1) else c.reg b := Chip.reg_addTo c a 1 b

theorem Chip.reg_of_regs {c d : Chip} (h : d.regs = c.regs) (a : Nat) : d.reg a = c.reg a := by simp [Chip.reg, h]

theorem Chip.tword_setTword (c : Chip) (off k : Nat) (v : Word64) :
    (c.setTword off v).tword k = if k / 8 = off / 8 then v else c.tword k := sget_sset 0 c.tbl (off / 8) v (k / 8)

theorem Chip.part_setPart (c : Chip) (k j : Nat) (v : PartState) : (c.setPart k v).part j = if j = k then v else c.part j :=
  sget_sset ({} : PartState) c.parts k v j

theorem Chip.txn_setTxn (c : Chip) (k j : Nat) (t : Txn) : (c.setTxn k t).txn j = if j = k then t else c.txn j :=
  sget_sset ({} : Txn) c.ep.txns k t j

/-! ### bits and fields -/
theorem fieldMask_lsb (w hi lo i : Nat) (h : lo ≤ hi) (hi' : hi < w) :
    (fieldMask w hi lo).getLsbD i = (decide (lo ≤ i) && decide (i ≤ hi)) := by
  simp only [fieldMask, BitVec.getLsbD_ofNat, Nat.testBit_mul_two_pow, Nat.testBit_two_pow_sub_one]
  by_cases h1 : i < w <;> by_cases h2 : lo ≤ i <;> by_cases h3 : i ≤ hi <;> simp [h1, h2, h3] <;> omega

theorem bit_setFld {w : Nat} (v : BitVec w) (hi lo n i : Nat) (h : lo ≤ hi) (h' : hi < w) :
    bit (setFld v hi lo n) i = if lo ≤ i ∧ i ≤ hi then n.testBit (i - lo) else bit v i := by
  unfold bit setFld
  simp only [BitVec.getLsbD_or, BitVec.getLsbD_and, BitVec.getLsbD_not, fieldMask_lsb w hi lo i h h',
    BitVec.getLsbD_ofNat, Nat.testBit_mul_two_pow]
  by_cases h1 : i < w
  · by_cases h2 : lo ≤ i <;> by_cases h3 : i ≤ hi <;> simp [h1, h2, h3]
  · have : v.getLsbD i = false := BitVec.getLsbD_of_ge v i (by omega)
    by_cases h2 : lo ≤ i <;> by_cases h3 : i ≤ hi <;> simp [h1, h2, h3, this] <;> omega

theorem bit_setBit {w : Nat} (v : BitVec w) (n : Nat) (b : Bool) (h : n < w) (i : Nat) :
    bit (setBit v n b) i = if i = n then b else bit v i := by
  unfold setBit
  rw [bit_setFld v n n _ i (Nat.le_refl n) h]
  by_cases h1 : i = n
  · subst h1; cases b <;> simp
  · have : ¬(n ≤ i ∧ i ≤ n) := by omega
    simp [h1, this]

theorem fld_testBit {w : Nat} (v : BitVec w) (hi lo i : Nat) :
    (fld v hi lo).testBit i = (decide (i < hi - lo + 1) && bit v (lo + i)) := by
  simp [fld, natBits, Nat.testBit_mod_two_pow, Nat.testBit_div_two_pow, bit, BitVec.getLsbD, Nat.add_comm]

theorem fld_ext {w u : Nat} {v : BitVec w} {x : BitVec u} {hi lo : Nat} (hl : lo ≤ hi)
    (h : ∀ i, lo ≤ i → i ≤ hi → bit v i = bit x i) : fld v hi lo = fld x hi lo := by
  apply Nat.eq_of_testBit_eq
  intro i
  rw [fld_testBit, fld_testBit]
  by_cases h1 : i < hi - lo + 1
  · simp [h (lo + i) (by omega) (by omega)]
  · simp [h1]

theorem fld_setFld_same {w : Nat} (v : BitVec w) (hi lo n : Nat) (h : lo ≤ hi) (h' : hi < w) :
    fld (setFld v hi lo n) hi lo = n % 2 ^ (hi - lo + 1) := by
  apply Nat.eq_of_testBit_eq
  intro i
  rw [fld_testBit, bit_setFld v hi lo n _ h h', Nat.testBit_mod_two_pow]
  by_cases h1 : i < hi - lo + 1
  · have : lo ≤ lo + i ∧ lo + i ≤ hi := by omega
    simp [h1, this]
  · simp [h1]

theorem fld_setFld_other {w : Nat} (v : BitVec w) (hi lo n hi' lo' : Nat) (h : lo ≤ hi) (h' : hi < w) (hl : lo' ≤ hi')
    (hd : hi' < lo ∨ hi < lo') : fld (setFld v hi lo n) hi' lo' = fld v hi' lo' :=
  fld_ext hl fun i h1 h2 => by
    have : ¬(lo ≤ i ∧ i ≤ hi) := by omega
    simp [bit_setFld v hi lo n i h h', this]

theorem bit_or_oneBit (v : Word) (b n : Nat) (h : b < 32) : bit (v ||| oneBit 32 b) n = (bit v n || decide (n = b)) := by
  simp only [bit, oneBit, BitVec.getLsbD_or, BitVec.getLsbD_ofNat, Nat.testBit_two_pow]
  by_cases h1 : n = b
  · subst h1; simp [h]
  · have h2 : ¬ b = n := fun h => h1 h.symm
    simp [h1, h2]

/-! ### interrupts -/
/-- A message changes nothing but the outputs and the pending bits of masked vectors. -/
theorem Chip.sendVec_eq (c : Chip) (k v : Nat) : c.sendVec k v = { c with out := (c.sendVec k v).out, pba := (c.sendVec k v).pba } := by
  unfold Chip.sendVec Chip.emit; split
  · rfl
  · split
    · split <;> rfl
    · rfl

theorem Chip.foldl_sendVec_eq (l : List (Nat × Nat)) (c : Chip) :
    l.foldl (fun c kv => c.sendVec kv.1 kv.2) c
      = { c with out := (l.foldl (fun c kv => c.sendVec kv.1 kv.2) c).out, pba := (l.foldl (fun c kv => c.sendVec kv.1 kv.2) c).pba } := by
  induction l generalizing c with
  | nil => rfl
  | cons e rest ih =>
    simp only [List.foldl_cons]
    rw [ih (c.sendVec e.1 e.2), Chip.sendVec_eq c e.1 e.2]

theorem Chip.irqEdge_eq (b c : Chip) : Chip.irqEdge b c = { c with out := (Chip.irqEdge b c).out, pba := (Chip.irqEdge b c).pba } :=
  Chip.foldl_sendVec_eq _ c

theorem Chip.irqRewrite_frame_regs (c : Chip) (l : List (Nat × Nat)) :
    (l.foldl (fun c kv => c.sendVec kv.1 kv.2) c).regs = c.regs := by rw [Chip.foldl_sendVec_eq]

@[simp] theorem Chip.irqEdge_regs (b c : Chip) : (Chip.irqEdge b c).regs = c.regs := by rw [Chip.irqEdge_eq]

/-- Raising a source sets its bit of PAGE_IRQ_STAT and may send messages. -/
theorem Chip.raise_eq (c : Chip) (p b : Nat) :
    c.raise p b = { c with
      regs := (c.setReg (hIrqStat p) (c.reg (hIrqStat p) ||| oneBit 32 b)).regs, out := (c.raise p b).out, pba := (c.raise p b).pba } := by
  unfold Chip.raise
  rw [Chip.irqEdge_eq]; rfl

theorem Chip.raise_regs (c : Chip) (p b : Nat) :
    (c.raise p b).regs = (c.setReg (hIrqStat p) (c.reg (hIrqStat p) ||| oneBit 32 b)).regs := by rw [Chip.raise_eq]

theorem Chip.reg_raise (c : Chip) (p b a : Nat) :
    (c.raise p b).reg a = if a = hIrqStat p then c.reg (hIrqStat p) ||| oneBit 32 b else c.reg a := by
  rw [Chip.reg_of_regs (Chip.raise_regs c p b)]; exact Chip.reg_setReg c _ _ _

theorem Chip.setErr_eq (c : Chip) (p b : Nat) :
    c.setErr p b = { c with regs := (c.setErr p b).regs, out := (c.setErr p b).out, pba := (c.setErr p b).pba } := by
  unfold Chip.setErr; split
  · rfl
  · rw [Chip.raise_eq]; rfl

theorem Chip.reg_setErr (c : Chip) (p b a : Nat) (h : a ≠ hErr p) (h' : a ≠ hIrqStat p) : (c.setErr p b).reg a = c.reg a := by
  unfold Chip.setErr; split
  · rfl
  · simp [Chip.reg_raise, Chip.reg_setBitOf, h, h']

theorem Chip.bitOf_setErr (c : Chip) (p b : Nat) (hb : b < 32) : (c.setErr p b).bitOf (hErr p) b = true := by
  unfold Chip.setErr; split
  · assumption
  · have : hErr p ≠ hIrqStat p := by simp [hErr, hIrqStat]
    simp [Chip.bitOf, Chip.reg_raise, Chip.reg_setBitOf, this, bit_setBit _ _ _ hb]

theorem Chip.incRaise_eq (c : Chip) (a p b : Nat) :
    c.incRaise a p b = { c with regs := (c.incRaise a p b).regs, out := (c.incRaise a p b).out, pba := (c.incRaise a p b).pba } := by
  unfold Chip.incRaise; rw [Chip.raise_eq]; rfl

theorem Chip.reg_incRaise (c : Chip) (a p b x : Nat) :
    (c.incRaise a p b).reg x = if x = hIrqStat p then (c.inc a).reg (hIrqStat p) ||| oneBit 32 b else (c.inc a).reg x :=
  Chip.reg_raise _ _ _ _

theorem Chip.peak_eq (c : Chip) (a n : Nat) : c.peak a n = { c with regs := (c.peak a n).regs } := by
  unfold Chip.peak; split <;> rfl

theorem Chip.reg_peak_ne (c : Chip) {a b : Nat} (n : Nat) (h : b ≠ a) : (c.peak a n).reg b = c.reg b := by
  unfold Chip.peak; split
  · exact Chip.reg_setReg_ne c _ h
  · rfl

@[simp] theorem Chip.raise_tbl (c : Chip) (p b : Nat) : (c.raise p b).tbl = c.tbl := by rw [Chip.raise_eq]
@[simp] theorem Chip.raise_now (c : Chip) (p b : Nat) : (c.raise p b).now = c.now := by rw [Chip.raise_eq]
@[simp] theorem Chip.raise_free (c : Chip) (p b : Nat) : (c.raise p b).free = c.free := by rw [Chip.raise_eq]
@[simp] theorem Chip.raise_supervisor (c : Chip) (p b : Nat) : (c.raise p b).supervisor = c.supervisor := by rw [Chip.raise_eq]
@[simp] theorem Chip.raise_parts (c : Chip) (p b : Nat) : (c.raise p b).parts = c.parts := by rw [Chip.raise_eq]
@[simp] theorem Chip.raise_echoUnread (c : Chip) (p b : Nat) : (c.raise p b).echoUnread = c.echoUnread := by rw [Chip.raise_eq]
@[simp] theorem Chip.raise_inReset (c : Chip) (p b : Nat) : (c.raise p b).inReset = c.inReset := by rw [Chip.raise_eq]
@[simp] theorem Chip.raise_alarmLow (c : Chip) (p b : Nat) : (c.raise p b).alarmLow = c.alarmLow := by rw [Chip.raise_eq]
@[simp] theorem Chip.raise_tempo (c : Chip) (p b : Nat) : (c.raise p b).tempo = c.tempo := by rw [Chip.raise_eq]
@[simp] theorem Chip.raise_ep (c : Chip) (p b : Nat) : (c.raise p b).ep = c.ep := by rw [Chip.raise_eq]
@[simp] theorem Chip.raise_score (c : Chip) (p b : Nat) : (c.raise p b).score = c.score := by rw [Chip.raise_eq]
@[simp] theorem Chip.raise_stg (c : Chip) (p b : Nat) : (c.raise p b).stg = c.stg := by rw [Chip.raise_eq]
@[simp] theorem Chip.raise_can (c : Chip) (p b : Nat) : (c.raise p b).can = c.can := by rw [Chip.raise_eq]
@[simp] theorem Chip.raise_fab (c : Chip) (p b : Nat) : (c.raise p b).fab = c.fab := by rw [Chip.raise_eq]
@[simp] theorem Chip.raise_pol (c : Chip) (p b : Nat) : (c.raise p b).pol = c.pol := by rw [Chip.raise_eq]
@[simp] theorem Chip.raise_guard (c : Chip) (p b : Nat) : (c.raise p b).guard = c.guard := by rw [Chip.raise_eq]
@[simp] theorem Chip.raise_eth (c : Chip) (p b : Nat) : (c.raise p b).eth = c.eth := by rw [Chip.raise_eq]
@[simp] theorem Chip.raise_adj (c : Chip) (p b : Nat) : (c.raise p b).adj = c.adj := by rw [Chip.raise_eq]
@[simp] theorem Chip.raise_frer (c : Chip) (p b : Nat) : (c.raise p b).frer = c.frer := by rw [Chip.raise_eq]
@[simp] theorem Chip.raise_sas (c : Chip) (p b : Nat) : (c.raise p b).sas = c.sas := by rw [Chip.raise_eq]
@[simp] theorem Chip.raise_sig (c : Chip) (p b : Nat) : (c.raise p b).sig = c.sig := by rw [Chip.raise_eq]
@[simp] theorem Chip.raise_pawn (c : Chip) (p b : Nat) : (c.raise p b).pawn = c.pawn := by rw [Chip.raise_eq]
@[simp] theorem Chip.raise_castle (c : Chip) (p b : Nat) : (c.raise p b).castle = c.castle := by rw [Chip.raise_eq]
@[simp] theorem Chip.raise_otp (c : Chip) (p b : Nat) : (c.raise p b).otp = c.otp := by rw [Chip.raise_eq]
@[simp] theorem Chip.raise_cx (c : Chip) (p b : Nat) : (c.raise p b).cx = c.cx := by rw [Chip.raise_eq]
@[simp] theorem Chip.raise_host (c : Chip) (p b : Nat) : (c.raise p b).host = c.host := by rw [Chip.raise_eq]
@[simp] theorem Chip.raise_power (c : Chip) (p b : Nat) : (c.raise p b).power = c.power := by rw [Chip.raise_eq]
@[simp] theorem Chip.raise_mem (c : Chip) (p b : Nat) : (c.raise p b).mem = c.mem := by rw [Chip.raise_eq]
@[simp] theorem Chip.raise_gambit (c : Chip) (p b : Nat) : (c.raise p b).gambit = c.gambit := by rw [Chip.raise_eq]
@[simp] theorem Chip.raise_arb (c : Chip) (p b : Nat) : (c.raise p b).arb = c.arb := by rw [Chip.raise_eq]
@[simp] theorem Chip.raise_tap (c : Chip) (p b : Nat) : (c.raise p b).tap = c.tap := by rw [Chip.raise_eq]

@[simp] theorem Chip.setErr_tbl (c : Chip) (p b : Nat) : (c.setErr p b).tbl = c.tbl := by rw [Chip.setErr_eq]
@[simp] theorem Chip.setErr_now (c : Chip) (p b : Nat) : (c.setErr p b).now = c.now := by rw [Chip.setErr_eq]
@[simp] theorem Chip.setErr_free (c : Chip) (p b : Nat) : (c.setErr p b).free = c.free := by rw [Chip.setErr_eq]
@[simp] theorem Chip.setErr_supervisor (c : Chip) (p b : Nat) : (c.setErr p b).supervisor = c.supervisor := by rw [Chip.setErr_eq]
@[simp] theorem Chip.setErr_parts (c : Chip) (p b : Nat) : (c.setErr p b).parts = c.parts := by rw [Chip.setErr_eq]
@[simp] theorem Chip.setErr_echoUnread (c : Chip) (p b : Nat) : (c.setErr p b).echoUnread = c.echoUnread := by rw [Chip.setErr_eq]
@[simp] theorem Chip.setErr_inReset (c : Chip) (p b : Nat) : (c.setErr p b).inReset = c.inReset := by rw [Chip.setErr_eq]
@[simp] theorem Chip.setErr_alarmLow (c : Chip) (p b : Nat) : (c.setErr p b).alarmLow = c.alarmLow := by rw [Chip.setErr_eq]
@[simp] theorem Chip.setErr_tempo (c : Chip) (p b : Nat) : (c.setErr p b).tempo = c.tempo := by rw [Chip.setErr_eq]
@[simp] theorem Chip.setErr_ep (c : Chip) (p b : Nat) : (c.setErr p b).ep = c.ep := by rw [Chip.setErr_eq]
@[simp] theorem Chip.setErr_score (c : Chip) (p b : Nat) : (c.setErr p b).score = c.score := by rw [Chip.setErr_eq]
@[simp] theorem Chip.setErr_stg (c : Chip) (p b : Nat) : (c.setErr p b).stg = c.stg := by rw [Chip.setErr_eq]
@[simp] theorem Chip.setErr_can (c : Chip) (p b : Nat) : (c.setErr p b).can = c.can := by rw [Chip.setErr_eq]
@[simp] theorem Chip.setErr_fab (c : Chip) (p b : Nat) : (c.setErr p b).fab = c.fab := by rw [Chip.setErr_eq]
@[simp] theorem Chip.setErr_pol (c : Chip) (p b : Nat) : (c.setErr p b).pol = c.pol := by rw [Chip.setErr_eq]
@[simp] theorem Chip.setErr_guard (c : Chip) (p b : Nat) : (c.setErr p b).guard = c.guard := by rw [Chip.setErr_eq]
@[simp] theorem Chip.setErr_eth (c : Chip) (p b : Nat) : (c.setErr p b).eth = c.eth := by rw [Chip.setErr_eq]
@[simp] theorem Chip.setErr_adj (c : Chip) (p b : Nat) : (c.setErr p b).adj = c.adj := by rw [Chip.setErr_eq]
@[simp] theorem Chip.setErr_frer (c : Chip) (p b : Nat) : (c.setErr p b).frer = c.frer := by rw [Chip.setErr_eq]
@[simp] theorem Chip.setErr_sas (c : Chip) (p b : Nat) : (c.setErr p b).sas = c.sas := by rw [Chip.setErr_eq]
@[simp] theorem Chip.setErr_sig (c : Chip) (p b : Nat) : (c.setErr p b).sig = c.sig := by rw [Chip.setErr_eq]
@[simp] theorem Chip.setErr_pawn (c : Chip) (p b : Nat) : (c.setErr p b).pawn = c.pawn := by rw [Chip.setErr_eq]
@[simp] theorem Chip.setErr_castle (c : Chip) (p b : Nat) : (c.setErr p b).castle = c.castle := by rw [Chip.setErr_eq]
@[simp] theorem Chip.setErr_otp (c : Chip) (p b : Nat) : (c.setErr p b).otp = c.otp := by rw [Chip.setErr_eq]
@[simp] theorem Chip.setErr_cx (c : Chip) (p b : Nat) : (c.setErr p b).cx = c.cx := by rw [Chip.setErr_eq]
@[simp] theorem Chip.setErr_host (c : Chip) (p b : Nat) : (c.setErr p b).host = c.host := by rw [Chip.setErr_eq]
@[simp] theorem Chip.setErr_power (c : Chip) (p b : Nat) : (c.setErr p b).power = c.power := by rw [Chip.setErr_eq]
@[simp] theorem Chip.setErr_mem (c : Chip) (p b : Nat) : (c.setErr p b).mem = c.mem := by rw [Chip.setErr_eq]
@[simp] theorem Chip.setErr_gambit (c : Chip) (p b : Nat) : (c.setErr p b).gambit = c.gambit := by rw [Chip.setErr_eq]
@[simp] theorem Chip.setErr_arb (c : Chip) (p b : Nat) : (c.setErr p b).arb = c.arb := by rw [Chip.setErr_eq]
@[simp] theorem Chip.setErr_tap (c : Chip) (p b : Nat) : (c.setErr p b).tap = c.tap := by rw [Chip.setErr_eq]

@[simp] theorem Chip.incRaise_tbl (c : Chip) (a p b : Nat) : (c.incRaise a p b).tbl = c.tbl := by rw [Chip.incRaise_eq]
@[simp] theorem Chip.incRaise_now (c : Chip) (a p b : Nat) : (c.incRaise a p b).now = c.now := by rw [Chip.incRaise_eq]
@[simp] theorem Chip.incRaise_free (c : Chip) (a p b : Nat) : (c.incRaise a p b).free = c.free := by rw [Chip.incRaise_eq]
@[simp] theorem Chip.incRaise_supervisor (c : Chip) (a p b : Nat) : (c.incRaise a p b).supervisor = c.supervisor := by rw [Chip.incRaise_eq]
@[simp] theorem Chip.incRaise_parts (c : Chip) (a p b : Nat) : (c.incRaise a p b).parts = c.parts := by rw [Chip.incRaise_eq]
@[simp] theorem Chip.incRaise_echoUnread (c : Chip) (a p b : Nat) : (c.incRaise a p b).echoUnread = c.echoUnread := by rw [Chip.incRaise_eq]
@[simp] theorem Chip.incRaise_inReset (c : Chip) (a p b : Nat) : (c.incRaise a p b).inReset = c.inReset := by rw [Chip.incRaise_eq]
@[simp] theorem Chip.incRaise_alarmLow (c : Chip) (a p b : Nat) : (c.incRaise a p b).alarmLow = c.alarmLow := by rw [Chip.incRaise_eq]
@[simp] theorem Chip.incRaise_tempo (c : Chip) (a p b : Nat) : (c.incRaise a p b).tempo = c.tempo := by rw [Chip.incRaise_eq]
@[simp] theorem Chip.incRaise_ep (c : Chip) (a p b : Nat) : (c.incRaise a p b).ep = c.ep := by rw [Chip.incRaise_eq]
@[simp] theorem Chip.incRaise_score (c : Chip) (a p b : Nat) : (c.incRaise a p b).score = c.score := by rw [Chip.incRaise_eq]
@[simp] theorem Chip.incRaise_stg (c : Chip) (a p b : Nat) : (c.incRaise a p b).stg = c.stg := by rw [Chip.incRaise_eq]
@[simp] theorem Chip.incRaise_can (c : Chip) (a p b : Nat) : (c.incRaise a p b).can = c.can := by rw [Chip.incRaise_eq]
@[simp] theorem Chip.incRaise_fab (c : Chip) (a p b : Nat) : (c.incRaise a p b).fab = c.fab := by rw [Chip.incRaise_eq]
@[simp] theorem Chip.incRaise_pol (c : Chip) (a p b : Nat) : (c.incRaise a p b).pol = c.pol := by rw [Chip.incRaise_eq]
@[simp] theorem Chip.incRaise_guard (c : Chip) (a p b : Nat) : (c.incRaise a p b).guard = c.guard := by rw [Chip.incRaise_eq]
@[simp] theorem Chip.incRaise_eth (c : Chip) (a p b : Nat) : (c.incRaise a p b).eth = c.eth := by rw [Chip.incRaise_eq]
@[simp] theorem Chip.incRaise_adj (c : Chip) (a p b : Nat) : (c.incRaise a p b).adj = c.adj := by rw [Chip.incRaise_eq]
@[simp] theorem Chip.incRaise_frer (c : Chip) (a p b : Nat) : (c.incRaise a p b).frer = c.frer := by rw [Chip.incRaise_eq]
@[simp] theorem Chip.incRaise_sas (c : Chip) (a p b : Nat) : (c.incRaise a p b).sas = c.sas := by rw [Chip.incRaise_eq]
@[simp] theorem Chip.incRaise_sig (c : Chip) (a p b : Nat) : (c.incRaise a p b).sig = c.sig := by rw [Chip.incRaise_eq]
@[simp] theorem Chip.incRaise_pawn (c : Chip) (a p b : Nat) : (c.incRaise a p b).pawn = c.pawn := by rw [Chip.incRaise_eq]
@[simp] theorem Chip.incRaise_castle (c : Chip) (a p b : Nat) : (c.incRaise a p b).castle = c.castle := by rw [Chip.incRaise_eq]
@[simp] theorem Chip.incRaise_otp (c : Chip) (a p b : Nat) : (c.incRaise a p b).otp = c.otp := by rw [Chip.incRaise_eq]
@[simp] theorem Chip.incRaise_cx (c : Chip) (a p b : Nat) : (c.incRaise a p b).cx = c.cx := by rw [Chip.incRaise_eq]
@[simp] theorem Chip.incRaise_host (c : Chip) (a p b : Nat) : (c.incRaise a p b).host = c.host := by rw [Chip.incRaise_eq]
@[simp] theorem Chip.incRaise_power (c : Chip) (a p b : Nat) : (c.incRaise a p b).power = c.power := by rw [Chip.incRaise_eq]
@[simp] theorem Chip.incRaise_mem (c : Chip) (a p b : Nat) : (c.incRaise a p b).mem = c.mem := by rw [Chip.incRaise_eq]
@[simp] theorem Chip.incRaise_gambit (c : Chip) (a p b : Nat) : (c.incRaise a p b).gambit = c.gambit := by rw [Chip.incRaise_eq]
@[simp] theorem Chip.incRaise_arb (c : Chip) (a p b : Nat) : (c.incRaise a p b).arb = c.arb := by rw [Chip.incRaise_eq]
@[simp] theorem Chip.incRaise_tap (c : Chip) (a p b : Nat) : (c.incRaise a p b).tap = c.tap := by rw [Chip.incRaise_eq]

@[simp] theorem Chip.peak_tbl (c : Chip) (a n : Nat) : (c.peak a n).tbl = c.tbl := by rw [Chip.peak_eq]
@[simp] theorem Chip.peak_now (c : Chip) (a n : Nat) : (c.peak a n).now = c.now := by rw [Chip.peak_eq]
@[simp] theorem Chip.peak_free (c : Chip) (a n : Nat) : (c.peak a n).free = c.free := by rw [Chip.peak_eq]
@[simp] theorem Chip.peak_supervisor (c : Chip) (a n : Nat) : (c.peak a n).supervisor = c.supervisor := by rw [Chip.peak_eq]
@[simp] theorem Chip.peak_parts (c : Chip) (a n : Nat) : (c.peak a n).parts = c.parts := by rw [Chip.peak_eq]
@[simp] theorem Chip.peak_echoUnread (c : Chip) (a n : Nat) : (c.peak a n).echoUnread = c.echoUnread := by rw [Chip.peak_eq]
@[simp] theorem Chip.peak_inReset (c : Chip) (a n : Nat) : (c.peak a n).inReset = c.inReset := by rw [Chip.peak_eq]
@[simp] theorem Chip.peak_alarmLow (c : Chip) (a n : Nat) : (c.peak a n).alarmLow = c.alarmLow := by rw [Chip.peak_eq]
@[simp] theorem Chip.peak_tempo (c : Chip) (a n : Nat) : (c.peak a n).tempo = c.tempo := by rw [Chip.peak_eq]
@[simp] theorem Chip.peak_ep (c : Chip) (a n : Nat) : (c.peak a n).ep = c.ep := by rw [Chip.peak_eq]
@[simp] theorem Chip.peak_score (c : Chip) (a n : Nat) : (c.peak a n).score = c.score := by rw [Chip.peak_eq]
@[simp] theorem Chip.peak_stg (c : Chip) (a n : Nat) : (c.peak a n).stg = c.stg := by rw [Chip.peak_eq]
@[simp] theorem Chip.peak_can (c : Chip) (a n : Nat) : (c.peak a n).can = c.can := by rw [Chip.peak_eq]
@[simp] theorem Chip.peak_fab (c : Chip) (a n : Nat) : (c.peak a n).fab = c.fab := by rw [Chip.peak_eq]
@[simp] theorem Chip.peak_pol (c : Chip) (a n : Nat) : (c.peak a n).pol = c.pol := by rw [Chip.peak_eq]
@[simp] theorem Chip.peak_guard (c : Chip) (a n : Nat) : (c.peak a n).guard = c.guard := by rw [Chip.peak_eq]
@[simp] theorem Chip.peak_eth (c : Chip) (a n : Nat) : (c.peak a n).eth = c.eth := by rw [Chip.peak_eq]
@[simp] theorem Chip.peak_adj (c : Chip) (a n : Nat) : (c.peak a n).adj = c.adj := by rw [Chip.peak_eq]
@[simp] theorem Chip.peak_frer (c : Chip) (a n : Nat) : (c.peak a n).frer = c.frer := by rw [Chip.peak_eq]
@[simp] theorem Chip.peak_sas (c : Chip) (a n : Nat) : (c.peak a n).sas = c.sas := by rw [Chip.peak_eq]
@[simp] theorem Chip.peak_sig (c : Chip) (a n : Nat) : (c.peak a n).sig = c.sig := by rw [Chip.peak_eq]
@[simp] theorem Chip.peak_pawn (c : Chip) (a n : Nat) : (c.peak a n).pawn = c.pawn := by rw [Chip.peak_eq]
@[simp] theorem Chip.peak_castle (c : Chip) (a n : Nat) : (c.peak a n).castle = c.castle := by rw [Chip.peak_eq]
@[simp] theorem Chip.peak_otp (c : Chip) (a n : Nat) : (c.peak a n).otp = c.otp := by rw [Chip.peak_eq]
@[simp] theorem Chip.peak_cx (c : Chip) (a n : Nat) : (c.peak a n).cx = c.cx := by rw [Chip.peak_eq]
@[simp] theorem Chip.peak_host (c : Chip) (a n : Nat) : (c.peak a n).host = c.host := by rw [Chip.peak_eq]
@[simp] theorem Chip.peak_power (c : Chip) (a n : Nat) : (c.peak a n).power = c.power := by rw [Chip.peak_eq]
@[simp] theorem Chip.peak_mem (c : Chip) (a n : Nat) : (c.peak a n).mem = c.mem := by rw [Chip.peak_eq]
@[simp] theorem Chip.peak_gambit (c : Chip) (a n : Nat) : (c.peak a n).gambit = c.gambit := by rw [Chip.peak_eq]
@[simp] theorem Chip.peak_arb (c : Chip) (a n : Nat) : (c.peak a n).arb = c.arb := by rw [Chip.peak_eq]
@[simp] theorem Chip.peak_tap (c : Chip) (a n : Nat) : (c.peak a n).tap = c.tap := by rw [Chip.peak_eq]

@[simp] theorem Chip.peak_out (c : Chip) (a n : Nat) : (c.peak a n).out = c.out := by rw [Chip.peak_eq]

/-! ### denials, alarms, the Scoresheet -/
theorem Chip.deny_eq (c : Chip) (k : Nat) (w b2 : Bool) (p off : Nat) :
    c.deny k w b2 p off = { c with
      regs := (c.deny k w b2 p off).regs, out := (c.deny k w b2 p off).out, pba := (c.deny k w b2 p off).pba, parts := (c.deny k w b2 p off).parts } := by
  simp only [Chip.deny]; split <;> (rw [Chip.raise_eq]; rfl)

theorem Chip.scoreAs_eq (c : Chip) (code sev page : Nat) (pt pl : Option Nat) (d : List Byte) :
    c.scoreAs code sev page pt pl d = { c with
      regs := (c.scoreAs code sev page pt pl d).regs, out := (c.scoreAs code sev page pt pl d).out, pba := (c.scoreAs code sev page pt pl d).pba, score := (c.scoreAs code sev page pt pl d).score } := by
  simp only [Chip.scoreAs]; split
  · rfl
  · rw [Chip.incRaise_eq]

theorem Chip.foldl_raise_eq (f : Nat → Nat) (b : Nat) (l : List Nat) (c : Chip) :
    l.foldl (fun c k => c.raise (f k) b) c
      = { c with regs := (l.foldl (fun c k => c.raise (f k) b) c).regs, out := (l.foldl (fun c k => c.raise (f k) b) c).out, pba := (l.foldl (fun c k => c.raise (f k) b) c).pba } := by
  induction l generalizing c with
  | nil => rfl
  | cons e rest ih =>
    simp only [List.foldl_cons]
    rw [ih (c.raise (f e) b), Chip.raise_eq c (f e) b]

theorem Chip.alarmLevel_eq (c : Chip) :
    c.alarmLevel = { c with regs := c.alarmLevel.regs, out := c.alarmLevel.out, pba := c.alarmLevel.pba, alarmLow := c.alarmLevel.alarmLow } := by
  unfold Chip.alarmLevel
  split
  · split
    · rw [Chip.foldl_raise_eq]; rfl
    · rfl
  · split
    · rfl
    · split <;> rfl

theorem Chip.setAlarm_eq (c : Chip) (b : Nat) :
    c.setAlarm b = { c with regs := (c.setAlarm b).regs, out := (c.setAlarm b).out, pba := (c.setAlarm b).pba, alarmLow := (c.setAlarm b).alarmLow } := by
  unfold Chip.setAlarm; rw [Chip.alarmLevel_eq]; rfl

@[simp] theorem Chip.deny_tbl (c : Chip) (k : Nat) (w b2 : Bool) (p off : Nat) : (c.deny k w b2 p off).tbl = c.tbl := by rw [Chip.deny_eq]
@[simp] theorem Chip.deny_now (c : Chip) (k : Nat) (w b2 : Bool) (p off : Nat) : (c.deny k w b2 p off).now = c.now := by rw [Chip.deny_eq]
@[simp] theorem Chip.deny_free (c : Chip) (k : Nat) (w b2 : Bool) (p off : Nat) : (c.deny k w b2 p off).free = c.free := by rw [Chip.deny_eq]
@[simp] theorem Chip.deny_supervisor (c : Chip) (k : Nat) (w b2 : Bool) (p off : Nat) : (c.deny k w b2 p off).supervisor = c.supervisor := by rw [Chip.deny_eq]
@[simp] theorem Chip.deny_echoUnread (c : Chip) (k : Nat) (w b2 : Bool) (p off : Nat) : (c.deny k w b2 p off).echoUnread = c.echoUnread := by rw [Chip.deny_eq]
@[simp] theorem Chip.deny_inReset (c : Chip) (k : Nat) (w b2 : Bool) (p off : Nat) : (c.deny k w b2 p off).inReset = c.inReset := by rw [Chip.deny_eq]
@[simp] theorem Chip.deny_alarmLow (c : Chip) (k : Nat) (w b2 : Bool) (p off : Nat) : (c.deny k w b2 p off).alarmLow = c.alarmLow := by rw [Chip.deny_eq]
@[simp] theorem Chip.deny_tempo (c : Chip) (k : Nat) (w b2 : Bool) (p off : Nat) : (c.deny k w b2 p off).tempo = c.tempo := by rw [Chip.deny_eq]
@[simp] theorem Chip.deny_ep (c : Chip) (k : Nat) (w b2 : Bool) (p off : Nat) : (c.deny k w b2 p off).ep = c.ep := by rw [Chip.deny_eq]
@[simp] theorem Chip.deny_score (c : Chip) (k : Nat) (w b2 : Bool) (p off : Nat) : (c.deny k w b2 p off).score = c.score := by rw [Chip.deny_eq]
@[simp] theorem Chip.deny_stg (c : Chip) (k : Nat) (w b2 : Bool) (p off : Nat) : (c.deny k w b2 p off).stg = c.stg := by rw [Chip.deny_eq]
@[simp] theorem Chip.deny_can (c : Chip) (k : Nat) (w b2 : Bool) (p off : Nat) : (c.deny k w b2 p off).can = c.can := by rw [Chip.deny_eq]
@[simp] theorem Chip.deny_fab (c : Chip) (k : Nat) (w b2 : Bool) (p off : Nat) : (c.deny k w b2 p off).fab = c.fab := by rw [Chip.deny_eq]
@[simp] theorem Chip.deny_pol (c : Chip) (k : Nat) (w b2 : Bool) (p off : Nat) : (c.deny k w b2 p off).pol = c.pol := by rw [Chip.deny_eq]
@[simp] theorem Chip.deny_guard (c : Chip) (k : Nat) (w b2 : Bool) (p off : Nat) : (c.deny k w b2 p off).guard = c.guard := by rw [Chip.deny_eq]
@[simp] theorem Chip.deny_eth (c : Chip) (k : Nat) (w b2 : Bool) (p off : Nat) : (c.deny k w b2 p off).eth = c.eth := by rw [Chip.deny_eq]
@[simp] theorem Chip.deny_adj (c : Chip) (k : Nat) (w b2 : Bool) (p off : Nat) : (c.deny k w b2 p off).adj = c.adj := by rw [Chip.deny_eq]
@[simp] theorem Chip.deny_frer (c : Chip) (k : Nat) (w b2 : Bool) (p off : Nat) : (c.deny k w b2 p off).frer = c.frer := by rw [Chip.deny_eq]
@[simp] theorem Chip.deny_sas (c : Chip) (k : Nat) (w b2 : Bool) (p off : Nat) : (c.deny k w b2 p off).sas = c.sas := by rw [Chip.deny_eq]
@[simp] theorem Chip.deny_sig (c : Chip) (k : Nat) (w b2 : Bool) (p off : Nat) : (c.deny k w b2 p off).sig = c.sig := by rw [Chip.deny_eq]
@[simp] theorem Chip.deny_pawn (c : Chip) (k : Nat) (w b2 : Bool) (p off : Nat) : (c.deny k w b2 p off).pawn = c.pawn := by rw [Chip.deny_eq]
@[simp] theorem Chip.deny_castle (c : Chip) (k : Nat) (w b2 : Bool) (p off : Nat) : (c.deny k w b2 p off).castle = c.castle := by rw [Chip.deny_eq]
@[simp] theorem Chip.deny_otp (c : Chip) (k : Nat) (w b2 : Bool) (p off : Nat) : (c.deny k w b2 p off).otp = c.otp := by rw [Chip.deny_eq]
@[simp] theorem Chip.deny_cx (c : Chip) (k : Nat) (w b2 : Bool) (p off : Nat) : (c.deny k w b2 p off).cx = c.cx := by rw [Chip.deny_eq]
@[simp] theorem Chip.deny_host (c : Chip) (k : Nat) (w b2 : Bool) (p off : Nat) : (c.deny k w b2 p off).host = c.host := by rw [Chip.deny_eq]
@[simp] theorem Chip.deny_power (c : Chip) (k : Nat) (w b2 : Bool) (p off : Nat) : (c.deny k w b2 p off).power = c.power := by rw [Chip.deny_eq]
@[simp] theorem Chip.deny_mem (c : Chip) (k : Nat) (w b2 : Bool) (p off : Nat) : (c.deny k w b2 p off).mem = c.mem := by rw [Chip.deny_eq]
@[simp] theorem Chip.deny_gambit (c : Chip) (k : Nat) (w b2 : Bool) (p off : Nat) : (c.deny k w b2 p off).gambit = c.gambit := by rw [Chip.deny_eq]
@[simp] theorem Chip.deny_arb (c : Chip) (k : Nat) (w b2 : Bool) (p off : Nat) : (c.deny k w b2 p off).arb = c.arb := by rw [Chip.deny_eq]
@[simp] theorem Chip.deny_tap (c : Chip) (k : Nat) (w b2 : Bool) (p off : Nat) : (c.deny k w b2 p off).tap = c.tap := by rw [Chip.deny_eq]

@[simp] theorem Chip.scoreAs_tbl (c : Chip) (code sev page : Nat) (pt pl : Option Nat) (d : List Byte) : (c.scoreAs code sev page pt pl d).tbl = c.tbl := by rw [Chip.scoreAs_eq]
@[simp] theorem Chip.scoreAs_now (c : Chip) (code sev page : Nat) (pt pl : Option Nat) (d : List Byte) : (c.scoreAs code sev page pt pl d).now = c.now := by rw [Chip.scoreAs_eq]
@[simp] theorem Chip.scoreAs_free (c : Chip) (code sev page : Nat) (pt pl : Option Nat) (d : List Byte) : (c.scoreAs code sev page pt pl d).free = c.free := by rw [Chip.scoreAs_eq]
@[simp] theorem Chip.scoreAs_supervisor (c : Chip) (code sev page : Nat) (pt pl : Option Nat) (d : List Byte) : (c.scoreAs code sev page pt pl d).supervisor = c.supervisor := by rw [Chip.scoreAs_eq]
@[simp] theorem Chip.scoreAs_parts (c : Chip) (code sev page : Nat) (pt pl : Option Nat) (d : List Byte) : (c.scoreAs code sev page pt pl d).parts = c.parts := by rw [Chip.scoreAs_eq]
@[simp] theorem Chip.scoreAs_echoUnread (c : Chip) (code sev page : Nat) (pt pl : Option Nat) (d : List Byte) : (c.scoreAs code sev page pt pl d).echoUnread = c.echoUnread := by rw [Chip.scoreAs_eq]
@[simp] theorem Chip.scoreAs_inReset (c : Chip) (code sev page : Nat) (pt pl : Option Nat) (d : List Byte) : (c.scoreAs code sev page pt pl d).inReset = c.inReset := by rw [Chip.scoreAs_eq]
@[simp] theorem Chip.scoreAs_alarmLow (c : Chip) (code sev page : Nat) (pt pl : Option Nat) (d : List Byte) : (c.scoreAs code sev page pt pl d).alarmLow = c.alarmLow := by rw [Chip.scoreAs_eq]
@[simp] theorem Chip.scoreAs_tempo (c : Chip) (code sev page : Nat) (pt pl : Option Nat) (d : List Byte) : (c.scoreAs code sev page pt pl d).tempo = c.tempo := by rw [Chip.scoreAs_eq]
@[simp] theorem Chip.scoreAs_ep (c : Chip) (code sev page : Nat) (pt pl : Option Nat) (d : List Byte) : (c.scoreAs code sev page pt pl d).ep = c.ep := by rw [Chip.scoreAs_eq]
@[simp] theorem Chip.scoreAs_stg (c : Chip) (code sev page : Nat) (pt pl : Option Nat) (d : List Byte) : (c.scoreAs code sev page pt pl d).stg = c.stg := by rw [Chip.scoreAs_eq]
@[simp] theorem Chip.scoreAs_can (c : Chip) (code sev page : Nat) (pt pl : Option Nat) (d : List Byte) : (c.scoreAs code sev page pt pl d).can = c.can := by rw [Chip.scoreAs_eq]
@[simp] theorem Chip.scoreAs_fab (c : Chip) (code sev page : Nat) (pt pl : Option Nat) (d : List Byte) : (c.scoreAs code sev page pt pl d).fab = c.fab := by rw [Chip.scoreAs_eq]
@[simp] theorem Chip.scoreAs_pol (c : Chip) (code sev page : Nat) (pt pl : Option Nat) (d : List Byte) : (c.scoreAs code sev page pt pl d).pol = c.pol := by rw [Chip.scoreAs_eq]
@[simp] theorem Chip.scoreAs_guard (c : Chip) (code sev page : Nat) (pt pl : Option Nat) (d : List Byte) : (c.scoreAs code sev page pt pl d).guard = c.guard := by rw [Chip.scoreAs_eq]
@[simp] theorem Chip.scoreAs_eth (c : Chip) (code sev page : Nat) (pt pl : Option Nat) (d : List Byte) : (c.scoreAs code sev page pt pl d).eth = c.eth := by rw [Chip.scoreAs_eq]
@[simp] theorem Chip.scoreAs_adj (c : Chip) (code sev page : Nat) (pt pl : Option Nat) (d : List Byte) : (c.scoreAs code sev page pt pl d).adj = c.adj := by rw [Chip.scoreAs_eq]
@[simp] theorem Chip.scoreAs_frer (c : Chip) (code sev page : Nat) (pt pl : Option Nat) (d : List Byte) : (c.scoreAs code sev page pt pl d).frer = c.frer := by rw [Chip.scoreAs_eq]
@[simp] theorem Chip.scoreAs_sas (c : Chip) (code sev page : Nat) (pt pl : Option Nat) (d : List Byte) : (c.scoreAs code sev page pt pl d).sas = c.sas := by rw [Chip.scoreAs_eq]
@[simp] theorem Chip.scoreAs_sig (c : Chip) (code sev page : Nat) (pt pl : Option Nat) (d : List Byte) : (c.scoreAs code sev page pt pl d).sig = c.sig := by rw [Chip.scoreAs_eq]
@[simp] theorem Chip.scoreAs_pawn (c : Chip) (code sev page : Nat) (pt pl : Option Nat) (d : List Byte) : (c.scoreAs code sev page pt pl d).pawn = c.pawn := by rw [Chip.scoreAs_eq]
@[simp] theorem Chip.scoreAs_castle (c : Chip) (code sev page : Nat) (pt pl : Option Nat) (d : List Byte) : (c.scoreAs code sev page pt pl d).castle = c.castle := by rw [Chip.scoreAs_eq]
@[simp] theorem Chip.scoreAs_otp (c : Chip) (code sev page : Nat) (pt pl : Option Nat) (d : List Byte) : (c.scoreAs code sev page pt pl d).otp = c.otp := by rw [Chip.scoreAs_eq]
@[simp] theorem Chip.scoreAs_cx (c : Chip) (code sev page : Nat) (pt pl : Option Nat) (d : List Byte) : (c.scoreAs code sev page pt pl d).cx = c.cx := by rw [Chip.scoreAs_eq]
@[simp] theorem Chip.scoreAs_host (c : Chip) (code sev page : Nat) (pt pl : Option Nat) (d : List Byte) : (c.scoreAs code sev page pt pl d).host = c.host := by rw [Chip.scoreAs_eq]
@[simp] theorem Chip.scoreAs_power (c : Chip) (code sev page : Nat) (pt pl : Option Nat) (d : List Byte) : (c.scoreAs code sev page pt pl d).power = c.power := by rw [Chip.scoreAs_eq]
@[simp] theorem Chip.scoreAs_mem (c : Chip) (code sev page : Nat) (pt pl : Option Nat) (d : List Byte) : (c.scoreAs code sev page pt pl d).mem = c.mem := by rw [Chip.scoreAs_eq]
@[simp] theorem Chip.scoreAs_gambit (c : Chip) (code sev page : Nat) (pt pl : Option Nat) (d : List Byte) : (c.scoreAs code sev page pt pl d).gambit = c.gambit := by rw [Chip.scoreAs_eq]
@[simp] theorem Chip.scoreAs_arb (c : Chip) (code sev page : Nat) (pt pl : Option Nat) (d : List Byte) : (c.scoreAs code sev page pt pl d).arb = c.arb := by rw [Chip.scoreAs_eq]
@[simp] theorem Chip.scoreAs_tap (c : Chip) (code sev page : Nat) (pt pl : Option Nat) (d : List Byte) : (c.scoreAs code sev page pt pl d).tap = c.tap := by rw [Chip.scoreAs_eq]

@[simp] theorem Chip.alarmLevel_tbl (c : Chip) : (c.alarmLevel).tbl = c.tbl := by rw [Chip.alarmLevel_eq]
@[simp] theorem Chip.alarmLevel_now (c : Chip) : (c.alarmLevel).now = c.now := by rw [Chip.alarmLevel_eq]
@[simp] theorem Chip.alarmLevel_free (c : Chip) : (c.alarmLevel).free = c.free := by rw [Chip.alarmLevel_eq]
@[simp] theorem Chip.alarmLevel_supervisor (c : Chip) : (c.alarmLevel).supervisor = c.supervisor := by rw [Chip.alarmLevel_eq]
@[simp] theorem Chip.alarmLevel_parts (c : Chip) : (c.alarmLevel).parts = c.parts := by rw [Chip.alarmLevel_eq]
@[simp] theorem Chip.alarmLevel_echoUnread (c : Chip) : (c.alarmLevel).echoUnread = c.echoUnread := by rw [Chip.alarmLevel_eq]
@[simp] theorem Chip.alarmLevel_inReset (c : Chip) : (c.alarmLevel).inReset = c.inReset := by rw [Chip.alarmLevel_eq]
@[simp] theorem Chip.alarmLevel_tempo (c : Chip) : (c.alarmLevel).tempo = c.tempo := by rw [Chip.alarmLevel_eq]
@[simp] theorem Chip.alarmLevel_ep (c : Chip) : (c.alarmLevel).ep = c.ep := by rw [Chip.alarmLevel_eq]
@[simp] theorem Chip.alarmLevel_score (c : Chip) : (c.alarmLevel).score = c.score := by rw [Chip.alarmLevel_eq]
@[simp] theorem Chip.alarmLevel_stg (c : Chip) : (c.alarmLevel).stg = c.stg := by rw [Chip.alarmLevel_eq]
@[simp] theorem Chip.alarmLevel_can (c : Chip) : (c.alarmLevel).can = c.can := by rw [Chip.alarmLevel_eq]
@[simp] theorem Chip.alarmLevel_fab (c : Chip) : (c.alarmLevel).fab = c.fab := by rw [Chip.alarmLevel_eq]
@[simp] theorem Chip.alarmLevel_pol (c : Chip) : (c.alarmLevel).pol = c.pol := by rw [Chip.alarmLevel_eq]
@[simp] theorem Chip.alarmLevel_guard (c : Chip) : (c.alarmLevel).guard = c.guard := by rw [Chip.alarmLevel_eq]
@[simp] theorem Chip.alarmLevel_eth (c : Chip) : (c.alarmLevel).eth = c.eth := by rw [Chip.alarmLevel_eq]
@[simp] theorem Chip.alarmLevel_adj (c : Chip) : (c.alarmLevel).adj = c.adj := by rw [Chip.alarmLevel_eq]
@[simp] theorem Chip.alarmLevel_frer (c : Chip) : (c.alarmLevel).frer = c.frer := by rw [Chip.alarmLevel_eq]
@[simp] theorem Chip.alarmLevel_sas (c : Chip) : (c.alarmLevel).sas = c.sas := by rw [Chip.alarmLevel_eq]
@[simp] theorem Chip.alarmLevel_sig (c : Chip) : (c.alarmLevel).sig = c.sig := by rw [Chip.alarmLevel_eq]
@[simp] theorem Chip.alarmLevel_pawn (c : Chip) : (c.alarmLevel).pawn = c.pawn := by rw [Chip.alarmLevel_eq]
@[simp] theorem Chip.alarmLevel_castle (c : Chip) : (c.alarmLevel).castle = c.castle := by rw [Chip.alarmLevel_eq]
@[simp] theorem Chip.alarmLevel_otp (c : Chip) : (c.alarmLevel).otp = c.otp := by rw [Chip.alarmLevel_eq]
@[simp] theorem Chip.alarmLevel_cx (c : Chip) : (c.alarmLevel).cx = c.cx := by rw [Chip.alarmLevel_eq]
@[simp] theorem Chip.alarmLevel_host (c : Chip) : (c.alarmLevel).host = c.host := by rw [Chip.alarmLevel_eq]
@[simp] theorem Chip.alarmLevel_power (c : Chip) : (c.alarmLevel).power = c.power := by rw [Chip.alarmLevel_eq]
@[simp] theorem Chip.alarmLevel_mem (c : Chip) : (c.alarmLevel).mem = c.mem := by rw [Chip.alarmLevel_eq]
@[simp] theorem Chip.alarmLevel_gambit (c : Chip) : (c.alarmLevel).gambit = c.gambit := by rw [Chip.alarmLevel_eq]
@[simp] theorem Chip.alarmLevel_arb (c : Chip) : (c.alarmLevel).arb = c.arb := by rw [Chip.alarmLevel_eq]
@[simp] theorem Chip.alarmLevel_tap (c : Chip) : (c.alarmLevel).tap = c.tap := by rw [Chip.alarmLevel_eq]

@[simp] theorem Chip.setAlarm_tbl (c : Chip) (b : Nat) : (c.setAlarm b).tbl = c.tbl := by rw [Chip.setAlarm_eq]
@[simp] theorem Chip.setAlarm_now (c : Chip) (b : Nat) : (c.setAlarm b).now = c.now := by rw [Chip.setAlarm_eq]
@[simp] theorem Chip.setAlarm_free (c : Chip) (b : Nat) : (c.setAlarm b).free = c.free := by rw [Chip.setAlarm_eq]
@[simp] theorem Chip.setAlarm_supervisor (c : Chip) (b : Nat) : (c.setAlarm b).supervisor = c.supervisor := by rw [Chip.setAlarm_eq]
@[simp] theorem Chip.setAlarm_parts (c : Chip) (b : Nat) : (c.setAlarm b).parts = c.parts := by rw [Chip.setAlarm_eq]
@[simp] theorem Chip.setAlarm_echoUnread (c : Chip) (b : Nat) : (c.setAlarm b).echoUnread = c.echoUnread := by rw [Chip.setAlarm_eq]
@[simp] theorem Chip.setAlarm_inReset (c : Chip) (b : Nat) : (c.setAlarm b).inReset = c.inReset := by rw [Chip.setAlarm_eq]
@[simp] theorem Chip.setAlarm_tempo (c : Chip) (b : Nat) : (c.setAlarm b).tempo = c.tempo := by rw [Chip.setAlarm_eq]
@[simp] theorem Chip.setAlarm_ep (c : Chip) (b : Nat) : (c.setAlarm b).ep = c.ep := by rw [Chip.setAlarm_eq]
@[simp] theorem Chip.setAlarm_score (c : Chip) (b : Nat) : (c.setAlarm b).score = c.score := by rw [Chip.setAlarm_eq]
@[simp] theorem Chip.setAlarm_stg (c : Chip) (b : Nat) : (c.setAlarm b).stg = c.stg := by rw [Chip.setAlarm_eq]
@[simp] theorem Chip.setAlarm_can (c : Chip) (b : Nat) : (c.setAlarm b).can = c.can := by rw [Chip.setAlarm_eq]
@[simp] theorem Chip.setAlarm_fab (c : Chip) (b : Nat) : (c.setAlarm b).fab = c.fab := by rw [Chip.setAlarm_eq]
@[simp] theorem Chip.setAlarm_pol (c : Chip) (b : Nat) : (c.setAlarm b).pol = c.pol := by rw [Chip.setAlarm_eq]
@[simp] theorem Chip.setAlarm_guard (c : Chip) (b : Nat) : (c.setAlarm b).guard = c.guard := by rw [Chip.setAlarm_eq]
@[simp] theorem Chip.setAlarm_eth (c : Chip) (b : Nat) : (c.setAlarm b).eth = c.eth := by rw [Chip.setAlarm_eq]
@[simp] theorem Chip.setAlarm_adj (c : Chip) (b : Nat) : (c.setAlarm b).adj = c.adj := by rw [Chip.setAlarm_eq]
@[simp] theorem Chip.setAlarm_frer (c : Chip) (b : Nat) : (c.setAlarm b).frer = c.frer := by rw [Chip.setAlarm_eq]
@[simp] theorem Chip.setAlarm_sas (c : Chip) (b : Nat) : (c.setAlarm b).sas = c.sas := by rw [Chip.setAlarm_eq]
@[simp] theorem Chip.setAlarm_sig (c : Chip) (b : Nat) : (c.setAlarm b).sig = c.sig := by rw [Chip.setAlarm_eq]
@[simp] theorem Chip.setAlarm_pawn (c : Chip) (b : Nat) : (c.setAlarm b).pawn = c.pawn := by rw [Chip.setAlarm_eq]
@[simp] theorem Chip.setAlarm_castle (c : Chip) (b : Nat) : (c.setAlarm b).castle = c.castle := by rw [Chip.setAlarm_eq]
@[simp] theorem Chip.setAlarm_otp (c : Chip) (b : Nat) : (c.setAlarm b).otp = c.otp := by rw [Chip.setAlarm_eq]
@[simp] theorem Chip.setAlarm_cx (c : Chip) (b : Nat) : (c.setAlarm b).cx = c.cx := by rw [Chip.setAlarm_eq]
@[simp] theorem Chip.setAlarm_host (c : Chip) (b : Nat) : (c.setAlarm b).host = c.host := by rw [Chip.setAlarm_eq]
@[simp] theorem Chip.setAlarm_power (c : Chip) (b : Nat) : (c.setAlarm b).power = c.power := by rw [Chip.setAlarm_eq]
@[simp] theorem Chip.setAlarm_mem (c : Chip) (b : Nat) : (c.setAlarm b).mem = c.mem := by rw [Chip.setAlarm_eq]
@[simp] theorem Chip.setAlarm_gambit (c : Chip) (b : Nat) : (c.setAlarm b).gambit = c.gambit := by rw [Chip.setAlarm_eq]
@[simp] theorem Chip.setAlarm_arb (c : Chip) (b : Nat) : (c.setAlarm b).arb = c.arb := by rw [Chip.setAlarm_eq]
@[simp] theorem Chip.setAlarm_tap (c : Chip) (b : Nat) : (c.setAlarm b).tap = c.tap := by rw [Chip.setAlarm_eq]

theorem Chip.reg_foldl_raise (f : Nat → Nat) (b : Nat) (l : List Nat) (c : Chip) (a : Nat) (h : ∀ k ∈ l, a ≠ hIrqStat (f k)) :
    (l.foldl (fun c k => c.raise (f k) b) c).reg a = c.reg a := by
  induction l generalizing c with
  | nil => rfl
  | cons e rest ih =>
    simp only [List.foldl_cons]
    rw [ih _ fun k hk => h k (List.mem_cons_of_mem _ hk), Chip.reg_raise]
    simp [h e (List.mem_cons_self ..)]

/-- ALARM_N's level touches no register but PAGE_IRQ_STAT of the PART pages. -/
theorem Chip.reg_alarmLevel (c : Chip) (a : Nat) (h : ∀ k < 4, a ≠ hIrqStat (0x008 + k)) : c.alarmLevel.reg a = c.reg a := by
  unfold Chip.alarmLevel
  split
  · split
    · rw [Chip.reg_foldl_raise]
      · rfl
      · intro k hk
        split at hk
        · exact h k (List.mem_range.mp hk)
        · cases hk
    · rfl
  · split
    · rfl
    · split <;> rfl

theorem Chip.reg_setAlarm (c : Chip) (b a : Nat) (h : ∀ k < 4, a ≠ hIrqStat (0x008 + k)) :
    (c.setAlarm b).reg a = (c.setBitOf Reg.GLB.ALARM_STAT b true).reg a := Chip.reg_alarmLevel _ a h

theorem Chip.reg_scoreAs (c : Chip) (code sev page : Nat) (pt pl : Option Nat) (d : List Byte) (a : Nat)
    (h : a ≠ Reg.SCORE.DROPPED) (h' : a ≠ hIrqStat 0x091) : (c.scoreAs code sev page pt pl d).reg a = c.reg a := by
  simp only [Chip.scoreAs]; split
  · rfl
  · simp only [Chip.reg_incRaise, h', Chip.reg_inc, h, if_false]; rfl

theorem Chip.reg_deny (c : Chip) (k : Nat) (w b2 : Bool) (p off a : Nat)
    (h : a ≠ Reg.PART.DENY_CNT k) (h' : a ≠ hIrqStat (0x008 + k)) : (c.deny k w b2 p off).reg a = c.reg a := by
  simp only [Chip.deny]; split <;>
    (rw [Chip.reg_raise]; simp only [h', if_false]; first | exact (Chip.reg_inc c _ a).trans (by simp [h]) | rfl)

/-- A denial is counted. -/
theorem Chip.deny_count (c : Chip) (k : Nat) (w b2 : Bool) (p off : Nat) (h : Reg.PART.DENY_CNT k ≠ hIrqStat (0x008 + k)) :
    (c.deny k w b2 p off).reg (Reg.PART.DENY_CNT k) = sat32 ((c.reg (Reg.PART.DENY_CNT k)).toNat + 1) := by
  simp only [Chip.deny]; split <;>
    (rw [Chip.reg_raise]; simp only [h, if_false]; exact (Chip.reg_inc c _ _).trans (by simp))

end Sys2Proof.Machine
end

