-- ==== Sys2Proof/WellFormed.lean ====
section
/-! DEFINITION. Well-formed commands: every operand names a unit that the part has, or a value that fits its field. -/

/-
MARKS of the model choices coded here; the log rows say each in full.
DESIGN CHOICE (log 10, safe): what the part cannot decide itself is an operand.
-/

namespace Sys2Proof

/-- The operand is a partition. -/
def isPart (n : Nat) : Bool := n < 4

/-- The operand is a partition, or 4 for the Arbiter. -/
def isWriter (n : Nat) : Bool := n < 5

/-- The operand is a square. -/
def isSquare (n : Nat) : Bool := n < 64

/-- The operand is a CAN square. -/
def isCan (n : Nat) : Bool := n < 40

/-- The operand is a CAN square, or 40 for TS_CTRL. -/
def isTsync (n : Nat) : Bool := n < 41

/-- The operand is a plane: 0 White, 1 Black. -/
def isPlane (n : Nat) : Bool := n < 2

/-- The operand is a key register of BNL. -/
def isKey (n : Nat) : Bool := n < 2

/-- The operand is a reference clock. -/
def isRef (n : Nat) : Bool := n < 2

/-- The operand is a Pawn engine. -/
def isEngine (n : Nat) : Bool := n < 16

/-- The operand is a fabric port. -/
def isPort (n : Nat) : Bool := n < 16

/-- The operand is a Tempo alarm. -/
def isAlarm (n : Nat) : Bool := n < 16

/-- The operand is a remote window. -/
def isWindow (n : Nat) : Bool := n < 16

/-- The operand is byte enables of a DWORD. -/
def isBe (n : Nat) : Bool := n < 16

/-- The operand is byte enables of a 64-bit word. -/
def isBe64 (n : Nat) : Bool := n < 256

/-- The operand is a class. -/
def isClass (n : Nat) : Bool := n < 8

/-- The operand is a pause channel: a class, or 8 for the link. -/
def isChannel (n : Nat) : Bool := n < 9

/-- The operand is a fabric output. -/
def isOutput (n : Nat) : Bool := n < 72

/-- The operand is a square, or 71 for the loop-back input. -/
def isSource (n : Nat) : Bool := n < 72

/-- The operand is a page of BAR0. -/
def isPage (n : Nat) : Bool := n < 0x1000

/-- The operand is a receive mailbox, or from 16 on a priority buffer. -/
def isBuffer (n : Nat) : Bool := n < 20

/-- The operand is a sensor channel. -/
def isSensor (n : Nat) : Bool := n < 24

/-- The operand is a tamper sensor. -/
def isTamper (n : Nat) : Bool := n < 15

/-- The operand is a GPIO ball. -/
def isGpio (n : Nat) : Bool := n < 32

/-- The operand is a ring. -/
def isRing (n : Nat) : Bool := n < 32

/-- The operand is a bridge tag. -/
def isTag (n : Nat) : Bool := n < 64

/-- The operand is a Benolsia peer entry. -/
def isPeer (n : Nat) : Bool := n < 64

/-- The operand is a stream gate. -/
def isGate (n : Nat) : Bool := n < 512

/-- The operand is a key slot. -/
def isSlot (n : Nat) : Bool := n < 1024

/-- The operand is a sequence recovery function. -/
def isRecovery (n : Nat) : Bool := n < 1024

/-- The operand is a Pawn timer. -/
def isTimer (n : Nat) : Bool := n < 4096

/-- The operand is a layout. -/
def isLayout (n : Nat) : Bool := n < 16384

/-- The operand is a signal. -/
def isSignal (n : Nat) : Bool := n < 65536

/-- The operand is a memory of R469. -/
def isMemory (n : Nat) : Bool := n < 0xAB

/-- The operand is a word of a signal's state. -/
def isStateWord (n : Nat) : Bool := n < 4

/-- The operand is a point of comparison. -/
def isPoint (n : Nat) : Bool := n < 3

/-- The operand is the class of a cell, or for a DMA write 8 for a snapshot record and 9 for a DONE_WORD. -/
def isItemClass (n : Nat) : Bool := n < 10

/-- The operand is the steps of an entry that are done, or what a plane does at a staging FIFO. -/
def isStep (n : Nat) : Bool := n < 5

/-- The operand is a DWORD of a page. -/
def isDword (n : Nat) : Bool := n % 4 = 0 && n < 0x1000

/-- The operand is a 64-bit word of BAR2. -/
def isWord64 (n : Nat) : Bool := n % 8 = 0 && n < 0x400_0000

/-- The operand is an offset of BAR4. -/
def isBar4 (n : Nat) : Bool := n < 0x1000_0000

/-- The operand is an Ethernet square. -/
def isEth (n : Nat) : Bool := 40 ≤ n && n < 64

/-- The operand is a T1S square. -/
def isT1s (n : Nat) : Bool := 40 ≤ n && n < 48

/-- The operand is a SerDes square. -/
def isSerdes (n : Nat) : Bool := 48 ≤ n && n < 64

/-- A frame fits its format: identifier, data length and field widths (ISO 11898-1; R94). -/
def isFrame (f : CanFrame) : Bool :=
  f.id < (if f.ide then 2 ^ 29 else 2 ^ 11) && f.fmt < 3 && f.dlc < 16 && f.af < 2 ^ 32 && f.sdt < 256 && f.vcid < 256 &&
    f.data.length ≤ (if f.fmt = 0 then 8 else if f.fmt = 1 then 64 else 2048)

/-- The octets of an Ethernet frame as it can stand on a line before the length checks. -/
def isOctets (b : List Byte) : Bool := b.length < 65536

/-- A write request of BAR0 (R58): 1 to 32 DWORDs within one page. -/
def isRequest (a : Nat) (ws : List (Word × Nat)) : Bool :=
  a % 4 = 0 && a < 0x100_0000 && 1 ≤ ws.length && ws.length ≤ 32 && a % 0x1000 + 4 * ws.length ≤ 0x1000 &&
    ws.all fun w => isBe w.2

/-- The command is well-formed. -/
def Instr.wf (i : Instr) : Bool :=
  match i with
  | .registerWrite k a ws _ => isWriter k && isRequest a ws
  | .wideReadReject p off _ r => isPage p && isBe r.be && r.part.all isPart && isDword off
  | .pageOwnerWrite k p _ be => isPart k && isPage p && isBe be
  | .pageIrqForceWrite k p _ be => isPart k && isPage p && isBe be
  | .supvXfer k j _ => isPart k && isPart j
  | .supvWatchCheck => true
  | .denyPop k j _ => isPart k && isPart j
  | .alarmNHoldExpiry => true
  | .rateHiWrite k _ _ be => isWriter k && isBe be
  | .capture k _ => isPart k
  | .syncReceived q _ _ => isEth q
  | .syncReceiptTimeout => true
  | .holdoverExpiry => true
  | .holdCfgWrite k _ _ be => isPart k && isBe be
  | .tempoCtrlWrite k _ be _ => isPart k && isBe be
  | .setGo k _ => isPart k
  | .ref10Loss => true
  | .gptpSyncRelay q _ _ _ _ => isEth q
  | .gptpSyncTransmit q => isEth q
  | .almCtrlWrite k idx _ be => isPart k && isAlarm idx && isBe be
  | .tempoAlarmExpiry idx => isAlarm idx
  | .canSyncQueue q => isCan q
  | .canFollowupQueue q => isCan q
  | .tsyncConfigWrite k q _ be => isPart k && isTsync q && isBe be
  | .canFrameReceived q f _ => isCan q && isFrame f
  | .canErrorFrame q _ _ _ _ _ => isCan q
  | .protocolException q _ => isCan q
  | .canCtrlWrite k q _ be _ => isPart k && isCan q && isBe be
  | .canIntegrationDone q => isCan q
  | .rxMailboxLock k q n _ => isPart k && isCan q && isBuffer n
  | .rxMailboxRelease k q n _ => isPart k && isCan q && isBuffer n
  | .txReq k q _ => isPart k && isCan q
  | .txCancel k q _ => isPart k && isCan q
  | .canTxAttempt q => isCan q
  | .canArbitrationLost q => isCan q
  | .canFrameTransmitted q _ => isCan q
  | .canDeadlineExpiry q _ => isCan q
  | .canClassBufferPull q cls _ => isCan q && isClass cls
  | .canScheduleEntry q => isCan q
  | .boRecover k q _ => isPart k && isCan q
  | .canBusoffRecovered q seqs => isCan q && decide (seqs ≤ 128)
  | .canStuckDominant q => isCan q
  | .txdDominantLimit q => isCan q
  | .canIdleTimeout q => isCan q
  | .rxdWake q => isCan q
  | .errCapRead k q _ => isPart k && isCan q
  | .canSquareReset q _ _ => isCan q
  | .ethFrameReceived q b _ _ _ => isEth q && isOctets b
  | .pauseFrameReceived q _ _ _ => isEth q
  | .pauseExpiry q ch => isEth q && isChannel ch
  | .pauseDutyWindow q => isEth q
  | .pauseTxRepeat q ch => isEth q && isChannel ch
  | .plcaBeaconReceived q => isT1s q
  | .plcaLoss q => isT1s q
  | .sdsModeWrite k q _ be => isPart k && isSerdes q && isBe be
  | .linkUp q _ => isEth q
  | .linkDown q _ => isEth q
  | .linkHoldExpiry q => isEth q
  | .mdioCmd k q _ => isPart k && isSerdes q
  | .mdioDone q _ => isSerdes q
  | .ethTransmitSelect q _ => isEth q
  | .ethFrameTxDone q _ => isEth q
  | .lpiEnter q => isEth q
  | .lpiGateWake q => isEth q
  | .mmVerifyTimer q _ => isEth q
  | .gateListEntry q => isEth q
  | .frerRecoveryReset fn => isRecovery fn
  | .frerLatentTest fn => isRecovery fn
  | .ethSquareReset q _ _ => isEth q
  | .lastDropRead k q _ => isPart k && isEth q
  | .stgFlush k q _ => isPart k && isSquare q
  | .stgHwmRead k q _ => isPart k && isSquare q
  | .stgLastErrRead k q _ => isPart k && isSquare q
  | .classifyFrame src _ x => isSource src && isPlane x.plane && isStep x.step
  | .tableEntryWrite k off _ be _ => isPart k && isWord64 off && isBe64 be
  | .streamGateEntry g => isGate g
  | .guardWindowEnd => true
  | .quarantineClear k _ _ be => isPart k && isBe be
  | .quarantineHoldExpiry idx => isSquare idx
  | .unpackPdu => true
  | .hostSignalWrite k idx w _ _ => isPart k && isSignal idx && isStateWord w
  | .flagFall idx => isSignal idx
  | .sweepDone => true
  | .pduPeriodEmit l => isLayout l
  | .emitDeferred l => isLayout l
  | .pawnDispatch => true
  | .pawnKick k n _ => isPart k && isEngine n
  | .pawnTimerExpiry j => isTimer j
  | .budgetExhausted n => isEngine n
  | .illegalInstruction n => isEngine n
  | .pawnNop n => isEngine n
  | .pawnEnd n => isEngine n
  | .pawnAbort n => isEngine n
  | .pawnBr n => isEngine n
  | .pawnBeq n => isEngine n
  | .pawnBne n => isEngine n
  | .pawnBlt n => isEngine n
  | .pawnBge n => isEngine n
  | .pawnBltu n => isEngine n
  | .pawnBgeu n => isEngine n
  | .pawnLoop n => isEngine n
  | .pawnLd n => isEngine n
  | .pawnLdw n => isEngine n
  | .pawnSt n => isEngine n
  | .pawnStw n => isEngine n
  | .pawnAdd n => isEngine n
  | .pawnSub n => isEngine n
  | .pawnAdds n => isEngine n
  | .pawnSubs n => isEngine n
  | .pawnAddus n => isEngine n
  | .pawnSubus n => isEngine n
  | .pawnMul n => isEngine n
  | .pawnMuls n => isEngine n
  | .pawnAnd n => isEngine n
  | .pawnOr n => isEngine n
  | .pawnXor n => isEngine n
  | .pawnShl n => isEngine n
  | .pawnShr n => isEngine n
  | .pawnSar n => isEngine n
  | .pawnMin n => isEngine n
  | .pawnMax n => isEngine n
  | .pawnAddi n => isEngine n
  | .pawnAndi n => isEngine n
  | .pawnOri n => isEngine n
  | .pawnXori n => isEngine n
  | .pawnShli n => isEngine n
  | .pawnShri n => isEngine n
  | .pawnSari n => isEngine n
  | .pawnMovi n => isEngine n
  | .pawnMovk n => isEngine n
  | .pawnBfx n => isEngine n
  | .pawnBfxs n => isEngine n
  | .pawnBfi n => isEngine n
  | .pawnBsw n => isEngine n
  | .pawnSrd n => isEngine n
  | .pawnSrs n => isEngine n
  | .pawnSrc n => isEngine n
  | .pawnExt n => isEngine n
  | .pawnExts n => isEngine n
  | .pawnIns n => isEngine n
  | .pawnScl n => isEngine n
  | .pawnRchk n => isEngine n
  | .pawnClamp n => isEngine n
  | .pawnFtox n => isEngine n
  | .pawnXtof n => isEngine n
  | .pawnCrc n => isEngine n
  | .pawnCrcb n => isEngine n
  | .pawnAlv n => isEngine n
  | .pawnAlvd n => isEngine n
  | .pawnSwr n => isEngine n
  | .pawnEmit n => isEngine n
  | .pawnSend n => isEngine n
  | .pawnTstart n => isEngine n
  | .pawnTstop n => isEngine n
  | .copyLaunchGrant idx => isPort idx
  | .cellArriveResequencer j x => isPort j && isOutput x.out && isClass x.cls
  | .reseqTimeout idx o cls => isPort idx && isOutput o && isClass cls
  | .agerScan => true
  | .holdReclaim => true
  | .bufSplitWrite k _ be => isPart k && isBe be
  | .adjItemCompare point _ cls _ _ => isPoint point && isItemClass cls
  | .adjDecision => true
  | .switchoverGapEnd => true
  | .diagDone _ _ => true
  | .tableSweep x _ => isPlane x
  | .sweepNow k x _ _ => isPart k && isPlane x
  | .plCtrlReset k x _ => isPart k && isPlane x
  | .reint k _ => isPart k
  | .reintAutoStart => true
  | .reintWipeDone _ _ => true
  | .reintCopyDone => true
  | .reintCopyTimeout => true
  | .reintSnapshotDone => true
  | .reintJoinDone => true
  | .proofSwapDue => true
  | .swap k _ => isPart k
  | .proofSwapResume => true
  | .txnBegin w k => isPart w && isPart k
  | .txnCommitImmediate w k => isPart w && isPart k
  | .txnCommitNextBoundary w k => isPart w && isPart k
  | .txnCommitAtTime w k => isPart w && isPart k
  | .txnRollback w k => isPart w && isPart k
  | .txnBadCmd w k _ => isPart w && isPart k
  | .txnJournalWrite k _ _ _ be _ => isPart k && isBe64 be
  | .epochSwitch => true
  | .oldEpochRetire => true
  | .txnAutoAbort k => isWriter k
  | .castleLoad w k => isPart w && isPart k
  | .castleWrap w k => isPart w && isPart k
  | .castleImport w k => isPart w && isPart k
  | .castleGenerate w k => isPart w && isPart k
  | .castleUnload w k => isPart w && isPart k
  | .castleErase w k => isPart w && isPart k
  | .castlePubkey w k => isPart w && isPart k
  | .castleStore w k => isPart w && isPart k
  | .castleUnstore w k => isPart w && isPart k
  | .castleClearResign w k => isPart w && isPart k
  | .castleRootRetry w k _ => isPart w && isPart k
  | .castleCommandDone k => isPart k
  | .slotRemask n => isSlot n
  | .rngFail => true
  | .tamperSensorFire n _ => isTamper n
  | .sleepLatchWrite k _ be => isPart k && isBe be
  | .autoloadDeferred => true
  | .cxDescriptorFetch k _ _ _ => isWriter k
  | .jrTailWrite w k _ be => isPart w && isPart k && isBe be
  | .gcmEncrypt => true
  | .gcmDecrypt => true
  | .gmacGenerate => true
  | .gmacVerify => true
  | .ccmEncrypt => true
  | .ccmDecrypt => true
  | .cmacGenerate => true
  | .cmacVerify => true
  | .shake256 => true
  | .ed448Sign => true
  | .ed448Verify => true
  | .attest => true
  | .sealJob => true
  | .verifyJob => true
  | .cxJobDone _ _ => true
  | .scrubRead m _ _ _ => isMemory m
  | .bucketLeak m => isMemory m
  | .retireGo k _ => isPart k
  | .allocRetireComplete => true
  | .bistRun k _ _ => isPart k
  | .retInit k _ => isWriter k
  | .arbCoreMismatch => true
  | .arbWatchdogExpiry => true
  | .restart k _ => isPart k
  | .arbRestartDone _ _ => true
  | .arbPing w k => isPart w && isPart k
  | .arbFlush w k => isPart w && isPart k
  | .arbArchRead w k => isPart w && isPart k
  | .arbEyeScan w k => isPart w && isPart k
  | .arbMka w k => isPart w && isPart k
  | .arbCommandDone k _ => isPart k
  | .sensSample ch _ => isSensor ch
  | .eyeScanPeriodic _ => true
  | .scoreEntryWrite => true
  | .scoreFlush => true
  | .ent7Read k _ => isPart k
  | .functionLevelReset k => isPart k
  | .perstAssert k => isPart k
  | .hdmaTxTailWrite w k t _ be => isPart w && isPart k && isRing t && isBe be
  | .hdmaTxFetch k _ _ _ => isPart k
  | .hdmaRxDeliver p _ => isPart p
  | .rxIrqTimer k r => isPart k && isRing r
  | .bar4Read k off _ => isPart k && isBar4 off
  | .bar4Write k off _ => isPart k && isBar4 off
  | .bar4AtomicOp k off _ _ _ _ => isPart k && isBar4 off
  | .bnlResponseReceived => true
  | .bridgeTagTimeout w t => isWindow w && isTag t
  | .bridgeBusyRetry w t => isWindow w && isTag t
  | .semAcquireRead k w _ => isPart k && isWindow w
  | .semRelease k w => isPart k && isWindow w
  | .semLeaseRenew w => isWindow w
  | .semHoldTimeout w => isWindow w
  | .werrPop k _ => isPart k
  | .bnlMessageReceived => true
  | .bnlArbCmd _ => true
  | .bnlCxJob => true
  | .bnlGambit => true
  | .bnlScoreRead => true
  | .bnlRead _ _ => true
  | .bnlWrite _ _ => true
  | .bnlLock => true
  | .bnlUnlock => true
  | .leaseExpiry => true
  | .bnlKeyWrite w x _ be => isPart w && isKey x && isBe be
  | .txSelWrite w _ be => isPart w && isBe be
  | .peerCfgWrite w n _ be => isPart w && isPeer n && isBe be
  | .gambitStage w k => isPart w && isPart k
  | .gambitChunk w k => isPart w && isPart k
  | .gambitActivate w k => isPart w && isPart k
  | .gambitConfirm w k => isPart w && isPart k
  | .gambitAbandon w k => isPart w && isPart k
  | .gambitApplyRetry => true
  | .trialWindowExpiry => true
  | .flashDeviceFail _ => true
  | .pwrPlay w => isPart w
  | .pwrQuiet w => isPart w
  | .pwrAdjournedWarm w => isPart w
  | .pwrAdjournedCold w => isPart w
  | .adjournedEntryDone upTo => isStep upTo
  | .wakeEvent _ => true
  | .wakeCanRule q f _ => isCan q && isFrame f
  | .wakeT1sRule q b => isT1s q && isOctets b
  | .wakeT1sEnergy q => isT1s q
  | .wakeEthPattern q b => isEth q && isOctets b
  | .wakeSignalDetect q => isSerdes q
  | .wakeGpioEdge n _ => isGpio n
  | .wakeHostSideband k => isPart k
  | .wakeRcStart => true
  | .wakeRcIdleStop => true
  | .bookHandover => true
  | .bookLate => true
  | .powerOnReset _ => true
  | .resetNAssert => true
  | .rstCmd w _ _ => isPart w
  | .brownout => true
  | .brownoutRelease _ => true
  | .blkRst w _ => isPart w
  | .refclkLoss r => isRef r
  | .refclkRevert => true
  | .refCtrlWrite w _ be => isPart w && isBe be
  | .lcProvisioned w _ => isPart w
  | .lcField w _ => isPart w
  | .lcReturn w _ => isPart w
  | .lcDecommissioned w _ => isPart w
  | .testModeHigh _ _ => true
  | .jtagTrst => true
  | .jtagBypass => true
  | .jtagSamplePreload _ => true
  | .jtagExtest => true
  | .jtagIdcode => true
  | .jtagClamp => true
  | .jtagHighz => true
  | .pcieLinkUp k _ _ => isPart k
  | .dlDown k => isPart k
  | .stuckClear q => isCan q
  | .resetNRelease _ => true
  | .perstNRelease k => isPart k
  | .vddAoLoss => true
  | .refclkReturn r => isRef r
  | .actDone _ _ => true

end Sys2Proof
end

