-- ==== Sys2Proof/Laws/PerInstr.lean ====
section
/-! SUPPORT. Statements made command by command: the partitions, squares and engines that a well-formed command names exist. -/

namespace Sys2Proof.Laws.Operands

set_option Elab.async false

/-- The operands of a command that name a partition. -/
def partitions : Instr → List Nat
  | .pageOwnerWrite k _ _ _ => [k]
  | .pageIrqForceWrite k _ _ _ => [k]
  | .supvXfer k j _ => [k, j]
  | .denyPop k j _ => [k, j]
  | .capture k _ => [k]
  | .holdCfgWrite k _ _ _ => [k]
  | .tempoCtrlWrite k _ _ _ => [k]
  | .setGo k _ => [k]
  | .almCtrlWrite k _ _ _ => [k]
  | .tsyncConfigWrite k _ _ _ => [k]
  | .canCtrlWrite k _ _ _ _ => [k]
  | .rxMailboxLock k _ _ _ => [k]
  | .rxMailboxRelease k _ _ _ => [k]
  | .txReq k _ _ => [k]
  | .txCancel k _ _ => [k]
  | .boRecover k _ _ => [k]
  | .errCapRead k _ _ => [k]
  | .sdsModeWrite k _ _ _ => [k]
  | .mdioCmd k _ _ => [k]
  | .lastDropRead k _ _ => [k]
  | .stgFlush k _ _ => [k]
  | .stgHwmRead k _ _ => [k]
  | .stgLastErrRead k _ _ => [k]
  | .tableEntryWrite k _ _ _ _ => [k]
  | .quarantineClear k _ _ _ => [k]
  | .hostSignalWrite k _ _ _ _ => [k]
  | .pawnKick k _ _ => [k]
  | .bufSplitWrite k _ _ => [k]
  | .sweepNow k _ _ _ => [k]
  | .plCtrlReset k _ _ => [k]
  | .reint k _ => [k]
  | .swap k _ => [k]
  | .txnBegin w k => [w, k]
  | .txnCommitImmediate w k => [w, k]
  | .txnCommitNextBoundary w k => [w, k]
  | .txnCommitAtTime w k => [w, k]
  | .txnRollback w k => [w, k]
  | .txnBadCmd w k _ => [w, k]
  | .txnJournalWrite k _ _ _ _ _ => [k]
  | .castleLoad w k => [w, k]
  | .castleWrap w k => [w, k]
  | .castleImport w k => [w, k]
  | .castleGenerate w k => [w, k]
  | .castleUnload w k => [w, k]
  | .castleErase w k => [w, k]
  | .castlePubkey w k => [w, k]
  | .castleStore w k => [w, k]
  | .castleUnstore w k => [w, k]
  | .castleClearResign w k => [w, k]
  | .castleRootRetry w k _ => [w, k]
  | .castleCommandDone k => [k]
  | .sleepLatchWrite k _ _ => [k]
  | .jrTailWrite w k _ _ => [w, k]
  | .retireGo k _ => [k]
  | .bistRun k _ _ => [k]
  | .restart k _ => [k]
  | .arbPing w k => [w, k]
  | .arbFlush w k => [w, k]
  | .arbArchRead w k => [w, k]
  | .arbEyeScan w k => [w, k]
  | .arbMka w k => [w, k]
  | .arbCommandDone k _ => [k]
  | .ent7Read k _ => [k]
  | .functionLevelReset k => [k]
  | .perstAssert k => [k]
  | .hdmaTxTailWrite w k _ _ _ => [w, k]
  | .hdmaTxFetch k _ _ _ => [k]
  | .hdmaRxDeliver p _ => [p]
  | .rxIrqTimer k _ => [k]
  | .bar4Read k _ _ => [k]
  | .bar4Write k _ _ => [k]
  | .bar4AtomicOp k _ _ _ _ _ => [k]
  | .semAcquireRead k _ _ => [k]
  | .semRelease k _ => [k]
  | .werrPop k _ => [k]
  | .bnlKeyWrite w _ _ _ => [w]
  | .txSelWrite w _ _ => [w]
  | .peerCfgWrite w _ _ _ => [w]
  | .gambitStage w k => [w, k]
  | .gambitChunk w k => [w, k]
  | .gambitActivate w k => [w, k]
  | .gambitConfirm w k => [w, k]
  | .gambitAbandon w k => [w, k]
  | .pwrPlay w => [w]
  | .pwrQuiet w => [w]
  | .pwrAdjournedWarm w => [w]
  | .pwrAdjournedCold w => [w]
  | .wakeHostSideband k => [k]
  | .rstCmd w _ _ => [w]
  | .blkRst w _ => [w]
  | .refCtrlWrite w _ _ => [w]
  | .lcProvisioned w _ => [w]
  | .lcField w _ => [w]
  | .lcReturn w _ => [w]
  | .lcDecommissioned w _ => [w]
  | .pcieLinkUp k _ _ => [k]
  | .dlDown k => [k]
  | .perstNRelease k => [k]
  | _ => []

/-- The operands of a command that name a square. -/
def squares : Instr → List Nat
  | .syncReceived q _ _ => [q]
  | .gptpSyncRelay q _ _ _ _ => [q]
  | .gptpSyncTransmit q => [q]
  | .canSyncQueue q => [q]
  | .canFollowupQueue q => [q]
  | .canFrameReceived q _ _ => [q]
  | .canErrorFrame q _ _ _ _ _ => [q]
  | .protocolException q _ => [q]
  | .canCtrlWrite _ q _ _ _ => [q]
  | .canIntegrationDone q => [q]
  | .rxMailboxLock _ q _ _ => [q]
  | .rxMailboxRelease _ q _ _ => [q]
  | .txReq _ q _ => [q]
  | .txCancel _ q _ => [q]
  | .canTxAttempt q => [q]
  | .canArbitrationLost q => [q]
  | .canFrameTransmitted q _ => [q]
  | .canDeadlineExpiry q _ => [q]
  | .canClassBufferPull q _ _ => [q]
  | .canScheduleEntry q => [q]
  | .boRecover _ q _ => [q]
  | .canBusoffRecovered q _ => [q]
  | .canStuckDominant q => [q]
  | .txdDominantLimit q => [q]
  | .canIdleTimeout q => [q]
  | .rxdWake q => [q]
  | .errCapRead _ q _ => [q]
  | .canSquareReset q _ _ => [q]
  | .ethFrameReceived q _ _ _ _ => [q]
  | .pauseFrameReceived q _ _ _ => [q]
  | .pauseExpiry q _ => [q]
  | .pauseDutyWindow q => [q]
  | .pauseTxRepeat q _ => [q]
  | .plcaBeaconReceived q => [q]
  | .plcaLoss q => [q]
  | .sdsModeWrite _ q _ _ => [q]
  | .linkUp q _ => [q]
  | .linkDown q _ => [q]
  | .linkHoldExpiry q => [q]
  | .mdioCmd _ q _ => [q]
  | .mdioDone q _ => [q]
  | .ethTransmitSelect q _ => [q]
  | .ethFrameTxDone q _ => [q]
  | .lpiEnter q => [q]
  | .lpiGateWake q => [q]
  | .mmVerifyTimer q _ => [q]
  | .gateListEntry q => [q]
  | .ethSquareReset q _ _ => [q]
  | .lastDropRead _ q _ => [q]
  | .stgFlush _ q _ => [q]
  | .stgHwmRead _ q _ => [q]
  | .stgLastErrRead _ q _ => [q]
  | .quarantineHoldExpiry idx => [idx]
  | .wakeCanRule q _ _ => [q]
  | .wakeT1sRule q _ => [q]
  | .wakeT1sEnergy q => [q]
  | .wakeEthPattern q _ => [q]
  | .wakeSignalDetect q => [q]
  | .stuckClear q => [q]
  | _ => []

/-- The operands of a command that name a Pawn engine. -/
def engines : Instr → List Nat
  | .pawnKick _ n _ => [n]
  | .budgetExhausted n => [n]
  | .illegalInstruction n => [n]
  | .pawnNop n => [n]
  | .pawnEnd n => [n]
  | .pawnAbort n => [n]
  | .pawnBr n => [n]
  | .pawnBeq n => [n]
  | .pawnBne n => [n]
  | .pawnBlt n => [n]
  | .pawnBge n => [n]
  | .pawnBltu n => [n]
  | .pawnBgeu n => [n]
  | .pawnLoop n => [n]
  | .pawnLd n => [n]
  | .pawnLdw n => [n]
  | .pawnSt n => [n]
  | .pawnStw n => [n]
  | .pawnAdd n => [n]
  | .pawnSub n => [n]
  | .pawnAdds n => [n]
  | .pawnSubs n => [n]
  | .pawnAddus n => [n]
  | .pawnSubus n => [n]
  | .pawnMul n => [n]
  | .pawnMuls n => [n]
  | .pawnAnd n => [n]
  | .pawnOr n => [n]
  | .pawnXor n => [n]
  | .pawnShl n => [n]
  | .pawnShr n => [n]
  | .pawnSar n => [n]
  | .pawnMin n => [n]
  | .pawnMax n => [n]
  | .pawnAddi n => [n]
  | .pawnAndi n => [n]
  | .pawnOri n => [n]
  | .pawnXori n => [n]
  | .pawnShli n => [n]
  | .pawnShri n => [n]
  | .pawnSari n => [n]
  | .pawnMovi n => [n]
  | .pawnMovk n => [n]
  | .pawnBfx n => [n]
  | .pawnBfxs n => [n]
  | .pawnBfi n => [n]
  | .pawnBsw n => [n]
  | .pawnSrd n => [n]
  | .pawnSrs n => [n]
  | .pawnSrc n => [n]
  | .pawnExt n => [n]
  | .pawnExts n => [n]
  | .pawnIns n => [n]
  | .pawnScl n => [n]
  | .pawnRchk n => [n]
  | .pawnClamp n => [n]
  | .pawnFtox n => [n]
  | .pawnXtof n => [n]
  | .pawnCrc n => [n]
  | .pawnCrcb n => [n]
  | .pawnAlv n => [n]
  | .pawnAlvd n => [n]
  | .pawnSwr n => [n]
  | .pawnEmit n => [n]
  | .pawnSend n => [n]
  | .pawnTstart n => [n]
  | .pawnTstop n => [n]
  | _ => []

/-- A well-formed command names partitions 0 to 3, squares 0 to 63 and engines 0 to 15 only. -/
def Statement (i : Instr) : Prop :=
  i.wf = true → (∀ k ∈ partitions i, k < 4) ∧ (∀ q ∈ squares i, q < 64) ∧ ∀ n ∈ engines i, n < 16

theorem registerWrite (k : Nat) (a : Nat) (ws : List (Word × Nat)) (env : WriteEnv) : Statement (.registerWrite k a ws env) := by
  intro _; simp [partitions, squares, engines]
theorem wideReadReject (p : Nat) (off : Nat) (n : Nat) (r : WideRead) : Statement (.wideReadReject p off n r) := by
  intro _; simp [partitions, squares, engines]
theorem pageOwnerWrite (k : Nat) (p : Nat) (v : Word) (be : Nat) : Statement (.pageOwnerWrite k p v be) := by
  intro h; simp only [Instr.wf, isPart, Bool.and_eq_true, decide_eq_true_eq] at h; simp [partitions, squares, engines]; omega
theorem pageIrqForceWrite (k : Nat) (p : Nat) (v : Word) (be : Nat) : Statement (.pageIrqForceWrite k p v be) := by
  intro h; simp only [Instr.wf, isPart, Bool.and_eq_true, decide_eq_true_eq] at h; simp [partitions, squares, engines]; omega
theorem supvXfer (k : Nat) (j : Nat) (v : Word) : Statement (.supvXfer k j v) := by
  intro h; simp only [Instr.wf, isPart, Bool.and_eq_true, decide_eq_true_eq] at h; simp [partitions, squares, engines]; omega
theorem supvWatchCheck : Statement (.supvWatchCheck) := by
  intro _; simp [partitions, squares, engines]
theorem denyPop (k : Nat) (j : Nat) (seen : Bool) : Statement (.denyPop k j seen) := by
  intro h; simp only [Instr.wf, isPart, Bool.and_eq_true, decide_eq_true_eq] at h; simp [partitions, squares, engines]; omega
theorem alarmNHoldExpiry : Statement (.alarmNHoldExpiry) := by
  intro _; simp [partitions, squares, engines]
theorem rateHiWrite (k : Nat) (hi : Word) (lo : Word) (be : Nat) : Statement (.rateHiWrite k hi lo be) := by
  intro _; simp [partitions, squares, engines]
theorem capture (k : Nat) (v : Word) : Statement (.capture k v) := by
  intro h; simp only [Instr.wf, isPart, decide_eq_true_eq] at h; simp [partitions, squares, engines]; omega
theorem syncReceived (q : Nat) (m : SyncMsg) (off : Int) : Statement (.syncReceived q m off) := by
  intro h; simp only [Instr.wf, isEth, Bool.and_eq_true, decide_eq_true_eq] at h; simp [partitions, squares, engines]; omega
theorem syncReceiptTimeout : Statement (.syncReceiptTimeout) := by
  intro _; simp [partitions, squares, engines]
theorem holdoverExpiry : Statement (.holdoverExpiry) := by
  intro _; simp [partitions, squares, engines]
theorem holdCfgWrite (k : Nat) (max : Bool) (v : Word) (be : Nat) : Statement (.holdCfgWrite k max v be) := by
  intro h; simp only [Instr.wf, isPart, Bool.and_eq_true, decide_eq_true_eq] at h; simp [partitions, squares, engines]; omega
theorem tempoCtrlWrite (k : Nat) (v : Word) (be : Nat) (present : Bool) : Statement (.tempoCtrlWrite k v be present) := by
  intro h; simp only [Instr.wf, isPart, Bool.and_eq_true, decide_eq_true_eq] at h; simp [partitions, squares, engines]; omega
theorem setGo (k : Nat) (v : Word) : Statement (.setGo k v) := by
  intro h; simp only [Instr.wf, isPart, decide_eq_true_eq] at h; simp [partitions, squares, engines]; omega
theorem ref10Loss : Statement (.ref10Loss) := by
  intro _; simp [partitions, squares, engines]
theorem gptpSyncRelay (q : Nat) (corr : Int) (rin : Nat) (rout : Nat) (ratio : Int) : Statement (.gptpSyncRelay q corr rin rout ratio) := by
  intro h; simp only [Instr.wf, isEth, Bool.and_eq_true, decide_eq_true_eq] at h; simp [partitions, squares, engines]; omega
theorem gptpSyncTransmit (q : Nat) : Statement (.gptpSyncTransmit q) := by
  intro h; simp only [Instr.wf, isEth, Bool.and_eq_true, decide_eq_true_eq] at h; simp [partitions, squares, engines]; omega
theorem almCtrlWrite (k : Nat) (idx : Nat) (v : Word) (be : Nat) : Statement (.almCtrlWrite k idx v be) := by
  intro h; simp only [Instr.wf, isPart, Bool.and_eq_true, decide_eq_true_eq] at h; simp [partitions, squares, engines]; omega
theorem tempoAlarmExpiry (idx : Nat) : Statement (.tempoAlarmExpiry idx) := by
  intro _; simp [partitions, squares, engines]
theorem canSyncQueue (q : Nat) : Statement (.canSyncQueue q) := by
  intro h; simp only [Instr.wf, isCan, decide_eq_true_eq] at h; simp [partitions, squares, engines]; omega
theorem canFollowupQueue (q : Nat) : Statement (.canFollowupQueue q) := by
  intro h; simp only [Instr.wf, isCan, decide_eq_true_eq] at h; simp [partitions, squares, engines]; omega
theorem tsyncConfigWrite (k : Nat) (q : Nat) (v : Word) (be : Nat) : Statement (.tsyncConfigWrite k q v be) := by
  intro h; simp only [Instr.wf, isPart, Bool.and_eq_true, decide_eq_true_eq] at h; simp [partitions, squares, engines]; omega
theorem canFrameReceived (q : Nat) (f : CanFrame) (x : CanIn) : Statement (.canFrameReceived q f x) := by
  intro h; simp only [Instr.wf, isCan, Bool.and_eq_true, decide_eq_true_eq] at h; simp [partitions, squares, engines]; omega
theorem canErrorFrame (q : Nat) (ty : Nat) (e : CanErr) (pos : Nat) (heavy : Bool) (exempt : Bool) : Statement (.canErrorFrame q ty e pos heavy exempt) := by
  intro h; simp only [Instr.wf, isCan, decide_eq_true_eq] at h; simp [partitions, squares, engines]; omega
theorem protocolException (q : Nat) (pos : Nat) : Statement (.protocolException q pos) := by
  intro h; simp only [Instr.wf, isCan, decide_eq_true_eq] at h; simp [partitions, squares, engines]; omega
theorem canCtrlWrite (k : Nat) (q : Nat) (v : Word) (be : Nat) (rx : Bool) : Statement (.canCtrlWrite k q v be rx) := by
  intro h; simp only [Instr.wf, isCan, isPart, Bool.and_eq_true, decide_eq_true_eq] at h; simp [partitions, squares, engines]; omega
theorem canIntegrationDone (q : Nat) : Statement (.canIntegrationDone q) := by
  intro h; simp only [Instr.wf, isCan, decide_eq_true_eq] at h; simp [partitions, squares, engines]; omega
theorem rxMailboxLock (k : Nat) (q : Nat) (n : Nat) (seen : Bool) : Statement (.rxMailboxLock k q n seen) := by
  intro h; simp only [Instr.wf, isCan, isPart, Bool.and_eq_true, decide_eq_true_eq] at h; simp [partitions, squares, engines]; omega
theorem rxMailboxRelease (k : Nat) (q : Nat) (n : Nat) (seen : Bool) : Statement (.rxMailboxRelease k q n seen) := by
  intro h; simp only [Instr.wf, isCan, isPart, Bool.and_eq_true, decide_eq_true_eq] at h; simp [partitions, squares, engines]; omega
theorem txReq (k : Nat) (q : Nat) (v : Word) : Statement (.txReq k q v) := by
  intro h; simp only [Instr.wf, isCan, isPart, Bool.and_eq_true, decide_eq_true_eq] at h; simp [partitions, squares, engines]; omega
theorem txCancel (k : Nat) (q : Nat) (v : Word) : Statement (.txCancel k q v) := by
  intro h; simp only [Instr.wf, isCan, isPart, Bool.and_eq_true, decide_eq_true_eq] at h; simp [partitions, squares, engines]; omega
theorem canTxAttempt (q : Nat) : Statement (.canTxAttempt q) := by
  intro h; simp only [Instr.wf, isCan, decide_eq_true_eq] at h; simp [partitions, squares, engines]; omega
theorem canArbitrationLost (q : Nat) : Statement (.canArbitrationLost q) := by
  intro h; simp only [Instr.wf, isCan, decide_eq_true_eq] at h; simp [partitions, squares, engines]; omega
theorem canFrameTransmitted (q : Nat) (delay : Option Nat) : Statement (.canFrameTransmitted q delay) := by
  intro h; simp only [Instr.wf, isCan, decide_eq_true_eq] at h; simp [partitions, squares, engines]; omega
theorem canDeadlineExpiry (q : Nat) (src : CanSrc) : Statement (.canDeadlineExpiry q src) := by
  intro h; simp only [Instr.wf, isCan, decide_eq_true_eq] at h; simp [partitions, squares, engines]; omega
theorem canClassBufferPull (q : Nat) (cls : Nat) (parity : Bool) : Statement (.canClassBufferPull q cls parity) := by
  intro h; simp only [Instr.wf, isCan, Bool.and_eq_true, decide_eq_true_eq] at h; simp [partitions, squares, engines]; omega
theorem canScheduleEntry (q : Nat) : Statement (.canScheduleEntry q) := by
  intro h; simp only [Instr.wf, isCan, decide_eq_true_eq] at h; simp [partitions, squares, engines]; omega
theorem boRecover (k : Nat) (q : Nat) (v : Word) : Statement (.boRecover k q v) := by
  intro h; simp only [Instr.wf, isCan, isPart, Bool.and_eq_true, decide_eq_true_eq] at h; simp [partitions, squares, engines]; omega
theorem canBusoffRecovered (q : Nat) (seqs : Nat) : Statement (.canBusoffRecovered q seqs) := by
  intro h; simp only [Instr.wf, isCan, Bool.and_eq_true, decide_eq_true_eq] at h; simp [partitions, squares, engines]; omega
theorem canStuckDominant (q : Nat) : Statement (.canStuckDominant q) := by
  intro h; simp only [Instr.wf, isCan, decide_eq_true_eq] at h; simp [partitions, squares, engines]; omega
theorem txdDominantLimit (q : Nat) : Statement (.txdDominantLimit q) := by
  intro h; simp only [Instr.wf, isCan, decide_eq_true_eq] at h; simp [partitions, squares, engines]; omega
theorem canIdleTimeout (q : Nat) : Statement (.canIdleTimeout q) := by
  intro h; simp only [Instr.wf, isCan, decide_eq_true_eq] at h; simp [partitions, squares, engines]; omega
theorem rxdWake (q : Nat) : Statement (.rxdWake q) := by
  intro h; simp only [Instr.wf, isCan, decide_eq_true_eq] at h; simp [partitions, squares, engines]; omega
theorem errCapRead (k : Nat) (q : Nat) (seen : Bool) : Statement (.errCapRead k q seen) := by
  intro h; simp only [Instr.wf, isCan, isPart, Bool.and_eq_true, decide_eq_true_eq] at h; simp [partitions, squares, engines]; omega
theorem canSquareReset (q : Nat) (bistStg : Nat) (bistSq : Nat) : Statement (.canSquareReset q bistStg bistSq) := by
  intro h; simp only [Instr.wf, isCan, decide_eq_true_eq] at h; simp [partitions, squares, engines]; omega
theorem ethFrameReceived (q : Nat) (b : List Byte) (fcsOk : Bool) (x : EthIn) (early : Bool) : Statement (.ethFrameReceived q b fcsOk x early) := by
  intro h; simp only [Instr.wf, isEth, Bool.and_eq_true, decide_eq_true_eq] at h; simp [partitions, squares, engines]; omega
theorem pauseFrameReceived (q : Nat) (op : Nat) (vec : Nat) (times : List Nat) : Statement (.pauseFrameReceived q op vec times) := by
  intro h; simp only [Instr.wf, isEth, Bool.and_eq_true, decide_eq_true_eq] at h; simp [partitions, squares, engines]; omega
theorem pauseExpiry (q : Nat) (ch : Nat) : Statement (.pauseExpiry q ch) := by
  intro h; simp only [Instr.wf, isEth, Bool.and_eq_true, decide_eq_true_eq] at h; simp [partitions, squares, engines]; omega
theorem pauseDutyWindow (q : Nat) : Statement (.pauseDutyWindow q) := by
  intro h; simp only [Instr.wf, isEth, Bool.and_eq_true, decide_eq_true_eq] at h; simp [partitions, squares, engines]; omega
theorem pauseTxRepeat (q : Nat) (ch : Nat) : Statement (.pauseTxRepeat q ch) := by
  intro h; simp only [Instr.wf, isEth, Bool.and_eq_true, decide_eq_true_eq] at h; simp [partitions, squares, engines]; omega
theorem plcaBeaconReceived (q : Nat) : Statement (.plcaBeaconReceived q) := by
  intro h; simp only [Instr.wf, isT1s, Bool.and_eq_true, decide_eq_true_eq] at h; simp [partitions, squares, engines]; omega
theorem plcaLoss (q : Nat) : Statement (.plcaLoss q) := by
  intro h; simp only [Instr.wf, isT1s, Bool.and_eq_true, decide_eq_true_eq] at h; simp [partitions, squares, engines]; omega
theorem sdsModeWrite (k : Nat) (q : Nat) (v : Word) (be : Nat) : Statement (.sdsModeWrite k q v be) := by
  intro h; simp only [Instr.wf, isPart, isSerdes, Bool.and_eq_true, decide_eq_true_eq] at h; simp [partitions, squares, engines]; omega
theorem linkUp (q : Nat) (st : Nat) : Statement (.linkUp q st) := by
  intro h; simp only [Instr.wf, isEth, Bool.and_eq_true, decide_eq_true_eq] at h; simp [partitions, squares, engines]; omega
theorem linkDown (q : Nat) (st : Nat) : Statement (.linkDown q st) := by
  intro h; simp only [Instr.wf, isEth, Bool.and_eq_true, decide_eq_true_eq] at h; simp [partitions, squares, engines]; omega
theorem linkHoldExpiry (q : Nat) : Statement (.linkHoldExpiry q) := by
  intro h; simp only [Instr.wf, isEth, Bool.and_eq_true, decide_eq_true_eq] at h; simp [partitions, squares, engines]; omega
theorem mdioCmd (k : Nat) (q : Nat) (v : Word) : Statement (.mdioCmd k q v) := by
  intro h; simp only [Instr.wf, isPart, isSerdes, Bool.and_eq_true, decide_eq_true_eq] at h; simp [partitions, squares, engines]; omega
theorem mdioDone (q : Nat) (rdata : Nat) : Statement (.mdioDone q rdata) := by
  intro h; simp only [Instr.wf, isSerdes, Bool.and_eq_true, decide_eq_true_eq] at h; simp [partitions, squares, engines]; omega
theorem ethTransmitSelect (q : Nat) (parity : Bool) : Statement (.ethTransmitSelect q parity) := by
  intro h; simp only [Instr.wf, isEth, Bool.and_eq_true, decide_eq_true_eq] at h; simp [partitions, squares, engines]; omega
theorem ethFrameTxDone (q : Nat) (t : TxEnd) : Statement (.ethFrameTxDone q t) := by
  intro h; simp only [Instr.wf, isEth, Bool.and_eq_true, decide_eq_true_eq] at h; simp [partitions, squares, engines]; omega
theorem lpiEnter (q : Nat) : Statement (.lpiEnter q) := by
  intro h; simp only [Instr.wf, isEth, Bool.and_eq_true, decide_eq_true_eq] at h; simp [partitions, squares, engines]; omega
theorem lpiGateWake (q : Nat) : Statement (.lpiGateWake q) := by
  intro h; simp only [Instr.wf, isEth, Bool.and_eq_true, decide_eq_true_eq] at h; simp [partitions, squares, engines]; omega
theorem mmVerifyTimer (q : Nat) (resp : Bool) : Statement (.mmVerifyTimer q resp) := by
  intro h; simp only [Instr.wf, isEth, Bool.and_eq_true, decide_eq_true_eq] at h; simp [partitions, squares, engines]; omega
theorem gateListEntry (q : Nat) : Statement (.gateListEntry q) := by
  intro h; simp only [Instr.wf, isEth, Bool.and_eq_true, decide_eq_true_eq] at h; simp [partitions, squares, engines]; omega
theorem frerRecoveryReset (fn : Nat) : Statement (.frerRecoveryReset fn) := by
  intro _; simp [partitions, squares, engines]
theorem frerLatentTest (fn : Nat) : Statement (.frerLatentTest fn) := by
  intro _; simp [partitions, squares, engines]
theorem ethSquareReset (q : Nat) (bistStg : Nat) (bistSq : Nat) : Statement (.ethSquareReset q bistStg bistSq) := by
  intro h; simp only [Instr.wf, isEth, Bool.and_eq_true, decide_eq_true_eq] at h; simp [partitions, squares, engines]; omega
theorem lastDropRead (k : Nat) (q : Nat) (seen : Bool) : Statement (.lastDropRead k q seen) := by
  intro h; simp only [Instr.wf, isEth, isPart, Bool.and_eq_true, decide_eq_true_eq] at h; simp [partitions, squares, engines]; omega
theorem stgFlush (k : Nat) (q : Nat) (v : Word) : Statement (.stgFlush k q v) := by
  intro h; simp only [Instr.wf, isPart, isSquare, Bool.and_eq_true, decide_eq_true_eq] at h; simp [partitions, squares, engines]; omega
theorem stgHwmRead (k : Nat) (q : Nat) (seen : Bool) : Statement (.stgHwmRead k q seen) := by
  intro h; simp only [Instr.wf, isPart, isSquare, Bool.and_eq_true, decide_eq_true_eq] at h; simp [partitions, squares, engines]; omega
theorem stgLastErrRead (k : Nat) (q : Nat) (seen : Bool) : Statement (.stgLastErrRead k q seen) := by
  intro h; simp only [Instr.wf, isPart, isSquare, Bool.and_eq_true, decide_eq_true_eq] at h; simp [partitions, squares, engines]; omega
theorem classifyFrame (src : Nat) (bad : Nat) (x : StgRead) : Statement (.classifyFrame src bad x) := by
  intro _; simp [partitions, squares, engines]
theorem tableEntryWrite (k : Nat) (off : Nat) (v : Word64) (be : Nat) (ecc : Nat) : Statement (.tableEntryWrite k off v be ecc) := by
  intro h; simp only [Instr.wf, isPart, Bool.and_eq_true, decide_eq_true_eq] at h; simp [partitions, squares, engines]; omega
theorem streamGateEntry (g : Nat) : Statement (.streamGateEntry g) := by
  intro _; simp [partitions, squares, engines]
theorem guardWindowEnd : Statement (.guardWindowEnd) := by
  intro _; simp [partitions, squares, engines]
theorem quarantineClear (k : Nat) (hi : Bool) (v : Word) (be : Nat) : Statement (.quarantineClear k hi v be) := by
  intro h; simp only [Instr.wf, isPart, Bool.and_eq_true, decide_eq_true_eq] at h; simp [partitions, squares, engines]; omega
theorem quarantineHoldExpiry (idx : Nat) : Statement (.quarantineHoldExpiry idx) := by
  intro h; simp only [Instr.wf, isSquare, decide_eq_true_eq] at h; simp [partitions, squares, engines]; omega
theorem unpackPdu : Statement (.unpackPdu) := by
  intro _; simp [partitions, squares, engines]
theorem hostSignalWrite (k : Nat) (idx : Nat) (w : Nat) (v : Word64) (wide : Bool) : Statement (.hostSignalWrite k idx w v wide) := by
  intro h; simp only [Instr.wf, isPart, Bool.and_eq_true, decide_eq_true_eq] at h; simp [partitions, squares, engines]; omega
theorem flagFall (idx : Nat) : Statement (.flagFall idx) := by
  intro _; simp [partitions, squares, engines]
theorem sweepDone : Statement (.sweepDone) := by
  intro _; simp [partitions, squares, engines]
theorem pduPeriodEmit (l : Nat) : Statement (.pduPeriodEmit l) := by
  intro _; simp [partitions, squares, engines]
theorem emitDeferred (l : Nat) : Statement (.emitDeferred l) := by
  intro _; simp [partitions, squares, engines]
theorem pawnDispatch : Statement (.pawnDispatch) := by
  intro _; simp [partitions, squares, engines]
theorem pawnKick (k : Nat) (n : Nat) (v : Word) : Statement (.pawnKick k n v) := by
  intro h; simp only [Instr.wf, isEngine, isPart, Bool.and_eq_true, decide_eq_true_eq] at h; simp [partitions, squares, engines]; omega
theorem pawnTimerExpiry (j : Nat) : Statement (.pawnTimerExpiry j) := by
  intro _; simp [partitions, squares, engines]
theorem budgetExhausted (n : Nat) : Statement (.budgetExhausted n) := by
  intro h; simp only [Instr.wf, isEngine, decide_eq_true_eq] at h; simp [partitions, squares, engines]; omega
theorem illegalInstruction (n : Nat) : Statement (.illegalInstruction n) := by
  intro h; simp only [Instr.wf, isEngine, decide_eq_true_eq] at h; simp [partitions, squares, engines]; omega
theorem pawnNop (n : Nat) : Statement (.pawnNop n) := by
  intro h; simp only [Instr.wf, isEngine, decide_eq_true_eq] at h; simp [partitions, squares, engines]; omega
theorem pawnEnd (n : Nat) : Statement (.pawnEnd n) := by
  intro h; simp only [Instr.wf, isEngine, decide_eq_true_eq] at h; simp [partitions, squares, engines]; omega
theorem pawnAbort (n : Nat) : Statement (.pawnAbort n) := by
  intro h; simp only [Instr.wf, isEngine, decide_eq_true_eq] at h; simp [partitions, squares, engines]; omega
theorem pawnBr (n : Nat) : Statement (.pawnBr n) := by
  intro h; simp only [Instr.wf, isEngine, decide_eq_true_eq] at h; simp [partitions, squares, engines]; omega
theorem pawnBeq (n : Nat) : Statement (.pawnBeq n) := by
  intro h; simp only [Instr.wf, isEngine, decide_eq_true_eq] at h; simp [partitions, squares, engines]; omega
theorem pawnBne (n : Nat) : Statement (.pawnBne n) := by
  intro h; simp only [Instr.wf, isEngine, decide_eq_true_eq] at h; simp [partitions, squares, engines]; omega
theorem pawnBlt (n : Nat) : Statement (.pawnBlt n) := by
  intro h; simp only [Instr.wf, isEngine, decide_eq_true_eq] at h; simp [partitions, squares, engines]; omega
theorem pawnBge (n : Nat) : Statement (.pawnBge n) := by
  intro h; simp only [Instr.wf, isEngine, decide_eq_true_eq] at h; simp [partitions, squares, engines]; omega
theorem pawnBltu (n : Nat) : Statement (.pawnBltu n) := by
  intro h; simp only [Instr.wf, isEngine, decide_eq_true_eq] at h; simp [partitions, squares, engines]; omega
theorem pawnBgeu (n : Nat) : Statement (.pawnBgeu n) := by
  intro h; simp only [Instr.wf, isEngine, decide_eq_true_eq] at h; simp [partitions, squares, engines]; omega
theorem pawnLoop (n : Nat) : Statement (.pawnLoop n) := by
  intro h; simp only [Instr.wf, isEngine, decide_eq_true_eq] at h; simp [partitions, squares, engines]; omega
theorem pawnLd (n : Nat) : Statement (.pawnLd n) := by
  intro h; simp only [Instr.wf, isEngine, decide_eq_true_eq] at h; simp [partitions, squares, engines]; omega
theorem pawnLdw (n : Nat) : Statement (.pawnLdw n) := by
  intro h; simp only [Instr.wf, isEngine, decide_eq_true_eq] at h; simp [partitions, squares, engines]; omega
theorem pawnSt (n : Nat) : Statement (.pawnSt n) := by
  intro h; simp only [Instr.wf, isEngine, decide_eq_true_eq] at h; simp [partitions, squares, engines]; omega
theorem pawnStw (n : Nat) : Statement (.pawnStw n) := by
  intro h; simp only [Instr.wf, isEngine, decide_eq_true_eq] at h; simp [partitions, squares, engines]; omega
theorem pawnAdd (n : Nat) : Statement (.pawnAdd n) := by
  intro h; simp only [Instr.wf, isEngine, decide_eq_true_eq] at h; simp [partitions, squares, engines]; omega
theorem pawnSub (n : Nat) : Statement (.pawnSub n) := by
  intro h; simp only [Instr.wf, isEngine, decide_eq_true_eq] at h; simp [partitions, squares, engines]; omega
theorem pawnAdds (n : Nat) : Statement (.pawnAdds n) := by
  intro h; simp only [Instr.wf, isEngine, decide_eq_true_eq] at h; simp [partitions, squares, engines]; omega
theorem pawnSubs (n : Nat) : Statement (.pawnSubs n) := by
  intro h; simp only [Instr.wf, isEngine, decide_eq_true_eq] at h; simp [partitions, squares, engines]; omega
theorem pawnAddus (n : Nat) : Statement (.pawnAddus n) := by
  intro h; simp only [Instr.wf, isEngine, decide_eq_true_eq] at h; simp [partitions, squares, engines]; omega
theorem pawnSubus (n : Nat) : Statement (.pawnSubus n) := by
  intro h; simp only [Instr.wf, isEngine, decide_eq_true_eq] at h; simp [partitions, squares, engines]; omega
theorem pawnMul (n : Nat) : Statement (.pawnMul n) := by
  intro h; simp only [Instr.wf, isEngine, decide_eq_true_eq] at h; simp [partitions, squares, engines]; omega
theorem pawnMuls (n : Nat) : Statement (.pawnMuls n) := by
  intro h; simp only [Instr.wf, isEngine, decide_eq_true_eq] at h; simp [partitions, squares, engines]; omega
theorem pawnAnd (n : Nat) : Statement (.pawnAnd n) := by
  intro h; simp only [Instr.wf, isEngine, decide_eq_true_eq] at h; simp [partitions, squares, engines]; omega
theorem pawnOr (n : Nat) : Statement (.pawnOr n) := by
  intro h; simp only [Instr.wf, isEngine, decide_eq_true_eq] at h; simp [partitions, squares, engines]; omega
theorem pawnXor (n : Nat) : Statement (.pawnXor n) := by
  intro h; simp only [Instr.wf, isEngine, decide_eq_true_eq] at h; simp [partitions, squares, engines]; omega
theorem pawnShl (n : Nat) : Statement (.pawnShl n) := by
  intro h; simp only [Instr.wf, isEngine, decide_eq_true_eq] at h; simp [partitions, squares, engines]; omega
theorem pawnShr (n : Nat) : Statement (.pawnShr n) := by
  intro h; simp only [Instr.wf, isEngine, decide_eq_true_eq] at h; simp [partitions, squares, engines]; omega
theorem pawnSar (n : Nat) : Statement (.pawnSar n) := by
  intro h; simp only [Instr.wf, isEngine, decide_eq_true_eq] at h; simp [partitions, squares, engines]; omega
theorem pawnMin (n : Nat) : Statement (.pawnMin n) := by
  intro h; simp only [Instr.wf, isEngine, decide_eq_true_eq] at h; simp [partitions, squares, engines]; omega
theorem pawnMax (n : Nat) : Statement (.pawnMax n) := by
  intro h; simp only [Instr.wf, isEngine, decide_eq_true_eq] at h; simp [partitions, squares, engines]; omega
theorem pawnAddi (n : Nat) : Statement (.pawnAddi n) := by
  intro h; simp only [Instr.wf, isEngine, decide_eq_true_eq] at h; simp [partitions, squares, engines]; omega
theorem pawnAndi (n : Nat) : Statement (.pawnAndi n) := by
  intro h; simp only [Instr.wf, isEngine, decide_eq_true_eq] at h; simp [partitions, squares, engines]; omega
theorem pawnOri (n : Nat) : Statement (.pawnOri n) := by
  intro h; simp only [Instr.wf, isEngine, decide_eq_true_eq] at h; simp [partitions, squares, engines]; omega
theorem pawnXori (n : Nat) : Statement (.pawnXori n) := by
  intro h; simp only [Instr.wf, isEngine, decide_eq_true_eq] at h; simp [partitions, squares, engines]; omega
theorem pawnShli (n : Nat) : Statement (.pawnShli n) := by
  intro h; simp only [Instr.wf, isEngine, decide_eq_true_eq] at h; simp [partitions, squares, engines]; omega
theorem pawnShri (n : Nat) : Statement (.pawnShri n) := by
  intro h; simp only [Instr.wf, isEngine, decide_eq_true_eq] at h; simp [partitions, squares, engines]; omega
theorem pawnSari (n : Nat) : Statement (.pawnSari n) := by
  intro h; simp only [Instr.wf, isEngine, decide_eq_true_eq] at h; simp [partitions, squares, engines]; omega
theorem pawnMovi (n : Nat) : Statement (.pawnMovi n) := by
  intro h; simp only [Instr.wf, isEngine, decide_eq_true_eq] at h; simp [partitions, squares, engines]; omega
theorem pawnMovk (n : Nat) : Statement (.pawnMovk n) := by
  intro h; simp only [Instr.wf, isEngine, decide_eq_true_eq] at h; simp [partitions, squares, engines]; omega
theorem pawnBfx (n : Nat) : Statement (.pawnBfx n) := by
  intro h; simp only [Instr.wf, isEngine, decide_eq_true_eq] at h; simp [partitions, squares, engines]; omega
theorem pawnBfxs (n : Nat) : Statement (.pawnBfxs n) := by
  intro h; simp only [Instr.wf, isEngine, decide_eq_true_eq] at h; simp [partitions, squares, engines]; omega
theorem pawnBfi (n : Nat) : Statement (.pawnBfi n) := by
  intro h; simp only [Instr.wf, isEngine, decide_eq_true_eq] at h; simp [partitions, squares, engines]; omega
theorem pawnBsw (n : Nat) : Statement (.pawnBsw n) := by
  intro h; simp only [Instr.wf, isEngine, decide_eq_true_eq] at h; simp [partitions, squares, engines]; omega
theorem pawnSrd (n : Nat) : Statement (.pawnSrd n) := by
  intro h; simp only [Instr.wf, isEngine, decide_eq_true_eq] at h; simp [partitions, squares, engines]; omega
theorem pawnSrs (n : Nat) : Statement (.pawnSrs n) := by
  intro h; simp only [Instr.wf, isEngine, decide_eq_true_eq] at h; simp [partitions, squares, engines]; omega
theorem pawnSrc (n : Nat) : Statement (.pawnSrc n) := by
  intro h; simp only [Instr.wf, isEngine, decide_eq_true_eq] at h; simp [partitions, squares, engines]; omega
theorem pawnExt (n : Nat) : Statement (.pawnExt n) := by
  intro h; simp only [Instr.wf, isEngine, decide_eq_true_eq] at h; simp [partitions, squares, engines]; omega
theorem pawnExts (n : Nat) : Statement (.pawnExts n) := by
  intro h; simp only [Instr.wf, isEngine, decide_eq_true_eq] at h; simp [partitions, squares, engines]; omega
theorem pawnIns (n : Nat) : Statement (.pawnIns n) := by
  intro h; simp only [Instr.wf, isEngine, decide_eq_true_eq] at h; simp [partitions, squares, engines]; omega
theorem pawnScl (n : Nat) : Statement (.pawnScl n) := by
  intro h; simp only [Instr.wf, isEngine, decide_eq_true_eq] at h; simp [partitions, squares, engines]; omega
theorem pawnRchk (n : Nat) : Statement (.pawnRchk n) := by
  intro h; simp only [Instr.wf, isEngine, decide_eq_true_eq] at h; simp [partitions, squares, engines]; omega
theorem pawnClamp (n : Nat) : Statement (.pawnClamp n) := by
  intro h; simp only [Instr.wf, isEngine, decide_eq_true_eq] at h; simp [partitions, squares, engines]; omega
theorem pawnFtox (n : Nat) : Statement (.pawnFtox n) := by
  intro h; simp only [Instr.wf, isEngine, decide_eq_true_eq] at h; simp [partitions, squares, engines]; omega
theorem pawnXtof (n : Nat) : Statement (.pawnXtof n) := by
  intro h; simp only [Instr.wf, isEngine, decide_eq_true_eq] at h; simp [partitions, squares, engines]; omega
theorem pawnCrc (n : Nat) : Statement (.pawnCrc n) := by
  intro h; simp only [Instr.wf, isEngine, decide_eq_true_eq] at h; simp [partitions, squares, engines]; omega
theorem pawnCrcb (n : Nat) : Statement (.pawnCrcb n) := by
  intro h; simp only [Instr.wf, isEngine, decide_eq_true_eq] at h; simp [partitions, squares, engines]; omega
theorem pawnAlv (n : Nat) : Statement (.pawnAlv n) := by
  intro h; simp only [Instr.wf, isEngine, decide_eq_true_eq] at h; simp [partitions, squares, engines]; omega
theorem pawnAlvd (n : Nat) : Statement (.pawnAlvd n) := by
  intro h; simp only [Instr.wf, isEngine, decide_eq_true_eq] at h; simp [partitions, squares, engines]; omega
theorem pawnSwr (n : Nat) : Statement (.pawnSwr n) := by
  intro h; simp only [Instr.wf, isEngine, decide_eq_true_eq] at h; simp [partitions, squares, engines]; omega
theorem pawnEmit (n : Nat) : Statement (.pawnEmit n) := by
  intro h; simp only [Instr.wf, isEngine, decide_eq_true_eq] at h; simp [partitions, squares, engines]; omega
theorem pawnSend (n : Nat) : Statement (.pawnSend n) := by
  intro h; simp only [Instr.wf, isEngine, decide_eq_true_eq] at h; simp [partitions, squares, engines]; omega
theorem pawnTstart (n : Nat) : Statement (.pawnTstart n) := by
  intro h; simp only [Instr.wf, isEngine, decide_eq_true_eq] at h; simp [partitions, squares, engines]; omega
theorem pawnTstop (n : Nat) : Statement (.pawnTstop n) := by
  intro h; simp only [Instr.wf, isEngine, decide_eq_true_eq] at h; simp [partitions, squares, engines]; omega
theorem copyLaunchGrant (idx : Nat) : Statement (.copyLaunchGrant idx) := by
  intro _; simp [partitions, squares, engines]
theorem cellArriveResequencer (j : Nat) (x : CellRead) : Statement (.cellArriveResequencer j x) := by
  intro _; simp [partitions, squares, engines]
theorem reseqTimeout (idx : Nat) (o : Nat) (cls : Nat) : Statement (.reseqTimeout idx o cls) := by
  intro _; simp [partitions, squares, engines]
theorem agerScan : Statement (.agerScan) := by
  intro _; simp [partitions, squares, engines]
theorem holdReclaim : Statement (.holdReclaim) := by
  intro _; simp [partitions, squares, engines]
theorem bufSplitWrite (k : Nat) (v : Word) (be : Nat) : Statement (.bufSplitWrite k v be) := by
  intro h; simp only [Instr.wf, isPart, Bool.and_eq_true, decide_eq_true_eq] at h; simp [partitions, squares, engines]; omega
theorem adjItemCompare (point : Nat) (loc : Nat) (cls : Nat) (x : ItemCheck) (drive : Bool) : Statement (.adjItemCompare point loc cls x drive) := by
  intro _; simp [partitions, squares, engines]
theorem adjDecision : Statement (.adjDecision) := by
  intro _; simp [partitions, squares, engines]
theorem switchoverGapEnd : Statement (.switchoverGapEnd) := by
  intro _; simp [partitions, squares, engines]
theorem diagDone (wBad : Nat) (bBad : Nat) : Statement (.diagDone wBad bBad) := by
  intro _; simp [partitions, squares, engines]
theorem tableSweep (x : Nat) (bad : Nat) : Statement (.tableSweep x bad) := by
  intro _; simp [partitions, squares, engines]
theorem sweepNow (k : Nat) (x : Nat) (v : Word) (bad : Nat) : Statement (.sweepNow k x v bad) := by
  intro h; simp only [Instr.wf, isPart, Bool.and_eq_true, decide_eq_true_eq] at h; simp [partitions, squares, engines]; omega
theorem plCtrlReset (k : Nat) (x : Nat) (v : Word) : Statement (.plCtrlReset k x v) := by
  intro h; simp only [Instr.wf, isPart, Bool.and_eq_true, decide_eq_true_eq] at h; simp [partitions, squares, engines]; omega
theorem reint (k : Nat) (v : Word) : Statement (.reint k v) := by
  intro h; simp only [Instr.wf, isPart, decide_eq_true_eq] at h; simp [partitions, squares, engines]; omega
theorem reintAutoStart : Statement (.reintAutoStart) := by
  intro _; simp [partitions, squares, engines]
theorem reintWipeDone (u : Nat) (bad : Nat) : Statement (.reintWipeDone u bad) := by
  intro _; simp [partitions, squares, engines]
theorem reintCopyDone : Statement (.reintCopyDone) := by
  intro _; simp [partitions, squares, engines]
theorem reintCopyTimeout : Statement (.reintCopyTimeout) := by
  intro _; simp [partitions, squares, engines]
theorem reintSnapshotDone : Statement (.reintSnapshotDone) := by
  intro _; simp [partitions, squares, engines]
theorem reintJoinDone : Statement (.reintJoinDone) := by
  intro _; simp [partitions, squares, engines]
theorem proofSwapDue : Statement (.proofSwapDue) := by
  intro _; simp [partitions, squares, engines]
theorem swap (k : Nat) (v : Word) : Statement (.swap k v) := by
  intro h; simp only [Instr.wf, isPart, decide_eq_true_eq] at h; simp [partitions, squares, engines]; omega
theorem proofSwapResume : Statement (.proofSwapResume) := by
  intro _; simp [partitions, squares, engines]
theorem txnBegin (w : Nat) (k : Nat) : Statement (.txnBegin w k) := by
  intro h; simp only [Instr.wf, isPart, Bool.and_eq_true, decide_eq_true_eq] at h; simp [partitions, squares, engines]; omega
theorem txnCommitImmediate (w : Nat) (k : Nat) : Statement (.txnCommitImmediate w k) := by
  intro h; simp only [Instr.wf, isPart, Bool.and_eq_true, decide_eq_true_eq] at h; simp [partitions, squares, engines]; omega
theorem txnCommitNextBoundary (w : Nat) (k : Nat) : Statement (.txnCommitNextBoundary w k) := by
  intro h; simp only [Instr.wf, isPart, Bool.and_eq_true, decide_eq_true_eq] at h; simp [partitions, squares, engines]; omega
theorem txnCommitAtTime (w : Nat) (k : Nat) : Statement (.txnCommitAtTime w k) := by
  intro h; simp only [Instr.wf, isPart, Bool.and_eq_true, decide_eq_true_eq] at h; simp [partitions, squares, engines]; omega
theorem txnRollback (w : Nat) (k : Nat) : Statement (.txnRollback w k) := by
  intro h; simp only [Instr.wf, isPart, Bool.and_eq_true, decide_eq_true_eq] at h; simp [partitions, squares, engines]; omega
theorem txnBadCmd (w : Nat) (k : Nat) (v : Word) : Statement (.txnBadCmd w k v) := by
  intro h; simp only [Instr.wf, isPart, Bool.and_eq_true, decide_eq_true_eq] at h; simp [partitions, squares, engines]; omega
theorem txnJournalWrite (k : Nat) (bar2 : Bool) (addr : Nat) (v : Word64) (be : Nat) (ecc : Nat) : Statement (.txnJournalWrite k bar2 addr v be ecc) := by
  intro h; simp only [Instr.wf, isPart, Bool.and_eq_true, decide_eq_true_eq] at h; simp [partitions, squares, engines]; omega
theorem epochSwitch : Statement (.epochSwitch) := by
  intro _; simp [partitions, squares, engines]
theorem oldEpochRetire : Statement (.oldEpochRetire) := by
  intro _; simp [partitions, squares, engines]
theorem txnAutoAbort (k : Nat) : Statement (.txnAutoAbort k) := by
  intro _; simp [partitions, squares, engines]
theorem castleLoad (w : Nat) (k : Nat) : Statement (.castleLoad w k) := by
  intro h; simp only [Instr.wf, isPart, Bool.and_eq_true, decide_eq_true_eq] at h; simp [partitions, squares, engines]; omega
theorem castleWrap (w : Nat) (k : Nat) : Statement (.castleWrap w k) := by
  intro h; simp only [Instr.wf, isPart, Bool.and_eq_true, decide_eq_true_eq] at h; simp [partitions, squares, engines]; omega
theorem castleImport (w : Nat) (k : Nat) : Statement (.castleImport w k) := by
  intro h; simp only [Instr.wf, isPart, Bool.and_eq_true, decide_eq_true_eq] at h; simp [partitions, squares, engines]; omega
theorem castleGenerate (w : Nat) (k : Nat) : Statement (.castleGenerate w k) := by
  intro h; simp only [Instr.wf, isPart, Bool.and_eq_true, decide_eq_true_eq] at h; simp [partitions, squares, engines]; omega
theorem castleUnload (w : Nat) (k : Nat) : Statement (.castleUnload w k) := by
  intro h; simp only [Instr.wf, isPart, Bool.and_eq_true, decide_eq_true_eq] at h; simp [partitions, squares, engines]; omega
theorem castleErase (w : Nat) (k : Nat) : Statement (.castleErase w k) := by
  intro h; simp only [Instr.wf, isPart, Bool.and_eq_true, decide_eq_true_eq] at h; simp [partitions, squares, engines]; omega
theorem castlePubkey (w : Nat) (k : Nat) : Statement (.castlePubkey w k) := by
  intro h; simp only [Instr.wf, isPart, Bool.and_eq_true, decide_eq_true_eq] at h; simp [partitions, squares, engines]; omega
theorem castleStore (w : Nat) (k : Nat) : Statement (.castleStore w k) := by
  intro h; simp only [Instr.wf, isPart, Bool.and_eq_true, decide_eq_true_eq] at h; simp [partitions, squares, engines]; omega
theorem castleUnstore (w : Nat) (k : Nat) : Statement (.castleUnstore w k) := by
  intro h; simp only [Instr.wf, isPart, Bool.and_eq_true, decide_eq_true_eq] at h; simp [partitions, squares, engines]; omega
theorem castleClearResign (w : Nat) (k : Nat) : Statement (.castleClearResign w k) := by
  intro h; simp only [Instr.wf, isPart, Bool.and_eq_true, decide_eq_true_eq] at h; simp [partitions, squares, engines]; omega
theorem castleRootRetry (w : Nat) (k : Nat) (good : Bool) : Statement (.castleRootRetry w k good) := by
  intro h; simp only [Instr.wf, isPart, Bool.and_eq_true, decide_eq_true_eq] at h; simp [partitions, squares, engines]; omega
theorem castleCommandDone (k : Nat) : Statement (.castleCommandDone k) := by
  intro h; simp only [Instr.wf, isPart, decide_eq_true_eq] at h; simp [partitions, squares, engines]; omega
theorem slotRemask (n : Nat) : Statement (.slotRemask n) := by
  intro _; simp [partitions, squares, engines]
theorem rngFail : Statement (.rngFail) := by
  intro _; simp [partitions, squares, engines]
theorem tamperSensorFire (n : Nat) (x : TamperReading) : Statement (.tamperSensorFire n x) := by
  intro _; simp [partitions, squares, engines]
theorem sleepLatchWrite (k : Nat) (v : Word) (be : Nat) : Statement (.sleepLatchWrite k v be) := by
  intro h; simp only [Instr.wf, isPart, Bool.and_eq_true, decide_eq_true_eq] at h; simp [partitions, squares, engines]; omega
theorem autoloadDeferred : Statement (.autoloadDeferred) := by
  intro _; simp [partitions, squares, engines]
theorem cxDescriptorFetch (k : Nat) (desc : List Byte) (segs : List (Nat × Nat × List Byte)) (err : Bool) : Statement (.cxDescriptorFetch k desc segs err) := by
  intro _; simp [partitions, squares, engines]
theorem jrTailWrite (w : Nat) (k : Nat) (v : Word) (be : Nat) : Statement (.jrTailWrite w k v be) := by
  intro h; simp only [Instr.wf, isPart, Bool.and_eq_true, decide_eq_true_eq] at h; simp [partitions, squares, engines]; omega
theorem gcmEncrypt : Statement (.gcmEncrypt) := by
  intro _; simp [partitions, squares, engines]
theorem gcmDecrypt : Statement (.gcmDecrypt) := by
  intro _; simp [partitions, squares, engines]
theorem gmacGenerate : Statement (.gmacGenerate) := by
  intro _; simp [partitions, squares, engines]
theorem gmacVerify : Statement (.gmacVerify) := by
  intro _; simp [partitions, squares, engines]
theorem ccmEncrypt : Statement (.ccmEncrypt) := by
  intro _; simp [partitions, squares, engines]
theorem ccmDecrypt : Statement (.ccmDecrypt) := by
  intro _; simp [partitions, squares, engines]
theorem cmacGenerate : Statement (.cmacGenerate) := by
  intro _; simp [partitions, squares, engines]
theorem cmacVerify : Statement (.cmacVerify) := by
  intro _; simp [partitions, squares, engines]
theorem shake256 : Statement (.shake256) := by
  intro _; simp [partitions, squares, engines]
theorem ed448Sign : Statement (.ed448Sign) := by
  intro _; simp [partitions, squares, engines]
theorem ed448Verify : Statement (.ed448Verify) := by
  intro _; simp [partitions, squares, engines]
theorem attest : Statement (.attest) := by
  intro _; simp [partitions, squares, engines]
theorem sealJob : Statement (.sealJob) := by
  intro _; simp [partitions, squares, engines]
theorem verifyJob : Statement (.verifyJob) := by
  intro _; simp [partitions, squares, engines]
theorem cxJobDone (id : Nat) (dma : Nat) : Statement (.cxJobDone id dma) := by
  intro _; simp [partitions, squares, engines]
theorem scrubRead (m : Nat) (addr : Nat) (res : Nat) (last : Bool) : Statement (.scrubRead m addr res last) := by
  intro _; simp [partitions, squares, engines]
theorem bucketLeak (m : Nat) : Statement (.bucketLeak m) := by
  intro _; simp [partitions, squares, engines]
theorem retireGo (k : Nat) (v : Word) : Statement (.retireGo k v) := by
  intro h; simp only [Instr.wf, isPart, decide_eq_true_eq] at h; simp [partitions, squares, engines]; omega
theorem allocRetireComplete : Statement (.allocRetireComplete) := by
  intro _; simp [partitions, squares, engines]
theorem bistRun (k : Nat) (v : Word) (bad : Nat) : Statement (.bistRun k v bad) := by
  intro h; simp only [Instr.wf, isPart, decide_eq_true_eq] at h; simp [partitions, squares, engines]; omega
theorem retInit (k : Nat) (v : Word) : Statement (.retInit k v) := by
  intro _; simp [partitions, squares, engines]
theorem arbCoreMismatch : Statement (.arbCoreMismatch) := by
  intro _; simp [partitions, squares, engines]
theorem arbWatchdogExpiry : Statement (.arbWatchdogExpiry) := by
  intro _; simp [partitions, squares, engines]
theorem restart (k : Nat) (v : Word) : Statement (.restart k v) := by
  intro h; simp only [Instr.wf, isPart, decide_eq_true_eq] at h; simp [partitions, squares, engines]; omega
theorem arbRestartDone (okA : Bool) (okB : Bool) : Statement (.arbRestartDone okA okB) := by
  intro _; simp [partitions, squares, engines]
theorem arbPing (w : Nat) (k : Nat) : Statement (.arbPing w k) := by
  intro h; simp only [Instr.wf, isPart, Bool.and_eq_true, decide_eq_true_eq] at h; simp [partitions, squares, engines]; omega
theorem arbFlush (w : Nat) (k : Nat) : Statement (.arbFlush w k) := by
  intro h; simp only [Instr.wf, isPart, Bool.and_eq_true, decide_eq_true_eq] at h; simp [partitions, squares, engines]; omega
theorem arbArchRead (w : Nat) (k : Nat) : Statement (.arbArchRead w k) := by
  intro h; simp only [Instr.wf, isPart, Bool.and_eq_true, decide_eq_true_eq] at h; simp [partitions, squares, engines]; omega
theorem arbEyeScan (w : Nat) (k : Nat) : Statement (.arbEyeScan w k) := by
  intro h; simp only [Instr.wf, isPart, Bool.and_eq_true, decide_eq_true_eq] at h; simp [partitions, squares, engines]; omega
theorem arbMka (w : Nat) (k : Nat) : Statement (.arbMka w k) := by
  intro h; simp only [Instr.wf, isPart, Bool.and_eq_true, decide_eq_true_eq] at h; simp [partitions, squares, engines]; omega
theorem arbCommandDone (k : Nat) (eye : Nat) : Statement (.arbCommandDone k eye) := by
  intro h; simp only [Instr.wf, isPart, decide_eq_true_eq] at h; simp [partitions, squares, engines]; omega
theorem sensSample (ch : Nat) (val : Nat) : Statement (.sensSample ch val) := by
  intro _; simp [partitions, squares, engines]
theorem eyeScanPeriodic (eyes : List Nat) : Statement (.eyeScanPeriodic eyes) := by
  intro _; simp [partitions, squares, engines]
theorem scoreEntryWrite : Statement (.scoreEntryWrite) := by
  intro _; simp [partitions, squares, engines]
theorem scoreFlush : Statement (.scoreFlush) := by
  intro _; simp [partitions, squares, engines]
theorem ent7Read (k : Nat) (seen : Bool) : Statement (.ent7Read k seen) := by
  intro h; simp only [Instr.wf, isPart, decide_eq_true_eq] at h; simp [partitions, squares, engines]; omega
theorem functionLevelReset (k : Nat) : Statement (.functionLevelReset k) := by
  intro h; simp only [Instr.wf, isPart, decide_eq_true_eq] at h; simp [partitions, squares, engines]; omega
theorem perstAssert (k : Nat) : Statement (.perstAssert k) := by
  intro h; simp only [Instr.wf, isPart, decide_eq_true_eq] at h; simp [partitions, squares, engines]; omega
theorem hdmaTxTailWrite (w : Nat) (k : Nat) (t : Nat) (v : Word) (be : Nat) : Statement (.hdmaTxTailWrite w k t v be) := by
  intro h; simp only [Instr.wf, isPart, Bool.and_eq_true, decide_eq_true_eq] at h; simp [partitions, squares, engines]; omega
theorem hdmaTxFetch (k : Nat) (desc : List Byte) (rec : List Byte) (err : Bool) : Statement (.hdmaTxFetch k desc rec err) := by
  intro h; simp only [Instr.wf, isPart, decide_eq_true_eq] at h; simp [partitions, squares, engines]; omega
theorem hdmaRxDeliver (p : Nat) (desc : List Byte) : Statement (.hdmaRxDeliver p desc) := by
  intro h; simp only [Instr.wf, isPart, decide_eq_true_eq] at h; simp [partitions, squares, engines]; omega
theorem rxIrqTimer (k : Nat) (r : Nat) : Statement (.rxIrqTimer k r) := by
  intro h; simp only [Instr.wf, isPart, Bool.and_eq_true, decide_eq_true_eq] at h; simp [partitions, squares, engines]; omega
theorem bar4Read (k : Nat) (off : Nat) (len : Nat) : Statement (.bar4Read k off len) := by
  intro h; simp only [Instr.wf, isPart, Bool.and_eq_true, decide_eq_true_eq] at h; simp [partitions, squares, engines]; omega
theorem bar4Write (k : Nat) (off : Nat) (d : List Byte) : Statement (.bar4Write k off d) := by
  intro h; simp only [Instr.wf, isPart, Bool.and_eq_true, decide_eq_true_eq] at h; simp [partitions, squares, engines]; omega
theorem bar4AtomicOp (k : Nat) (off : Nat) (op : Nat) (size : Nat) (a : Nat) (b : Nat) : Statement (.bar4AtomicOp k off op size a b) := by
  intro h; simp only [Instr.wf, isPart, Bool.and_eq_true, decide_eq_true_eq] at h; simp [partitions, squares, engines]; omega
theorem bnlResponseReceived : Statement (.bnlResponseReceived) := by
  intro _; simp [partitions, squares, engines]
theorem bridgeTagTimeout (w : Nat) (t : Nat) : Statement (.bridgeTagTimeout w t) := by
  intro _; simp [partitions, squares, engines]
theorem bridgeBusyRetry (w : Nat) (t : Nat) : Statement (.bridgeBusyRetry w t) := by
  intro _; simp [partitions, squares, engines]
theorem semAcquireRead (k : Nat) (w : Nat) (seen : Bool) : Statement (.semAcquireRead k w seen) := by
  intro h; simp only [Instr.wf, isPart, Bool.and_eq_true, decide_eq_true_eq] at h; simp [partitions, squares, engines]; omega
theorem semRelease (k : Nat) (w : Nat) : Statement (.semRelease k w) := by
  intro h; simp only [Instr.wf, isPart, Bool.and_eq_true, decide_eq_true_eq] at h; simp [partitions, squares, engines]; omega
theorem semLeaseRenew (w : Nat) : Statement (.semLeaseRenew w) := by
  intro _; simp [partitions, squares, engines]
theorem semHoldTimeout (w : Nat) : Statement (.semHoldTimeout w) := by
  intro _; simp [partitions, squares, engines]
theorem werrPop (k : Nat) (seen : Bool) : Statement (.werrPop k seen) := by
  intro h; simp only [Instr.wf, isPart, decide_eq_true_eq] at h; simp [partitions, squares, engines]; omega
theorem bnlMessageReceived : Statement (.bnlMessageReceived) := by
  intro _; simp [partitions, squares, engines]
theorem bnlArbCmd (eye : Nat) : Statement (.bnlArbCmd eye) := by
  intro _; simp [partitions, squares, engines]
theorem bnlCxJob : Statement (.bnlCxJob) := by
  intro _; simp [partitions, squares, engines]
theorem bnlGambit : Statement (.bnlGambit) := by
  intro _; simp [partitions, squares, engines]
theorem bnlScoreRead : Statement (.bnlScoreRead) := by
  intro _; simp [partitions, squares, engines]
theorem bnlRead (seen : Bool) (ue : Bool) : Statement (.bnlRead seen ue) := by
  intro _; simp [partitions, squares, engines]
theorem bnlWrite (ecc : Nat) (env : WriteEnv) : Statement (.bnlWrite ecc env) := by
  intro _; simp [partitions, squares, engines]
theorem bnlLock : Statement (.bnlLock) := by
  intro _; simp [partitions, squares, engines]
theorem bnlUnlock : Statement (.bnlUnlock) := by
  intro _; simp [partitions, squares, engines]
theorem leaseExpiry : Statement (.leaseExpiry) := by
  intro _; simp [partitions, squares, engines]
theorem bnlKeyWrite (w : Nat) (x : Nat) (v : Word) (be : Nat) : Statement (.bnlKeyWrite w x v be) := by
  intro h; simp only [Instr.wf, isPart, Bool.and_eq_true, decide_eq_true_eq] at h; simp [partitions, squares, engines]; omega
theorem txSelWrite (w : Nat) (v : Word) (be : Nat) : Statement (.txSelWrite w v be) := by
  intro h; simp only [Instr.wf, isPart, Bool.and_eq_true, decide_eq_true_eq] at h; simp [partitions, squares, engines]; omega
theorem peerCfgWrite (w : Nat) (n : Nat) (v : Word) (be : Nat) : Statement (.peerCfgWrite w n v be) := by
  intro h; simp only [Instr.wf, isPart, Bool.and_eq_true, decide_eq_true_eq] at h; simp [partitions, squares, engines]; omega
theorem gambitStage (w : Nat) (k : Nat) : Statement (.gambitStage w k) := by
  intro h; simp only [Instr.wf, isPart, Bool.and_eq_true, decide_eq_true_eq] at h; simp [partitions, squares, engines]; omega
theorem gambitChunk (w : Nat) (k : Nat) : Statement (.gambitChunk w k) := by
  intro h; simp only [Instr.wf, isPart, Bool.and_eq_true, decide_eq_true_eq] at h; simp [partitions, squares, engines]; omega
theorem gambitActivate (w : Nat) (k : Nat) : Statement (.gambitActivate w k) := by
  intro h; simp only [Instr.wf, isPart, Bool.and_eq_true, decide_eq_true_eq] at h; simp [partitions, squares, engines]; omega
theorem gambitConfirm (w : Nat) (k : Nat) : Statement (.gambitConfirm w k) := by
  intro h; simp only [Instr.wf, isPart, Bool.and_eq_true, decide_eq_true_eq] at h; simp [partitions, squares, engines]; omega
theorem gambitAbandon (w : Nat) (k : Nat) : Statement (.gambitAbandon w k) := by
  intro h; simp only [Instr.wf, isPart, Bool.and_eq_true, decide_eq_true_eq] at h; simp [partitions, squares, engines]; omega
theorem gambitApplyRetry : Statement (.gambitApplyRetry) := by
  intro _; simp [partitions, squares, engines]
theorem trialWindowExpiry : Statement (.trialWindowExpiry) := by
  intro _; simp [partitions, squares, engines]
theorem flashDeviceFail (whole : Bool) : Statement (.flashDeviceFail whole) := by
  intro _; simp [partitions, squares, engines]
theorem pwrPlay (w : Nat) : Statement (.pwrPlay w) := by
  intro h; simp only [Instr.wf, isPart, decide_eq_true_eq] at h; simp [partitions, squares, engines]; omega
theorem pwrQuiet (w : Nat) : Statement (.pwrQuiet w) := by
  intro h; simp only [Instr.wf, isPart, decide_eq_true_eq] at h; simp [partitions, squares, engines]; omega
theorem pwrAdjournedWarm (w : Nat) : Statement (.pwrAdjournedWarm w) := by
  intro h; simp only [Instr.wf, isPart, decide_eq_true_eq] at h; simp [partitions, squares, engines]; omega
theorem pwrAdjournedCold (w : Nat) : Statement (.pwrAdjournedCold w) := by
  intro h; simp only [Instr.wf, isPart, decide_eq_true_eq] at h; simp [partitions, squares, engines]; omega
theorem adjournedEntryDone (upTo : Nat) : Statement (.adjournedEntryDone upTo) := by
  intro _; simp [partitions, squares, engines]
theorem wakeEvent (env : StartEnv) : Statement (.wakeEvent env) := by
  intro _; simp [partitions, squares, engines]
theorem wakeCanRule (q : Nat) (f : CanFrame) (bad : Bool) : Statement (.wakeCanRule q f bad) := by
  intro h; simp only [Instr.wf, isCan, Bool.and_eq_true, decide_eq_true_eq] at h; simp [partitions, squares, engines]; omega
theorem wakeT1sRule (q : Nat) (b : List Byte) : Statement (.wakeT1sRule q b) := by
  intro h; simp only [Instr.wf, isT1s, Bool.and_eq_true, decide_eq_true_eq] at h; simp [partitions, squares, engines]; omega
theorem wakeT1sEnergy (q : Nat) : Statement (.wakeT1sEnergy q) := by
  intro h; simp only [Instr.wf, isT1s, Bool.and_eq_true, decide_eq_true_eq] at h; simp [partitions, squares, engines]; omega
theorem wakeEthPattern (q : Nat) (b : List Byte) : Statement (.wakeEthPattern q b) := by
  intro h; simp only [Instr.wf, isEth, Bool.and_eq_true, decide_eq_true_eq] at h; simp [partitions, squares, engines]; omega
theorem wakeSignalDetect (q : Nat) : Statement (.wakeSignalDetect q) := by
  intro h; simp only [Instr.wf, isSerdes, Bool.and_eq_true, decide_eq_true_eq] at h; simp [partitions, squares, engines]; omega
theorem wakeGpioEdge (n : Nat) (rising : Bool) : Statement (.wakeGpioEdge n rising) := by
  intro _; simp [partitions, squares, engines]
theorem wakeHostSideband (k : Nat) : Statement (.wakeHostSideband k) := by
  intro h; simp only [Instr.wf, isPart, decide_eq_true_eq] at h; simp [partitions, squares, engines]; omega
theorem wakeRcStart : Statement (.wakeRcStart) := by
  intro _; simp [partitions, squares, engines]
theorem wakeRcIdleStop : Statement (.wakeRcIdleStop) := by
  intro _; simp [partitions, squares, engines]
theorem bookHandover : Statement (.bookHandover) := by
  intro _; simp [partitions, squares, engines]
theorem bookLate : Statement (.bookLate) := by
  intro _; simp [partitions, squares, engines]
theorem powerOnReset (env : StartEnv) : Statement (.powerOnReset env) := by
  intro _; simp [partitions, squares, engines]
theorem resetNAssert : Statement (.resetNAssert) := by
  intro _; simp [partitions, squares, engines]
theorem rstCmd (w : Nat) (v : Word) (env : StartEnv) : Statement (.rstCmd w v env) := by
  intro h; simp only [Instr.wf, isPart, decide_eq_true_eq] at h; simp [partitions, squares, engines]; omega
theorem brownout : Statement (.brownout) := by
  intro _; simp [partitions, squares, engines]
theorem brownoutRelease (env : StartEnv) : Statement (.brownoutRelease env) := by
  intro _; simp [partitions, squares, engines]
theorem blkRst (w : Nat) (v : Word) : Statement (.blkRst w v) := by
  intro h; simp only [Instr.wf, isPart, decide_eq_true_eq] at h; simp [partitions, squares, engines]; omega
theorem refclkLoss (r : Nat) : Statement (.refclkLoss r) := by
  intro _; simp [partitions, squares, engines]
theorem refclkRevert : Statement (.refclkRevert) := by
  intro _; simp [partitions, squares, engines]
theorem refCtrlWrite (w : Nat) (v : Word) (be : Nat) : Statement (.refCtrlWrite w v be) := by
  intro h; simp only [Instr.wf, isPart, Bool.and_eq_true, decide_eq_true_eq] at h; simp [partitions, squares, engines]; omega
theorem lcProvisioned (w : Nat) (env : StartEnv) : Statement (.lcProvisioned w env) := by
  intro h; simp only [Instr.wf, isPart, decide_eq_true_eq] at h; simp [partitions, squares, engines]; omega
theorem lcField (w : Nat) (env : StartEnv) : Statement (.lcField w env) := by
  intro h; simp only [Instr.wf, isPart, decide_eq_true_eq] at h; simp [partitions, squares, engines]; omega
theorem lcReturn (w : Nat) (env : StartEnv) : Statement (.lcReturn w env) := by
  intro h; simp only [Instr.wf, isPart, decide_eq_true_eq] at h; simp [partitions, squares, engines]; omega
theorem lcDecommissioned (w : Nat) (env : StartEnv) : Statement (.lcDecommissioned w env) := by
  intro h; simp only [Instr.wf, isPart, decide_eq_true_eq] at h; simp [partitions, squares, engines]; omega
theorem testModeHigh (high : Bool) (env : StartEnv) : Statement (.testModeHigh high env) := by
  intro _; simp [partitions, squares, engines]
theorem jtagTrst : Statement (.jtagTrst) := by
  intro _; simp [partitions, squares, engines]
theorem jtagBypass : Statement (.jtagBypass) := by
  intro _; simp [partitions, squares, engines]
theorem jtagSamplePreload (bits : List Bool) : Statement (.jtagSamplePreload bits) := by
  intro _; simp [partitions, squares, engines]
theorem jtagExtest : Statement (.jtagExtest) := by
  intro _; simp [partitions, squares, engines]
theorem jtagIdcode : Statement (.jtagIdcode) := by
  intro _; simp [partitions, squares, engines]
theorem jtagClamp : Statement (.jtagClamp) := by
  intro _; simp [partitions, squares, engines]
theorem jtagHighz : Statement (.jtagHighz) := by
  intro _; simp [partitions, squares, engines]
theorem pcieLinkUp (k : Nat) (width : Nat) (speed : Nat) : Statement (.pcieLinkUp k width speed) := by
  intro h; simp only [Instr.wf, isPart, decide_eq_true_eq] at h; simp [partitions, squares, engines]; omega
theorem dlDown (k : Nat) : Statement (.dlDown k) := by
  intro h; simp only [Instr.wf, isPart, decide_eq_true_eq] at h; simp [partitions, squares, engines]; omega
theorem stuckClear (q : Nat) : Statement (.stuckClear q) := by
  intro h; simp only [Instr.wf, isCan, decide_eq_true_eq] at h; simp [partitions, squares, engines]; omega
theorem resetNRelease (env : StartEnv) : Statement (.resetNRelease env) := by
  intro _; simp [partitions, squares, engines]
theorem perstNRelease (k : Nat) : Statement (.perstNRelease k) := by
  intro h; simp only [Instr.wf, isPart, decide_eq_true_eq] at h; simp [partitions, squares, engines]; omega
theorem vddAoLoss : Statement (.vddAoLoss) := by
  intro _; simp [partitions, squares, engines]
theorem refclkReturn (r : Nat) : Statement (.refclkReturn r) := by
  intro _; simp [partitions, squares, engines]
theorem actDone (good : Bool) (env : StartEnv) : Statement (.actDone good env) := by
  intro _; simp [partitions, squares, engines]

end Sys2Proof.Laws.Operands
end

