-- ==== Sys2Proof/Laws/Start.lean ====
section
/-! SUPPORT. What a start with no firmware that verifies leaves: the core runs. -/

namespace Sys2Proof.Machine
theorem Chip.foldl_keeps {α β : Type} (p : Chip → β) (f : Chip → α → Chip) (h : ∀ c x, p (f c x) = p c) (l : List α) (c : Chip) :
    p (l.foldl f c) = p c := by
  induction l generalizing c with
  | nil => rfl
  | cons x l ih => rw [List.foldl_cons, ih, h]

/-- The mode and the autoload list: what the witness of a start needs. -/
def Chip.startView (c : Chip) : PowerMode × List (Nat × List Byte) := (c.power.mode, c.castle.autoload)

theorem Chip.startView_of {c d : Chip} (h1 : d.power = c.power) (h2 : d.castle = c.castle) : Chip.startView d = Chip.startView c := by simp [Chip.startView, h1, h2]
@[simp] theorem Chip.startView_setReg (c : Chip) (a : Nat) (v : Word) : Chip.startView (c.setReg a v) = Chip.startView c := rfl
@[simp] theorem Chip.startView_setFldOf (c : Chip) (a h l n : Nat) : Chip.startView (c.setFldOf a h l n) = Chip.startView c := rfl
@[simp] theorem Chip.startView_setBitOf (c : Chip) (a n : Nat) (b : Bool) : Chip.startView (c.setBitOf a n b) = Chip.startView c := rfl
@[simp] theorem Chip.startView_advanceFree (c : Chip) : Chip.startView c.advanceFree = Chip.startView c := rfl
@[simp] theorem Chip.startView_emit (c : Chip) (o : Out) : Chip.startView (c.emit o) = Chip.startView c := rfl
@[simp] theorem Chip.startView_raise (c : Chip) (p b : Nat) : Chip.startView (c.raise p b) = Chip.startView c := Chip.startView_of (by simp) (by simp)
@[simp] theorem Chip.startView_setAlarm (c : Chip) (b : Nat) : Chip.startView (c.setAlarm b) = Chip.startView c := Chip.startView_of (by simp) (by simp)
@[simp] theorem Chip.startView_alarmLevel (c : Chip) : Chip.startView c.alarmLevel = Chip.startView c := Chip.startView_of (by simp) (by simp)
@[simp] theorem Chip.startView_scoreLog (c : Chip) (code sev page : Nat) (d : List Byte) : Chip.startView (c.scoreLog code sev page d) = Chip.startView c := Chip.startView_of (by simp [Chip.scoreLog]) (by simp [Chip.scoreLog])
@[simp] theorem Chip.startView_ite (p : Prop) [Decidable p] (c d : Chip) : Chip.startView (if p then c else d) = if p then Chip.startView c else Chip.startView d := by split <;> rfl
@[simp] theorem Chip.startView_setRoot (c : Chip) (n : Nat) : Chip.startView (c.setRoot n) = Chip.startView c := rfl
@[simp] theorem Chip.startView_setPair (c : Chip) (l h n : Nat) : Chip.startView (c.setPair l h n) = Chip.startView c := rfl
@[simp] theorem Chip.startView_showId (c : Chip) (p : List Byte) : Chip.startView (c.showId p) = Chip.startView c := by
  simp only [Chip.showId, Chip.startView_setReg]
  exact Chip.foldl_keeps Chip.startView _ (fun c j => Chip.startView_setReg c _ _) _ _
@[simp] theorem Chip.startView_drawChal (c : Chip) : Chip.startView c.drawChal = Chip.startView c := by
  exact (Chip.foldl_keeps Chip.startView _ (fun c j => Chip.startView_setReg c _ _) _ _).trans (Chip.startView_advanceFree c)
@[simp] theorem Chip.startView_fuseMany (c : Chip) (n : Nat) : Chip.startView (c.fuseMany n) = Chip.startView c := by
  induction n generalizing c with
  | zero => rfl
  | succ n ih => rw [Chip.fuseMany, ih]; rfl
theorem Chip.startView_regenerate (c : Chip) : Chip.startView (c.regenerate false) = Chip.startView c := by
  have : Chip.startView (c.setCastle { c.castle with slots := [], root := none, rngBad := false }) = Chip.startView c := rfl
  simp [Chip.regenerate, this]
theorem Chip.bootFirmware_none (c : Chip) : c.bootFirmware { fwA := false, fwB := false, rootGood := false } = none := by
  simp [Chip.bootFirmware, Chip.chooseFirmware]
theorem Chip.startView_bootRoot (c : Chip) : Chip.startView (c.bootRoot { fwA := false, fwB := false, rootGood := false }) = Chip.startView c := by
  simp [Chip.bootRoot, Chip.startView_regenerate]
@[simp] theorem Chip.startView_scoreClear (c : Chip) (n : Nat) : Chip.startView (c.scoreClear n) = Chip.startView c := rfl
theorem Chip.startView_resignMarks (c : Chip) (b : Bool) : Chip.startView (c.resignMarks b) = Chip.startView c := by
  have f : Chip.startView (c.fuseMany c.castle.resignPending) = Chip.startView c := Chip.startView_fuseMany c _
  have m : (c.fuseMany c.castle.resignPending).power.mode = c.power.mode := congrArg (fun x => x.1) f
  have h (d : Chip) (k : CastleState) (hk : k.autoload = d.castle.autoload) : Chip.startView (d.setCastle k) = Chip.startView d := by
    simp [Chip.startView, Chip.setCastle, hk]
  have g : Chip.startView ((c.fuseMany c.castle.resignPending).setCastle { c.castle with resignPending := 0 }) = Chip.startView c := by
    simp [Chip.startView, Chip.setCastle, m]
  unfold Chip.resignMarks
  dsimp only
  generalize hc1 : (if c.castle.resignPending = 0 then _ else _) = c1
  have v : Chip.startView c1 = Chip.startView c := by
    subst hc1
    split
    · exact g
    · rw [Chip.startView_scoreClear, Chip.startView_raise, g]
  split
  · rw [← v]
    rfl
  · exact v
theorem Chip.startView_autoloadAll (d : Chip) (hd : d.castle.autoload = []) : Chip.startView d.autoloadAll = Chip.startView d := by
  unfold Chip.autoloadAll
  split
  · rfl
  · split
    · rfl
    · simp only [hd, List.foldl_nil]
      simp [Chip.startView, Chip.setCastle, hd]
theorem Chip.startView_gambitShow (d : Chip) : Chip.startView d.gambitShow = Chip.startView d := by
  unfold Chip.gambitShow
  dsimp only
  have h (c : Chip) (e : Nat × Nat) : Chip.startView (if e.1 < 64 then c.setReg (Reg.GAMBIT.SVN e.1) (BitVec.ofNat 32 e.2) else c) = Chip.startView c := by
    split
    · exact Chip.startView_setReg _ _ _
    · rfl
  refine (Chip.foldl_keeps Chip.startView _ h _ _).trans ?_
  rw [Chip.startView_setPair, Chip.startView_setReg]
  split
  · rfl
  · rw [Chip.startView_setPair, Chip.startView_setFldOf, Chip.startView_setBitOf, Chip.startView_setBitOf]
theorem Chip.startView_flashProbe (d : Chip) : Chip.startView d.flashProbe = Chip.startView d := by
  unfold Chip.flashProbe
  simp only [Chip.startView_setReg]
theorem Chip.steer_power (c : Chip) : c.steer.power = c.power ∧ c.steer.castle = c.castle ∧ c.steer.otp = c.otp := by
  unfold Chip.steer
  dsimp only
  split <;> exact ⟨rfl, rfl, rfl⟩
theorem Chip.guardResume_power (c : Chip) : c.guardResume.power = c.power ∧ c.guardResume.castle = c.castle ∧ c.guardResume.otp = c.otp := ⟨rfl, rfl, rfl⟩
theorem Chip.startView_resumed (c : Chip) : Chip.startView c.steer.guardResume = Chip.startView c :=
  (Chip.startView_of (Chip.guardResume_power _).1 (Chip.guardResume_power _).2.1).trans (Chip.startView_of (Chip.steer_power c).1 (Chip.steer_power c).2.1)
theorem Chip.startView_restoreTempo (d : Chip) : Chip.startView d.restoreTempo = Chip.startView d := by
  have h (t : TempoState) : Chip.startView { d with tempo := t } = Chip.startView d := rfl
  have g (c : Chip) (n : Nat) : Chip.startView (c.setTempoState n) = Chip.startView c := by
    unfold Chip.setTempoState
    split
    · rfl
    · rw [Chip.startView_raise, Chip.startView_setFldOf]
      rfl
  unfold Chip.restoreTempo
  dsimp only
  rw [Chip.startView_resumed]
  split
  · rw [Chip.startView_setAlarm, Chip.startView_setReg, g, Chip.startView_setFldOf, h]
  · rw [Chip.startView_setReg, g, Chip.startView_setFldOf, h]
/-- A life-cycle transition's wipes are still to come. -/
def Chip.wipePends (c : Chip) : Bool := c.otp.wipePending
theorem Chip.wipePends_of {c d : Chip} (h : d.otp = c.otp) : Chip.wipePends d = Chip.wipePends c := congrArg (fun o : OtpState => o.wipePending) h
theorem Chip.wipePends_restoreTempo (d : Chip) : Chip.wipePends d.restoreTempo = Chip.wipePends d := by
  have h (t : TempoState) : Chip.wipePends { d with tempo := t } = Chip.wipePends d := rfl
  have a (c : Chip) (n : Nat) : Chip.wipePends (c.setAlarm n) = Chip.wipePends c := Chip.wipePends_of (Chip.setAlarm_otp c n)
  have f (c : Chip) (a hi lo n : Nat) : Chip.wipePends (c.setFldOf a hi lo n) = Chip.wipePends c := rfl
  have r (c : Chip) (a : Nat) (v : Word) : Chip.wipePends (c.setReg a v) = Chip.wipePends c := rfl
  have g (c : Chip) (n : Nat) : Chip.wipePends (c.setTempoState n) = Chip.wipePends c := by
    unfold Chip.setTempoState
    split
    · rfl
    · rw [Chip.wipePends_of (Chip.raise_otp _ _ _), f]
      rfl
  unfold Chip.restoreTempo
  dsimp only
  rw [Chip.wipePends_of (Chip.guardResume_power _).2.2, Chip.wipePends_of (Chip.steer_power _).2.2]
  split
  · rw [a, r, g, f, h]
  · rw [r, g, f, h]
theorem Chip.startView_coreRuns (c : Chip) : Chip.startView c.coreRuns = (.play, c.castle.autoload) ∧ c.coreRuns.otp = c.otp := by
  unfold Chip.coreRuns
  dsimp only
  split <;> exact ⟨rfl, rfl⟩
theorem Chip.lcWipe_of_not_pending (c : Chip) (w : Chip.wipePends c = false) : c.lcWipe = c := by
  unfold Chip.lcWipe
  exact if_pos (by rw [show c.otp.wipePending = false from w]; rfl)
/-- No firmware verifies and the root fails: the shortest start. -/
def noFw : StartEnv := { fwA := false, fwB := false, rootGood := false }
theorem Chip.startUp_noFirmware (c : Chip) : c.startUp noFw =
    (Chip.bootRoot noFw (c.coreRuns.restoreTempo.lcWipe.expressEmpty.flashProbe.resignMarks true)).autoloadAll.gambitShow.bootStop 0xF := by
  unfold Chip.startUp
  dsimp only
  rw [show ∀ c : Chip, c.bootFirmware noFw = none from Chip.bootFirmware_none]
theorem Chip.startView_bootStop (c : Chip) : Chip.startView (c.bootStop 0xF) = Chip.startView c := by
  unfold Chip.bootStop Chip.setBoot
  rw [Chip.startView_alarmLevel, Chip.startView_setFldOf]
theorem Chip.startView_loaded (d : Chip) (h : Chip.startView d = (.play, [])) :
    Chip.startView (d.autoloadAll.gambitShow.bootStop 0xF) = (.play, []) := by
  rw [Chip.startView_bootStop, Chip.startView_gambitShow, Chip.startView_autoloadAll d (congrArg (fun x => x.2) h), h]
theorem Chip.startView_rootNoFw (c : Chip) : Chip.startView (Chip.bootRoot noFw c) = Chip.startView c := Chip.startView_bootRoot c
theorem Chip.startView_startUp (c : Chip) (h : c.castle.autoload = []) (w : Chip.wipePends c = false) : Chip.startView (c.startUp noFw) = (.play, []) := by
  have lw : c.coreRuns.restoreTempo.lcWipe = c.coreRuns.restoreTempo :=
    Chip.lcWipe_of_not_pending _ ((Chip.wipePends_restoreTempo _).trans ((Chip.wipePends_of (Chip.startView_coreRuns c).2).trans w))
  rw [Chip.startUp_noFirmware]
  refine Chip.startView_loaded _ ?_
  rw [Chip.startView_rootNoFw, Chip.startView_resignMarks, Chip.startView_flashProbe, show ∀ x : Chip, Chip.startView x.expressEmpty = Chip.startView x from fun _ => rfl, lw, Chip.startView_restoreTempo, (Chip.startView_coreRuns c).1, h]
end Sys2Proof.Machine
end

