-- ==== Sys2Proof/Laws/Writes.lean ====
section
/-! SUPPORT. What a write of a block register comes to: the effect where it is accepted, and each refusal. -/

namespace Sys2Proof.Machine

theorem Chip.isPage_of_implemented {c : Chip} {p : Nat} (h : c.implemented p = true) : ∃ k, pageKind p = some k := by
  cases hk : pageKind p with
  | none => simp [Chip.implemented, hk] at h
  | some k => exact ⟨k, rfl⟩

/-- An accepted write has its effect. -/
theorem Chip.blockWrite_accepts {c : Chip} {k a : Nat} (h : c.accepts k a = true) (v mask : Word) (act : Chip → Chip) :
    c.blockWrite k a v mask act = act c := by
  simp only [Chip.accepts, Bool.and_eq_true] at h
  obtain ⟨⟨⟨⟨h1, h2⟩, h3⟩, h4⟩, h5⟩ := h
  obtain ⟨r, hr⟩ := Option.isSome_iff_exists.mp h2
  obtain ⟨kind, hk⟩ := Chip.isPage_of_implemented h1
  have h6 : c.held (a / 4096) = false := by simpa using h4
  unfold Chip.blockWrite
  simp only [h1, hr, h3, h6, hk, Bool.not_true, Bool.false_eq_true, if_false]
  by_cases hs : isShadow kind = true
  · simp only [hk, Option.any_some, hs, Bool.not_true, Bool.false_or, Chip.unjournalled, Bool.and_eq_true, bne_iff_ne, ne_eq,
      Option.isNone_iff_eq_none] at h5
    simp [hs, h5.1, h5.2]
  · simp [hs]

/-- A write by a partition that may not write the register is denied. -/
theorem Chip.blockWrite_denied {c : Chip} {k a : Nat} (hp : c.implemented (a / 0x1000) = true) {r : RegRow}
    (hr : rowOf a = some r) (h : c.mayWrite k a = false) (v mask : Word) (act : Chip → Chip) :
    c.blockWrite k a v mask act = c.deny k true false (a / 0x1000) a := by
  simp [Chip.blockWrite, hp, hr, h]

/-- A write at an unimplemented offset is discarded and sets PAGE_ERR.UNIMPL. -/
theorem Chip.blockWrite_unimplemented {c : Chip} {k a : Nat} (hp : c.implemented (a / 0x1000) = true)
    (hr : rowOf a = none) (v mask : Word) (act : Chip → Chip) : c.blockWrite k a v mask act = c.setErr (a / 0x1000) 1 := by
  simp [Chip.blockWrite, hp, hr]

/-- A write to a block that is held in reset is discarded and sets PAGE_ERR.IN_RESET_WR. -/
theorem Chip.blockWrite_inReset {c : Chip} {k a : Nat} (hp : c.implemented (a / 0x1000) = true) {r : RegRow}
    (hr : rowOf a = some r) (hm : c.mayWrite k a = true) (h : c.held (a / 0x1000) = true)
    (v mask : Word) (act : Chip → Chip) : c.blockWrite k a v mask act = c.setErr (a / 0x1000) 8 := by
  simp [Chip.blockWrite, hp, hr, hm, h]

end Sys2Proof.Machine
end

