-- ==== Sys2Proof/Tests/Slice0.lean ====
section
/-! SUPPORT. Tests: an ill-formed command for each check of WellFormed, the worked examples of the spec that one step or one
function shows, and for every statement with hypotheses a state that meets all of them. -/

namespace Sys2Proof

open Sys2Proof.Machine

theorem test_ill_formed_partition : (Instr.castleCommandDone 4 : Instr).wf = false := by decide
theorem test_ill_formed_writer : (Instr.txnAutoAbort 5 : Instr).wf = false := by decide
theorem test_ill_formed_request : (Instr.registerWrite 0 0xFFC [(0, 15), (0, 15)] {} : Instr).wf = false := by decide
theorem test_ill_formed_request_alignment : (Instr.registerWrite 0 0x42 [(0, 15)] {} : Instr).wf = false := by decide
theorem test_ill_formed_request_length : (Instr.registerWrite 0 0x40 [] {} : Instr).wf = false := by decide
theorem test_ill_formed_page : (Instr.wideReadReject 0x1000 0 1 {} : Instr).wf = false := by decide
theorem test_ill_formed_byte_enables : (Instr.bufSplitWrite 0 0 16 : Instr).wf = false := by decide
theorem test_ill_formed_dword : (Instr.wideReadReject 0 2 1 {} : Instr).wf = false := by decide
theorem test_ill_formed_ethernet_square : (Instr.gptpSyncTransmit 39 : Instr).wf = false := by decide
theorem test_ill_formed_alarm : (Instr.tempoAlarmExpiry 16 : Instr).wf = false := by decide
theorem test_ill_formed_can_square : (Instr.canSyncQueue 40 : Instr).wf = false := by decide
theorem test_ill_formed_tsync : (Instr.tsyncConfigWrite 0 41 0 15 : Instr).wf = false := by decide
theorem test_ill_formed_frame_identifier : (Instr.canFrameReceived 0 { id := 0x800, ide := false, fmt := 0, dlc := 0, data := [] } {} : Instr).wf = false := by decide
theorem test_ill_formed_frame_length : (Instr.canFrameReceived 0 { id := 0, ide := false, fmt := 0, dlc := 8, data := List.replicate 9 0 } {} : Instr).wf = false := by decide
theorem test_ill_formed_buffer : (Instr.rxMailboxLock 0 0 20 false : Instr).wf = false := by decide
theorem test_ill_formed_class_number : (Instr.canClassBufferPull 0 8 false : Instr).wf = false := by decide
theorem test_ill_formed_pause_channel : (Instr.pauseExpiry 40 9 : Instr).wf = false := by decide
theorem test_ill_formed_t1s_square : (Instr.plcaBeaconReceived 48 : Instr).wf = false := by decide
theorem test_ill_formed_serdes_square : (Instr.wakeSignalDetect 47 : Instr).wf = false := by decide
theorem test_ill_formed_recovery_function : (Instr.frerRecoveryReset 1024 : Instr).wf = false := by decide
theorem test_ill_formed_square : (Instr.quarantineHoldExpiry 64 : Instr).wf = false := by decide
theorem test_ill_formed_source : (Instr.classifyFrame 72 0 {} : Instr).wf = false := by decide
theorem test_ill_formed_step : (Instr.classifyFrame 0 0 { step := 5 } : Instr).wf = false := by decide
theorem test_ill_formed_plane_of_a_read : (Instr.classifyFrame 0 0 { plane := 2 } : Instr).wf = false := by decide
theorem test_ill_formed_word64 : (Instr.tableEntryWrite 0 4 0 255 0 : Instr).wf = false := by decide
theorem test_ill_formed_byte_enables64 : (Instr.tableEntryWrite 0 0 0 256 0 : Instr).wf = false := by decide
theorem test_ill_formed_gate : (Instr.streamGateEntry 512 : Instr).wf = false := by decide
theorem test_ill_formed_signal : (Instr.flagFall 65536 : Instr).wf = false := by decide
theorem test_ill_formed_state_word : (Instr.hostSignalWrite 0 0 4 0 false : Instr).wf = false := by decide
theorem test_ill_formed_layout : (Instr.pduPeriodEmit 16384 : Instr).wf = false := by decide
theorem test_ill_formed_engine : (Instr.budgetExhausted 16 : Instr).wf = false := by decide
theorem test_ill_formed_timer : (Instr.pawnTimerExpiry 4096 : Instr).wf = false := by decide
theorem test_ill_formed_port : (Instr.copyLaunchGrant 16 : Instr).wf = false := by decide
theorem test_ill_formed_output : (Instr.reseqTimeout 0 72 0 : Instr).wf = false := by decide
theorem test_ill_formed_point : (Instr.adjItemCompare 3 0 0 {} false : Instr).wf = false := by decide
theorem test_ill_formed_item_class : (Instr.adjItemCompare 2 0 10 {} false : Instr).wf = false := by decide
theorem test_ill_formed_job_source : (Instr.cxDescriptorFetch 5 [] [] false : Instr).wf = false := by decide
theorem test_ill_formed_plane : (Instr.tableSweep 2 0 : Instr).wf = false := by decide
theorem test_ill_formed_slot : (Instr.slotRemask 1024 : Instr).wf = false := by decide
theorem test_ill_formed_tamper_sensor : (Instr.tamperSensorFire 15 {} : Instr).wf = false := by decide
theorem test_ill_formed_memory : (Instr.bucketLeak 0xAB : Instr).wf = false := by decide
theorem test_ill_formed_sensor : (Instr.sensSample 24 0 : Instr).wf = false := by decide
theorem test_ill_formed_ring : (Instr.rxIrqTimer 0 32 : Instr).wf = false := by decide
theorem test_ill_formed_bar4 : (Instr.bar4Read 0 0x10000000 4 : Instr).wf = false := by decide
theorem test_ill_formed_window : (Instr.semLeaseRenew 16 : Instr).wf = false := by decide
theorem test_ill_formed_tag : (Instr.bridgeTagTimeout 0 64 : Instr).wf = false := by decide
theorem test_ill_formed_key_register : (Instr.bnlKeyWrite 0 2 0 15 : Instr).wf = false := by decide
theorem test_ill_formed_peer : (Instr.peerCfgWrite 0 64 0 15 : Instr).wf = false := by decide
theorem test_ill_formed_entry_step : (Instr.adjournedEntryDone 5 : Instr).wf = false := by decide
theorem test_ill_formed_gpio : (Instr.wakeGpioEdge 32 true : Instr).wf = false := by decide
theorem test_ill_formed_reference : (Instr.refclkLoss 2 : Instr).wf = false := by decide
theorem test_ill_formed_octets : (Instr.wakeT1sRule 40 (List.replicate 65536 0)).wf = false := by
  show (isT1s 40 && decide ((List.replicate 65536 (0 : Byte)).length < 65536)) = false
  rw [List.length_replicate]
  decide
theorem test_well_formed_request : (Instr.registerWrite 3 0xFF8 [(0, 15), (0, 1)] {}).wf = true := by decide

/-- Worked example of chapter 10: MOVK p8, 0x000A, SH 2 is 0xA202_000A. -/
theorem test_movk_example : (match exec (.pawnMovk 2) { chip := { tbl := [(0x400004, 0xa202000a)], pawn := { run := [(2, { prog := 5, epoch := 0, start := 6, len := 40, pc := 2, budget := 100, issued := 7, regs := [] })] } } } with | .next t => (t.chip.invOf 2).map fun v => v.reg 8 | _ => none) = some 0x0000000A00000000 := by decide
/-- Worked example of chapter 10: SCL p7, p5, p8 is 0xD1D6_0000 and gives raw times 10. -/
theorem test_scl_example : (match exec (.pawnScl 2) { chip := { tbl := [(0x400004, 0xd1d60000)], pawn := { run := [(2, { prog := 5, epoch := 0, start := 6, len := 40, pc := 2, budget := 100, issued := 7, regs := [(5, 0x1F4), (8, 0xA00000000)] })] } } } with | .next t => (t.chip.invOf 2).map fun v => v.reg 7 | _ => none) = some 5000 := by decide
/-- Worked example of chapter 10: RCHK p9, p7, p10 is 0xD65E_8000 and gives 0 in range. -/
theorem test_rchk_example : (match exec (.pawnRchk 2) { chip := { tbl := [(0x400004, 0xd65e8000)], pawn := { run := [(2, { prog := 5, epoch := 0, start := 6, len := 40, pc := 2, budget := 100, issued := 7, regs := [(7, 5000), (9, 7), (10, 10000)] })] } } } with | .next t => (t.chip.invOf 2).map fun v => v.reg 9 | _ => none) = some 0 := by decide
/-- Worked example of chapter 2: the entry of H2's denied write of 0x040 of page 0x111 reads 0xC011_1040. -/
theorem test_deny_word_example : ({ write := true, bar2 := false, page := 0x111, off := 0x040, time := 0 } : DenyEntry).word = 0xC0111040 := by decide
/-- Worked example of chapter 19: the header of the READ with TAG 0x0080 and SEQ 0x1A2B. -/
theorem test_benolsia_header_example : bnlHeader 0x10 0x0C03 0x0C04 0x0080 0x1A2B 10 false false =
    [0x01, 0x10, 0x0C, 0x03, 0x0C, 0x04, 0x00, 0x80, 0x00, 0x00, 0x1A, 0x2B, 0x00, 0x0A, 0x00, 0x00] := by decide
/-- Worked example of chapter 3: the SYNC with SEQ 5 stamped 1,742,000,312,408,125 ns. -/
theorem test_sync_payload_example : syncPayload 5 2 1742000312408125 = [0x01, 0x58, 0x00, 0x00, 0x00, 0x1A, 0x94, 0xB0] := by decide
/-- Worked example of chapter 3: its FOLLOW-UP. -/
theorem test_followup_payload_example : (followUpOf 5 2 1742000312408125 37).payload = [0x02, 0x58, 0x12, 0x9E, 0xF8, 0x3D, 0x00, 0x00] := by decide
/-- Worked example of chapter 15: the header of the blob of slot 41. -/
theorem test_blob_header_example : blobHeader [0x4B, 0x42, 0x01, 0x01, 0x44, 0x00, 0x0F, 0x00, 0x01, 0x00, 0x28, 0x00, 0x03, 0x00, 0x00, 0x00, 0x02, 0x00, 0x00, 0x00, 0x31, 0x0C, 0x00, 0x00] =
    { ktype := 1, len := 68, usage := 15, owner := 1, parent := 40, parentGen := 3, svn := 2, keyId := 0x0C31 } := by decide
/-- A step takes the command at the front and leaves the rest. -/
theorem test_step_takes_the_front : (match step { pending := [.refclkLoss 1, .vddAoLoss] } with | .next t => t.pending | _ => []) = [.vddAoLoss] := by decide
/-- R598: IDCODE leaves least significant byte first. -/
theorem test_idcode : (match exec .jtagIdcode State.reset with | .next t => t.chip.out.map (fun o => o.data) | _ => []) = [[0x5B, 0x0A, 0x40, 0x26]] := by decide

/-! A state that meets the hypotheses of each clause of each statement. -/

theorem witness_PageCommandsComplete_1 : ∃ (s : State) (k : Nat) (a : Nat) (env : WriteEnv) (r : RegRow),
    s.chip.passes .recovery = true ∧
    k < 4 ∧ a % 4 = 0 ∧ a < 0x1000000 ∧ 0x30 ≤ a % 0x1000 ∧
    plainPage (a / 0x1000) = true ∧ s.chip.implemented (a / 0x1000) = true ∧
    rowOf a = some r ∧ r.sup = false ∧ s.chip.owner (a / 0x1000) = k ∧
    s.chip.held (a / 0x1000) = false ∧ s.chip.unjournalled k (a / 0x1000) = true ∧ env.msix = none :=
  ⟨State.reset, 0, 0x9105C, {}, { off := 0x05C, rw := 0x1FFF }, by decide⟩

theorem witness_PageCommandsComplete_2 : ∃ (s : State) (p : Nat) (off : Nat) (n : Nat) (r : WideRead) (k : Nat),
    s.chip.passes .recovery = true ∧
    s.chip.implemented p = true ∧ p * 0x1000 + off + 4 * n ≤ 0x1000000 ∧
    ((pageKind p).any isVolatile = true ∧ (n ≠ 1 ∨ r.be ≠ 0xF ∨ off % 4 ≠ 0)) ∨ n = 0 ∨ 32 < n ∨ 0x1000 < off + 4 * n ∧
    r.part = some k ∧ k < 4 ∧ (s.chip.part k).linkUp = true :=
  ⟨{ chip := { parts := [(1, { linkUp := true })] } }, 0x100, 0x40, 2, { be := 0xF, part := some 1 }, 1, by decide⟩

theorem witness_PageCommandsComplete_3 : ∃ (s : State) (p : Nat) (off : Nat) (n : Nat) (r : WideRead),
    s.chip.passes .recovery = true ∧
    s.chip.implemented p = true ∧ p * 0x1000 + off + 4 * n ≤ 0x1000000 ∧
    ((pageKind p).any isVolatile = true ∧ (n ≠ 1 ∨ r.be ≠ 0xF ∨ off % 4 ≠ 0)) ∨ n = 0 ∨ 32 < n ∨ 0x1000 < off + 4 * n ∧
    r.part = none :=
  ⟨State.reset, 0x100, 0x40, 2, { be := 0xF }, by decide⟩

theorem witness_PageCommandsComplete_4 : ∃ (s : State) (k : Nat) (p : Nat) (v : Word),
    s.chip.passes .recovery = true ∧
    s.chip.implemented p = true ∧ pageKind p ≠ some .part ∧
    s.chip.owner p = k ∧ s.chip.supervisor ≠ k ∧
    fld v 1 0 = k ∧ bit v 16 = s.chip.bitOf (hOwner p) 16 ∧ bit v 31 = s.chip.bitOf (hOwner p) 31 :=
  ⟨State.reset, 1, 0x0C1, 0x00000301, by decide⟩

theorem witness_PageCommandsComplete_5 : ∃ (s : State) (k : Nat) (p : Nat) (v : Word),
    s.chip.passes .recovery = true ∧
    s.chip.implemented p = true ∧
    s.chip.supervisor = k ∧ k < 4 ∧ s.chip.owner p ≠ fld v 1 0 ∧
    s.chip.bitOf (hOwner p) 31 = false ∧ s.chip.journalOwner p = none ∧
    (s.chip.owner p = k ∨ fld v 13 8 = s.chip.fldOf (hOwner p) 13 8) :=
  ⟨State.reset, 0, 0x091, 0x80010002, by decide⟩

theorem witness_PageCommandsComplete_6 : ∃ (s : State) (k : Nat) (p : Nat),
    s.chip.passes .recovery = true ∧
    s.chip.implemented p = true ∧ s.chip.owner p = k ∧ allBankBits p = 0 :=
  ⟨State.reset, 0, 0x000, by decide⟩

theorem witness_PageCommandsComplete_7 : ∃ (s : State) (j : Nat) (v : Word),
    s.chip.passes .recovery = true ∧
    j < 4 ∧ fld v 15 0 = 0x5356 ∧ s.chip.held (0x008 + j) = false :=
  ⟨State.reset, 2, 0x5356, by decide⟩

theorem witness_PageCommandsComplete_8 : ∃ (s : State) (k : Nat),
    s.chip.passes .recovery = true ∧
    s.chip.tempo.lastSupvCheck + 10 ^ 13 ≤ s.chip.now ∧
    s.chip.absent s.chip.supervisor = true ∧ k < 4 ∧ k ≠ s.chip.supervisor ∧ s.chip.absent k = false ∧
    0 < s.chip.fldOf (Reg.PART.SUPV_WATCH k) 15 0 ∧
    s.chip.fldOf (Reg.PART.SUPV_WATCH k) 15 0 * 10 ^ 13 < s.chip.absentFor s.chip.supervisor ∧
    (∀ j, j < k → j = s.chip.supervisor ∨ s.chip.absent j = true ∨ s.chip.absentFor s.chip.supervisor ≤ s.chip.fldOf (Reg.PART.SUPV_WATCH j) 15 0 * 10 ^ 13 ∨ s.chip.fldOf (Reg.PART.SUPV_WATCH j) 15 0 = 0) :=
  ⟨{ chip := { now := 10 ^ 14, parts := [(1, { linkUp := true })], regs := [(0x904C, 1)] } }, 1, by decide⟩

theorem witness_PageCommandsComplete_9 : ∃ (s : State) (j : Nat) (e : DenyEntry) (rest : List DenyEntry),
    s.chip.passes .recovery = true ∧
    j < 4 ∧ (s.chip.part j).deny = e :: rest ∧
    s.chip.held (0x008 + j) = false :=
  ⟨{ chip := { parts := [(2, { deny := [⟨true, false, 0x91, 0x58, 2048⟩] })] } }, 2, ⟨true, false, 0x91, 0x58, 2048⟩, [], by decide⟩

theorem witness_PageCommandsComplete_10 : ∃ (s : State) (t : Nat),
    s.chip.alarmLow = some t ∧ t + 10 ^ 11 ≤ s.chip.now ∧
    s.chip.awake = true ∧ s.chip.reg Reg.GLB.ALARM_STAT &&& s.chip.reg Reg.GLB.ALARM_EN = 0 ∧ s.chip.fldOf Reg.GLB.BOOT_STAT 3 0 < 14 :=
  ⟨{ chip := { now := 10 ^ 11, alarmLow := some 0 } }, 0, by decide⟩

theorem witness_TempoRateAndTimeCommands_1 : ∃ (s : State) (k : Nat) (hi : Word) (r : Nat),
    s.chip.passes .recovery = true ∧
    k < 4 ∧ s.chip.accepts k Reg.TEMPO.RATE_HI = true ∧ s.chip.servoOn = false ∧
    r = fld hi 15 0 * 2 ^ 32 + s.chip.tempo.rateLoNext.toNat :=
  ⟨{ chip := { regs := [(0x10040, 0)], tempo := { rateLoNext := 0x77 } } }, 0, 0xA001, fld (0xA001 : Word) 15 0 * 2 ^ 32 + 0x77, by decide⟩

theorem witness_TempoRateAndTimeCommands_2 : ∃ (s : State) (hi : Word) (lo : Word) (r : Nat) (lim : Nat),
    s.chip.passes .recovery = true ∧
    s.chip.servoOn = true ∧ s.chip.arbRunning = true ∧
    r = fld hi 15 0 * 2 ^ 32 + lo.toNat ∧ lim = 0xA00000000000 * s.chip.slewMax / 1000000 :=
  ⟨{ chip := { regs := [(0x10040, 1), (0x90040, 1)] } }, 0xB000, 0, fld (0xB000 : Word) 15 0 * 2 ^ 32 + (0 : Word).toNat, 0xA00000000000 * 100 / 1000000, by decide⟩

theorem witness_TempoRateAndTimeCommands_3 : ∃ (s : State) (k : Nat) (v : Word),
    s.chip.passes .recovery = true ∧
    s.chip.accepts k Reg.TEMPO.CAPTURE = true ∧ bit v 0 = true :=
  ⟨{ chip := { tempo := { value := 12345678901234567890123456 } } }, 0, 1, by decide⟩

theorem witness_TempoRateAndTimeCommands_4 : ∃ (s : State) (k : Nat) (v : Word),
    s.chip.passes .recovery = true ∧
    s.chip.accepts k Reg.TEMPO.SET_GO = true ∧ fld v 15 0 = 0x5345 ∧ s.chip.servoOn = false :=
  ⟨{ chip := { regs := [(0x10040, 0), (0x10088, 5), (0x1008C, 7)] } }, 0, 0x5345, by decide⟩

theorem witness_TempoRateAndTimeCommands_5 : ∃ (s : State) (k : Nat) (i : Nat) (v : Word) (r : RegRow),
    s.chip.passes .recovery = true ∧
    i < 16 ∧ s.chip.accepts k (Reg.TEMPO.ALM_CTRL i) = true ∧ rowOf (Reg.TEMPO.ALM_CTRL i) = some r ∧ bit v 0 = true :=
  ⟨State.reset, 0, 15, 3, (rowOf 0x101FC).getD { off := 0 }, by decide⟩

theorem witness_TempoRateAndTimeCommands_6 : ∃ (s : State) (i : Nat) (t : Nat),
    i < 16 ∧ lookupKey s.chip.tempo.alarmTarget i = some t ∧ t ≤ s.chip.ns ∧
    s.chip.awake = true ∧ s.chip.power.entering = none :=
  ⟨{ chip := { tempo := { alarmTarget := [(3, 0)] } } }, 3, 0, by decide⟩

theorem witness_TempoSyncCommands_1 : ∃ (s : State) (q : Nat) (m : SyncMsg),
    s.chip.passes .running = true ∧
    s.chip.syncCounts q m = true ∧ s.chip.arbRunning = true ∧ s.chip.servoOn = false :=
  ⟨{ chip := { regs := [(0x10040, 0), (0x100A0, 0xFFFFFF), (0x90040, 1)] } }, 40, { gm := 0x1122334455667788 }, by decide⟩

theorem witness_TempoSyncCommands_2 : ∃ (s : State) (q : Nat) (m : SyncMsg) (off : Int),
    s.chip.passes .running = true ∧
    s.chip.syncCounts q m = true ∧ s.chip.arbRunning = true ∧ s.chip.servoOn = true ∧
    s.chip.now < s.chip.tempo.lastSync + s.chip.receiptTimeout ∧
    s.chip.tempoState ≠ 2 ∧ s.chip.bitOf Reg.TEMPO.CTRL 1 = false ∧
    (s.chip.syncOffset q m off).natAbs ≤ s.chip.fldOf Reg.TEMPO.LOCK_CFG 15 0 ∧ s.chip.fldOf Reg.TEMPO.LOCK_CFG 23 16 ≤ s.chip.tempo.lockCount + 1 :=
  ⟨{ chip := { regs := [(0x10040, 1), (0x100A0, 0xFFFFFF), (0x90040, 1)], tempo := { lockCount := 300 } } }, 40, { gm := 1 }, -5, by decide⟩

theorem witness_TempoSyncCommands_3 : ∃ (s : State) (q : Nat) (m : SyncMsg) (off : Int),
    s.chip.passes .running = true ∧
    s.chip.syncCounts q m = true ∧ s.chip.arbRunning = true ∧ s.chip.servoOn = true ∧
    s.chip.now < s.chip.tempo.lastSync + s.chip.receiptTimeout ∧
    s.chip.tempoState = 2 ∧ (s.chip.reg Reg.TEMPO.UNLOCK_THRESH).toNat < (s.chip.syncOffset q m off).natAbs :=
  ⟨{ chip := { regs := [(0x10040, 1), (0x10044, 2), (0x100A0, 0xFFFFFF), (0x90040, 1)] } }, 40, { gm := 1 }, -50000000, by decide⟩

theorem witness_TempoSyncCommands_4 : ∃ (s : State),
    s.chip.passes .running = true ∧
    s.chip.tempoState = 2 ∧ s.chip.tempo.lastSync + s.chip.receiptTimeout ≤ s.chip.now :=
  ⟨{ chip := { regs := [(0x10044, 2)], now := 10 ^ 17 } }, by decide⟩

theorem witness_TempoSyncCommands_5 : ∃ (s : State),
    s.chip.passes .running = true ∧
    s.chip.tempoState = 1 ∧ (s.chip.reg Reg.TEMPO.HOLD_ERR_MAX).toNat < (s.chip.reg Reg.TEMPO.ERR_EST).toNat :=
  ⟨{ chip := { regs := [(0x10044, 1), (0x10068, 0xFFFFFF00)] } }, by decide⟩

theorem witness_TempoSyncCommands_6 : ∃ (s : State) (k : Nat) (max : Bool) (a : Nat) (r : RegRow),
    s.chip.passes .recovery = true ∧
    a = (if max then Reg.TEMPO.HOLD_ERR_MAX else Reg.TEMPO.HOLD_CFG) ∧
    s.chip.accepts k a = true ∧ rowOf a = some r ∧ s.chip.tempoState ≠ 1 :=
  ⟨State.reset, 0, true, Reg.TEMPO.HOLD_ERR_MAX, (rowOf Reg.TEMPO.HOLD_ERR_MAX).getD { off := 0 }, by decide⟩

theorem witness_TempoSyncCommands_7 : ∃ (s : State) (k : Nat) (r : RegRow),
    s.chip.passes .recovery = true ∧
    s.chip.accepts k Reg.TEMPO.CTRL = true ∧ rowOf Reg.TEMPO.CTRL = some r :=
  ⟨{ chip := { regs := [(0x10040, 1), (0x10044, 2)] } }, 0, (rowOf 0x10040).getD { off := 0 }, by decide⟩

theorem witness_TempoSyncCommands_8 : ∃ (s : State),
    s.chip.passes .running = true ∧
    s.chip.tempoState ≠ 1 :=
  ⟨{ chip := { regs := [(0x10040, 0x10), (0x10044, 8)] } }, by decide⟩

theorem witness_TempoSyncCommands_9 : ∃ (s : State) (q : Nat) (rin : Nat) (rout : Nat),
    s.chip.passes .running = true ∧
    s.chip.gptpPort q = true ∧ s.chip.arbRunning = true ∧ s.chip.reg Reg.TEMPO.SLAVE_PORT ≠ BitVec.ofNat 32 (0x80 + q) ∧
    rin ≤ rout ∧ rout - rin ≤ 10000000 :=
  ⟨{ chip := { regs := [(0x10040, 0), (0x100A0, 0xFFFFFF), (0x90040, 1)] } }, 40, 100, 10000100, by decide⟩

theorem witness_TempoSyncCommands_10 : ∃ (s : State) (q : Nat) (rin : Nat) (rout : Nat),
    s.chip.passes .running = true ∧
    s.chip.gptpPort q = true ∧ s.chip.arbRunning = true ∧ s.chip.reg Reg.TEMPO.SLAVE_PORT ≠ BitVec.ofNat 32 (0x80 + q) ∧
    rin + 10000000 < rout :=
  ⟨{ chip := { regs := [(0x10040, 0), (0x100A0, 0xFFFFFF), (0x90040, 1)] } }, 40, 100, 10000101, by decide⟩

theorem witness_TempoSyncCommands_11 : ∃ (s : State) (q : Nat),
    s.chip.passes .running = true ∧
    s.chip.gptpPort q = true ∧ s.chip.arbRunning = true ∧ s.chip.grandmaster = true ∧
    s.chip.bitOf Reg.TEMPO.GPTP_CFG 8 = false ∧ lookupKey s.chip.tempo.syncTx q = none :=
  ⟨{ chip := { regs := [(0x100A0, 0xFFFFFF), (0x100A4, 0x03000), (0x90040, 1)] } }, 40, by decide⟩

theorem witness_TempoSyncCommands_12 : ∃ (s : State) (hi : Word) (lo : Word) (r : Nat) (lim : Nat),
    s.chip.passes .recovery = true ∧
    s.chip.servoOn = true ∧ s.chip.arbRunning = true ∧
    r = fld hi 15 0 * 2 ^ 32 + lo.toNat ∧ lim = 0xA00000000000 * s.chip.slewMax / 1000000 :=
  ⟨{ chip := { regs := [(0x10040, 1), (0x90040, 1)] } }, 0xB000, 0, fld (0xB000 : Word) 15 0 * 2 ^ 32 + (0 : Word).toNat, 0xA00000000000 * 100 / 1000000, by decide⟩

theorem witness_TempoSyncCommands_13 : ∃ (s : State) (k : Nat) (v : Word),
    s.chip.passes .recovery = true ∧
    s.chip.accepts k Reg.TEMPO.CAPTURE = true ∧ bit v 0 = true :=
  ⟨{ chip := { tempo := { value := 12345678901234567890123456 } } }, 0, 1, by decide⟩

theorem witness_TempoSyncCommands_14 : ∃ (s : State) (k : Nat) (v : Word),
    s.chip.passes .recovery = true ∧
    s.chip.accepts k Reg.TEMPO.SET_GO = true ∧ fld v 15 0 = 0x5345 ∧ s.chip.servoOn = false :=
  ⟨{ chip := { regs := [(0x10040, 0), (0x10088, 5), (0x1008C, 7)] } }, 0, 0x5345, by decide⟩

theorem witness_TempoSyncCommands_15 : ∃ (s : State) (k : Nat) (i : Nat) (v : Word) (r : RegRow),
    s.chip.passes .recovery = true ∧
    i < 16 ∧ s.chip.accepts k (Reg.TEMPO.ALM_CTRL i) = true ∧ rowOf (Reg.TEMPO.ALM_CTRL i) = some r ∧ bit v 0 = true :=
  ⟨State.reset, 0, 15, 3, (rowOf 0x101FC).getD { off := 0 }, by decide⟩

theorem witness_TempoSyncCommands_16 : ∃ (s : State) (i : Nat) (t : Nat),
    i < 16 ∧ lookupKey s.chip.tempo.alarmTarget i = some t ∧ t ≤ s.chip.ns ∧
    s.chip.awake = true ∧ s.chip.power.entering = none :=
  ⟨{ chip := { tempo := { alarmTarget := [(3, 0)] } } }, 3, 0, by decide⟩

theorem witness_CanControllerCommands_1 : ∃ (s : State) (k : Nat) (q : Nat) (v : Word) (be : Nat) (nv : Word),
    s.chip.passes .running = true ∧
    q < 40 ∧ s.chip.accepts k (Reg.CAN.CTRL q) = true ∧
    nv = (s.chip.reg (Reg.CAN.CTRL q) &&& ~~~ (0xF3F7 &&& beMask be)) ||| (v &&& (0xF3F7 &&& beMask be)) ∧
    s.chip.modeAct q = 0 ∧ s.chip.fldOf (Reg.CAN.CTRL q) 2 0 = 0 ∧ 1 ≤ fld nv 2 0 ∧ fld nv 2 0 ≤ 5 ∧ (s.chip.canSq q).cls = [] ∧
    (s.chip.bitOf (Reg.CAN.TRX q) 0 = false ∨ fld nv 2 0 = 4) ∧
    s.chip.timingOk q nv = true :=
  ⟨{ chip := { regs := [(1069136, 0x013F1F10), (1069156, 0)] } }, 0, 5, 0x80F1, 0xF, 0x80F1, by decide⟩

theorem witness_CanControllerCommands_2 : ∃ (s : State) (k : Nat) (q : Nat) (v : Word) (be : Nat) (nv : Word),
    s.chip.passes .running = true ∧
    q < 40 ∧ s.chip.accepts k (Reg.CAN.CTRL q) = true ∧
    nv = (s.chip.reg (Reg.CAN.CTRL q) &&& ~~~ (0xF3F7 &&& beMask be)) ||| (v &&& (0xF3F7 &&& beMask be)) ∧
    s.chip.modeAct q = 0 ∧ s.chip.fldOf (Reg.CAN.CTRL q) 2 0 = 0 ∧ 1 ≤ fld nv 2 0 ∧ fld nv 2 0 ≤ 5 ∧
    (s.chip.bitOf (Reg.CAN.TRX q) 0 = false ∨ fld nv 2 0 = 4) ∧
    s.chip.timingOk q nv = false :=
  ⟨{ chip := { regs := [(1069136, 0x0), (1069156, 0)] } }, 0, 5, 0x80F1, 0xF, 0x80F1, by decide⟩

theorem witness_CanControllerCommands_3 : ∃ (s : State) (k : Nat) (q : Nat) (v : Word) (be : Nat) (nv : Word),
    s.chip.passes .running = true ∧
    q < 40 ∧ s.chip.accepts k (Reg.CAN.CTRL q) = true ∧
    nv = (s.chip.reg (Reg.CAN.CTRL q) &&& ~~~ (0xF3F7 &&& beMask be)) ||| (v &&& (0xF3F7 &&& beMask be)) ∧
    6 ≤ fld nv 2 0 :=
  ⟨{ chip := { regs := [] } }, 0, 5, 0x80F7, 0x1, (resetOf (Reg.CAN.CTRL 5) &&& ~~~ (0xF3F7 &&& beMask 1)) ||| (0x80F7 &&& (0xF3F7 &&& beMask 1)), by decide⟩

theorem witness_CanControllerCommands_4 : ∃ (s : State) (k : Nat) (q : Nat) (v : Word) (be : Nat) (nv : Word),
    s.chip.passes .running = true ∧
    q < 40 ∧ s.chip.accepts k (Reg.CAN.CTRL q) = true ∧
    nv = (s.chip.reg (Reg.CAN.CTRL q) &&& ~~~ (0xF3F7 &&& beMask be)) ||| (v &&& (0xF3F7 &&& beMask be)) ∧
    fld nv 2 0 = 0 ∧ s.chip.modeAct q ≠ 0 ∧ (s.chip.reg (Reg.CAN.CTRL q) ^^^ nv) &&& 0x170 = 0 ∧
    (s.chip.canSq q).busy = false :=
  ⟨{ chip := { regs := [(1069120, 0x80F1), (1069124, 0x10)] } }, 0, 5, 0x80F0, 0xF, 0x80F0, by decide⟩

theorem witness_CanControllerCommands_5 : ∃ (s : State) (q : Nat),
    s.chip.passes .running = true ∧
    q < 40 ∧ s.chip.integrating q = true ∧ s.chip.idleRuns q = true :=
  ⟨{ chip := { regs := [(1069124, 0x110)], now := 77 } }, 5, by decide⟩

theorem witness_CanControllerCommands_6 : ∃ (s : State) (q : Nat) (ty : Nat) (e : CanErr),
    s.chip.passes .running = true ∧
    q < 40 ∧ s.chip.onCanBus q = true ∧ (s.chip.canSq q).resetReq = false ∧
    (s.chip.modeAct q ≠ 5 ∨ ty ≠ 5) ∧
    (e.xl = false ∨ s.chip.bitOf (Reg.CAN.CTRL q) 8 = true) :=
  ⟨{ chip := { regs := [(1069120, 0x1), (1069124, 0x10), (1069128, 0x000100FF)], can := [(5, { onBus := some (.mailbox 3) })] } }, 5, 3, { field := 2 }, by decide⟩

theorem witness_CanControllerCommands_7 : ∃ (s : State) (q : Nat),
    s.chip.passes .running = true ∧
    q < 40 ∧ s.chip.onCanBus q = true ∧ (s.chip.canSq q).resetReq = false ∧
    s.chip.bitOf (Reg.CAN.CTRL q) 6 = false ∧ s.chip.fldOf (Reg.CAN.CTRL q) 2 0 ≠ 0 :=
  ⟨{ chip := { regs := [(1069120, 0x1), (1069124, 0x10)] } }, 5, by decide⟩

theorem witness_CanControllerCommands_8 : ∃ (s : State) (k : Nat) (q : Nat) (v : Word),
    s.chip.passes .running = true ∧
    q < 40 ∧ s.chip.accepts k (Reg.CAN.BO_RECOVER q) = true ∧ bit v 0 = true ∧ s.chip.bitOf (Reg.CAN.STATUS q) 13 = true :=
  ⟨{ chip := { regs := [(1069124, 0x2012)] } }, 0, 5, 1, by decide⟩

theorem witness_CanControllerCommands_9 : ∃ (s : State) (q : Nat),
    s.chip.passes .running = true ∧
    q < 40 ∧ s.chip.bitOf (Reg.CAN.STATUS q) 12 = true :=
  ⟨{ chip := { regs := [(1069124, 0x1012)] } }, 5, by decide⟩

theorem witness_CanControllerCommands_10 : ∃ (s : State) (q : Nat) (seqs : Nat),
    s.chip.passes .running = true ∧
    q < 40 ∧ s.chip.bitOf (Reg.CAN.STATUS q) 12 = true ∧ seqs < 128 :=
  ⟨{ chip := { regs := [(1069124, 0x1012)] } }, 5, 127, by decide⟩

theorem witness_CanControllerCommands_11 : ∃ (s : State) (q : Nat),
    s.chip.passes .running = true ∧
    q < 40 ∧ s.chip.fldOf (Reg.CAN.LIMITS q) 31 16 ≠ 0 ∧ s.chip.bitOf (Reg.CAN.STATUS q) 10 = false :=
  ⟨{ chip := { regs := [(1069160, 0x10000)] } }, 5, by decide⟩

theorem witness_CanControllerCommands_12 : ∃ (s : State) (q : Nat),
    s.chip.passes .running = true ∧
    q < 40 :=
  ⟨{ chip := { regs := [(1069124, 0x400)] } }, 5, by decide⟩

theorem witness_CanControllerCommands_13 : ∃ (s : State) (q : Nat),
    s.chip.passes .running = true ∧
    q < 40 :=
  ⟨{ chip := { regs := [] } }, 39, by decide⟩

theorem witness_CanControllerCommands_14 : ∃ (s : State) (q : Nat) (t : Nat),
    s.chip.passes .running = true ∧
    q < 40 ∧ (s.chip.canSq q).idleFrom = some t ∧ (s.chip.canSq q).idleRaised = false ∧
    s.chip.fldOf (Reg.CAN.LIMITS q) 15 0 ≠ 0 ∧ t + s.chip.fldOf (Reg.CAN.LIMITS q) 15 0 * 10 ^ 12 ≤ s.chip.now :=
  ⟨{ chip := { regs := [(1069160, 2)], can := [(5, { idleFrom := some 0 })], now := 2 * 10 ^ 12 } }, 5, 0, by decide⟩

theorem witness_CanControllerCommands_15 : ∃ (s : State) (q : Nat),
    q < 40 ∧ s.chip.asleep = false ∧ s.chip.armed = false ∧
    s.chip.bitOf (Reg.CAN.TRX q) 0 = true ∧ s.chip.bitOf (Reg.CAN.TRX q) 1 = true :=
  ⟨{ chip := { regs := [(1069156, 3)] } }, 5, by decide⟩

theorem witness_CanControllerCommands_16 : ∃ (s : State) (q : Nat),
    s.chip.passes .running = true ∧
    q < 40 ∧ s.chip.implemented (0x100 + q) = true ∧ s.chip.held (0x100 + q) = false :=
  ⟨{ chip := { regs := [(1069164, 0x83000064)] } }, 5, by decide⟩

theorem witness_CanTransmitCommands_1 : ∃ (s : State) (k : Nat) (q : Nat) (n : Nat),
    s.chip.passes .running = true ∧
    q < 40 ∧ n < 32 ∧ s.chip.accepts k (Reg.CAN.TX_REQ q) = true ∧ (s.chip.canSq q).onBus ≠ some (.mailbox n) :=
  ⟨{ chip := { regs := [], tbl := [(1053744, 0x0008800A00000123)] } }, 0, 5, 3, by decide⟩

theorem witness_CanTransmitCommands_2 : ∃ (s : State) (k : Nat) (q : Nat) (n : Nat) (v : Word),
    s.chip.passes .running = true ∧
    q < 40 ∧ n < 32 ∧ s.chip.accepts k (Reg.CAN.TX_CANCEL q) = true ∧ bit v n = true ∧ s.chip.mbStatus q n = 1 :=
  ⟨{ chip := { regs := [(1069184, 0x1000)] } }, 0, 5, 3, 8, by decide⟩

theorem witness_CanTransmitCommands_3 : ∃ (s : State) (q : Nat),
    s.chip.passes .running = true ∧
    q < 40 ∧ s.chip.mayTransmit q = true ∧ s.chip.eligible q ≠ [] :=
  ⟨{ chip := { regs := [(1069120, 0x1), (1069124, 0x210), (1069184, 0x1100)], can := [(5, { tx := [(3, { frame := { id := 0x30 } }), (2, { frame := { id := 0x40 } })] })] } }, 5, by decide⟩

theorem witness_CanTransmitCommands_4 : ∃ (s : State) (q : Nat) (x : CanSrc),
    s.chip.passes .running = true ∧
    q < 40 ∧ s.chip.modeAct q ≠ 4 ∧ (s.chip.canSq q).onBus = some x ∧ (s.chip.canSq q).resetReq = false :=
  ⟨{ chip := { regs := [(1069184, 0x1000)], can := [(5, { onBus := some (.mailbox 3), tx := [(3, { cancel := true })] })] } }, 5, .mailbox 3, by decide⟩

theorem witness_CanTransmitCommands_5 : ∃ (s : State) (q : Nat) (n : Nat),
    s.chip.passes .running = true ∧
    q < 40 ∧ n < 32 ∧ (s.chip.canSq q).onBus = some (.mailbox n) ∧ s.chip.mbStatus q n = 1 ∧ (s.chip.mb q n).again = none ∧
    (s.chip.canSq q).resetReq = false :=
  ⟨{ chip := { regs := [(1069120, 0x201), (1069124, 0x10), (1069128, 0x70000), (1069184, 0x1000)], can := [(5, { onBus := some (.mailbox 3) })] } }, 5, 3, by decide⟩

theorem witness_CanTransmitCommands_6 : ∃ (s : State) (q : Nat) (n : Nat) (dl : Nat),
    s.chip.passes .running = true ∧
    q < 40 ∧ n < 32 ∧ (s.chip.canSq q).onBus ≠ some (.mailbox n) ∧ s.chip.mbStatus q n = 1 ∧
    (s.chip.mb q n).deadline = some dl ∧ dl < s.chip.now :=
  ⟨{ chip := { regs := [(1069184, 0x1000)], can := [(5, { tx := [(3, { deadline := some 4 })] })], now := 5 } }, 5, 3, 4, by decide⟩

theorem witness_CanTransmitCommands_7 : ∃ (s : State) (q : Nat) (cls : Nat) (k : Copy),
    s.chip.passes .running = true ∧
    q < 40 ∧ cls < 8 ∧ lookupKey (s.chip.canSq q).cls cls = none ∧ s.chip.halted = false ∧ s.chip.canStalled q = false ∧
    s.chip.egrHead q cls = some k ∧ k.ready = true ∧ k.aborted = false ∧
    s.chip.pastDeadline k = false ∧ s.chip.canRecOk q k.data = true :=
  ⟨{ chip := { regs := [(1069124, 0x10), (1069156, 0)], fab := { copies := [{ id := 9, output := 5, cls := 2, appended := true, cells := 1, compared := 1, data := canRecord { id := 5, dlc := 2, data := [1, 2] } false 0 }] } } }, 5, 2, { id := 9, output := 5, cls := 2, appended := true, cells := 1, compared := 1, data := canRecord { id := 5, dlc := 2, data := [1, 2] } false 0 }, by decide⟩

theorem witness_CanTransmitCommands_8 : ∃ (s : State) (q : Nat) (t : Nat) (e : Nat),
    s.chip.passes .running = true ∧
    q < 40 ∧ s.chip.schedNext q = some (t, e) ∧ t ≤ s.chip.ns ∧ e < 256 ∧
    bit (s.chip.schedEntry q e) 63 = true ∧ bit (s.chip.schedEntry q e) 62 = false :=
  ⟨{ chip := { regs := [(1069224, 0x80000001), (1069228, 1000)], tbl := [(1054208, 0x8003000000000005)], tempo := { value := 2005 * 2 ^ 48 } } }, 5, 2005, 0, by decide⟩

theorem witness_CanReceiveAndTimeCommands_1 : ∃ (s : State) (q : Nat) (f : CanFrame),
    s.chip.passes .running = true ∧
    q < 40 ∧ s.chip.listens q = true ∧ s.chip.fmtEnabled q f = true ∧ (s.chip.canSq q).resetReq = false :=
  ⟨{ chip := { regs := [(1069120, 1), (1069124, 0x10)] } }, 5, { id := 9 }, by decide⟩

theorem witness_CanReceiveAndTimeCommands_2 : ∃ (s : State) (q : Nat) (n : Nat) (f : CanFrame),
    s.chip.passes .running = true ∧
    q < 40 ∧ s.chip.listens q = true ∧ s.chip.fmtEnabled q f = true ∧ (s.chip.canSq q).resetReq = false ∧
    s.chip.rxPlace q f = some n ∧ (s.chip.rxBuf q n).state = 0 :=
  ⟨{ chip := { regs := [(1069120, 1), (1069124, 0x10), (1069440, 0xC0000009), (1069444, 0x5FFFFFFF)] } }, 5, 16, { id := 9, ide := true }, by decide⟩

theorem witness_CanReceiveAndTimeCommands_3 : ∃ (s : State) (q : Nat) (n : Nat) (f : CanFrame) (b : RxBuf),
    s.chip.passes .running = true ∧
    q < 40 ∧ s.chip.listens q = true ∧ s.chip.fmtEnabled q f = true ∧ (s.chip.canSq q).resetReq = false ∧
    s.chip.rxPlace q f = some n ∧ b = s.chip.rxBuf q n ∧ b.state = 1 :=
  ⟨{ chip := { regs := [(1069120, 1), (1069124, 0x10), (1069320, 0x80000000), (1069324, 0)], can := [(5, { rx := [(1, { state := 1, ovr := 255 })] })] } }, 5, 1, { id := 9 }, { state := 1, ovr := 255 }, by decide⟩

theorem witness_CanReceiveAndTimeCommands_4 : ∃ (s : State) (q : Nat) (n : Nat),
    s.chip.passes .running = true ∧
    q < 40 ∧ n < 20 ∧ (s.chip.rxBuf q n).state = 1 ∧
    s.chip.implemented (0x100 + q) = true ∧ s.chip.held (0x100 + q) = false :=
  ⟨{ chip := { regs := [], can := [(5, { rx := [(19, { state := 1, held := some { frame := { id := 7 }, stamp := 3, tstate := 2 } })] })] } }, 5, 19, by decide⟩

theorem witness_CanReceiveAndTimeCommands_5 : ∃ (s : State) (q : Nat) (n : Nat),
    s.chip.passes .running = true ∧
    q < 40 ∧ n < 20 ∧ (s.chip.rxBuf q n).state = 2 ∧
    s.chip.implemented (0x100 + q) = true ∧ s.chip.held (0x100 + q) = false :=
  ⟨{ chip := { regs := [], can := [(5, { rx := [(0, { state := 2, held := some { frame := { id := 7 }, stamp := 3, tstate := 2 }, slot := some { frame := { id := 8 }, stamp := 4, tstate := 0 }, carried := 3 })] })] } }, 5, 0, by decide⟩

theorem witness_CanReceiveAndTimeCommands_6 : ∃ (s : State) (q : Nat),
    s.chip.passes .running = true ∧
    q < 40 ∧ s.chip.tsActive q = true ∧ (s.chip.canSq q).syncNext ≤ s.chip.ns ∧
    (s.chip.canSq q).sync = none ∧ (s.chip.canSq q).onBus ≠ some .sync ∧ (s.chip.tempoState ≠ 0 ∨ s.chip.bitOf Reg.TSYNC.TS_CTRL 1 = true) :=
  ⟨{ chip := { regs := [(0x10044, 2), (0x11040, 1), (0x11158, 10)], can := [(5, { seq := 15 })] } }, 5, by decide⟩

theorem witness_CanReceiveAndTimeCommands_7 : ∃ (s : State) (q : Nat) (t : Nat) (f : FollowUp),
    s.chip.passes .running = true ∧
    q < 40 ∧ (s.chip.canSq q).fuDue.find? (fun x => decide (x.1 ≤ s.chip.now)) = some (t, f) ∧ (s.chip.canSq q).fu = none :=
  ⟨{ chip := { regs := [], can := [(5, { fuDue := [(0, { payload := [1], seq := 2 })] })] } }, 5, 0, { payload := [1], seq := 2 }, by decide⟩

theorem witness_CanReceiveAndTimeCommands_8 : ∃ (s : State) (q : Nat) (t : Nat) (f : FollowUp) (o : FollowUp),
    s.chip.passes .running = true ∧
    q < 40 ∧ (s.chip.canSq q).fuDue.find? (fun x => decide (x.1 ≤ s.chip.now)) = some (t, f) ∧ (s.chip.canSq q).onBus ≠ some .followUp ∧
    (s.chip.canSq q).fu = some o :=
  ⟨{ chip := { regs := [], can := [(5, { fuDue := [(0, { payload := [1], seq := 2 })], fu := some { payload := [2], seq := 17 } })] } }, 5, 0, { payload := [1], seq := 2 }, { payload := [2], seq := 17 }, by decide⟩

theorem witness_CanReceiveAndTimeCommands_9 : ∃ (s : State) (k : Nat) (q : Nat) (a : Nat) (r : RegRow),
    s.chip.passes .running = true ∧
    q < 41 ∧ a = (if q = 40 then Reg.TSYNC.TS_CTRL else Reg.TSYNC.TS_SQ q) ∧
    s.chip.accepts k a = true ∧ rowOf a = some r :=
  ⟨{ chip := { regs := [] } }, 0, 39, 0x11378, (rowOf 0x11378).getD { off := 0 }, by decide⟩

theorem witness_EthernetReceiveCommands_1 : ∃ (s : State) (q : Nat) (b : List Byte),
    s.chip.passes .running = true ∧
    40 ≤ q ∧ q < 64 ∧ s.chip.rxOn q = true ∧ 60 ≤ b.length ∧ etherType b ≠ 0x8808 ∧ (s.chip.ethSq q).tooLong = false ∧
    b.length + 4 ≤ (if q < 48 then min (s.chip.fldOf (Reg.ETH.MAX_LEN q) 13 0) 8180 else s.chip.fldOf (Reg.ETH.MAX_LEN q) 13 0) :=
  ⟨{ chip := { regs := [(1245248, 1), (1245252, 1)] } }, 48, List.replicate 60 1, by decide⟩

theorem witness_EthernetReceiveCommands_2 : ∃ (s : State) (q : Nat) (b : List Byte),
    s.chip.passes .running = true ∧
    40 ≤ q ∧ q < 64 ∧ s.chip.rxOn q = true ∧ 60 ≤ b.length ∧ (s.chip.ethSq q).tooLong = false ∧
    b.length + 4 ≤ (if q < 48 then min (s.chip.fldOf (Reg.ETH.MAX_LEN q) 13 0) 8180 else s.chip.fldOf (Reg.ETH.MAX_LEN q) 13 0) :=
  ⟨{ chip := { regs := [(1212480, 1), (1212484, 1)] } }, 40, List.replicate 60 1, by decide⟩

theorem witness_EthernetReceiveCommands_3 : ∃ (s : State) (q : Nat),
    s.chip.passes .running = true ∧
    40 ≤ q ∧ q < 64 ∧ s.chip.rxOn q = true :=
  ⟨{ chip := { regs := [(1245248, 1), (1245252, 1)] } }, 48, by decide⟩

theorem witness_EthernetReceiveCommands_4 : ∃ (s : State) (q : Nat) (t : Nat),
    s.chip.passes .running = true ∧
    48 ≤ q ∧ q < 64 ∧ s.chip.rxOn q = true ∧ s.chip.fcMode q = 1 ∧ 0 < t ∧
    (s.chip.ethSq q).ignoring / 2 ^ 8 % 2 = 0 ∧ 1000 ≤ s.chip.fldOf (Reg.ETH.FC_DUTY q) 9 0 ∧ (s.chip.ethSq q).onLine = none :=
  ⟨{ chip := { regs := [(1245248, 0x101), (1245252, 1), (1245276, 1000), (1638464, 4)] } }, 48, 65535, by decide⟩

theorem witness_EthernetReceiveCommands_5 : ∃ (s : State) (q : Nat) (t : Nat) (id : Nat),
    s.chip.passes .running = true ∧
    48 ≤ q ∧ q < 64 ∧ s.chip.rxOn q = true ∧ s.chip.fcMode q = 1 ∧ 0 < t ∧
    (s.chip.ethSq q).ignoring / 2 ^ 8 % 2 = 0 ∧ 1000 ≤ s.chip.fldOf (Reg.ETH.FC_DUTY q) 9 0 ∧ (s.chip.ethSq q).onLine = some id :=
  ⟨{ chip := { regs := [(1245248, 0x101), (1245252, 1), (1245276, 1000), (1638464, 4)], eth := [(48, { tx := some { copy := { id := 3 } } })] } }, 48, 65535, 3, by decide⟩

theorem witness_EthernetReceiveCommands_6 : ∃ (s : State) (q : Nat) (op : Nat),
    s.chip.passes .running = true ∧
    40 ≤ q ∧ q < 64 ∧ s.chip.rxOn q = true ∧
    (q < 48 ∨ (op ≠ 1 ∧ op ≠ 0x101) ∨ (op = 1 ∧ s.chip.fcMode q ≠ 1) ∨ (op = 0x101 ∧ s.chip.fcMode q ≠ 2)) :=
  ⟨{ chip := { regs := [(1212480, 1), (1212484, 1)] } }, 40, 1, by decide⟩

theorem witness_EthernetReceiveCommands_7 : ∃ (s : State) (q : Nat) (ch : Nat),
    s.chip.passes .running = true ∧
    40 ≤ q ∧ q < 64 ∧ ch < 9 ∧ sget 0 (s.chip.ethSq q).pauseEnd ch ≠ 0 ∧ sget 0 (s.chip.ethSq q).pauseEnd ch ≤ s.chip.now :=
  ⟨{ chip := { regs := [(1245252, 0x11)], eth := [(48, { pauseEnd := [(8, 5)] })], now := 5 } }, 48, 8, by decide⟩

theorem witness_EthernetReceiveCommands_8 : ∃ (s : State) (q : Nat),
    s.chip.passes .running = true ∧
    40 ≤ q ∧ q < 64 ∧ s.chip.ns / 10 ^ 9 ≠ (s.chip.ethSq q).dutyWindow :=
  ⟨{ chip := { regs := [(1245252, 0x20)], eth := [(48, { ignoring := 256 })], tempo := { value := 10 ^ 9 * 2 ^ 48 } } }, 48, by decide⟩

theorem witness_EthernetReceiveCommands_9 : ∃ (s : State) (q : Nat) (ch : Nat),
    s.chip.passes .running = true ∧
    40 ≤ q ∧ q < 64 ∧ ch < 9 ∧ (s.chip.fcChannels q).contains ch = true ∧ (s.chip.ethSq q).cond / 2 ^ ch % 2 = 1 ∧ sget 0 (s.chip.ethSq q).txPauseNext ch ≤ s.chip.now :=
  ⟨{ chip := { regs := [(1245248, 0x100), (1638464, 4)], eth := [(48, { cond := 256, txPauseNext := [(8, 5)] })], now := 6 } }, 48, 8, by decide⟩

theorem witness_EthernetReceiveCommands_10 : ∃ (s : State) (q : Nat),
    s.chip.passes .running = true ∧
    40 ≤ q ∧ q < 64 ∧ s.chip.implemented (0x100 + q) = true ∧ s.chip.held (0x100 + q) = false :=
  ⟨{ chip := { regs := [(1245400, 0x80000003)] } }, 48, by decide⟩

theorem witness_EthernetLinkCommands_1 : ∃ (s : State) (q : Nat) (st : Nat) (t : Nat),
    s.chip.passes .running = true ∧
    48 ≤ q ∧ q < 64 ∧ pcsUp (s.chip.reg (Reg.SDS.SDS_MODE q)) st = true ∧ (s.chip.ethSq q).pcsUpAt = some t ∧
    t + s.chip.fldOf (Reg.ETH.LINK_CFG q) 15 0 * 10 ^ 9 ≤ s.chip.now ∧ s.chip.ethStat q 0 = false :=
  ⟨{ chip := { regs := [(1245252, 2), (1245284, 0x80000000), (1638464, 4)], eth := [(48, { pcsUpAt := some 0, holdUntil := some 4 })], now := 10 ^ 13 } }, 48, 7, 0, by decide⟩

theorem witness_EthernetLinkCommands_2 : ∃ (s : State) (q : Nat) (st : Nat),
    s.chip.passes .running = true ∧
    48 ≤ q ∧ q < 64 ∧ pcsUp (s.chip.reg (Reg.SDS.SDS_MODE q)) st = false ∧ s.chip.ethStat q 0 = true ∧
    0 < s.chip.fldOf (Reg.ETH.LINK_CFG q) 31 16 :=
  ⟨{ chip := { regs := [(1245252, 1), (1638464, 4)], eth := [(48, { pcsUpAt := some 0 })], now := 10 ^ 13 } }, 48, 3, by decide⟩

theorem witness_EthernetLinkCommands_3 : ∃ (s : State) (q : Nat) (t : Nat),
    s.chip.passes .running = true ∧
    40 ≤ q ∧ q < 64 ∧ (s.chip.ethSq q).holdUntil = some t ∧ t ≤ s.chip.now :=
  ⟨{ chip := { regs := [], eth := [(48, { holdUntil := some 0 })], fab := { copies := [{ id := 3, output := 48, held := true }, { id := 4, output := 5 }] } } }, 48, 0, by decide⟩

theorem witness_EthernetLinkCommands_4 : ∃ (s : State) (q : Nat),
    s.chip.passes .running = true ∧
    40 ≤ q ∧ q < 48 ∧ s.chip.bitOf (Reg.ETH.PLCA_CFG q) 31 = true ∧
    (s.chip.bitOf (Reg.ETH.CTRL q) 0 = true ∨ s.chip.bitOf (Reg.ETH.CTRL q) 1 = true) :=
  ⟨{ chip := { regs := [(1212480, 3), (1212624, 0x80002080)] } }, 40, by decide⟩

theorem witness_EthernetLinkCommands_5 : ∃ (s : State) (q : Nat),
    s.chip.passes .running = true ∧
    40 ≤ q ∧ q < 48 ∧ s.chip.bitOf (Reg.ETH.PLCA_CFG q) 31 = true ∧
    s.chip.fldOf (Reg.ETH.PLCA_NODE q) 2 0 ≠ 0 ∧ s.chip.ethStat q 18 = true :=
  ⟨{ chip := { regs := [(1212480, 3), (1212484, 0x40001), (1212624, 0xC0002080), (1212628, 0x802)] } }, 40, by decide⟩

theorem witness_EthernetLinkCommands_6 : ∃ (s : State) (k : Nat) (q : Nat) (v : Word) (be : Nat) (nv : Word),
    s.chip.passes .running = true ∧
    48 ≤ q ∧ q < 64 ∧ s.chip.accepts k (Reg.SDS.SDS_MODE q) = true ∧
    nv = (s.chip.reg (Reg.SDS.SDS_MODE q) &&& ~~~ (0x313F &&& beMask be)) ||| (v &&& (0x313F &&& beMask be)) ∧
    s.chip.bitOf (Reg.ETH.CTRL q) 0 = false ∧ s.chip.bitOf (Reg.ETH.CTRL q) 1 = false ∧ sdsModeBad q nv = false :=
  ⟨{ chip := { regs := [] } }, 0, 63, 0x25, 0xF, 0x25, by decide⟩

theorem witness_EthernetLinkCommands_7 : ∃ (s : State) (k : Nat) (q : Nat) (v : Word) (be : Nat) (nv : Word),
    s.chip.passes .running = true ∧
    48 ≤ q ∧ q < 64 ∧ s.chip.accepts k (Reg.SDS.SDS_MODE q) = true ∧
    nv = (s.chip.reg (Reg.SDS.SDS_MODE q) &&& ~~~ (0x313F &&& beMask be)) ||| (v &&& (0x313F &&& beMask be)) ∧
    (s.chip.bitOf (Reg.ETH.CTRL q) 0 = true ∨ s.chip.bitOf (Reg.ETH.CTRL q) 1 = true ∨ sdsModeBad q nv = true) :=
  ⟨{ chip := { regs := [] } }, 0, 48, 5, 0xF, 5, by decide⟩

theorem witness_EthernetLinkCommands_8 : ∃ (s : State) (k : Nat) (q : Nat) (v : Word) (w : Word) (a : Word),
    s.chip.passes .running = true ∧
    (q = 48 ∨ q = 56) ∧
    s.chip.accepts k (Reg.SDS.MDIO_CMD q) = true ∧ s.chip.bitOf (Reg.SDS.MDIO_CMD q) 31 = false ∧ bit v 31 = true ∧
    w = v &&& 0xF3FFFFFF ∧ a = setFld (setFld w 29 28 0) 15 0 (s.chip.fldOf (Reg.SDS.MDIO_ADDR q) 15 0) :=
  ⟨{ chip := { regs := [(1671304, 0x1234)] } }, 0, 56, 0xFC000007, 0xF0000007, setFld (setFld (0xF0000007 : Word) 29 28 0) 15 0 (fld (0x1234 : Word) 15 0), by decide⟩

theorem witness_EthernetLinkCommands_9 : ∃ (s : State) (q : Nat) (cmd : Word),
    s.chip.passes .running = true ∧
    (q = 48 ∨ q = 56) ∧
    cmd = s.chip.reg (Reg.SDS.MDIO_CMD q) ∧ bit cmd 31 = true :=
  ⟨{ chip := { regs := [(1638532, 0xF0000000)] } }, 48, 0xF0000000, by decide⟩

theorem witness_EthernetLinkCommands_10 : ∃ (s : State) (q : Nat),
    s.chip.passes .running = true ∧
    48 ≤ q ∧ q < 64 ∧ s.chip.fldOf (Reg.ETH.STATUS q) 17 16 = 1 :=
  ⟨{ chip := { regs := [(1245252, 0x10001)], eth := [(48, { attempts := 1, verifyAt := some 3 })] } }, 48, by decide⟩

theorem witness_EthernetLinkCommands_11 : ∃ (s : State) (q : Nat) (t : Nat),
    s.chip.passes .running = true ∧
    48 ≤ q ∧ q < 64 ∧ s.chip.fldOf (Reg.ETH.STATUS q) 17 16 = 1 ∧ (s.chip.ethSq q).verifyAt = some t ∧ t ≤ s.chip.now :=
  ⟨{ chip := { regs := [(1245252, 0x10001)], eth := [(48, { attempts := 3, verifyAt := some 3 })], now := 3 } }, 48, 3, by decide⟩

theorem witness_EthernetTransmitCommands_1 : ∃ (s : State) (q : Nat) (c0 : Chip) (c1 : Chip) (k : Copy) (b : List Byte),
    s.chip.passes .running = true ∧
    40 ≤ q ∧ q < 64 ∧ c0 = s.chip.plcaBeacon q ∧ c0.txOn q = true ∧ (c0.ethSq q).tx = none ∧ (c0.ethSq q).gapEnd ≤ c0.now ∧
    (c0.ethSq q).pausePend = [] ∧ (c0.ethSq q).mmPend = [] ∧
    c1 = (List.range 8).foldl (fun c cls => c.purgeHead q cls c.fab.copies.length) (c0.creditUpdate q) ∧
    c1.startable q = some k ∧ c1.ethStat q 2 = false ∧ k.passed = true ∧ k.ready = true ∧
    (c1.macsecTx q (editFrame k)).2 = some b :=
  ⟨({ chip := { regs := [(1245248, 2), (1245252, 1), (1638464, 4)], fab := { copies := [({ id := 3, output := 48, cls := 5, kind := .eth, data := List.replicate 76 1, cells := 2, egr := 2, arrived := 2, compared := 2, appended := true, passed := true } : Copy)] } } } : State), 48, Chip.plcaBeacon (State.chip ({ chip := { regs := [(1245248, 2), (1245252, 1), (1638464, 4)], fab := { copies := [({ id := 3, output := 48, cls := 5, kind := .eth, data := List.replicate 76 1, cells := 2, egr := 2, arrived := 2, compared := 2, appended := true, passed := true } : Copy)] } } } : State)) 48, (List.range 8).foldl (fun c cls => c.purgeHead 48 cls c.fab.copies.length) (Chip.creditUpdate (State.chip ({ chip := { regs := [(1245248, 2), (1245252, 1), (1638464, 4)], fab := { copies := [({ id := 3, output := 48, cls := 5, kind := .eth, data := List.replicate 76 1, cells := 2, egr := 2, arrived := 2, compared := 2, appended := true, passed := true } : Copy)] } } } : State)) 48), ({ id := 3, output := 48, cls := 5, kind := .eth, data := List.replicate 76 1, cells := 2, egr := 2, arrived := 2, compared := 2, appended := true, passed := true } : Copy), editFrame ({ id := 3, output := 48, cls := 5, kind := .eth, data := List.replicate 76 1, cells := 2, egr := 2, arrived := 2, compared := 2, appended := true, passed := true } : Copy), by decide⟩

theorem witness_EthernetTransmitCommands_2 : ∃ (s : State) (q : Nat) (c0 : Chip) (c1 : Chip) (k : Copy),
    s.chip.passes .running = true ∧
    40 ≤ q ∧ q < 64 ∧ c0 = s.chip.plcaBeacon q ∧ c0.txOn q = true ∧ (c0.ethSq q).tx = none ∧ (c0.ethSq q).gapEnd ≤ c0.now ∧
    (c0.ethSq q).pausePend = [] ∧ (c0.ethSq q).mmPend = [] ∧
    c1 = (List.range 8).foldl (fun c cls => c.purgeHead q cls c.fab.copies.length) (c0.creditUpdate q) ∧
    c1.startable q = some k ∧ c1.ethStat q 2 = false ∧ k.passed = false :=
  ⟨({ chip := { regs := [(1245248, 2), (1245252, 1), (1638464, 4)], fab := { copies := [({ id := 3, output := 48, cls := 5, kind := .eth, data := List.replicate 76 1, cells := 2, egr := 2, arrived := 2, appended := true } : Copy)] } } } : State), 48, Chip.plcaBeacon (State.chip ({ chip := { regs := [(1245248, 2), (1245252, 1), (1638464, 4)], fab := { copies := [({ id := 3, output := 48, cls := 5, kind := .eth, data := List.replicate 76 1, cells := 2, egr := 2, arrived := 2, appended := true } : Copy)] } } } : State)) 48, (List.range 8).foldl (fun c cls => c.purgeHead 48 cls c.fab.copies.length) (Chip.creditUpdate (State.chip ({ chip := { regs := [(1245248, 2), (1245252, 1), (1638464, 4)], fab := { copies := [({ id := 3, output := 48, cls := 5, kind := .eth, data := List.replicate 76 1, cells := 2, egr := 2, arrived := 2, appended := true } : Copy)] } } } : State)) 48), ({ id := 3, output := 48, cls := 5, kind := .eth, data := List.replicate 76 1, cells := 2, egr := 2, arrived := 2, appended := true } : Copy), by decide⟩

theorem witness_EthernetTransmitCommands_3 : ∃ (s : State) (q : Nat) (fn : Nat) (n : Nat) (c0 : Chip) (c1 : Chip) (k : Copy),
    s.chip.passes .running = true ∧
    40 ≤ q ∧ q < 64 ∧ c0 = s.chip.plcaBeacon q ∧ c0.txOn q = true ∧ (c0.ethSq q).tx = none ∧ (c0.ethSq q).gapEnd ≤ c0.now ∧
    (c0.ethSq q).pausePend = [] ∧ (c0.ethSq q).mmPend = [] ∧
    c1 = (List.range 8).foldl (fun c cls => c.purgeHead q cls c.fab.copies.length) (c0.creditUpdate q) ∧
    c1.startable q = some k ∧ c1.ethStat q 2 = false ∧ k.passed = false ∧ k.genFn = some fn ∧ k.genSeq = none ∧
    n = fld (c1.tword (clsBase + 0x2000 + 8 * fn)) 15 0 :=
  ⟨({ chip := { regs := [(1245248, 2), (1245252, 1), (1638464, 4)], tbl := [(2098178, 0xFFFF)], fab := { copies := [({ id := 3, output := 48, cls := 5, kind := .eth, data := List.replicate 76 1, cells := 2, egr := 2, arrived := 2, appended := true, genFn := some 2 } : Copy)] } } } : State), 48, 2, 65535, Chip.plcaBeacon (State.chip ({ chip := { regs := [(1245248, 2), (1245252, 1), (1638464, 4)], tbl := [(2098178, 0xFFFF)], fab := { copies := [({ id := 3, output := 48, cls := 5, kind := .eth, data := List.replicate 76 1, cells := 2, egr := 2, arrived := 2, appended := true, genFn := some 2 } : Copy)] } } } : State)) 48, (List.range 8).foldl (fun c cls => c.purgeHead 48 cls c.fab.copies.length) (Chip.creditUpdate (State.chip ({ chip := { regs := [(1245248, 2), (1245252, 1), (1638464, 4)], tbl := [(2098178, 0xFFFF)], fab := { copies := [({ id := 3, output := 48, cls := 5, kind := .eth, data := List.replicate 76 1, cells := 2, egr := 2, arrived := 2, appended := true, genFn := some 2 } : Copy)] } } } : State)) 48), ({ id := 3, output := 48, cls := 5, kind := .eth, data := List.replicate 76 1, cells := 2, egr := 2, arrived := 2, appended := true, genFn := some 2 } : Copy), by decide⟩

theorem witness_EthernetTransmitCommands_4 : ∃ (s : State) (q : Nat) (f : MacFrame),
    s.chip.passes .running = true ∧
    40 ≤ q ∧ q < 64 ∧ (s.chip.ethSq q).tx = some f ∧ s.chip.txBroken q f = none ∧
    (s.chip.bitOf (Reg.ETH.CTRL q) 2 = false ∨ s.chip.bitOf (Reg.ETH.CTRL q) 0 = false) :=
  ⟨{ chip := { regs := [], eth := [(48, { tx := some { copy := { id := 3, output := 48 }, bytes := List.replicate 60 0 } })], fab := { copies := [{ id := 3, output := 48 }] } } }, 48, { copy := { id := 3, output := 48 }, bytes := List.replicate 60 0 }, by decide⟩

theorem witness_EthernetTransmitCommands_5 : ∃ (s : State) (q : Nat) (r : GateRun) (t : Nat) (e : Nat),
    s.chip.passes .running = true ∧
    40 ≤ q ∧ q < 64 ∧ (s.chip.ethSq q).run = some r ∧ (s.chip.ethSq q).pend = none ∧ r.next ≤ s.chip.ns ∧
    r.at s.chip.ns = some (t, e) :=
  ⟨{ chip := { regs := [], eth := [(48, { run := some { base := 100, cyc := 1000, init := 0xFF, ents := [0x0100000064, 0x0200000064] } })], tempo := { value := 1250 * 2 ^ 48 } } }, 48, { base := 100, cyc := 1000, init := 0xFF, ents := [0x0100000064, 0x0200000064] }, 1100, 1, by decide⟩

theorem witness_EthernetTransmitCommands_6 : ∃ (s : State) (q : Nat) (t : Nat),
    s.chip.passes .running = true ∧
    40 ≤ q ∧ q < 64 ∧ s.chip.lpiPermitted q = true ∧ s.chip.ethStat q 2 = false ∧ s.chip.ethStat q 0 = true ∧
    (s.chip.ethSq q).idleSince = some t ∧ s.chip.fldOf (Reg.ETH.EEE_IDLE q) 15 0 ≠ 0 ∧
    t + s.chip.fldOf (Reg.ETH.EEE_IDLE q) 15 0 * 10 ^ 9 ≤ s.chip.now ∧ s.chip.txBusy q = false :=
  ⟨{ chip := { regs := [(1245248, 0x1000), (1245252, 1), (1245284, 0x80000000), (1638464, 4)], now := 64 * 10 ^ 9 } }, 48, 0, by decide⟩

theorem witness_EthernetTransmitCommands_7 : ∃ (s : State) (q : Nat) (t : Nat),
    s.chip.passes .running = true ∧
    40 ≤ q ∧ q < 64 ∧ s.chip.ethStat q 2 = true ∧ firstOpening (s.chip.gates q) (s.chip.nextEntries q) = some t ∧
    t ≤ s.chip.ns + s.chip.fldOf (Reg.ETH.EEE_TW q) 14 0 :=
  ⟨{ chip := { regs := [(1245252, 5), (1245284, 0x800000C8), (1245320, 0x1)], eth := [(48, { run := some { base := 100, cyc := 1000, init := 0xFF, ents := [0x0100000064, 0x0300000064] } })] } }, 48, 200, by decide⟩

theorem witness_EthernetTransmitCommands_8 : ∃ (s : State) (fn : Nat) (w0 : Word64),
    s.chip.passes .running = true ∧
    fn < 1024 ∧ w0 = s.chip.tword (frerOff fn 0) ∧ bit w0 63 = true ∧ fld w0 47 32 ≠ 0 ∧
    bit (s.chip.tword (frerOff fn 1)) 0 = false ∧ (s.chip.frerFn fn).accepted + fld w0 47 32 * 10 ^ 12 ≤ s.chip.now :=
  ⟨{ chip := { regs := [], tbl := [(0x206000, 0x8000000100000000)], now := 10 ^ 12 } }, 0, 0x8000000100000000, by decide⟩

theorem witness_EthernetTransmitCommands_9 : ∃ (s : State) (fn : Nat) (w0 : Word64) (w2 : Word64) (diff : Int),
    s.chip.passes .running = true ∧
    fn < 1024 ∧ w0 = s.chip.tword (frerOff fn 0) ∧ w2 = s.chip.tword (frerOff fn 2) ∧ bit w0 63 = true ∧ bit w0 60 = true ∧
    fld w0 31 16 ≠ 0 ∧ (s.chip.frerFn fn).tested + fld w0 31 16 * 10 ^ 12 ≤ s.chip.now ∧
    diff = Int.ofNat (fld w2 63 32 * (fld w0 59 56 - 1)) - Int.ofNat (fld w2 31 0) :=
  ⟨{ chip := { regs := [], tbl := [(0x206000, 0x9210000000010005), (0x206002, 0x0000000100000064)], now := 10 ^ 12 } }, 0, 0x9210000000010005, 0x0000000100000064, Int.ofNat (1 * 1) - Int.ofNat 100, by decide⟩

theorem witness_FrameCommandsComplete_1 : ∃ (s : State) (k : Nat) (q : Nat) (v : Word),
    s.chip.passes .running = true ∧
    q < 64 ∧ s.chip.accepts k (Reg.STG.FLUSH q) = true ∧ fld v 15 0 = 0x464C :=
  ⟨{ chip := { regs := [(0x145050, 7)], stg := [(5, { pkts := [{ slot := 3, words := stgWords [1, 2] }] })] } }, 0, 5, 0x464C, by decide⟩

theorem witness_FrameCommandsComplete_2 : ∃ (s : State) (q : Nat),
    s.chip.passes .running = true ∧
    q < 64 ∧ s.chip.implemented (0x140 + q) = true ∧ s.chip.held (0x140 + q) = false :=
  ⟨{ chip := { regs := [] } }, 63, by decide⟩

theorem witness_FrameCommandsComplete_3 : ∃ (s : State) (q : Nat),
    s.chip.passes .running = true ∧
    q < 64 ∧ s.chip.implemented (0x140 + q) = true ∧ s.chip.held (0x140 + q) = false :=
  ⟨{ chip := { regs := [] } }, 0, by decide⟩

theorem witness_FrameCommandsComplete_4 : ∃ (s : State) (q : Nat) (bad : Nat) (k : StgPkt) (rest : List StgPkt),
    s.chip.passes .running = true ∧
    q < 64 ∧ (s.chip.stgSq q).pkts = k :: rest ∧ k.early = false ∧ k.gone = false ∧
    s.chip.lockstep = true ∧ s.chip.planeRuns s.chip.move = true ∧ (s.chip.stgSq q).cut = none ∧ (s.chip.stgSq q).relW = 0 ∧ (s.chip.stgSq q).relB = 0 ∧
    (bad = 2 ∨ k.bad = true) ∨ bad = 1 ∨ (stgPktAborted k = false ∧ crc32c (stgPktData k) ≠ stgPktChk k) :=
  ⟨{ chip := { regs := [], stg := [(5, { pkts := [{ slot := 3, words := [{ tag := stgTag 2 true 1 0, data := [1] }] }] })] } }, 5, 0, { slot := 3, words := [{ tag := stgTag 2 true 1 0, data := [1] }] }, [], by decide⟩

theorem witness_FrameCommandsComplete_5 : ∃ (s : State) (q : Nat) (k : StgPkt) (rest : List StgPkt),
    s.chip.passes .running = true ∧
    (q < 64 ∧ (s.chip.stgSq q).pkts = k :: rest ∧ k.bad = false ∧ k.gone = false ∧ (stgPktAborted k = true ∨ crc32c (stgPktData k) = stgPktChk k)) ∧
    s.chip.lockstep = true ∧ s.chip.planeRuns s.chip.move = true ∧ (s.chip.stgSq q).cut = none ∧ (s.chip.stgSq q).relW = 0 ∧ (s.chip.stgSq q).relB = 0 ∧
    bit (s.chip.regAt ((k.head.map (·.1)).getD s.chip.epoch) Reg.CLS.CTRL) 0 = false :=
  ⟨{ chip := { regs := [(0x48040, 0)], stg := [(5, { pkts := [{ slot := 3, words := [stgAbort] }] })] } }, 5, { slot := 3, words := [stgAbort] }, [], by decide⟩

theorem witness_FrameCommandsComplete_6 : ∃ (s : State) (q : Nat) (k : StgPkt) (rest : List StgPkt),
    s.chip.passes .running = true ∧
    (q < 64 ∧ (s.chip.stgSq q).pkts = k :: rest ∧ k.bad = false ∧ k.gone = false ∧ (stgPktAborted k = true ∨ crc32c (stgPktData k) = stgPktChk k)) ∧
    s.chip.lockstep = true ∧ s.chip.planeRuns s.chip.move = true ∧ (s.chip.stgSq q).cut = none ∧ (s.chip.stgSq q).relW = 0 ∧ (s.chip.stgSq q).relB = 0 ∧
    bit (s.chip.regAt ((k.head.map (·.1)).getD s.chip.epoch) Reg.CLS.CTRL) 0 = true ∧ s.chip.castleStops = false :=
  ⟨{ chip := { regs := [(0x48040, 1)], stg := [(5, { pkts := [{ slot := 3, words := [stgAbort] }] })] } }, 5, { slot := 3, words := [stgAbort] }, [], by decide⟩

theorem witness_FrameCommandsComplete_7 : ∃ (s : State) (q : Nat),
    s.chip.passes .running = true ∧
    q < 64 ∧ s.chip.planeRuns 0 = true ∧ (s.chip.stgSq q).cutW = false ∧
    (s.chip.stgVisible q).find? (fun e => e.1 = s.chip.stgRd 0 q) = none :=
  ⟨{ chip := { regs := [], stg := [(5, { readW := { tag := stgTag 2 true 1 0, data := [1] } })] } }, 5, by decide⟩

theorem witness_FrameCommandsComplete_8 : ∃ (s : State) (q : Nat),
    s.chip.passes .running = true ∧
    q < 64 ∧ s.chip.planeRuns 0 = true ∧ s.chip.bitOf (Reg.STG.MARK_STAT q) 31 = true :=
  ⟨{ chip := { regs := [(0x145060, 0x80000003), (0x145058, 9)] } }, 5, by decide⟩

theorem witness_FrameCommandsComplete_9 : ∃ (s : State) (k : Nat) (off : Nat) (r : Region) (i : Nat) (m : Word64),
    s.chip.passes .recovery = true ∧
    k < 4 ∧ off % 8 = 0 ∧ s.chip.implemented 0x048 = true ∧ s.chip.owner 0x048 = k ∧ windowPage off = some (0x048, 0x1000000) ∧
    (regionAt off = some (r, i, 0) ∧ (r.tag = .source ∨ r.tag = .frerGen) ∧ m = BitVec.ofNat 64 (r.masks.getD 0 0)) ∧
    s.chip.unjournalled k 0x048 = true ∧ s.chip.entryBuf k = none ∧ s.chip.tableRetired off = false :=
  ⟨{ chip := { regs := [] } }, 0, 0x01000008, { tag := .source, base := 0x0100_0000, n := 128, words := 1, commit := some 0, masks := [allBits] }, 1, BitVec.ofNat 64 allBits, by decide⟩

theorem witness_FrameCommandsComplete_10 : ∃ (s : State) (k : Nat) (off : Nat) (x : Word64) (r : Region) (i : Nat),
    s.chip.passes .recovery = true ∧
    k < 4 ∧ off % 8 = 0 ∧ s.chip.implemented 0x048 = true ∧ s.chip.owner 0x048 = k ∧ windowPage off = some (0x048, 0x1000000) ∧
    (regionAt off = some (r, i, 1) ∧ (r.tag = .ethHash ∨ r.tag = .canHash)) ∧
    s.chip.unjournalled k 0x048 = true ∧ s.chip.entryBuf k = some { first := off - 8, words := [(0, x)] } ∧
    s.chip.tableRetired off = false :=
  ⟨{ chip := { regs := [], ep := { bufs := [(0, { first := 0x01200010, words := [(0, 0x77)] })] } } }, 0, 0x01200018, 0x77, { tag := .ethHash, base := 0x0120_0000, n := 65536, words := 2, commit := some 1, masks := [allBits, 0x8000_0000_0000_3FFF] }, 1, by decide⟩

theorem witness_FrameCommandsComplete_11 : ∃ (s : State) (g : Nat) (p : GateRun),
    s.chip.passes .running = true ∧
    g < 512 ∧ lookupKey s.chip.pol.gatesPend g = some p ∧ p.base ≤ s.chip.ns :=
  ⟨{ chip := { regs := [], pol := { gatesPend := [(7, { base := 0, cyc := 10, ents := [5] })] } } }, 7, { base := 0, cyc := 10, ents := [5] }, by decide⟩

theorem witness_FrameCommandsComplete_12 : ∃ (s : State) (g : Nat) (r : GateRun),
    s.chip.passes .running = true ∧
    g < 512 ∧ lookupKey s.chip.pol.gatesPend g = none ∧ lookupKey s.chip.pol.gates g = some r ∧ r.next ≤ s.chip.ns :=
  ⟨{ chip := { regs := [], pol := { gates := [(7, { base := 0, cyc := 10, ents := [5] })] } } }, 7, { base := 0, cyc := 10, ents := [5] }, by decide⟩

theorem witness_FrameCommandsComplete_13 : ∃ (s : State) (i : Nat),
    s.chip.passes .running = true ∧
    i < 64 ∧ s.chip.ns / (s.chip.guardWin * 1000000) ≠ s.chip.guard.window ∧ s.chip.guardOn = true ∧ s.chip.guard.short = false :=
  ⟨{ chip := { regs := [(0x4A040, 0x80000001)], tempo := { value := 10 ^ 6 * 2 ^ 48 }, guard := { sq := [(63, { frames := 70000, wire := 5 * 10 ^ 11 })] } } }, 63, by decide⟩

theorem witness_FrameCommandsComplete_14 : ∃ (s : State) (k : Nat) (hi : Bool) (a : Nat),
    s.chip.passes .running = true ∧
    a = (if hi then Reg.GUARD.QUAR_HI else Reg.GUARD.QUAR_LO) ∧
    s.chip.accepts k a = true :=
  ⟨{ chip := { regs := [(0x4A044, 0xFF)] } }, 0, false, 0x4A044, by decide⟩

theorem witness_FrameCommandsComplete_15 : ∃ (s : State) (i : Nat) (t : Nat),
    s.chip.passes .running = true ∧
    i < 64 ∧ s.chip.quarantined i = true ∧ (s.chip.guardSq i).quarUntil = some t ∧ t ≤ s.chip.now :=
  ⟨{ chip := { regs := [(0x4A048, 0x80000000)], guard := { sq := [(63, { quarUntil := some 0 })] } } }, 63, 0, by decide⟩

theorem witness_SignalCommandsComplete_1 : ∃ (s : State) (k : Copy),
    s.chip.passes .running = true ∧
    s.chip.fab.copies.find? (fun x => x.appended && x.output = 69) = some k ∧ k.aborted = false ∧ k.cells ≤ k.arrived ∧ s.chip.sigTurn 1 = true ∧
    bit (s.chip.regAt k.epoch Reg.SIG.CTRL) 0 = false ∧ s.chip.residenceOver k = false :=
  ⟨{ chip := { regs := [(0x50040, 0)], fab := { copies := [{ id := 4, output := 69, appended := true }] } } }, { id := 4, output := 69, appended := true }, by decide⟩

theorem witness_SignalCommandsComplete_2 : ∃ (s : State) (k : Copy),
    s.chip.passes .running = true ∧
    s.chip.fab.copies.find? (fun x => x.appended && x.output = 69) = some k ∧ k.aborted = false ∧ k.cells ≤ k.arrived ∧ s.chip.sigTurn 1 = true ∧
    s.chip.residenceOver k = false ∧ bit (s.chip.regAt k.epoch Reg.SIG.CTRL) 0 = true ∧ s.chip.layoutFault k.epoch k.layout = 0 ∧ s.chip.kind k.epoch k.layout = 0 :=
  ⟨{ chip := { regs := [(0x50040, 1)], tbl := [(3670016, 0x8002000000000000)], fab := { copies := [{ id := 4, output := 69, appended := true }] } } }, { id := 4, output := 69, appended := true }, by decide⟩

theorem witness_SignalCommandsComplete_3 : ∃ (s : State) (i : Nat),
    s.chip.passes .running = true ∧
    i < 65536 ∧ (lookupKey s.chip.inReset 0x050).isNone = true ∧ (s.chip.txn (s.chip.owner 0x050)).state ≠ 1 ∧
    s.chip.sigValid s.chip.epoch i = true ∧
    (s.chip.sigStatus i = 0 ∨ s.chip.sigCapture i ≤ s.chip.ns) :=
  ⟨{ chip := { regs := [], tbl := [(3145728, 0x8000000000000000), (3407874, 0x40000000FFFFFFFF)] } }, 0, by decide⟩

theorem witness_SignalCommandsComplete_4 : ∃ (s : State) (i : Nat),
    s.chip.passes .running = true ∧
    i < 65536 ∧ s.chip.sig.falls.contains i = false :=
  ⟨{ chip := { regs := [], sig := { falls := [3] } } }, 0, by decide⟩

theorem witness_SignalCommandsComplete_5 : ∃ (c : Chip) (i : Nat) (w : Nat),
    c.sig.falls = [i] ∧ c.flagDown i = true ∧
    w < 8 ∧ c.bitOf (Reg.SIG.FALL_WATCH w) 31 = true ∧ c.fldOf (Reg.SIG.FALL_WATCH w) 15 0 = i :=
  ⟨State.chip { chip := { regs := [(0x50104, 0x80000000)], sig := { falls := [0] }, tempo := { value := 20000 * 2 ^ 48 }, tbl := [(3145728, 0x8000000000010000), (3407874, 0x4000000000000001)] } }, 0, 1, by decide⟩

theorem witness_SignalCommandsComplete_6 : ∃ (c : Chip) (i : Nat),
    c.sig.falls = [i] ∧ c.flagDown i = false :=
  ⟨State.chip { chip := { regs := [], sig := { falls := [0] } } }, 0, by decide⟩

theorem witness_SignalCommandsComplete_7 : ∃ (s : State),
    s.chip.passes .running = true ∧
    s.chip.bitOf Reg.SIG.STATUS 0 = true ∧
    s.chip.listedSignals.any (fun i => s.chip.flagDown i && decide (fld (s.chip.sigSt i 2) 55 48 ≠ s.chip.stepGen)) = false :=
  ⟨{ chip := { regs := [(0x50044, 1)] } }, by decide⟩

theorem witness_SignalCommandsComplete_8 : ∃ (s : State) (l : Nat) (p : Nat),
    s.chip.passes .running = true ∧
    l < 16384 ∧ p = s.chip.layoutPeriod l ∧ 0 < p ∧ (lookupKey s.chip.sig.cyc l).getD 0 < s.chip.ns / p ∧
    s.chip.kind s.chip.epoch l ≠ 0 ∧ bit (s.chip.layout s.chip.epoch l 0) 59 = false :=
  ⟨{ chip := { regs := [(0x50040, 1)], tempo := { value := 20000 * 2 ^ 48 }, fab := { tour := 9 }, tbl := [(3670016, 0x9002000000000000), (3670017, 0x0000100000000000)] } }, 0, 10000, by decide⟩

theorem witness_SignalCommandsComplete_9 : ∃ (s : State) (l : Nat) (x : DeferredEmit),
    s.chip.passes .running = true ∧
    s.chip.sig.deferred.find? (fun y => y.layout = l) = some x ∧ x.due ≤ s.chip.now :=
  ⟨{ chip := { regs := [(0x50040, 1)], sig := { deferred := [{ layout := 0, due := 0, epoch := some 0 }] } } }, 0, { layout := 0, due := 0, epoch := some 0 }, by decide⟩

theorem witness_SignalCommandsComplete_10 : ∃ (c : Chip) (l : Nat) (e : Nat) (x : Option Nat),
    c.sig.falls = [] ∧ c.sig.trig = [(l, x)] ∧ e = x.getD c.epoch ∧
    bit (c.layout e l 0) 59 = false ∧ bit (c.regAt e Reg.SIG.CTRL) 0 = true ∧ c.halted = false ∧
    c.layoutFault e l = 0 ∧ c.kind e l = 1 ∧ c.pduLen e l ≠ 0 :=
  ⟨State.chip { chip := { regs := [(0x50040, 1)], sig := { trig := [(0, none)] }, tempo := { value := 20000 * 2 ^ 48 }, tbl := [(3670016, 0x9002000000000000), (3670017, 0x0000100000000000)] } }, 0, 0, none, by decide⟩

theorem witness_PawnArithmeticCommands_1 : ∃ (s : State) (n : Nat) (v : Invocation) (w : Word),
    s.chip.passes .running = true ∧
    s.chip.issues n v 0x10 0 = true ∧ w = s.chip.nextInsn v :=
  ⟨{ chip := { tbl := [(4194308, 0x40c48000)], pawn := { run := [(2, { prog := 5, epoch := 0, start := 6, len := 40, pc := 2, budget := 100, issued := 7, regs := [(1, 0xffffffffffffffff), (2, 0x2)] })] } } }, 2, { prog := 5, epoch := 0, start := 6, len := 40, pc := 2, budget := 100, issued := 7, regs := [(1, 0xffffffffffffffff), (2, 0x2)] }, 0x40c48000, by decide⟩

theorem witness_PawnArithmeticCommands_2 : ∃ (s : State) (n : Nat) (v : Invocation) (w : Word),
    s.chip.passes .running = true ∧
    s.chip.issues n v 0x11 0 = true ∧ w = s.chip.nextInsn v :=
  ⟨{ chip := { tbl := [(4194308, 0x44c48000)], pawn := { run := [(2, { prog := 5, epoch := 0, start := 6, len := 40, pc := 2, budget := 100, issued := 7, regs := [(1, 0x1), (2, 0x2)] })] } } }, 2, { prog := 5, epoch := 0, start := 6, len := 40, pc := 2, budget := 100, issued := 7, regs := [(1, 0x1), (2, 0x2)] }, 0x44c48000, by decide⟩

theorem witness_PawnArithmeticCommands_3 : ∃ (s : State) (n : Nat) (v : Invocation) (w : Word),
    s.chip.passes .running = true ∧
    s.chip.issues n v 0x12 0 = true ∧ w = s.chip.nextInsn v :=
  ⟨{ chip := { tbl := [(4194308, 0x48c48000)], pawn := { run := [(2, { prog := 5, epoch := 0, start := 6, len := 40, pc := 2, budget := 100, issued := 7, regs := [(1, 0x7fffffffffffffff), (2, 0x2)] })] } } }, 2, { prog := 5, epoch := 0, start := 6, len := 40, pc := 2, budget := 100, issued := 7, regs := [(1, 0x7fffffffffffffff), (2, 0x2)] }, 0x48c48000, by decide⟩

theorem witness_PawnArithmeticCommands_4 : ∃ (s : State) (n : Nat) (v : Invocation) (w : Word),
    s.chip.passes .running = true ∧
    s.chip.issues n v 0x13 0 = true ∧ w = s.chip.nextInsn v :=
  ⟨{ chip := { tbl := [(4194308, 0x4cc48000)], pawn := { run := [(2, { prog := 5, epoch := 0, start := 6, len := 40, pc := 2, budget := 100, issued := 7, regs := [(1, 0x8000000000000000), (2, 0x2)] })] } } }, 2, { prog := 5, epoch := 0, start := 6, len := 40, pc := 2, budget := 100, issued := 7, regs := [(1, 0x8000000000000000), (2, 0x2)] }, 0x4cc48000, by decide⟩

theorem witness_PawnArithmeticCommands_5 : ∃ (s : State) (n : Nat) (v : Invocation) (w : Word),
    s.chip.passes .running = true ∧
    s.chip.issues n v 0x14 0 = true ∧ w = s.chip.nextInsn v :=
  ⟨{ chip := { tbl := [(4194308, 0x50c48000)], pawn := { run := [(2, { prog := 5, epoch := 0, start := 6, len := 40, pc := 2, budget := 100, issued := 7, regs := [(1, 0xffffffffffffffff), (2, 0x2)] })] } } }, 2, { prog := 5, epoch := 0, start := 6, len := 40, pc := 2, budget := 100, issued := 7, regs := [(1, 0xffffffffffffffff), (2, 0x2)] }, 0x50c48000, by decide⟩

theorem witness_PawnArithmeticCommands_6 : ∃ (s : State) (n : Nat) (v : Invocation) (w : Word),
    s.chip.passes .running = true ∧
    s.chip.issues n v 0x15 0 = true ∧ w = s.chip.nextInsn v :=
  ⟨{ chip := { tbl := [(4194308, 0x54c48000)], pawn := { run := [(2, { prog := 5, epoch := 0, start := 6, len := 40, pc := 2, budget := 100, issued := 7, regs := [(1, 0x1), (2, 0x2)] })] } } }, 2, { prog := 5, epoch := 0, start := 6, len := 40, pc := 2, budget := 100, issued := 7, regs := [(1, 0x1), (2, 0x2)] }, 0x54c48000, by decide⟩

theorem witness_PawnArithmeticCommands_7 : ∃ (s : State) (n : Nat) (v : Invocation) (w : Word),
    s.chip.passes .running = true ∧
    s.chip.issues n v 0x16 0 = true ∧ w = s.chip.nextInsn v :=
  ⟨{ chip := { tbl := [(4194308, 0x58c48000)], pawn := { run := [(2, { prog := 5, epoch := 0, start := 6, len := 40, pc := 2, budget := 100, issued := 7, regs := [(1, 0xffffffffffffffff), (2, 0x2)] })] } } }, 2, { prog := 5, epoch := 0, start := 6, len := 40, pc := 2, budget := 100, issued := 7, regs := [(1, 0xffffffffffffffff), (2, 0x2)] }, 0x58c48000, by decide⟩

theorem witness_PawnArithmeticCommands_8 : ∃ (s : State) (n : Nat) (v : Invocation) (w : Word),
    s.chip.passes .running = true ∧
    s.chip.issues n v 0x17 0 = true ∧ w = s.chip.nextInsn v :=
  ⟨{ chip := { tbl := [(4194308, 0x5cc48000)], pawn := { run := [(2, { prog := 5, epoch := 0, start := 6, len := 40, pc := 2, budget := 100, issued := 7, regs := [(1, 0x7fffffffffffffff), (2, 0xfffffffffffffffe)] })] } } }, 2, { prog := 5, epoch := 0, start := 6, len := 40, pc := 2, budget := 100, issued := 7, regs := [(1, 0x7fffffffffffffff), (2, 0xfffffffffffffffe)] }, 0x5cc48000, by decide⟩

theorem witness_PawnArithmeticCommands_9 : ∃ (s : State) (n : Nat) (v : Invocation) (w : Word),
    s.chip.passes .running = true ∧
    s.chip.issues n v 0x18 0 = true ∧ w = s.chip.nextInsn v :=
  ⟨{ chip := { tbl := [(4194308, 0x60c48000)], pawn := { run := [(2, { prog := 5, epoch := 0, start := 6, len := 40, pc := 2, budget := 100, issued := 7, regs := [(1, 0xc), (2, 0xa)] })] } } }, 2, { prog := 5, epoch := 0, start := 6, len := 40, pc := 2, budget := 100, issued := 7, regs := [(1, 0xc), (2, 0xa)] }, 0x60c48000, by decide⟩

theorem witness_PawnArithmeticCommands_10 : ∃ (s : State) (n : Nat) (v : Invocation) (w : Word),
    s.chip.passes .running = true ∧
    s.chip.issues n v 0x19 0 = true ∧ w = s.chip.nextInsn v :=
  ⟨{ chip := { tbl := [(4194308, 0x64c48000)], pawn := { run := [(2, { prog := 5, epoch := 0, start := 6, len := 40, pc := 2, budget := 100, issued := 7, regs := [(1, 0xc), (2, 0xa)] })] } } }, 2, { prog := 5, epoch := 0, start := 6, len := 40, pc := 2, budget := 100, issued := 7, regs := [(1, 0xc), (2, 0xa)] }, 0x64c48000, by decide⟩

theorem witness_PawnArithmeticCommands_11 : ∃ (s : State) (n : Nat) (v : Invocation) (w : Word),
    s.chip.passes .running = true ∧
    s.chip.issues n v 0x1a 0 = true ∧ w = s.chip.nextInsn v :=
  ⟨{ chip := { tbl := [(4194308, 0x68c48000)], pawn := { run := [(2, { prog := 5, epoch := 0, start := 6, len := 40, pc := 2, budget := 100, issued := 7, regs := [(1, 0xc), (2, 0xa)] })] } } }, 2, { prog := 5, epoch := 0, start := 6, len := 40, pc := 2, budget := 100, issued := 7, regs := [(1, 0xc), (2, 0xa)] }, 0x68c48000, by decide⟩

theorem witness_PawnArithmeticCommands_12 : ∃ (s : State) (n : Nat) (v : Invocation) (w : Word),
    s.chip.passes .running = true ∧
    s.chip.issues n v 0x1b 0 = true ∧ w = s.chip.nextInsn v :=
  ⟨{ chip := { tbl := [(4194308, 0x6cc48000)], pawn := { run := [(2, { prog := 5, epoch := 0, start := 6, len := 40, pc := 2, budget := 100, issued := 7, regs := [(1, 0xc), (2, 0x41)] })] } } }, 2, { prog := 5, epoch := 0, start := 6, len := 40, pc := 2, budget := 100, issued := 7, regs := [(1, 0xc), (2, 0x41)] }, 0x6cc48000, by decide⟩

theorem witness_PawnArithmeticCommands_13 : ∃ (s : State) (n : Nat) (v : Invocation) (w : Word),
    s.chip.passes .running = true ∧
    s.chip.issues n v 0x1c 0 = true ∧ w = s.chip.nextInsn v :=
  ⟨{ chip := { tbl := [(4194308, 0x70c48000)], pawn := { run := [(2, { prog := 5, epoch := 0, start := 6, len := 40, pc := 2, budget := 100, issued := 7, regs := [(1, 0xffffffffffffffff), (2, 0x7f)] })] } } }, 2, { prog := 5, epoch := 0, start := 6, len := 40, pc := 2, budget := 100, issued := 7, regs := [(1, 0xffffffffffffffff), (2, 0x7f)] }, 0x70c48000, by decide⟩

theorem witness_PawnArithmeticCommands_14 : ∃ (s : State) (n : Nat) (v : Invocation) (w : Word),
    s.chip.passes .running = true ∧
    s.chip.issues n v 0x1d 0 = true ∧ w = s.chip.nextInsn v :=
  ⟨{ chip := { tbl := [(4194308, 0x74c48000)], pawn := { run := [(2, { prog := 5, epoch := 0, start := 6, len := 40, pc := 2, budget := 100, issued := 7, regs := [(1, 0xfffffffffffffff8), (2, 0x41)] })] } } }, 2, { prog := 5, epoch := 0, start := 6, len := 40, pc := 2, budget := 100, issued := 7, regs := [(1, 0xfffffffffffffff8), (2, 0x41)] }, 0x74c48000, by decide⟩

theorem witness_PawnArithmeticCommands_15 : ∃ (s : State) (n : Nat) (v : Invocation) (w : Word),
    s.chip.passes .running = true ∧
    s.chip.issues n v 0x1e 0 = true ∧ w = s.chip.nextInsn v :=
  ⟨{ chip := { tbl := [(4194308, 0x78c48000)], pawn := { run := [(2, { prog := 5, epoch := 0, start := 6, len := 40, pc := 2, budget := 100, issued := 7, regs := [(1, 0xffffffffffffffff), (2, 0x2)] })] } } }, 2, { prog := 5, epoch := 0, start := 6, len := 40, pc := 2, budget := 100, issued := 7, regs := [(1, 0xffffffffffffffff), (2, 0x2)] }, 0x78c48000, by decide⟩

theorem witness_PawnArithmeticCommands_16 : ∃ (s : State) (n : Nat) (v : Invocation) (w : Word),
    s.chip.passes .running = true ∧
    s.chip.issues n v 0x1f 0 = true ∧ w = s.chip.nextInsn v :=
  ⟨{ chip := { tbl := [(4194308, 0x7cc48000)], pawn := { run := [(2, { prog := 5, epoch := 0, start := 6, len := 40, pc := 2, budget := 100, issued := 7, regs := [(1, 0xffffffffffffffff), (2, 0x2)] })] } } }, 2, { prog := 5, epoch := 0, start := 6, len := 40, pc := 2, budget := 100, issued := 7, regs := [(1, 0xffffffffffffffff), (2, 0x2)] }, 0x7cc48000, by decide⟩

theorem witness_PawnImmediateCommands_1 : ∃ (s : State) (n : Nat) (v : Invocation) (w : Word),
    s.chip.passes .running = true ∧
    s.chip.issues n v 0x20 0 = true ∧ w = s.chip.nextInsn v :=
  ⟨{ chip := { tbl := [(4194308, 0x80c7fffd)], pawn := { run := [(2, { prog := 5, epoch := 0, start := 6, len := 40, pc := 2, budget := 100, issued := 7, regs := [(1, 0xF234567890ABCDEF), (3, 0x5555555555555555)] })] } } }, 2, { prog := 5, epoch := 0, start := 6, len := 40, pc := 2, budget := 100, issued := 7, regs := [(1, 0xF234567890ABCDEF), (3, 0x5555555555555555)] }, 0x80c7fffd, by decide⟩

theorem witness_PawnImmediateCommands_2 : ∃ (s : State) (n : Nat) (v : Invocation) (w : Word),
    s.chip.passes .running = true ∧
    s.chip.issues n v 0x21 0 = true ∧ w = s.chip.nextInsn v :=
  ⟨{ chip := { tbl := [(4194308, 0x84c7fffd)], pawn := { run := [(2, { prog := 5, epoch := 0, start := 6, len := 40, pc := 2, budget := 100, issued := 7, regs := [(1, 0xF234567890ABCDEF), (3, 0x5555555555555555)] })] } } }, 2, { prog := 5, epoch := 0, start := 6, len := 40, pc := 2, budget := 100, issued := 7, regs := [(1, 0xF234567890ABCDEF), (3, 0x5555555555555555)] }, 0x84c7fffd, by decide⟩

theorem witness_PawnImmediateCommands_3 : ∃ (s : State) (n : Nat) (v : Invocation) (w : Word),
    s.chip.passes .running = true ∧
    s.chip.issues n v 0x22 0 = true ∧ w = s.chip.nextInsn v :=
  ⟨{ chip := { tbl := [(4194308, 0x88c7fffd)], pawn := { run := [(2, { prog := 5, epoch := 0, start := 6, len := 40, pc := 2, budget := 100, issued := 7, regs := [(1, 0xF234567890ABCDEF), (3, 0x5555555555555555)] })] } } }, 2, { prog := 5, epoch := 0, start := 6, len := 40, pc := 2, budget := 100, issued := 7, regs := [(1, 0xF234567890ABCDEF), (3, 0x5555555555555555)] }, 0x88c7fffd, by decide⟩

theorem witness_PawnImmediateCommands_4 : ∃ (s : State) (n : Nat) (v : Invocation) (w : Word),
    s.chip.passes .running = true ∧
    s.chip.issues n v 0x23 0 = true ∧ w = s.chip.nextInsn v :=
  ⟨{ chip := { tbl := [(4194308, 0x8cc7fffd)], pawn := { run := [(2, { prog := 5, epoch := 0, start := 6, len := 40, pc := 2, budget := 100, issued := 7, regs := [(1, 0xF234567890ABCDEF), (3, 0x5555555555555555)] })] } } }, 2, { prog := 5, epoch := 0, start := 6, len := 40, pc := 2, budget := 100, issued := 7, regs := [(1, 0xF234567890ABCDEF), (3, 0x5555555555555555)] }, 0x8cc7fffd, by decide⟩

theorem witness_PawnImmediateCommands_5 : ∃ (s : State) (n : Nat) (v : Invocation) (w : Word),
    s.chip.passes .running = true ∧
    s.chip.issues n v 0x24 0 = true ∧ w = s.chip.nextInsn v :=
  ⟨{ chip := { tbl := [(4194308, 0x90c4003f)], pawn := { run := [(2, { prog := 5, epoch := 0, start := 6, len := 40, pc := 2, budget := 100, issued := 7, regs := [(1, 0xF234567890ABCDEF), (3, 0x5555555555555555)] })] } } }, 2, { prog := 5, epoch := 0, start := 6, len := 40, pc := 2, budget := 100, issued := 7, regs := [(1, 0xF234567890ABCDEF), (3, 0x5555555555555555)] }, 0x90c4003f, by decide⟩

theorem witness_PawnImmediateCommands_6 : ∃ (s : State) (n : Nat) (v : Invocation) (w : Word),
    s.chip.passes .running = true ∧
    s.chip.issues n v 0x25 0 = true ∧ w = s.chip.nextInsn v :=
  ⟨{ chip := { tbl := [(4194308, 0x94c4003f)], pawn := { run := [(2, { prog := 5, epoch := 0, start := 6, len := 40, pc := 2, budget := 100, issued := 7, regs := [(1, 0xF234567890ABCDEF), (3, 0x5555555555555555)] })] } } }, 2, { prog := 5, epoch := 0, start := 6, len := 40, pc := 2, budget := 100, issued := 7, regs := [(1, 0xF234567890ABCDEF), (3, 0x5555555555555555)] }, 0x94c4003f, by decide⟩

theorem witness_PawnImmediateCommands_7 : ∃ (s : State) (n : Nat) (v : Invocation) (w : Word),
    s.chip.passes .running = true ∧
    s.chip.issues n v 0x26 0 = true ∧ w = s.chip.nextInsn v :=
  ⟨{ chip := { tbl := [(4194308, 0x98c4003f)], pawn := { run := [(2, { prog := 5, epoch := 0, start := 6, len := 40, pc := 2, budget := 100, issued := 7, regs := [(1, 0xF234567890ABCDEF), (3, 0x5555555555555555)] })] } } }, 2, { prog := 5, epoch := 0, start := 6, len := 40, pc := 2, budget := 100, issued := 7, regs := [(1, 0xF234567890ABCDEF), (3, 0x5555555555555555)] }, 0x98c4003f, by decide⟩

theorem witness_PawnImmediateCommands_8 : ∃ (s : State) (n : Nat) (v : Invocation) (w : Word),
    s.chip.passes .running = true ∧
    s.chip.issues n v 0x27 0 = true ∧ w = s.chip.nextInsn v :=
  ⟨{ chip := { tbl := [(4194308, 0x9ffffffe)], pawn := { run := [(2, { prog := 5, epoch := 0, start := 6, len := 40, pc := 2, budget := 100, issued := 7, regs := [(1, 0xF234567890ABCDEF), (3, 0x5555555555555555)] })] } } }, 2, { prog := 5, epoch := 0, start := 6, len := 40, pc := 2, budget := 100, issued := 7, regs := [(1, 0xF234567890ABCDEF), (3, 0x5555555555555555)] }, 0x9ffffffe, by decide⟩

theorem witness_PawnImmediateCommands_9 : ∃ (s : State) (n : Nat) (v : Invocation) (w : Word),
    s.chip.passes .running = true ∧
    s.chip.issues n v 0x28 0 = true ∧ w = s.chip.nextInsn v :=
  ⟨{ chip := { tbl := [(4194308, 0xa043abcd)], pawn := { run := [(2, { prog := 5, epoch := 0, start := 6, len := 40, pc := 2, budget := 100, issued := 7, regs := [(1, 0xF234567890ABCDEF), (3, 0x5555555555555555)] })] } } }, 2, { prog := 5, epoch := 0, start := 6, len := 40, pc := 2, budget := 100, issued := 7, regs := [(1, 0xF234567890ABCDEF), (3, 0x5555555555555555)] }, 0xa043abcd, by decide⟩

theorem witness_PawnImmediateCommands_10 : ∃ (s : State) (n : Nat) (v : Invocation) (w : Word),
    s.chip.passes .running = true ∧
    s.chip.issues n v 0x29 0 = true ∧ w = s.chip.nextInsn v :=
  ⟨{ chip := { tbl := [(4194308, 0xa4c7c0c0)], pawn := { run := [(2, { prog := 5, epoch := 0, start := 6, len := 40, pc := 2, budget := 100, issued := 7, regs := [(1, 0xF234567890ABCDEF), (3, 0x5555555555555555)] })] } } }, 2, { prog := 5, epoch := 0, start := 6, len := 40, pc := 2, budget := 100, issued := 7, regs := [(1, 0xF234567890ABCDEF), (3, 0x5555555555555555)] }, 0xa4c7c0c0, by decide⟩

theorem witness_PawnImmediateCommands_11 : ∃ (s : State) (n : Nat) (v : Invocation) (w : Word),
    s.chip.passes .running = true ∧
    s.chip.issues n v 0x2a 0 = true ∧ w = s.chip.nextInsn v :=
  ⟨{ chip := { tbl := [(4194308, 0xa8c7c0c0)], pawn := { run := [(2, { prog := 5, epoch := 0, start := 6, len := 40, pc := 2, budget := 100, issued := 7, regs := [(1, 0xF234567890ABCDEF), (3, 0x5555555555555555)] })] } } }, 2, { prog := 5, epoch := 0, start := 6, len := 40, pc := 2, budget := 100, issued := 7, regs := [(1, 0xF234567890ABCDEF), (3, 0x5555555555555555)] }, 0xa8c7c0c0, by decide⟩

theorem witness_PawnImmediateCommands_12 : ∃ (s : State) (n : Nat) (v : Invocation) (w : Word),
    s.chip.passes .running = true ∧
    s.chip.issues n v 0x2b 0 = true ∧ w = s.chip.nextInsn v :=
  ⟨{ chip := { tbl := [(4194308, 0xacc7c0c0)], pawn := { run := [(2, { prog := 5, epoch := 0, start := 6, len := 40, pc := 2, budget := 100, issued := 7, regs := [(1, 0xF234567890ABCDEF), (3, 0x5555555555555555)] })] } } }, 2, { prog := 5, epoch := 0, start := 6, len := 40, pc := 2, budget := 100, issued := 7, regs := [(1, 0xF234567890ABCDEF), (3, 0x5555555555555555)] }, 0xacc7c0c0, by decide⟩

theorem witness_PawnImmediateCommands_13 : ∃ (s : State) (n : Nat) (v : Invocation) (w : Word),
    s.chip.passes .running = true ∧
    s.chip.issues n v 0x2c 0 = true ∧ w = s.chip.nextInsn v :=
  ⟨{ chip := { tbl := [(4194308, 0xb0c43000)], pawn := { run := [(2, { prog := 5, epoch := 0, start := 6, len := 40, pc := 2, budget := 100, issued := 7, regs := [(1, 0xF234567890ABCDEF), (3, 0x5555555555555555)] })] } } }, 2, { prog := 5, epoch := 0, start := 6, len := 40, pc := 2, budget := 100, issued := 7, regs := [(1, 0xF234567890ABCDEF), (3, 0x5555555555555555)] }, 0xb0c43000, by decide⟩

theorem witness_PawnControlCommands_1 : ∃ (s : State) (n : Nat) (v : Invocation) (w : Word),
    s.chip.passes .running = true ∧
    s.chip.issues n v 0x01 0 = true ∧ w = s.chip.nextInsn v :=
  ⟨{ chip := { tbl := [(4194308, 0x4000000)], pawn := { run := [(2, { prog := 5, epoch := 0, start := 6, len := 40, pc := 2, budget := 100, issued := 7 })] } } }, 2, { prog := 5, epoch := 0, start := 6, len := 40, pc := 2, budget := 100, issued := 7 }, 0x4000000, by decide⟩

theorem witness_PawnControlCommands_2 : ∃ (s : State) (n : Nat) (v : Invocation) (w : Word),
    s.chip.passes .running = true ∧
    s.chip.issues n v 0x04 0 = true ∧ w = s.chip.nextInsn v :=
  ⟨{ chip := { tbl := [(4194308, 0x10000007)], pawn := { run := [(2, { prog := 5, epoch := 0, start := 6, len := 40, pc := 2, budget := 100, issued := 7 })] } } }, 2, { prog := 5, epoch := 0, start := 6, len := 40, pc := 2, budget := 100, issued := 7 }, 0x10000007, by decide⟩

theorem witness_PawnControlCommands_3 : ∃ (s : State) (n : Nat) (v : Invocation) (w : Word),
    s.chip.passes .running = true ∧
    s.chip.issues n v 0x05 0 = true ∧ w = s.chip.nextInsn v ∧
    v.reg (fRd w) = v.reg (fRa w) :=
  ⟨{ chip := { tbl := [(4194308, 0x14c40003)], pawn := { run := [(2, { prog := 5, epoch := 0, start := 6, len := 40, pc := 2, budget := 100, issued := 7, regs := [(1, 0x5), (3, 0x5)] })] } } }, 2, { prog := 5, epoch := 0, start := 6, len := 40, pc := 2, budget := 100, issued := 7, regs := [(1, 0x5), (3, 0x5)] }, 0x14c40003, by decide⟩

theorem witness_PawnControlCommands_4 : ∃ (s : State) (n : Nat) (v : Invocation) (w : Word),
    s.chip.passes .running = true ∧
    s.chip.issues n v 0x05 0 = true ∧ w = s.chip.nextInsn v ∧
    ¬ (v.reg (fRd w) = v.reg (fRa w)) :=
  ⟨{ chip := { tbl := [(4194308, 0x14c40003)], pawn := { run := [(2, { prog := 5, epoch := 0, start := 6, len := 40, pc := 2, budget := 100, issued := 7, regs := [(1, 0x6), (3, 0x5)] })] } } }, 2, { prog := 5, epoch := 0, start := 6, len := 40, pc := 2, budget := 100, issued := 7, regs := [(1, 0x6), (3, 0x5)] }, 0x14c40003, by decide⟩

theorem witness_PawnControlCommands_5 : ∃ (s : State) (n : Nat) (v : Invocation) (w : Word),
    s.chip.passes .running = true ∧
    s.chip.issues n v 0x06 0 = true ∧ w = s.chip.nextInsn v ∧
    v.reg (fRd w) ≠ v.reg (fRa w) :=
  ⟨{ chip := { tbl := [(4194308, 0x18c40003)], pawn := { run := [(2, { prog := 5, epoch := 0, start := 6, len := 40, pc := 2, budget := 100, issued := 7, regs := [(1, 0x6), (3, 0x5)] })] } } }, 2, { prog := 5, epoch := 0, start := 6, len := 40, pc := 2, budget := 100, issued := 7, regs := [(1, 0x6), (3, 0x5)] }, 0x18c40003, by decide⟩

theorem witness_PawnControlCommands_6 : ∃ (s : State) (n : Nat) (v : Invocation) (w : Word),
    s.chip.passes .running = true ∧
    s.chip.issues n v 0x06 0 = true ∧ w = s.chip.nextInsn v ∧
    ¬ (v.reg (fRd w) ≠ v.reg (fRa w)) :=
  ⟨{ chip := { tbl := [(4194308, 0x18c40003)], pawn := { run := [(2, { prog := 5, epoch := 0, start := 6, len := 40, pc := 2, budget := 100, issued := 7, regs := [(1, 0x5), (3, 0x5)] })] } } }, 2, { prog := 5, epoch := 0, start := 6, len := 40, pc := 2, budget := 100, issued := 7, regs := [(1, 0x5), (3, 0x5)] }, 0x18c40003, by decide⟩

theorem witness_PawnControlCommands_7 : ∃ (s : State) (n : Nat) (v : Invocation) (w : Word),
    s.chip.passes .running = true ∧
    s.chip.issues n v 0x07 0 = true ∧ w = s.chip.nextInsn v ∧
    (v.reg (fRd w)).toInt < (v.reg (fRa w)).toInt :=
  ⟨{ chip := { tbl := [(4194308, 0x1cc40003)], pawn := { run := [(2, { prog := 5, epoch := 0, start := 6, len := 40, pc := 2, budget := 100, issued := 7, regs := [(1, 0x5), (3, 0xffffffffffffffff)] })] } } }, 2, { prog := 5, epoch := 0, start := 6, len := 40, pc := 2, budget := 100, issued := 7, regs := [(1, 0x5), (3, 0xffffffffffffffff)] }, 0x1cc40003, by decide⟩

theorem witness_PawnControlCommands_8 : ∃ (s : State) (n : Nat) (v : Invocation) (w : Word),
    s.chip.passes .running = true ∧
    s.chip.issues n v 0x07 0 = true ∧ w = s.chip.nextInsn v ∧
    ¬ ((v.reg (fRd w)).toInt < (v.reg (fRa w)).toInt) :=
  ⟨{ chip := { tbl := [(4194308, 0x1cc40003)], pawn := { run := [(2, { prog := 5, epoch := 0, start := 6, len := 40, pc := 2, budget := 100, issued := 7, regs := [(1, 0x5), (3, 0x5)] })] } } }, 2, { prog := 5, epoch := 0, start := 6, len := 40, pc := 2, budget := 100, issued := 7, regs := [(1, 0x5), (3, 0x5)] }, 0x1cc40003, by decide⟩

theorem witness_PawnControlCommands_9 : ∃ (s : State) (n : Nat) (v : Invocation) (w : Word),
    s.chip.passes .running = true ∧
    s.chip.issues n v 0x08 0 = true ∧ w = s.chip.nextInsn v ∧
    (v.reg (fRa w)).toInt ≤ (v.reg (fRd w)).toInt :=
  ⟨{ chip := { tbl := [(4194308, 0x20c40003)], pawn := { run := [(2, { prog := 5, epoch := 0, start := 6, len := 40, pc := 2, budget := 100, issued := 7, regs := [(1, 0x5), (3, 0x5)] })] } } }, 2, { prog := 5, epoch := 0, start := 6, len := 40, pc := 2, budget := 100, issued := 7, regs := [(1, 0x5), (3, 0x5)] }, 0x20c40003, by decide⟩

theorem witness_PawnControlCommands_10 : ∃ (s : State) (n : Nat) (v : Invocation) (w : Word),
    s.chip.passes .running = true ∧
    s.chip.issues n v 0x08 0 = true ∧ w = s.chip.nextInsn v ∧
    ¬ ((v.reg (fRa w)).toInt ≤ (v.reg (fRd w)).toInt) :=
  ⟨{ chip := { tbl := [(4194308, 0x20c40003)], pawn := { run := [(2, { prog := 5, epoch := 0, start := 6, len := 40, pc := 2, budget := 100, issued := 7, regs := [(1, 0x5), (3, 0xffffffffffffffff)] })] } } }, 2, { prog := 5, epoch := 0, start := 6, len := 40, pc := 2, budget := 100, issued := 7, regs := [(1, 0x5), (3, 0xffffffffffffffff)] }, 0x20c40003, by decide⟩

theorem witness_PawnControlCommands_11 : ∃ (s : State) (n : Nat) (v : Invocation) (w : Word),
    s.chip.passes .running = true ∧
    s.chip.issues n v 0x09 0 = true ∧ w = s.chip.nextInsn v ∧
    (v.reg (fRd w)).toNat < (v.reg (fRa w)).toNat :=
  ⟨{ chip := { tbl := [(4194308, 0x24c40003)], pawn := { run := [(2, { prog := 5, epoch := 0, start := 6, len := 40, pc := 2, budget := 100, issued := 7, regs := [(1, 0xffffffffffffffff), (3, 0x5)] })] } } }, 2, { prog := 5, epoch := 0, start := 6, len := 40, pc := 2, budget := 100, issued := 7, regs := [(1, 0xffffffffffffffff), (3, 0x5)] }, 0x24c40003, by decide⟩

theorem witness_PawnControlCommands_12 : ∃ (s : State) (n : Nat) (v : Invocation) (w : Word),
    s.chip.passes .running = true ∧
    s.chip.issues n v 0x09 0 = true ∧ w = s.chip.nextInsn v ∧
    ¬ ((v.reg (fRd w)).toNat < (v.reg (fRa w)).toNat) :=
  ⟨{ chip := { tbl := [(4194308, 0x24c40003)], pawn := { run := [(2, { prog := 5, epoch := 0, start := 6, len := 40, pc := 2, budget := 100, issued := 7, regs := [(1, 0x5), (3, 0xffffffffffffffff)] })] } } }, 2, { prog := 5, epoch := 0, start := 6, len := 40, pc := 2, budget := 100, issued := 7, regs := [(1, 0x5), (3, 0xffffffffffffffff)] }, 0x24c40003, by decide⟩

theorem witness_PawnControlCommands_13 : ∃ (s : State) (n : Nat) (v : Invocation) (w : Word),
    s.chip.passes .running = true ∧
    s.chip.issues n v 0x0a 0 = true ∧ w = s.chip.nextInsn v ∧
    (v.reg (fRa w)).toNat ≤ (v.reg (fRd w)).toNat :=
  ⟨{ chip := { tbl := [(4194308, 0x28c40003)], pawn := { run := [(2, { prog := 5, epoch := 0, start := 6, len := 40, pc := 2, budget := 100, issued := 7, regs := [(1, 0x5), (3, 0xffffffffffffffff)] })] } } }, 2, { prog := 5, epoch := 0, start := 6, len := 40, pc := 2, budget := 100, issued := 7, regs := [(1, 0x5), (3, 0xffffffffffffffff)] }, 0x28c40003, by decide⟩

theorem witness_PawnControlCommands_14 : ∃ (s : State) (n : Nat) (v : Invocation) (w : Word),
    s.chip.passes .running = true ∧
    s.chip.issues n v 0x0a 0 = true ∧ w = s.chip.nextInsn v ∧
    ¬ ((v.reg (fRa w)).toNat ≤ (v.reg (fRd w)).toNat) :=
  ⟨{ chip := { tbl := [(4194308, 0x28c40003)], pawn := { run := [(2, { prog := 5, epoch := 0, start := 6, len := 40, pc := 2, budget := 100, issued := 7, regs := [(1, 0xffffffffffffffff), (3, 0x5)] })] } } }, 2, { prog := 5, epoch := 0, start := 6, len := 40, pc := 2, budget := 100, issued := 7, regs := [(1, 0xffffffffffffffff), (3, 0x5)] }, 0x28c40003, by decide⟩

theorem witness_PawnControlCommands_15 : ∃ (s : State) (n : Nat) (v : Invocation) (w : Word) (k : Nat),
    s.chip.passes .running = true ∧
    s.chip.issues n v 0x0b 0 = true ∧ w = s.chip.nextInsn v ∧
    k = (if fRd w = 0 then fld w 21 14 else (v.reg (fRd w)).toNat) ∧ 1 ≤ k ∧ k ≤ 255 ∧ v.loops.length < 4 ∧
    v.loops.all (fun l => decide (v.pc + w.toNat % 2 ^ 14 ≤ l.last)) = true :=
  ⟨{ chip := { tbl := [(4194308, 0x2c3fc004)], pawn := { run := [(2, { prog := 5, epoch := 0, start := 6, len := 40, pc := 2, budget := 100, issued := 7 })] } } }, 2, { prog := 5, epoch := 0, start := 6, len := 40, pc := 2, budget := 100, issued := 7 }, 0x2c3fc004, 255, by decide⟩

theorem witness_PawnControlCommands_16 : ∃ (s : State) (n : Nat) (v : Invocation) (w : Word),
    s.chip.passes .running = true ∧
    s.chip.issues n v 0x0b 0 = true ∧ w = s.chip.nextInsn v ∧
    (if fRd w = 0 then fld w 21 14 else (v.reg (fRd w)).toNat) = 0 ∧
    v.loops.all (fun l => decide (v.pc + w.toNat % 2 ^ 14 ≤ l.last)) = true :=
  ⟨{ chip := { tbl := [(4194308, 0x2cc00004)], pawn := { run := [(2, { prog := 5, epoch := 0, start := 6, len := 40, pc := 2, budget := 100, issued := 7 })] } } }, 2, { prog := 5, epoch := 0, start := 6, len := 40, pc := 2, budget := 100, issued := 7 }, 0x2cc00004, by decide⟩

theorem witness_PawnControlCommands_17 : ∃ (s : State) (n : Nat) (v : Invocation),
    s.chip.passes .running = true ∧
    s.chip.issues n v 0x02 0 = true ∧ s.chip.sigTurn (2 + n) = true ∧ v.writes = [] ∧ v.stores = [] ∧ v.timers = [] ∧ v.emits = [] ∧
    s.chip.digestHeld n = false :=
  ⟨{ chip := { tbl := [(4194308, 0x8000000)], pawn := { run := [(2, { prog := 5, epoch := 0, start := 6, len := 40, pc := 2, budget := 100, issued := 7 })] } } }, 2, { prog := 5, epoch := 0, start := 6, len := 40, pc := 2, budget := 100, issued := 7 }, by decide⟩

theorem witness_PawnControlCommands_18 : ∃ (s : State) (n : Nat) (v : Invocation) (k : Nat) (x : Word64) (m : Word64),
    s.chip.passes .running = true ∧
    s.chip.issues n v 0x02 0 = true ∧ s.chip.sigTurn (2 + n) = true ∧ v.writes = [] ∧ v.stores = [(k, x, m)] ∧ v.timers = [] ∧ v.emits = [] ∧
    s.chip.digestHeld n = false :=
  ⟨{ chip := { tbl := [(4194308, 0x8000000)], pawn := { run := [(2, { prog := 5, epoch := 0, start := 6, len := 40, pc := 2, budget := 100, issued := 7, stores := [(9, 0xFF, 0xFF)] })] } } }, 2, { prog := 5, epoch := 0, start := 6, len := 40, pc := 2, budget := 100, issued := 7, stores := [(9, 0xFF, 0xFF)] }, 9, 0xFF, 0xFF, by decide⟩

theorem witness_PawnControlCommands_19 : ∃ (s : State) (n : Nat) (v : Invocation),
    s.chip.passes .running = true ∧
    n < 16 ∧ s.chip.issues n v 0x03 0 = true ∧
    s.chip.digestHeld n = false :=
  ⟨{ chip := { tbl := [(4194308, 0xc0000a5)], pawn := { run := [(2, { prog := 5, epoch := 0, start := 6, len := 40, pc := 2, budget := 100, issued := 7 })] } } }, 2, { prog := 5, epoch := 0, start := 6, len := 40, pc := 2, budget := 100, issued := 7 }, by decide⟩

theorem witness_PawnControlCommands_20 : ∃ (s : State) (n : Nat) (v : Invocation),
    s.chip.passes .running = true ∧
    n < 16 ∧ s.chip.invOf n = some v ∧ v.budget ≤ v.issued ∧
    s.chip.digestHeld n = false :=
  ⟨{ chip := { tbl := [(4194308, 0x4000000)], pawn := { run := [(2, { prog := 5, epoch := 0, start := 6, len := 40, pc := 2, budget := 100, issued := 100 })] } } }, 2, { prog := 5, epoch := 0, start := 6, len := 40, pc := 2, budget := 100, issued := 100 }, by decide⟩

theorem witness_PawnControlCommands_21 : ∃ (s : State) (n : Nat) (v : Invocation),
    s.chip.passes .running = true ∧
    n < 16 ∧ s.chip.invOf n = some v ∧ v.issued < v.budget ∧ v.pc < v.len ∧ s.chip.legal v.epoch (s.chip.nextInsn v) = false ∧ s.chip.pawnReadable 8 ((v.start + v.pc) / 2) = true ∧
    s.chip.digestHeld n = false :=
  ⟨{ chip := { tbl := [(4194308, 0x0)], pawn := { run := [(2, { prog := 5, epoch := 0, start := 6, len := 40, pc := 2, budget := 100, issued := 7 })] } } }, 2, { prog := 5, epoch := 0, start := 6, len := 40, pc := 2, budget := 100, issued := 7 }, by decide⟩

theorem witness_PawnControlCommands_22 : ∃ (s : State) (n : Nat) (v : Invocation),
    s.chip.passes .running = true ∧
    n < 16 ∧ s.chip.invOf n = some v ∧ v.issued < v.budget ∧ v.len ≤ v.pc ∧
    s.chip.digestHeld n = false :=
  ⟨{ chip := { tbl := [(4194308, 0x0)], pawn := { run := [(2, { prog := 5, epoch := 0, start := 6, pc := 2, budget := 100, issued := 7, len := 2 })] } } }, 2, { prog := 5, epoch := 0, start := 6, pc := 2, budget := 100, issued := 7, len := 2 }, by decide⟩

theorem witness_PawnControlCommands_23 : ∃ (s : State) (n : Nat) (r : PawnReq),
    s.chip.passes .running = true ∧
    r.prog < 1024 ∧ s.chip.power.entering = none ∧ s.chip.pawn.queue = [r] ∧ s.chip.dispatchTo r = some n ∧
    s.chip.progEnabled r.epoch r.prog = true ∧ s.chip.progBad r.epoch r.prog = false :=
  ⟨{ chip := { tbl := [(4202506, 0x8000300500008000)], pawn := { queue := [{ prog := 5, event := 5, epoch := 0, p1 := 7, p2 := 8, p3 := 9, p5 := 11 }] }, regs := [(0x60040, 0x1)] } }, 15, { prog := 5, event := 5, epoch := 0, p1 := 7, p2 := 8, p3 := 9, p5 := 11 }, by decide⟩

theorem witness_PawnControlCommands_24 : ∃ (s : State) (n : Nat) (k : Nat) (p : Nat) (v : Word),
    s.chip.passes .running = true ∧
    n < 16 ∧ p = v.toNat % 2 ^ 10 ∧ s.chip.accepts k (Reg.PAWN.KICK n) = true ∧
    fld (s.chip.progWord s.chip.epoch p 0) 62 61 ≠ s.chip.owner (0x051 + n) :=
  ⟨{ chip := { tbl := [(4202506, 0xa000000000000000)] } }, 2, 0, 5, 5, by decide⟩

theorem witness_PawnControlCommands_25 : ∃ (s : State) (n : Nat) (k : Nat) (p : Nat) (v : Word),
    s.chip.passes .running = true ∧
    n < 16 ∧ p = v.toNat % 2 ^ 10 ∧ s.chip.accepts k (Reg.PAWN.KICK n) = true ∧
    fld (s.chip.progWord s.chip.epoch p 0) 62 61 = s.chip.owner (0x051 + n) ∧ s.chip.progEnabled s.chip.epoch p = true ∧
    s.chip.bitOf (Reg.PAWN.GCTRL 0) 0 = true ∧ s.chip.pawn.queue.length < 1024 :=
  ⟨{ chip := { tbl := [(4202506, 0x8000300500000000)] } }, 2, 0, 5, 5, by decide⟩

theorem witness_PawnControlCommands_26 : ∃ (s : State) (j : Nat) (p : Nat),
    s.chip.passes .running = true ∧
    j < 4096 ∧ bit (s.chip.tword (timerOff j + 8)) 63 = true ∧ fld (s.chip.tword (timerOff j + 8)) 55 0 * 10000 ≤ s.chip.ns ∧
    p = fld (s.chip.tword (timerOff j)) 57 48 ∧ fld (s.chip.tword (timerOff j)) 47 24 = 0 ∧ s.chip.progEnabled s.chip.epoch p = true ∧
    s.chip.bitOf (Reg.PAWN.GCTRL 0) 0 = true ∧ s.chip.pawn.queue.length < 1024 ∧
    s.chip.pawn.queue.any (fun r => decide (r.timer = some j)) = false :=
  ⟨{ chip := { tbl := [(4202506, 0x8000300500000000), (4259846, 0x8005000000000000), (4259847, 0x8000000000000000)] } }, 3, 5, by decide⟩

theorem witness_PawnControlCommands_27 : ∃ (s : State) (j : Nat) (p : Nat) (q : Nat),
    s.chip.passes .running = true ∧
    j < 4096 ∧ bit (s.chip.tword (timerOff j + 8)) 63 = true ∧ q = fld (s.chip.tword (timerOff j + 8)) 55 0 ∧
    p = fld (s.chip.tword (timerOff j)) 47 24 ∧ 0 < p ∧ q * 10000 ≤ s.chip.ns ∧ s.chip.ns < (q + p) * 10000 ∧ q + p < 2 ^ 56 :=
  ⟨{ chip := { tbl := [(4259846, 0x8005000001000000), (4259847, 0x8000000000000000)] } }, 3, 1, 0, by decide⟩

theorem witness_PawnMemoryAndSignalCommands_1 : ∃ (s : State) (n : Nat) (v : Invocation) (w : Word) (a : Nat),
    s.chip.passes .running = true ∧
    s.chip.issues n v 0x0c 0 = true ∧ w = s.chip.nextInsn v ∧
    a = (v.reg (fRa w) + (BitVec.ofNat 18 w.toNat).signExtend 64).toNat ∧ a < v.dlen * 8 ∧ a % 8 = 0 :=
  ⟨{ chip := { tbl := [(4194308, 0x30c7fff8), (4227107, 0x8877665544332211)], pawn := { run := [(2, { prog := 5, epoch := 0, start := 6, len := 40, pc := 2, budget := 100, issued := 7, regs := [(1, 0x20), (3, 0xF1F2F3F4F5F6F7F8)], dbase := 32, dlen := 4 })] } } }, 2, { prog := 5, epoch := 0, start := 6, len := 40, pc := 2, budget := 100, issued := 7, regs := [(1, 0x20), (3, 0xF1F2F3F4F5F6F7F8)], dbase := 32, dlen := 4 }, 0x30c7fff8, 24, by decide⟩

theorem witness_PawnMemoryAndSignalCommands_2 : ∃ (s : State) (n : Nat) (v : Invocation) (w : Word) (a : Nat),
    s.chip.passes .running = true ∧
    s.chip.issues n v 0x0d 0 = true ∧ w = s.chip.nextInsn v ∧
    a = (v.reg (fRa w) + (BitVec.ofNat 18 w.toNat).signExtend 64).toNat ∧ a < v.dlen * 8 ∧ a % 4 = 0 :=
  ⟨{ chip := { tbl := [(4194308, 0x34c7fffc), (4227107, 0x8877665544332211)], pawn := { run := [(2, { prog := 5, epoch := 0, start := 6, len := 40, pc := 2, budget := 100, issued := 7, regs := [(1, 0x20), (3, 0xF1F2F3F4F5F6F7F8)], dbase := 32, dlen := 4 })] } } }, 2, { prog := 5, epoch := 0, start := 6, len := 40, pc := 2, budget := 100, issued := 7, regs := [(1, 0x20), (3, 0xF1F2F3F4F5F6F7F8)], dbase := 32, dlen := 4 }, 0x34c7fffc, 28, by decide⟩

theorem witness_PawnMemoryAndSignalCommands_3 : ∃ (s : State) (n : Nat) (v : Invocation) (w : Word) (a : Nat),
    s.chip.passes .running = true ∧
    s.chip.issues n v 0x0e 0 = true ∧ w = s.chip.nextInsn v ∧
    a = (v.reg (fRa w) + (BitVec.ofNat 18 w.toNat).signExtend 64).toNat ∧ a < v.dlen * 8 ∧ a % 8 = 0 ∧
    v.stores = [] :=
  ⟨{ chip := { tbl := [(4194308, 0x38c7fff8)], pawn := { run := [(2, { prog := 5, epoch := 0, start := 6, len := 40, pc := 2, budget := 100, issued := 7, regs := [(1, 0x20), (3, 0xF1F2F3F4F5F6F7F8)], dbase := 32, dlen := 4 })] } } }, 2, { prog := 5, epoch := 0, start := 6, len := 40, pc := 2, budget := 100, issued := 7, regs := [(1, 0x20), (3, 0xF1F2F3F4F5F6F7F8)], dbase := 32, dlen := 4 }, 0x38c7fff8, 24, by decide⟩

theorem witness_PawnMemoryAndSignalCommands_4 : ∃ (s : State) (n : Nat) (v : Invocation) (w : Word) (a : Nat) (x : Word64) (m : Word64),
    s.chip.passes .running = true ∧
    s.chip.issues n v 0x0f 0 = true ∧ w = s.chip.nextInsn v ∧
    a = (v.reg (fRa w) + (BitVec.ofNat 18 w.toNat).signExtend 64).toNat ∧ a < v.dlen * 8 ∧ a % 4 = 0 ∧
    v.stores = [(v.dbase + a / 8, x, m)] :=
  ⟨{ chip := { tbl := [(4194308, 0x3cc7fffc)], pawn := { run := [(2, { prog := 5, epoch := 0, start := 6, len := 40, pc := 2, budget := 100, issued := 7, regs := [(1, 0x20), (3, 0xF1F2F3F4F5F6F7F8)], dbase := 32, dlen := 4, stores := [(35, 0x1111111122222222, 0xFF)] })] } } }, 2, { prog := 5, epoch := 0, start := 6, len := 40, pc := 2, budget := 100, issued := 7, regs := [(1, 0x20), (3, 0xF1F2F3F4F5F6F7F8)], dbase := 32, dlen := 4, stores := [(35, 0x1111111122222222, 0xFF)] }, 0x3cc7fffc, 28, 0x1111111122222222, 0xFF, by decide⟩

theorem witness_PawnMemoryAndSignalCommands_5 : ∃ (s : State) (n : Nat) (v : Invocation) (w : Word),
    s.chip.passes .running = true ∧
    s.chip.issues n v 0x0C 0 = true ∧ w = s.chip.nextInsn v ∧ n < 16 ∧
    v.dlen * 8 ≤ (v.reg (fRa w) + (BitVec.ofNat 18 w.toNat).signExtend 64).toNat ∧
    s.chip.digestHeld n = false :=
  ⟨{ chip := { tbl := [(4194308, 0x30c40000)], pawn := { run := [(2, { prog := 5, epoch := 0, start := 6, len := 40, pc := 2, budget := 100, issued := 7, regs := [(1, 0x20), (3, 0xF1F2F3F4F5F6F7F8)], dbase := 32, dlen := 4 })] } } }, 2, { prog := 5, epoch := 0, start := 6, len := 40, pc := 2, budget := 100, issued := 7, regs := [(1, 0x20), (3, 0xF1F2F3F4F5F6F7F8)], dbase := 32, dlen := 4 }, 0x30c40000, by decide⟩

theorem witness_PawnMemoryAndSignalCommands_6 : ∃ (s : State) (n : Nat) (v : Invocation) (w : Word) (i : Nat),
    s.chip.passes .running = true ∧
    s.chip.issues n v 0x2d 0 = true ∧ w = s.chip.nextInsn v ∧
    i = (v.reg (fRa w) + BitVec.ofNat 64 (w.toNat % 2 ^ 16)).toNat ∧ i < 65536 ∧
    s.chip.pastView.checked v.epoch i = false ∧ s.chip.pastView.sigValid v.epoch i = true ∧ s.chip.pastView.sigStatus i ≠ 3 :=
  ⟨{ chip := { tbl := [(4194308, 0xb4c40002), (3145756, 0x8000000000000000), (3407900, 0xABCD), (3407901, 0x10), (3407902, 0x40000000FFFFFFFF)], pawn := { run := [(2, { prog := 5, epoch := 0, start := 6, len := 40, pc := 2, budget := 100, issued := 7, regs := [(1, 5)] })] } } }, 2, { prog := 5, epoch := 0, start := 6, len := 40, pc := 2, budget := 100, issued := 7, regs := [(1, 5)] }, 0xb4c40002, 7, by decide⟩

theorem witness_PawnMemoryAndSignalCommands_7 : ∃ (s : State) (n : Nat) (v : Invocation) (w : Word) (i : Nat),
    s.chip.passes .running = true ∧
    s.chip.issues n v 0x2d 0 = true ∧ w = s.chip.nextInsn v ∧
    i = (v.reg (fRa w) + BitVec.ofNat 64 (w.toNat % 2 ^ 16)).toNat ∧ i < 65536 ∧
    s.chip.pastView.checked v.epoch i = true ∧ s.chip.pastView.sigValid v.epoch i = true ∧ s.chip.pastView.sigStatus i = 1 ∧ s.chip.pastView.fresh v.epoch i = true ∧
    v.capmin = none ∧ v.dlmin = none :=
  ⟨{ chip := { tbl := [(4194308, 0xb4c40002), (3145756, 0x8000000000090000), (3407900, 0xABCD), (3407901, 0x10), (3407902, 0x40000000FFFFFFFF)], pawn := { run := [(2, { prog := 5, epoch := 0, start := 6, len := 40, pc := 2, budget := 100, issued := 7, regs := [(1, 5)] })] } } }, 2, { prog := 5, epoch := 0, start := 6, len := 40, pc := 2, budget := 100, issued := 7, regs := [(1, 5)] }, 0xb4c40002, 7, by decide⟩

theorem witness_PawnMemoryAndSignalCommands_8 : ∃ (s : State) (n : Nat) (v : Invocation) (w : Word) (i : Nat),
    s.chip.passes .running = true ∧
    s.chip.issues n v 0x2d 0 = true ∧ w = s.chip.nextInsn v ∧
    i = (v.reg (fRa w) + BitVec.ofNat 64 (w.toNat % 2 ^ 16)).toNat ∧ i < 65536 ∧
    s.chip.pastView.checked v.epoch i = true ∧ s.chip.pastView.sigStatus i ≠ 0 ∧ s.chip.pastView.fresh v.epoch i = false ∧
    v.capmin = none :=
  ⟨{ chip := { tbl := [(4194308, 0xb4c40002), (3145756, 0x8000000000090000), (3407900, 0xABCD), (3407901, 0x10), (3407902, 0x80000000FFFFFFFF)], pawn := { run := [(2, { prog := 5, epoch := 0, start := 6, len := 40, pc := 2, budget := 100, issued := 7, regs := [(1, 5)] })] } } }, 2, { prog := 5, epoch := 0, start := 6, len := 40, pc := 2, budget := 100, issued := 7, regs := [(1, 5)] }, 0xb4c40002, 7, by decide⟩

theorem witness_PawnMemoryAndSignalCommands_9 : ∃ (s : State) (n : Nat) (v : Invocation) (w : Word) (i : Nat),
    s.chip.passes .running = true ∧
    s.chip.issues n v 0x2e 0 = true ∧ w = s.chip.nextInsn v ∧
    i = (v.reg (fRa w) + BitVec.ofNat 64 (w.toNat % 2 ^ 16)).toNat ∧ i < 65536 ∧
    s.chip.pastView.sigValid v.epoch i = true ∧ s.chip.pastView.checked v.epoch i = true ∧ s.chip.pastView.sigStatus i = 0 :=
  ⟨{ chip := { tbl := [(4194308, 0xb8c40002), (3145756, 0x8000000000090000), (3407900, 0xABCD), (3407901, 0x10), (3407902, 0x00000000FFFFFFFF)], pawn := { run := [(2, { prog := 5, epoch := 0, start := 6, len := 40, pc := 2, budget := 100, issued := 7, regs := [(1, 5)] })] } } }, 2, { prog := 5, epoch := 0, start := 6, len := 40, pc := 2, budget := 100, issued := 7, regs := [(1, 5)] }, 0xb8c40002, 7, by decide⟩

theorem witness_PawnMemoryAndSignalCommands_10 : ∃ (s : State) (n : Nat) (v : Invocation) (w : Word) (i : Nat),
    s.chip.passes .running = true ∧
    s.chip.issues n v 0x2e 0 = true ∧ w = s.chip.nextInsn v ∧
    i = (v.reg (fRa w) + BitVec.ofNat 64 (w.toNat % 2 ^ 16)).toNat ∧ i < 65536 ∧
    s.chip.pastView.sigValid v.epoch i = true ∧ s.chip.pastView.checked v.epoch i = true ∧ s.chip.pastView.sigStatus i = 1 ∧ s.chip.pastView.fresh v.epoch i = true ∧ s.chip.ns - s.chip.pastView.sigCapture i ≤ 1000 ∧ s.chip.pastView.sigCapture i < s.chip.ns :=
  ⟨{ chip := { tbl := [(4194308, 0xb8c40002), (3145756, 0x8000000000090000), (3407900, 0xABCD), (3407901, 0x10), (3407902, 0x40000000FFFFFFFF)], pawn := { run := [(2, { prog := 5, epoch := 0, start := 6, len := 40, pc := 2, budget := 100, issued := 7, regs := [(1, 5)] })] }, tempo := { value := 0x20 * 2 ^ 48 } } }, 2, { prog := 5, epoch := 0, start := 6, len := 40, pc := 2, budget := 100, issued := 7, regs := [(1, 5)] }, 0xb8c40002, 7, by decide⟩

theorem witness_PawnMemoryAndSignalCommands_11 : ∃ (s : State) (n : Nat) (v : Invocation) (w : Word) (i : Nat),
    s.chip.passes .running = true ∧
    s.chip.issues n v 0x2f 0 = true ∧ w = s.chip.nextInsn v ∧
    i = (v.reg (fRa w) + BitVec.ofNat 64 (w.toNat % 2 ^ 16)).toNat ∧ i < 65536 :=
  ⟨{ chip := { tbl := [(4194308, 0xbcc40002), (3145756, 0x8000000000000000), (3407900, 0xABCD), (3407901, 0x10), (3407902, 0x40000000FFFFFFFF)], pawn := { run := [(2, { prog := 5, epoch := 0, start := 6, len := 40, pc := 2, budget := 100, issued := 7, regs := [(1, 5)] })] } } }, 2, { prog := 5, epoch := 0, start := 6, len := 40, pc := 2, budget := 100, issued := 7, regs := [(1, 5)] }, 0xbcc40002, 7, by decide⟩

theorem witness_PawnMemoryAndSignalCommands_12 : ∃ (s : State) (n : Nat) (v : Invocation) (w : Word),
    s.chip.passes .running = true ∧
    s.chip.issues n v 0x2D 0 = true ∧ w = s.chip.nextInsn v ∧ n < 16 ∧
    65536 ≤ (v.reg (fRa w) + BitVec.ofNat 64 (w.toNat % 2 ^ 16)).toNat ∧
    s.chip.digestHeld n = false :=
  ⟨{ chip := { tbl := [(4194308, 0xb4c4ffff)], pawn := { run := [(2, { prog := 5, epoch := 0, start := 6, len := 40, pc := 2, budget := 100, issued := 7, regs := [(1, 1)] })] } } }, 2, { prog := 5, epoch := 0, start := 6, len := 40, pc := 2, budget := 100, issued := 7, regs := [(1, 1)] }, 0xb4c4ffff, by decide⟩

theorem witness_PawnBufferAndConversionCommands_1 : ∃ (s : State) (n : Nat) (v : Invocation) (w : Word) (p : Nat) (b : Nat),
    s.chip.passes .running = true ∧
    s.chip.issues n v 0x30 0 = true ∧ w = s.chip.nextInsn v ∧
    p = (v.reg (fRa w)).toNat + w.toNat % 2 ^ 10 ∧ (v.reg (fRa w)).toNat < 16384 ∧ b = fld w 15 10 + 1 ∧ bit w 17 = false ∧ p + b ≤ 16384 :=
  ⟨{ chip := { tbl := [(4194308, 0xc0c42c05)], pawn := { run := [(2, { prog := 5, epoch := 0, start := 6, len := 40, pc := 2, budget := 100, issued := 7, regs := [(1, 3)], inBuf := [0x12, 0x34, 0x56, 0x78], inLen := 4, out := [0xAB, 0xCD] })] } } }, 2, { prog := 5, epoch := 0, start := 6, len := 40, pc := 2, budget := 100, issued := 7, regs := [(1, 3)], inBuf := [0x12, 0x34, 0x56, 0x78], inLen := 4, out := [0xAB, 0xCD] }, 0xc0c42c05, 8, 12, by decide⟩

theorem witness_PawnBufferAndConversionCommands_2 : ∃ (s : State) (n : Nat) (v : Invocation) (w : Word) (p : Nat) (b : Nat),
    s.chip.passes .running = true ∧
    s.chip.issues n v 0x31 0 = true ∧ w = s.chip.nextInsn v ∧
    p = (v.reg (fRa w)).toNat + w.toNat % 2 ^ 10 ∧ (v.reg (fRa w)).toNat < 16384 ∧ b = fld w 15 10 + 1 ∧ bit w 17 = false ∧ p + b ≤ 16384 :=
  ⟨{ chip := { tbl := [(4194308, 0xc4c51c05)], pawn := { run := [(2, { prog := 5, epoch := 0, start := 6, len := 40, pc := 2, budget := 100, issued := 7, regs := [(1, 3)], inBuf := [0x12, 0x34, 0x56, 0x78], inLen := 4, out := [0xAB, 0xCD] })] } } }, 2, { prog := 5, epoch := 0, start := 6, len := 40, pc := 2, budget := 100, issued := 7, regs := [(1, 3)], inBuf := [0x12, 0x34, 0x56, 0x78], inLen := 4, out := [0xAB, 0xCD] }, 0xc4c51c05, 8, 8, by decide⟩

theorem witness_PawnBufferAndConversionCommands_3 : ∃ (s : State) (n : Nat) (v : Invocation) (w : Word) (p : Nat) (b : Nat),
    s.chip.passes .running = true ∧
    s.chip.issues n v 0x32 0 = true ∧ w = s.chip.nextInsn v ∧
    p = (v.reg (fRa w)).toNat + w.toNat % 2 ^ 10 ∧ (v.reg (fRa w)).toNat < 16384 ∧ b = fld w 15 10 + 1 ∧ bit w 17 = false ∧ p + b ≤ 16384 :=
  ⟨{ chip := { tbl := [(4194308, 0xc8c44c05)], pawn := { run := [(2, { prog := 5, epoch := 0, start := 6, len := 40, pc := 2, budget := 100, issued := 7, regs := [(1, 3), (3, 0xABCDE)], inBuf := [0x12, 0x34, 0x56, 0x78], inLen := 4, out := [0xAB, 0xCD] })] } } }, 2, { prog := 5, epoch := 0, start := 6, len := 40, pc := 2, budget := 100, issued := 7, regs := [(1, 3), (3, 0xABCDE)], inBuf := [0x12, 0x34, 0x56, 0x78], inLen := 4, out := [0xAB, 0xCD] }, 0xc8c44c05, 8, 20, by decide⟩

theorem witness_PawnBufferAndConversionCommands_4 : ∃ (s : State) (n : Nat) (v : Invocation) (w : Word),
    s.chip.passes .running = true ∧
    s.chip.issues n v 0x30 0 = true ∧ w = s.chip.nextInsn v ∧ n < 16 ∧ bit w 17 = false ∧
    16384 < (v.reg (fRa w)).toNat + w.toNat % 2 ^ 10 + fld w 15 10 + 1 ∧ (v.reg (fRa w)).toNat < 2 ^ 32 ∧
    s.chip.digestHeld n = false :=
  ⟨{ chip := { tbl := [(4194308, 0xc0c42c05)], pawn := { run := [(2, { prog := 5, epoch := 0, start := 6, len := 40, pc := 2, budget := 100, issued := 7, regs := [(1, 16380)] })] } } }, 2, { prog := 5, epoch := 0, start := 6, len := 40, pc := 2, budget := 100, issued := 7, regs := [(1, 16380)] }, 0xc0c42c05, by decide⟩

theorem witness_PawnBufferAndConversionCommands_5 : ∃ (s : State) (n : Nat) (v : Invocation) (w : Word) (x : Int),
    s.chip.passes .running = true ∧
    s.chip.issues n v 0x34 0 = true ∧ w = s.chip.nextInsn v ∧
    x = (v.reg (fRa w)).toInt * (BitVec.ofNat 32 (fld (v.reg (fRb w)) 63 32)).toInt :=
  ⟨{ chip := { tbl := [(4194308, 0xd0c48000)], pawn := { run := [(2, { prog := 5, epoch := 0, start := 6, len := 40, pc := 2, budget := 100, issued := 7, regs := [(1, 0xFFFFFFFFFFFFFFF0), (2, 0x00000003FFFFFF84)] })] } } }, 2, { prog := 5, epoch := 0, start := 6, len := 40, pc := 2, budget := 100, issued := 7, regs := [(1, 0xFFFFFFFFFFFFFFF0), (2, 0x00000003FFFFFF84)] }, 0xd0c48000, -48, by decide⟩

theorem witness_PawnBufferAndConversionCommands_6 : ∃ (s : State) (n : Nat) (v : Invocation) (w : Word) (lo : Int) (hi : Int),
    s.chip.passes .running = true ∧
    s.chip.issues n v 0x35 0 = true ∧ w = s.chip.nextInsn v ∧
    lo = (BitVec.ofNat 32 (fld (v.reg (fRb w)) 63 32)).toInt ∧ hi = (BitVec.ofNat 32 (fld (v.reg (fRb w)) 31 0)).toInt :=
  ⟨{ chip := { tbl := [(4194308, 0xd4c48000)], pawn := { run := [(2, { prog := 5, epoch := 0, start := 6, len := 40, pc := 2, budget := 100, issued := 7, regs := [(1, 11), (2, 0xFFFFFFFF0000000A)] })] } } }, 2, { prog := 5, epoch := 0, start := 6, len := 40, pc := 2, budget := 100, issued := 7, regs := [(1, 11), (2, 0xFFFFFFFF0000000A)] }, 0xd4c48000, -1, 10, by decide⟩

theorem witness_PawnBufferAndConversionCommands_7 : ∃ (s : State) (n : Nat) (v : Invocation) (w : Word) (lo : Int) (hi : Int),
    s.chip.passes .running = true ∧
    s.chip.issues n v 0x36 0 = true ∧ w = s.chip.nextInsn v ∧
    lo = (BitVec.ofNat 32 (fld (v.reg (fRb w)) 63 32)).toInt ∧ hi = (BitVec.ofNat 32 (fld (v.reg (fRb w)) 31 0)).toInt :=
  ⟨{ chip := { tbl := [(4194308, 0xd8c48000)], pawn := { run := [(2, { prog := 5, epoch := 0, start := 6, len := 40, pc := 2, budget := 100, issued := 7, regs := [(1, 0xfffffffffffffffa), (2, 0xFFFFFFFF0000000A)] })] } } }, 2, { prog := 5, epoch := 0, start := 6, len := 40, pc := 2, budget := 100, issued := 7, regs := [(1, 0xfffffffffffffffa), (2, 0xFFFFFFFF0000000A)] }, 0xd8c48000, -1, 10, by decide⟩

theorem witness_PawnBufferAndConversionCommands_8 : ∃ (s : State) (n : Nat) (v : Invocation) (w : Word) (m : Nat),
    s.chip.passes .running = true ∧
    s.chip.issues n v 0x37 0 = true ∧ w = s.chip.nextInsn v ∧
    fld (v.reg (fRa w)) 30 23 = 150 ∧ m = 2 ^ 23 + fld (v.reg (fRa w)) 22 0 ∧ fld w 17 12 ≤ 39 :=
  ⟨{ chip := { tbl := [(4194308, 0xdcc44000)], pawn := { run := [(2, { prog := 5, epoch := 0, start := 6, len := 40, pc := 2, budget := 100, issued := 7, regs := [(1, 0xCB000003)] })] } } }, 2, { prog := 5, epoch := 0, start := 6, len := 40, pc := 2, budget := 100, issued := 7, regs := [(1, 0xCB000003)] }, 0xdcc44000, 8388611, by decide⟩

theorem witness_PawnBufferAndConversionCommands_9 : ∃ (s : State) (n : Nat) (v : Invocation) (w : Word),
    s.chip.passes .running = true ∧
    s.chip.issues n v 0x37 0 = true ∧ w = s.chip.nextInsn v ∧
    fld (v.reg (fRa w)) 30 23 = 255 ∧ fld (v.reg (fRa w)) 22 0 ≠ 0 :=
  ⟨{ chip := { tbl := [(4194308, 0xdcc44000)], pawn := { run := [(2, { prog := 5, epoch := 0, start := 6, len := 40, pc := 2, budget := 100, issued := 7, regs := [(1, 0x7F800001)] })] } } }, 2, { prog := 5, epoch := 0, start := 6, len := 40, pc := 2, budget := 100, issued := 7, regs := [(1, 0x7F800001)] }, 0xdcc44000, by decide⟩

theorem witness_PawnBufferAndConversionCommands_10 : ∃ (s : State) (n : Nat) (v : Invocation) (w : Word),
    s.chip.passes .running = true ∧
    s.chip.issues n v 0x37 0 = true ∧ w = s.chip.nextInsn v ∧
    fld (v.reg (fRa w)) 30 23 = 255 ∧ fld (v.reg (fRa w)) 22 0 = 0 :=
  ⟨{ chip := { tbl := [(4194308, 0xdcc44000)], pawn := { run := [(2, { prog := 5, epoch := 0, start := 6, len := 40, pc := 2, budget := 100, issued := 7, regs := [(1, 0xFF800000)] })] } } }, 2, { prog := 5, epoch := 0, start := 6, len := 40, pc := 2, budget := 100, issued := 7, regs := [(1, 0xFF800000)] }, 0xdcc44000, by decide⟩

theorem witness_PawnBufferAndConversionCommands_11 : ∃ (s : State) (n : Nat) (v : Invocation) (w : Word),
    s.chip.passes .running = true ∧
    s.chip.issues n v 0x38 0 = true ∧ w = s.chip.nextInsn v ∧
    (v.reg (fRa w)).toNat = 0 :=
  ⟨{ chip := { tbl := [(4194308, 0xe0c44000)], pawn := { run := [(2, { prog := 5, epoch := 0, start := 6, len := 40, pc := 2, budget := 100, issued := 7, regs := [(1, 0)] })] } } }, 2, { prog := 5, epoch := 0, start := 6, len := 40, pc := 2, budget := 100, issued := 7, regs := [(1, 0)] }, 0xe0c44000, by decide⟩

theorem witness_PawnBufferAndConversionCommands_12 : ∃ (s : State) (n : Nat) (v : Invocation) (w : Word) (k : Nat),
    s.chip.passes .running = true ∧
    s.chip.issues n v 0x38 0 = true ∧ w = s.chip.nextInsn v ∧
    k < 63 ∧ (v.reg (fRa w)).toNat = 2 ^ k :=
  ⟨{ chip := { tbl := [(4194308, 0xe0c44000)], pawn := { run := [(2, { prog := 5, epoch := 0, start := 6, len := 40, pc := 2, budget := 100, issued := 7, regs := [(1, 0x4000000000000000)] })] } } }, 2, { prog := 5, epoch := 0, start := 6, len := 40, pc := 2, budget := 100, issued := 7, regs := [(1, 0x4000000000000000)] }, 0xe0c44000, 62, by decide⟩

theorem witness_PawnBufferAndConversionCommands_13 : ∃ (s : State) (n : Nat) (v : Invocation) (w : Word) (c : Nat),
    s.chip.passes .running = true ∧
    s.chip.issues n v 0x39 0 = true ∧ w = s.chip.nextInsn v ∧
    s.chip.crcWidth v.epoch (fld w 17 15) = some 8 ∧ fld w 14 12 = 0 ∧ c = (s.chip.regAt v.epoch (Reg.PAWN.CRC_POLY 0 (fld w 17 15))).toNat ∧ bit (s.chip.regAt v.epoch (Reg.PAWN.CRC_MODE 0 (fld w 17 15))) 0 = false ∧
    (v.reg (fRd w)).toNat < 256 ∧ c < 256 :=
  ⟨{ chip := { tbl := [(4194308, 0xe4c48000)], pawn := { run := [(2, { prog := 5, epoch := 0, start := 6, len := 40, pc := 2, budget := 100, issued := 7, regs := [(1, 0xA5), (3, 0xFF)] })] }, regs := [(0x51248, 0x1D), (0x5124C, 0)] } }, 2, { prog := 5, epoch := 0, start := 6, len := 40, pc := 2, budget := 100, issued := 7, regs := [(1, 0xA5), (3, 0xFF)] }, 0xe4c48000, 0x1D, by decide⟩

theorem witness_PawnBufferAndConversionCommands_14 : ∃ (s : State) (n : Nat) (v : Invocation) (w : Word) (c : Nat),
    s.chip.passes .running = true ∧
    s.chip.issues n v 0x3a 0 = true ∧ w = s.chip.nextInsn v ∧
    s.chip.crcWidth v.epoch (fld w 17 15) = some 8 ∧ fld w 14 12 = 0 ∧ c = (s.chip.regAt v.epoch (Reg.PAWN.CRC_POLY 0 (fld w 17 15))).toNat ∧ bit (s.chip.regAt v.epoch (Reg.PAWN.CRC_MODE 0 (fld w 17 15))) 0 = false ∧
    (v.reg (fRd w)).toNat < 256 ∧ c < 256 ∧ bit w 11 = false ∧ (v.reg (fRa w)).toNat + fld w 10 0 < 2048 :=
  ⟨{ chip := { tbl := [(4194308, 0xe8c48001)], pawn := { run := [(2, { prog := 5, epoch := 0, start := 6, len := 40, pc := 2, budget := 100, issued := 7, regs := [(1, 1), (3, 0xFF)], inBuf := [0x12, 0x34, 0x56, 0x78], inLen := 4, out := [0xAB, 0xCD] })] }, regs := [(0x51248, 0x1D), (0x5124C, 0)] } }, 2, { prog := 5, epoch := 0, start := 6, len := 40, pc := 2, budget := 100, issued := 7, regs := [(1, 1), (3, 0xFF)], inBuf := [0x12, 0x34, 0x56, 0x78], inLen := 4, out := [0xAB, 0xCD] }, 0xe8c48001, 0x1D, by decide⟩

theorem witness_PawnBufferAndConversionCommands_15 : ∃ (s : State) (n : Nat) (v : Invocation) (w : Word),
    s.chip.passes .running = true ∧
    s.chip.issues n v 0x3b 0 = true ∧ w = s.chip.nextInsn v :=
  ⟨{ chip := { tbl := [(4194308, 0xecc4000e)], pawn := { run := [(2, { prog := 5, epoch := 0, start := 6, len := 40, pc := 2, budget := 100, issued := 7, regs := [(1, 14)] })] } } }, 2, { prog := 5, epoch := 0, start := 6, len := 40, pc := 2, budget := 100, issued := 7, regs := [(1, 14)] }, 0xecc4000e, by decide⟩

theorem witness_PawnBufferAndConversionCommands_16 : ∃ (s : State) (n : Nat) (v : Invocation) (w : Word) (m : Nat),
    s.chip.passes .running = true ∧
    s.chip.issues n v 0x3c 0 = true ∧ w = s.chip.nextInsn v ∧
    m = fld w 13 0 ∧ (v.reg (fRa w)).toNat ≤ m ∧ (v.reg (fRb w)).toNat ≤ m :=
  ⟨{ chip := { tbl := [(4194308, 0xf0c4800e)], pawn := { run := [(2, { prog := 5, epoch := 0, start := 6, len := 40, pc := 2, budget := 100, issued := 7, regs := [(1, 0), (2, 14)] })] } } }, 2, { prog := 5, epoch := 0, start := 6, len := 40, pc := 2, budget := 100, issued := 7, regs := [(1, 0), (2, 14)] }, 0xf0c4800e, 14, by decide⟩

theorem witness_PawnBufferAndConversionCommands_17 : ∃ (s : State) (n : Nat) (v : Invocation) (w : Word) (m : Nat),
    s.chip.passes .running = true ∧
    s.chip.issues n v 0x3c 0 = true ∧ w = s.chip.nextInsn v ∧
    (m = fld w 13 0 ∧ (m < (v.reg (fRa w)).toNat ∨ m < (v.reg (fRb w)).toNat)) :=
  ⟨{ chip := { tbl := [(4194308, 0xf0c4800e)], pawn := { run := [(2, { prog := 5, epoch := 0, start := 6, len := 40, pc := 2, budget := 100, issued := 7, regs := [(1, 15), (2, 14)] })] } } }, 2, { prog := 5, epoch := 0, start := 6, len := 40, pc := 2, budget := 100, issued := 7, regs := [(1, 15), (2, 14)] }, 0xf0c4800e, 14, by decide⟩

theorem witness_PawnBufferAndConversionCommands_18 : ∃ (s : State) (n : Nat) (v : Invocation) (w : Word),
    s.chip.passes .running = true ∧
    s.chip.issues n v 0x3d 0 = true ∧ w = s.chip.nextInsn v ∧
    v.writes.length < 64 :=
  ⟨{ chip := { tbl := [(4194308, 0xf4c2ffff)], pawn := { run := [(2, { prog := 5, epoch := 0, start := 6, len := 40, pc := 2, budget := 100, issued := 7, regs := [(3, 77)], ecap := 5 })] } } }, 2, { prog := 5, epoch := 0, start := 6, len := 40, pc := 2, budget := 100, issued := 7, regs := [(3, 77)], ecap := 5 }, 0xf4c2ffff, by decide⟩

theorem witness_PawnBufferAndConversionCommands_19 : ∃ (s : State) (n : Nat) (v : Invocation) (w : Word),
    s.chip.passes .running = true ∧
    s.chip.issues n v 0x3e 0 = true ∧ w = s.chip.nextInsn v ∧
    v.emits.length < 16 :=
  ⟨{ chip := { tbl := [(4194308, 0xf8003fff)], pawn := { run := [(2, { prog := 5, epoch := 0, start := 6, len := 40, pc := 2, budget := 100, issued := 7 })] } } }, 2, { prog := 5, epoch := 0, start := 6, len := 40, pc := 2, budget := 100, issued := 7 }, 0xf8003fff, by decide⟩

theorem witness_PawnBufferAndConversionCommands_20 : ∃ (s : State) (n : Nat) (v : Invocation) (w : Word),
    s.chip.passes .running = true ∧
    s.chip.issues n v 0x3e 1 = true ∧ w = s.chip.nextInsn v ∧
    v.emits.length < 16 ∧ (v.reg (fRd w)).toNat ≤ 2048 :=
  ⟨{ chip := { tbl := [(4194308, 0xf8d03fff)], pawn := { run := [(2, { prog := 5, epoch := 0, start := 6, len := 40, pc := 2, budget := 100, issued := 7, regs := [(3, 4)], inBuf := [0x12, 0x34, 0x56, 0x78], inLen := 4, out := [0xAB, 0xCD], sub := true })] } } }, 2, { prog := 5, epoch := 0, start := 6, len := 40, pc := 2, budget := 100, issued := 7, regs := [(3, 4)], inBuf := [0x12, 0x34, 0x56, 0x78], inLen := 4, out := [0xAB, 0xCD], sub := true }, 0xf8d03fff, by decide⟩

theorem witness_PawnBufferAndConversionCommands_21 : ∃ (s : State) (n : Nat) (v : Invocation) (w : Word) (j : Nat),
    s.chip.passes .running = true ∧
    s.chip.issues n v 0x3f 0 = true ∧ w = s.chip.nextInsn v ∧
    j = (v.reg (fRa w) + BitVec.ofNat 64 (w.toNat % 2 ^ 12)).toNat ∧ j < 4096 ∧ fld (s.chip.pastView.twordAt v.epoch (timerOff j)) 62 61 = v.part ∧ v.timers.length < 16 :=
  ⟨{ chip := { tbl := [(4194308, 0xfcc40fa0)], pawn := { run := [(2, { prog := 5, epoch := 0, start := 6, len := 40, pc := 2, budget := 100, issued := 7, regs := [(1, 95), (3, 9)] })] } } }, 2, { prog := 5, epoch := 0, start := 6, len := 40, pc := 2, budget := 100, issued := 7, regs := [(1, 95), (3, 9)] }, 0xfcc40fa0, 4095, by decide⟩

theorem witness_PawnBufferAndConversionCommands_22 : ∃ (s : State) (n : Nat) (v : Invocation) (w : Word) (j : Nat),
    s.chip.passes .running = true ∧
    s.chip.issues n v 0x3f 1 = true ∧ w = s.chip.nextInsn v ∧
    j = (v.reg (fRa w) + BitVec.ofNat 64 (w.toNat % 2 ^ 12)).toNat ∧ j < 4096 ∧ fld (s.chip.pastView.twordAt v.epoch (timerOff j)) 62 61 = v.part ∧ v.timers.length < 16 :=
  ⟨{ chip := { tbl := [(4194308, 0xfc050fa0)], pawn := { run := [(2, { prog := 5, epoch := 0, start := 6, len := 40, pc := 2, budget := 100, issued := 7, regs := [(1, 95), (3, 9)] })] } } }, 2, { prog := 5, epoch := 0, start := 6, len := 40, pc := 2, budget := 100, issued := 7, regs := [(1, 95), (3, 9)] }, 0xfc050fa0, 4095, by decide⟩

theorem witness_PawnHeldCommands_1 : ∃ (s : State) (n : Nat) (v : Invocation) (w : Word),
    s.chip.passes .running = true ∧
    s.chip.issues n v 0x3d 0 = true ∧ w = s.chip.nextInsn v ∧
    v.writes.length < 64 :=
  ⟨{ chip := { tbl := [(4194308, 0xf4c2ffff)], pawn := { run := [(2, { prog := 5, epoch := 0, start := 6, len := 40, pc := 2, budget := 100, issued := 7, regs := [(3, 77)], ecap := 5 })] } } }, 2, { prog := 5, epoch := 0, start := 6, len := 40, pc := 2, budget := 100, issued := 7, regs := [(3, 77)], ecap := 5 }, 0xf4c2ffff, by decide⟩

theorem witness_PawnHeldCommands_2 : ∃ (s : State) (n : Nat) (v : Invocation) (w : Word),
    s.chip.passes .running = true ∧
    s.chip.issues n v 0x3e 0 = true ∧ w = s.chip.nextInsn v ∧
    v.emits.length < 16 :=
  ⟨{ chip := { tbl := [(4194308, 0xf8003fff)], pawn := { run := [(2, { prog := 5, epoch := 0, start := 6, len := 40, pc := 2, budget := 100, issued := 7 })] } } }, 2, { prog := 5, epoch := 0, start := 6, len := 40, pc := 2, budget := 100, issued := 7 }, 0xf8003fff, by decide⟩

theorem witness_PawnHeldCommands_3 : ∃ (s : State) (n : Nat) (v : Invocation) (w : Word),
    s.chip.passes .running = true ∧
    s.chip.issues n v 0x3e 1 = true ∧ w = s.chip.nextInsn v ∧
    v.emits.length < 16 ∧ (v.reg (fRd w)).toNat ≤ 2048 :=
  ⟨{ chip := { tbl := [(4194308, 0xf8d03fff)], pawn := { run := [(2, { prog := 5, epoch := 0, start := 6, len := 40, pc := 2, budget := 100, issued := 7, regs := [(3, 4)], inBuf := [0x12, 0x34, 0x56, 0x78], inLen := 4, out := [0xAB, 0xCD], sub := true })] } } }, 2, { prog := 5, epoch := 0, start := 6, len := 40, pc := 2, budget := 100, issued := 7, regs := [(3, 4)], inBuf := [0x12, 0x34, 0x56, 0x78], inLen := 4, out := [0xAB, 0xCD], sub := true }, 0xf8d03fff, by decide⟩

theorem witness_PawnHeldCommands_4 : ∃ (s : State) (n : Nat) (v : Invocation) (w : Word) (j : Nat),
    s.chip.passes .running = true ∧
    s.chip.issues n v 0x3f 0 = true ∧ w = s.chip.nextInsn v ∧
    j = (v.reg (fRa w) + BitVec.ofNat 64 (w.toNat % 2 ^ 12)).toNat ∧ j < 4096 ∧ fld (s.chip.pastView.twordAt v.epoch (timerOff j)) 62 61 = v.part ∧ v.timers.length < 16 :=
  ⟨{ chip := { tbl := [(4194308, 0xfcc40fa0)], pawn := { run := [(2, { prog := 5, epoch := 0, start := 6, len := 40, pc := 2, budget := 100, issued := 7, regs := [(1, 95), (3, 9)] })] } } }, 2, { prog := 5, epoch := 0, start := 6, len := 40, pc := 2, budget := 100, issued := 7, regs := [(1, 95), (3, 9)] }, 0xfcc40fa0, 4095, by decide⟩

theorem witness_PawnHeldCommands_5 : ∃ (s : State) (n : Nat) (v : Invocation) (w : Word) (j : Nat),
    s.chip.passes .running = true ∧
    s.chip.issues n v 0x3f 1 = true ∧ w = s.chip.nextInsn v ∧
    j = (v.reg (fRa w) + BitVec.ofNat 64 (w.toNat % 2 ^ 12)).toNat ∧ j < 4096 ∧ fld (s.chip.pastView.twordAt v.epoch (timerOff j)) 62 61 = v.part ∧ v.timers.length < 16 :=
  ⟨{ chip := { tbl := [(4194308, 0xfc050fa0)], pawn := { run := [(2, { prog := 5, epoch := 0, start := 6, len := 40, pc := 2, budget := 100, issued := 7, regs := [(1, 95), (3, 9)] })] } } }, 2, { prog := 5, epoch := 0, start := 6, len := 40, pc := 2, budget := 100, issued := 7, regs := [(1, 95), (3, 9)] }, 0xfc050fa0, 4095, by decide⟩

theorem witness_PawnHeldCommands_6 : ∃ (s : State) (n : Nat) (v : Invocation) (w : Word),
    s.chip.passes .running = true ∧
    s.chip.issues n v 0x3d 0 = true ∧ w = s.chip.nextInsn v ∧ n < 16 ∧
    64 ≤ v.writes.length ∧
    s.chip.digestHeld n = false :=
  ⟨{ chip := { tbl := [(4194308, 0xf4000000)], pawn := { run := [(2, { prog := 5, epoch := 0, start := 6, len := 40, pc := 2, budget := 100, issued := 7, writes := List.replicate 64 { sig := 1, value := 1, cap := 1, inv := false } })] } } }, 2, { prog := 5, epoch := 0, start := 6, len := 40, pc := 2, budget := 100, issued := 7, writes := List.replicate 64 { sig := 1, value := 1, cap := 1, inv := false } }, 0xf4000000, by decide⟩

theorem witness_PawnHeldCommands_7 : ∃ (s : State) (n : Nat) (v : Invocation) (w : Word),
    s.chip.passes .running = true ∧
    s.chip.issues n v 0x3e 0 = true ∧ w = s.chip.nextInsn v ∧ n < 16 ∧
    16 ≤ v.emits.length ∧
    s.chip.digestHeld n = false :=
  ⟨{ chip := { tbl := [(4194308, 0xf8000000)], pawn := { run := [(2, { prog := 5, epoch := 0, start := 6, len := 40, pc := 2, budget := 100, issued := 7, emits := List.replicate 16 (.emit 1) })] } } }, 2, { prog := 5, epoch := 0, start := 6, len := 40, pc := 2, budget := 100, issued := 7, emits := List.replicate 16 (.emit 1) }, 0xf8000000, by decide⟩

theorem witness_PawnHeldCommands_8 : ∃ (s : State) (n : Nat) (v : Invocation) (w : Word),
    s.chip.passes .running = true ∧
    s.chip.issues n v 0x3e 1 = true ∧ w = s.chip.nextInsn v ∧ n < 16 ∧
    2048 < (v.reg (fRd w)).toNat ∧
    s.chip.digestHeld n = false :=
  ⟨{ chip := { tbl := [(4194308, 0xf8d00000)], pawn := { run := [(2, { prog := 5, epoch := 0, start := 6, len := 40, pc := 2, budget := 100, issued := 7, regs := [(3, 2049)] })] } } }, 2, { prog := 5, epoch := 0, start := 6, len := 40, pc := 2, budget := 100, issued := 7, regs := [(3, 2049)] }, 0xf8d00000, by decide⟩

theorem witness_PawnHeldCommands_9 : ∃ (s : State) (n : Nat) (v : Invocation) (w : Word),
    s.chip.passes .running = true ∧
    s.chip.issues n v 0x3f 0 = true ∧ w = s.chip.nextInsn v ∧ n < 16 ∧
    4096 ≤ (v.reg (fRa w) + BitVec.ofNat 64 (w.toNat % 2 ^ 12)).toNat ∧
    s.chip.digestHeld n = false :=
  ⟨{ chip := { tbl := [(4194308, 0xfc040fa0)], pawn := { run := [(2, { prog := 5, epoch := 0, start := 6, len := 40, pc := 2, budget := 100, issued := 7, regs := [(1, 96)] })] } } }, 2, { prog := 5, epoch := 0, start := 6, len := 40, pc := 2, budget := 100, issued := 7, regs := [(1, 96)] }, 0xfc040fa0, by decide⟩

theorem witness_PawnHeldCommands_10 : ∃ (s : State) (n : Nat) (v : Invocation) (w : Word),
    s.chip.passes .running = true ∧
    s.chip.issues n v 0x3f 1 = true ∧ w = s.chip.nextInsn v ∧ n < 16 ∧
    fld (s.chip.pastView.twordAt v.epoch (timerOff ((v.reg (fRa w) + BitVec.ofNat 64 (w.toNat % 2 ^ 12)).toNat))) 62 61 ≠ v.part ∧
    s.chip.digestHeld n = false :=
  ⟨{ chip := { tbl := [(4194308, 0xfc010000)], pawn := { run := [(2, { prog := 5, epoch := 0, start := 6, len := 40, pc := 2, budget := 100, issued := 7, part := 2 })] } } }, 2, { prog := 5, epoch := 0, start := 6, len := 40, pc := 2, budget := 100, issued := 7, part := 2 }, 0xfc010000, by decide⟩

theorem witness_FabricCommandsComplete_1 : ∃ (s : State) (i : Nat) (k : Copy),
    s.chip.passes .running = true ∧
    i < 16 ∧ sget 0 s.chip.fab.sentAt i ≠ s.chip.fab.tour + 1 ∧ s.chip.launchOrder i = [k] ∧
    k.sent = 0 ∧ k.cls < 7 ∧ s.chip.residenceOver k = false ∧ s.chip.pastDeadline k = false ∧ s.chip.mayGrant k = true ∧
    ((s.chip.midHere ((i + s.chip.fab.tour) % 16)).filter fun x => x.port == outPort k.output && decide (x.cls < 7)).length < s.chip.midLim ∧
    (s.chip.midHere ((i + s.chip.fab.tour) % 16)).length < 4096 :=
  ⟨{ chip := { regs := [], fab := { copies := [{ id := 4, output := 3, cls := 2, cells := 2, resv := 2, src := 1 }] } } }, 0, { id := 4, output := 3, cls := 2, cells := 2, resv := 2, src := 1 }, by decide⟩

theorem witness_FabricCommandsComplete_2 : ∃ (s : State) (j : Nat) (x : MidCell),
    s.chip.passes .running = true ∧
    j < 16 ∧ 4 ≤ s.chip.fab.tour ∧ sget 0 s.chip.fab.takenAt j ≠ s.chip.fab.tour + 1 ∧
    s.chip.midPick ((s.chip.fab.tour - 4 + 16 - j) % 16) j (s.chip.fab.tour - 4) = some x ∧
    s.chip.plState s.chip.move = 0 :=
  ⟨{ chip := { regs := [], fab := { tour := 20, mids := [{ mid := 15, port := 1, copy := 9, cls := 2, flow := 82, seq := 0, launched := 0 }] } } }, 1, { mid := 15, port := 1, copy := 9, cls := 2, flow := 82, seq := 0, launched := 0 }, by decide⟩

theorem witness_FabricCommandsComplete_3 : ∃ (s : State) (j : Nat) (x : MidCell),
    s.chip.passes .running = true ∧
    j < 16 ∧ 4 ≤ s.chip.fab.tour ∧ sget 0 s.chip.fab.takenAt j ≠ s.chip.fab.tour + 1 ∧
    s.chip.midPick ((s.chip.fab.tour - 4 + 16 - j) % 16) j (s.chip.fab.tour - 4) = some x ∧
    x.seq = sget 0 s.chip.fab.seqExp x.flow ∧ s.chip.fab.rsq = [] :=
  ⟨{ chip := { regs := [], fab := { tour := 20, mids := [{ mid := 15, port := 1, copy := 9, cls := 2, flow := 82, seq := 0, launched := 0 }] } } }, 1, { mid := 15, port := 1, copy := 9, cls := 2, flow := 82, seq := 0, launched := 0 }, by decide⟩

theorem witness_FabricCommandsComplete_4 : ∃ (s : State) (i : Nat) (o : Nat) (c : Nat) (x : RsqCell),
    s.chip.passes .running = true ∧
    x ∈ s.chip.fab.rsq ∧ x.flow = (i * 128 + o) * 8 + c ∧ x.since + s.chip.reseqTo ≤ s.chip.fab.tour :=
  ⟨{ chip := { regs := [(0x4004C, 1024)], fab := { tour := 2000, rsq := [{ copy := 9, flow := 82, seq := 5, since := 900 }] } } }, 0, 10, 2, { copy := 9, flow := 82, seq := 5, since := 900 }, by decide⟩

theorem witness_FabricCommandsComplete_5 : ∃ (s : State),
    s.chip.passes .running = true ∧
    s.chip.bitOf Reg.BUF.CTRL 31 = true ∧ s.chip.fab.lastAge + s.chip.ageScan * fsUs ≤ s.chip.now ∧ s.chip.fab.copies = [] :=
  ⟨{ chip := { regs := [], now := 10 ^ 14 } }, by decide⟩

theorem witness_FabricCommandsComplete_6 : ∃ (s : State) (k : Copy),
    s.chip.passes .running = true ∧
    s.chip.bitOf Reg.BUF.CTRL 31 = true ∧ s.chip.fab.lastAge + s.chip.ageScan * fsUs ≤ s.chip.now ∧
    s.chip.fab.copies = [k] ∧ k.output < 40 ∧ k.appended = false ∧ k.sent = 0 ∧ 0 < k.cells ∧ k.txCells = 0 ∧ k.held = false ∧ k.passed = false ∧ s.chip.residenceOver k = true :=
  ⟨{ chip := { regs := [], now := 10 ^ 14, tempo := { value := 10 ^ 9 * 2 ^ 48 }, fab := { copies := [{ id := 4, output := 3, cls := 2, cells := 2, resv := 2, src := 1 }] } } }, { id := 4, output := 3, cls := 2, cells := 2, resv := 2, src := 1 }, by decide⟩

theorem witness_FabricCommandsComplete_7 : ∃ (s : State) (k : Copy),
    s.chip.passes .running = true ∧
    (s.chip.ingFree < s.chip.fldOf Reg.BUF.HOLD_RECLAIM 17 0 ∨ s.chip.egrFree < s.chip.fldOf Reg.BUF.HOLD_RECLAIM 17 0) ∧
    s.chip.fab.reclaimAt ≠ s.chip.fab.tour + 1 ∧
    s.chip.fab.copies.filter (fun j => s.chip.inHold j.output && (j.sent == 0 || (j.appended && j.sent == j.cells)) && j.txCells == 0) = [k] :=
  ⟨{ chip := { regs := [(0x41064, 0x3FFFF), (0x129044, 2)], fab := { copies := [{ id := 4, output := 41, cls := 2, cells := 2, resv := 2 }] } } }, { id := 4, output := 41, cls := 2, cells := 2, resv := 2 }, by decide⟩

theorem witness_FabricCommandsComplete_8 : ∃ (s : State) (k : Nat) (v : Word),
    s.chip.passes .running = true ∧
    s.chip.accepts k Reg.BUF.SPLIT = true ∧ 8 ≤ v.toNat % 64 ∧ v.toNat % 64 ≤ 56 ∧
    s.chip.ingUsed ≤ s.chip.ingPoolOf (v.toNat % 64) ∧ s.chip.egrUsed ≤ s.chip.egrPoolOf (v.toNat % 64) :=
  ⟨{ chip := { regs := [] } }, 0, 8, by decide⟩

theorem witness_FabricCommandsComplete_9 : ∃ (s : State) (k : Nat) (v : Word),
    s.chip.passes .running = true ∧
    s.chip.accepts k Reg.BUF.SPLIT = true ∧
    (v.toNat % 64 < 8 ∨ 56 < v.toNat % 64 ∨ s.chip.ingPoolOf (v.toNat % 64) < s.chip.ingUsed ∨ s.chip.egrPoolOf (v.toNat % 64) < s.chip.egrUsed) :=
  ⟨{ chip := { regs := [] } }, 0, 57, by decide⟩

theorem witness_AdjudicationCommands_1 : ∃ (s : State) (o : Nat) (c : Nat) (k : Copy),
    s.chip.passes .running = true ∧
    o < 68 ∧ c < 8 ∧ s.chip.itemHeld false o = false ∧
    s.chip.fab.copies.find? (fun k => k.appended && k.output == o && k.cls == c && decide (k.compared < k.arrived)) = some k ∧
    (k.passed = true ∨ (s.chip.outputTakes k = true ∧ (40 ≤ k.output ∨ s.chip.canRecOk k.output k.data = true) ∧ s.chip.residenceOver k = false ∧ s.chip.pastDeadline k = false)) :=
  ⟨{ chip := { regs := [(0x103044, 0x20), (0x103064, 0)], fab := { copies := [{ id := 4, output := 3, cls := 2, cells := 2, resv := 2, arrived := 2, appended := true, sent := 2 }] } } }, 3, 2, { id := 4, output := 3, cls := 2, cells := 2, resv := 2, arrived := 2, appended := true, sent := 2 }, by decide⟩

theorem witness_AdjudicationCommands_2 : ∃ (s : State) (o : Nat) (c : Nat) (k : Copy),
    s.chip.passes .running = true ∧
    o < 68 ∧ c < 8 ∧ s.chip.itemHeld false o = false ∧ s.chip.lockstep = true ∧
    s.chip.fab.copies.find? (fun k => k.appended && k.output == o && k.cls == c && decide (k.compared < k.arrived)) = some k ∧
    (k.passed = true ∨ (s.chip.outputTakes k = true ∧ (40 ≤ k.output ∨ s.chip.canRecOk k.output k.data = true) ∧ s.chip.residenceOver k = false ∧ s.chip.pastDeadline k = false)) :=
  ⟨{ chip := { regs := [(0x103044, 0x20), (0x103064, 0)], fab := { copies := [{ id := 4, output := 3, cls := 2, cells := 2, resv := 2, arrived := 2, appended := true, sent := 2 }] } } }, 3, 2, { id := 4, output := 3, cls := 2, cells := 2, resv := 2, arrived := 2, appended := true, sent := 2 }, by decide⟩

theorem witness_AdjudicationCommands_3 : ∃ (s : State) (n : Nat) (x : Nat) (f : Nat),
    s.chip.passes .running = true ∧
    (x < 2 ∧ s.chip.planeComputes x = true ∧ s.chip.planeComputes 0 = true ∧ (f = 1 ∨ f = 2) ∧ s.chip.digestHeld n = true) :=
  ⟨{ chip := { regs := [], adj := { pend := [{ point := 1, loc := 4, d := 0, dNs := 0 }] } } }, 4, 1, 2, by decide⟩

theorem witness_AdjudicationCommands_4 : ∃ (s : State) (p : Dis) (rest : List Dis),
    s.chip.passes .running = true ∧
    s.chip.adj.pend = p :: rest ∧ p.d + 66 ≤ s.chip.fab.tour ∧ s.chip.halted = false ∧ s.chip.lockstep = true ∧ p.join = false ∧
    p.outcome = 0 :=
  ⟨{ chip := { regs := [], fab := { tour := 66 }, adj := { pend := [{ point := 0, loc := 3, cls := 2, copy := 4, d := 0, dNs := 0, bFlags := 1 }] } } }, { point := 0, loc := 3, cls := 2, copy := 4, d := 0, dNs := 0, bFlags := 1 }, [], by decide⟩

theorem witness_AdjudicationCommands_5 : ∃ (s : State) (p : Dis) (rest : List Dis),
    s.chip.passes .running = true ∧
    s.chip.adj.pend = p :: rest ∧ p.d + 66 ≤ s.chip.fab.tour ∧ s.chip.halted = false ∧ s.chip.lockstep = true ∧ p.join = false ∧
    (p.outcome = 1 ∧ p.act = s.chip.move ∧ (p.point ≠ 5 ∨ p.flags (1 - p.act) < 8)) :=
  ⟨{ chip := { regs := [], fab := { tour := 66 }, adj := { pend := [{ point := 0, loc := 3, cls := 2, copy := 4, d := 0, dNs := 0, wFlags := 1 }] } } }, { point := 0, loc := 3, cls := 2, copy := 4, d := 0, dNs := 0, wFlags := 1 }, [], by decide⟩

theorem witness_AdjudicationCommands_6 : ∃ (s : State) (p : Dis) (rest : List Dis),
    s.chip.passes .running = true ∧
    s.chip.adj.pend = p :: rest ∧ p.d + 66 ≤ s.chip.fab.tour ∧ s.chip.halted = false ∧ s.chip.lockstep = true ∧ p.join = false ∧
    p.outcome = 2 ∧ p.point ≠ 1 ∧ p.wFlags < 8 ∧ p.bFlags < 8 ∧ s.chip.bitOf Reg.ADJ.STATUS 2 = false ∧ s.chip.arbRunning = true :=
  ⟨{ chip := { regs := [(0x90040, 1)], fab := { tour := 66 }, adj := { pend := [{ point := 2, loc := 3, cls := 2, copy := 4, dma := true, d := 0, dNs := 0 }] } } }, { point := 2, loc := 3, cls := 2, copy := 4, dma := true, d := 0, dNs := 0 }, [], by decide⟩

theorem witness_AdjudicationCommands_7 : ∃ (s : State) (t : Nat) (fs : Nat),
    s.chip.passes .running = true ∧
    s.chip.adj.gapFrom = some (t, fs) :=
  ⟨{ chip := { regs := [(0x30044, 2)], now := 5 * 10 ^ 9, adj := { gapFrom := some (0, 10 ^ 9) } } }, 0, 1000000000, by decide⟩

theorem witness_AdjudicationCommands_8 : ∃ (s : State),
    s.chip.passes .running = true ∧
    s.chip.bitOf Reg.ADJ.STATUS 2 = true ∧ s.chip.arbRunning = true ∧ s.chip.adj.diagFor = none ∧ s.chip.planeRuns 0 = true ∧ s.chip.planeRuns 1 = true :=
  ⟨{ chip := { regs := [(0x30044, 4), (0x90040, 1)] } }, by decide⟩

theorem witness_AdjudicationCommands_9 : ∃ (s : State) (x : Nat),
    s.chip.passes .running = true ∧
    x < 2 ∧ s.chip.planeRuns x = true ∧ s.chip.fldOf (Reg.PL.SWEEP_CFG x) 15 0 ≠ 0 ∧
    sget 0 s.chip.adj.sweepAt x + clampNat 100 60000 (s.chip.fldOf (Reg.PL.SWEEP_CFG x) 15 0) * fsMs ≤ s.chip.now :=
  ⟨{ chip := { regs := [(0x32058, 0xFFFF)], now := 10 ^ 15 } }, 1, by decide⟩

theorem witness_AdjudicationCommands_10 : ∃ (s : State) (k : Nat) (x : Nat) (v : Word),
    s.chip.passes .running = true ∧
    x < 2 ∧ s.chip.accepts k (Reg.PL.SWEEP_NOW x) = true ∧ bit v 0 = true ∧ s.chip.planeRuns x = true :=
  ⟨{ chip := { regs := [] } }, 0, 1, 1, by decide⟩

theorem witness_AdjudicationCommands_11 : ∃ (s : State) (k : Nat) (x : Nat) (b : Nat) (v : Word),
    s.chip.passes .running = true ∧
    x < 2 ∧ s.chip.accepts k (Reg.PL.SWEEP_NOW x) = true ∧ bit v 0 = true ∧ s.chip.planeRuns x = true ∧
    1 ≤ b ∧ b ≤ 8 ∧ s.chip.bitOf (Reg.PL.SWEEP_STAT x) 30 = false ∧ s.chip.halted = false ∧ s.chip.lockstep = true ∧ x = s.chip.partner ∧
    s.chip.adj.pend = [] :=
  ⟨{ chip := { regs := [] } }, 0, 1, 8, 1, by decide⟩

theorem witness_ReintegrationCommands_1 : ∃ (s : State) (k : Nat) (x : Nat) (v : Word),
    s.chip.passes .running = true ∧
    x < 2 ∧ s.chip.accepts k (Reg.PL.PL_CTRL x) = true ∧ bit v 0 = true ∧ x = s.chip.partner ∧ s.chip.plState x ≠ 2 :=
  ⟨{ chip := { regs := [] } }, 0, 1, 1, by decide⟩

theorem witness_ReintegrationCommands_2 : ∃ (s : State) (k : Nat) (x : Nat) (v : Word),
    s.chip.passes .running = true ∧
    x < 2 ∧ s.chip.accepts k (Reg.PL.PL_CTRL x) = true ∧ bit v 0 = true ∧ x = s.chip.move :=
  ⟨{ chip := { regs := [] } }, 0, 0, 1, by decide⟩

theorem witness_ReintegrationCommands_3 : ∃ (s : State) (k : Nat) (v : Word),
    s.chip.passes .running = true ∧
    s.chip.accepts k Reg.ADJ.REINT = true ∧ fld v 15 0 = 0x5249 ∧ s.chip.plState s.chip.partner = 2 ∧ s.chip.halted = false ∧ s.chip.arbRunning = true ∧
    (s.chip.bitOf Reg.ADJ.CTRL 1 = false ∨ s.chip.autoStopped = true) :=
  ⟨{ chip := { regs := [(0x30040, 1), (0x32040, 2), (0x90040, 1)] } }, 0, 0x5249, by decide⟩

theorem witness_ReintegrationCommands_4 : ∃ (s : State) (k : Nat) (v : Word),
    s.chip.passes .running = true ∧
    s.chip.accepts k Reg.ADJ.REINT = true ∧ fld v 15 0 = 0x5249 ∧
    (s.chip.plState s.chip.partner ≠ 2 ∨ (s.chip.bitOf Reg.ADJ.CTRL 1 = true ∧ s.chip.autoStopped = false)) :=
  ⟨{ chip := { regs := [(0x30040, 3), (0x32040, 2)] } }, 0, 0x5249, by decide⟩

theorem witness_ReintegrationCommands_5 : ∃ (s : State) (k : Nat) (v : Word),
    s.chip.passes .running = true ∧
    s.chip.accepts k Reg.ADJ.REINT = true ∧ fld v 15 0 = 0x5249 ∧ s.chip.plState s.chip.partner = 2 ∧ s.chip.halted = false ∧ s.chip.arbRunning = false ∧
    (s.chip.bitOf Reg.ADJ.CTRL 1 = false ∨ s.chip.autoStopped = true) :=
  ⟨{ chip := { regs := [(0x30040, 1), (0x32040, 2)] } }, 0, 0x5249, by decide⟩

theorem witness_ReintegrationCommands_6 : ∃ (s : State),
    s.chip.passes .running = true ∧
    s.chip.bitOf Reg.ADJ.CTRL 1 = true ∧ s.chip.plState s.chip.partner = 2 ∧ s.chip.autoStopped = false ∧ s.chip.arbRunning = true ∧ s.chip.halted = false :=
  ⟨{ chip := { regs := [(0x32040, 2), (0x90040, 1)] } }, by decide⟩

theorem witness_ReintegrationCommands_7 : ∃ (s : State) (b : Nat),
    s.chip.passes .running = true ∧
    s.chip.plState s.chip.partner = 3 ∧ s.chip.arbRunning = true ∧ b ≤ 8 :=
  ⟨{ chip := { regs := [(0x32040, 3), (0x90040, 1)] } }, 8, by decide⟩

theorem witness_ReintegrationCommands_8 : ∃ (s : State) (b : Nat),
    s.chip.passes .running = true ∧
    s.chip.plState s.chip.partner = 3 ∧ s.chip.arbRunning = true ∧ 8 < b :=
  ⟨{ chip := { regs := [(0x32040, 3), (0x90040, 1)] } }, 9, by decide⟩

theorem witness_ReintegrationCommands_9 : ∃ (s : State),
    s.chip.passes .running = true ∧
    s.chip.plState s.chip.partner = 4 ∧ s.chip.arbRunning = true ∧ s.chip.now ≤ s.chip.adj.stepFrom + 10 * fsMs :=
  ⟨{ chip := { regs := [(0x32040, 4), (0x90040, 1)] } }, by decide⟩

theorem witness_ReintegrationCommands_10 : ∃ (s : State),
    s.chip.passes .running = true ∧
    s.chip.plState s.chip.partner = 4 ∧ s.chip.arbRunning = true ∧ s.chip.adj.stepFrom + 10 * fsMs ≤ s.chip.now :=
  ⟨{ chip := { regs := [(0x32040, 4), (0x90040, 1)], now := 10 ^ 13 } }, by decide⟩

theorem witness_ReintegrationCommands_11 : ∃ (s : State),
    s.chip.passes .running = true ∧
    s.chip.plState s.chip.partner = 5 ∧ s.chip.arbRunning = true :=
  ⟨{ chip := { regs := [(0x32040, 5), (0x90040, 1)] } }, by decide⟩

theorem witness_ReintegrationCommands_12 : ∃ (s : State),
    s.chip.passes .running = true ∧
    s.chip.plState s.chip.partner = 6 ∧ s.chip.arbRunning = true ∧ s.chip.fab.copies.all (fun k => decide (s.chip.adj.joinNs ≤ k.entry)) = true ∧
    s.chip.cx.jobs.any (fun j => j.copy.any s.chip.preJoin) = false ∧ s.chip.adj.pend = [] :=
  ⟨{ chip := { regs := [(0x32040, 6), (0x90040, 1)] } }, by decide⟩

theorem witness_ReintegrationCommands_13 : ∃ (s : State) (k : Nat) (v : Word),
    s.chip.passes .running = true ∧
    s.chip.accepts k Reg.ADJ.SWAP = true ∧ fld v 15 0 = 0x5357 ∧ s.chip.swapBlocked = false :=
  ⟨{ chip := { regs := [(0x90040, 1)] } }, 0, 0x5357, by decide⟩

theorem witness_ReintegrationCommands_14 : ∃ (s : State) (k : Nat) (v : Word),
    s.chip.passes .running = true ∧
    s.chip.accepts k Reg.ADJ.SWAP = true ∧ fld v 15 0 = 0x5357 ∧ s.chip.swapBlocked = true :=
  ⟨{ chip := { regs := [(0x30044, 2)] } }, 0, 0x5357, by decide⟩

theorem witness_ReintegrationCommands_15 : ∃ (s : State),
    s.chip.passes .running = true ∧
    s.chip.proofNext ≤ s.chip.ns ∧ s.chip.fldOf Reg.GLB.BOOT_STAT 3 0 < 14 ∧ s.chip.bitOf Reg.ADJ.CTRL 0 = true ∧ s.chip.swapBlocked = false ∧
    s.chip.proofNext + s.chip.proofInt < 2 ^ 64 :=
  ⟨{ chip := { regs := [(0x90040, 1)] } }, by decide⟩

theorem witness_ReintegrationCommands_16 : ∃ (s : State),
    s.chip.passes .running = true ∧
    s.chip.adj.proofDue = true ∧ s.chip.bitOf Reg.ADJ.CTRL 0 = true ∧ s.chip.swapBlocked = false :=
  ⟨{ chip := { regs := [(0x90040, 1)], adj := { proofDue := true } } }, by decide⟩

theorem witness_TransactionCommands_1 : ∃ (s : State) (w : Nat) (k : Nat),
    s.chip.passes .running = true ∧
    k < 4 ∧ s.chip.accepts w (Reg.EPOCH.TXN_CMD k) = true ∧ (s.chip.txn k).state = 0 :=
  ⟨{ chip := { regs := [(0x20184, 0x8A003456)] } }, 2, 2, by decide⟩

theorem witness_TransactionCommands_2 : ∃ (s : State) (w : Nat) (k : Nat),
    s.chip.passes .running = true ∧
    k < 4 ∧ s.chip.accepts w (Reg.EPOCH.TXN_CMD k) = true ∧ (s.chip.txn k).state ≠ 0 :=
  ⟨{ chip := { regs := [], ep := { txns := [(2, { state := 2 })] } } }, 2, 2, by decide⟩

theorem witness_TransactionCommands_3 : ∃ (s : State) (w : Nat) (k : Nat),
    s.chip.passes .running = true ∧
    k < 4 ∧ s.chip.accepts w (Reg.EPOCH.TXN_CMD k) = true ∧ (s.chip.txn k).state = 1 ∧ (s.chip.txn k).taint = 0 ∧ (s.chip.txn k).journal ≠ [] ∧
    (s.chip.txn k).journal.any s.chip.itemBusy = false :=
  ⟨{ chip := { regs := [], ep := { txns := [(2, { state := 1, journal := [.reg 0x40048 5 0xFF] })] } } }, 2, 2, by decide⟩

theorem witness_TransactionCommands_4 : ∃ (s : State) (w : Nat) (k : Nat),
    s.chip.passes .running = true ∧
    k < 4 ∧ s.chip.accepts w (Reg.EPOCH.TXN_CMD k) = true ∧ (s.chip.txn k).state = 1 ∧ (s.chip.txn k).taint = 0 ∧ (s.chip.txn k).journal ≠ [] ∧
    (s.chip.txn k).journal.any s.chip.itemBusy = false :=
  ⟨{ chip := { regs := [], ep := { txns := [(2, { state := 1, journal := [.reg 0x40048 5 0xFF] })] } } }, 2, 2, by decide⟩

theorem witness_TransactionCommands_5 : ∃ (s : State) (w : Nat) (k : Nat),
    s.chip.passes .running = true ∧
    k < 4 ∧ s.chip.accepts w (Reg.EPOCH.TXN_CMD k) = true ∧ (s.chip.txn k).state = 1 ∧ (s.chip.txn k).taint = 0 ∧ (s.chip.txn k).journal ≠ [] ∧
    (s.chip.txn k).journal.any s.chip.itemBusy = false :=
  ⟨{ chip := { regs := [(0x20190, 77)], ep := { txns := [(2, { state := 1, journal := [.reg 0x40048 5 0xFF] })] } } }, 2, 2, by decide⟩

theorem witness_TransactionCommands_6 : ∃ (c : Chip) (k : Nat),
    k < 5 ∧ (c.txn k).state = 2 ∧ 1 < (c.txn k).left :=
  ⟨State.chip { chip := { regs := [], ep := { txns := [(2, { state := 2, mode := 1, left := 2 })] } } }, 2, by decide⟩

theorem witness_TransactionCommands_7 : ∃ (c : Chip) (k : Nat),
    k < 5 ∧ (c.txn k).state = 2 ∧ (c.txn k).left = 1 :=
  ⟨State.chip { chip := { regs := [], ep := { txns := [(2, { state := 2, mode := 2, target := 5, left := 1 })] }, tempo := { value := 4 * 2 ^ 48 } } }, 2, by decide⟩

theorem witness_TransactionCommands_8 : ∃ (s : State) (w : Nat) (k : Nat),
    s.chip.passes .running = true ∧
    k < 4 ∧ s.chip.accepts w (Reg.EPOCH.TXN_CMD k) = true ∧ (s.chip.txn k).state = 1 ∧ (s.chip.txn k).taint = 0 ∧ (s.chip.txn k).journal = [] :=
  ⟨{ chip := { regs := [(0x20040, 9)], ep := { txns := [(2, { state := 1 })] } } }, 2, 2, by decide⟩

theorem witness_TransactionCommands_9 : ∃ (s : State) (w : Nat) (k : Nat),
    s.chip.passes .running = true ∧
    k < 4 ∧ s.chip.accepts w (Reg.EPOCH.TXN_CMD k) = true ∧ (s.chip.txn k).state ≠ 1 :=
  ⟨{ chip := { regs := [] } }, 2, 2, by decide⟩

theorem witness_TransactionCommands_10 : ∃ (s : State) (w : Nat) (k : Nat),
    s.chip.passes .running = true ∧
    k < 4 ∧ s.chip.accepts w (Reg.EPOCH.TXN_CMD k) = true ∧ (s.chip.txn k).state = 1 ∧ (s.chip.txn k).taint = 1 :=
  ⟨{ chip := { regs := [], ep := { txns := [(2, { state := 1, taint := 1, journal := [.reg 0x40048 5 0xFF] })] } } }, 2, 2, by decide⟩

theorem witness_TransactionCommands_11 : ∃ (s : State) (w : Nat) (k : Nat),
    s.chip.passes .running = true ∧
    k < 4 ∧ s.chip.accepts w (Reg.EPOCH.TXN_CMD k) = true ∧ (s.chip.txn k).state ≠ 0 :=
  ⟨{ chip := { regs := [], ep := { txns := [(2, { state := 2, journal := [.reg 0x40048 5 0xFF] })] } } }, 2, 2, by decide⟩

theorem witness_TransactionCommands_12 : ∃ (s : State) (w : Nat) (k : Nat) (v : Word),
    s.chip.passes .running = true ∧
    k < 4 ∧ s.chip.accepts w (Reg.EPOCH.TXN_CMD k) = true ∧ txnWord v = none :=
  ⟨{ chip := { regs := [] } }, 2, 2, 0x54580302, by decide⟩

theorem witness_TransactionCommands_13 : ∃ (s : State) (k : Nat) (a : Nat),
    s.chip.passes .running = true ∧
    k < 4 ∧ (s.chip.txn k).state = 1 ∧ a % 4 = 0 ∧ (rowOf a).any (fun r => r.shadow) = true ∧ (pageKind (a / 0x1000)).any isShadow = true ∧
    s.chip.implemented (a / 0x1000) = true ∧ s.chip.mayWrite k a = true ∧ s.chip.held (a / 0x1000) = false ∧
    s.chip.journalOwner (a / 0x1000) = none ∧ s.chip.journalFree ≠ 0 ∧ (s.chip.txn k).journal = [] :=
  ⟨{ chip := { regs := [], ep := { txns := [(0, { state := 1 })] } } }, 0, 0x40048, by decide⟩

theorem witness_TransactionCommands_14 : ∃ (s : State) (k : Nat) (j : Nat) (a : Nat),
    s.chip.passes .running = true ∧
    k < 4 ∧ (s.chip.txn k).state = 1 ∧ a % 4 = 0 ∧ (rowOf a).any (fun r => r.shadow) = true ∧ (pageKind (a / 0x1000)).any isShadow = true ∧
    s.chip.implemented (a / 0x1000) = true ∧ s.chip.mayWrite k a = true ∧ s.chip.held (a / 0x1000) = false ∧
    s.chip.journalOwner (a / 0x1000) = some j ∧ j ≠ k ∧ (s.chip.txn k).taint = 0 :=
  ⟨{ chip := { regs := [], ep := { txns := [(0, { state := 1 }), (1, { state := 1, journal := [.reg 0x40044 5 0xFF] })] } } }, 0, 1, 0x40048, by decide⟩

theorem witness_TransactionCommands_15 : ∃ (s : State) (k : Nat),
    s.chip.passes .running = true ∧
    k < 4 ∧ (s.chip.txn k).state = 1 ∧ s.chip.fldOf (Reg.EPOCH.TXN_CFG k) 11 0 ≠ 0 ∧
    (s.chip.txn k).timer + min 3600 (s.chip.fldOf (Reg.EPOCH.TXN_CFG k) 11 0) * fsSec ≤ s.chip.now :=
  ⟨{ chip := { regs := [(0x2018C, 1)], now := 10 ^ 15, ep := { txns := [(2, { state := 1, journal := [.reg 0x40048 5 0xFF] })] } } }, 2, by decide⟩

theorem witness_EpochSwitchCommands_1 : ∃ (s : State) (k : Nat) (f : Nat) (v : Word64) (m : Word64) (r : Region) (i : Nat),
    s.chip.passes .running = true ∧
    s.chip.dueTxns = [k] ∧ k < 4 ∧ s.chip.bitOf Reg.EPOCH.OLD 31 = false ∧ (s.chip.txn k).journal = [.entry f [v]] ∧ f % 8 = 0 ∧
    (regionAt f = some (r, i, 0) ∧ (r.tag = .source ∨ r.tag = .frerGen) ∧ m = BitVec.ofNat 64 (r.masks.getD 0 0)) :=
  ⟨{ chip := { regs := [(0x20040, 0xFFFF)], tbl := [(0x200001, 0xFF)], ep := { txns := [(2, { state := 2, journal := [.entry 0x1000008 [0x1234]] })] } } }, 2, 0x1000008, 0x1234, BitVec.ofNat 64 allBits, { tag := .source, base := 0x0100_0000, n := 128, words := 1, commit := some 0, masks := [allBits] }, 1, by decide⟩

theorem witness_EpochSwitchCommands_2 : ∃ (s : State) (k : Nat),
    s.chip.passes .running = true ∧
    s.chip.dueTxns = [k] ∧ k < 4 ∧ s.chip.bitOf Reg.EPOCH.OLD 31 = true ∧ (s.chip.txn k).wait = false :=
  ⟨{ chip := { regs := [(0x20044, 0x80000000)], ep := { txns := [(2, { state := 2, journal := [.entry 0x1000008 [0x1234]] })] } } }, 2, by decide⟩

theorem witness_EpochSwitchCommands_3 : ∃ (s : State),
    s.chip.passes .running = true ∧
    s.chip.bitOf Reg.EPOCH.OLD 31 = true ∧ s.chip.usersOf (s.chip.fldOf Reg.EPOCH.OLD 15 0) = 0 ∧ s.chip.dueTxns = [] :=
  ⟨{ chip := { regs := [(0x20044, 0x80000003)], ep := { oldTbl := [(3, 4)] } } }, by decide⟩

theorem witness_EpochSwitchCommands_4 : ∃ (s : State) (w : Nat) (k : Nat),
    s.chip.passes .running = true ∧
    k < 4 ∧ s.chip.accepts w (Reg.EPOCH.TXN_CMD k) = true ∧ (s.chip.txn k).state = 0 :=
  ⟨{ chip := { regs := [(0x20184, 0x8A003456)] } }, 2, 2, by decide⟩

theorem witness_EpochSwitchCommands_5 : ∃ (s : State) (w : Nat) (k : Nat),
    s.chip.passes .running = true ∧
    k < 4 ∧ s.chip.accepts w (Reg.EPOCH.TXN_CMD k) = true ∧ (s.chip.txn k).state ≠ 0 :=
  ⟨{ chip := { regs := [], ep := { txns := [(2, { state := 2, journal := [.reg 0x40048 5 0xFF] })] } } }, 2, 2, by decide⟩

theorem witness_EpochSwitchCommands_6 : ∃ (s : State) (w : Nat) (k : Nat) (v : Word),
    s.chip.passes .running = true ∧
    k < 4 ∧ s.chip.accepts w (Reg.EPOCH.TXN_CMD k) = true ∧ txnWord v = none :=
  ⟨{ chip := { regs := [] } }, 2, 2, 0x54580302, by decide⟩

theorem witness_EpochSwitchCommands_7 : ∃ (s : State) (k : Nat) (a : Nat),
    s.chip.passes .running = true ∧
    k < 4 ∧ (s.chip.txn k).state = 1 ∧ a % 4 = 0 ∧ (rowOf a).any (fun r => r.shadow) = true ∧ (pageKind (a / 0x1000)).any isShadow = true ∧
    s.chip.implemented (a / 0x1000) = true ∧ s.chip.mayWrite k a = true ∧ s.chip.held (a / 0x1000) = false ∧
    s.chip.journalOwner (a / 0x1000) = none ∧ s.chip.journalFree ≠ 0 ∧ (s.chip.txn k).journal = [] :=
  ⟨{ chip := { regs := [], ep := { txns := [(0, { state := 1 })] } } }, 0, 0x40048, by decide⟩

theorem witness_EpochSwitchCommands_8 : ∃ (s : State) (k : Nat),
    s.chip.passes .running = true ∧
    k < 4 ∧ (s.chip.txn k).state = 1 ∧ s.chip.fldOf (Reg.EPOCH.TXN_CFG k) 11 0 ≠ 0 ∧
    (s.chip.txn k).timer + min 3600 (s.chip.fldOf (Reg.EPOCH.TXN_CFG k) 11 0) * fsSec ≤ s.chip.now :=
  ⟨{ chip := { regs := [(0x2018C, 1)], now := 10 ^ 15, ep := { txns := [(2, { state := 1, journal := [.reg 0x40048 5 0xFF] })] } } }, 2, by decide⟩

theorem witness_CastleKeyCommands_1 : ∃ (s : State) (w : Nat) (k : Nat),
    s.chip.passes .running = true ∧
    k < 4 ∧ s.chip.accepts w (Reg.CASTLE.KCMD k) = true ∧ s.chip.bitOf (Reg.CASTLE.KSTAT k) 31 = false ∧
    s.chip.loadCheck k (s.chip.kslot k) (s.chip.kbuf k) (s.chip.klen k) (fun t => 52 + keyLen t) = 1 ∧ (blobHeader (s.chip.kbuf k)).ktype ≠ 3 :=
  ⟨{ chip := { regs := [(0x71040, 2), (0x71204, 0x100), (0x71208, 6), (0x7120c, 68), (0x71300, 0x101424b), (0x71304, 0x44), (0x71308, 0xffff0000), (0x71318, 0x11111111), (0x7131c, 0x22222222), (0x71320, 0x33333333), (0x71324, 0x44444444)], castle := { slots := [(2, { mask := [1], masked := [2], ktype := 4, sys := true }), (6, { mask := [1, 2], masked := [3, 5], ktype := 1, owner := 0 })] } } }, 0, 0, by decide⟩

theorem witness_CastleKeyCommands_2 : ∃ (s : State) (w : Nat) (k : Nat) (r : Nat),
    s.chip.passes .running = true ∧
    k < 4 ∧ s.chip.accepts w (Reg.CASTLE.KCMD k) = true ∧ s.chip.bitOf (Reg.CASTLE.KSTAT k) 31 = false ∧
    r = s.chip.loadCheck k (s.chip.kslot k) (s.chip.kbuf k) (s.chip.klen k) (fun t => 52 + keyLen t) ∧ r ≠ 1 :=
  ⟨{ chip := { regs := [(0x71040, 2), (0x71204, 0x100), (0x71208, 3), (0x7120c, 68), (0x71300, 0x101424b), (0x71304, 0x44), (0x71308, 0xffff0000), (0x71318, 0x11111111), (0x7131c, 0x22222222), (0x71320, 0x33333333), (0x71324, 0x44444444)], castle := { slots := [(2, { mask := [1], masked := [2], ktype := 4, sys := true }), (6, { mask := [1, 2], masked := [3, 5], ktype := 1, owner := 0 })] } } }, 0, 0, 10, by decide⟩

theorem witness_CastleKeyCommands_3 : ∃ (s : State) (w : Nat) (k : Nat),
    s.chip.passes .running = true ∧
    k < 4 ∧ s.chip.accepts w (Reg.CASTLE.KCMD k) = true ∧ s.chip.bitOf (Reg.CASTLE.KSTAT k) 31 = true :=
  ⟨{ chip := { regs := [(0x71040, 2), (0x71204, 0x80000006), (0x71208, 6), (0x7120c, 68), (0x71300, 0x101424b), (0x71304, 0x44), (0x71308, 0xffff0000), (0x71318, 0x11111111), (0x7131c, 0x22222222), (0x71320, 0x33333333), (0x71324, 0x44444444)] } }, 0, 0, by decide⟩

theorem witness_CastleKeyCommands_4 : ∃ (s : State) (w : Nat) (k : Nat),
    s.chip.passes .running = true ∧
    k < 4 ∧ s.chip.accepts w (Reg.CASTLE.KCMD k) = true ∧ s.chip.bitOf (Reg.CASTLE.KSTAT k) 31 = false ∧ s.chip.wrapRefuse k (s.chip.kslot k) = none ∧ s.chip.castle.rngBad = false :=
  ⟨{ chip := { regs := [(0x71040, 2), (0x71204, 0x100), (0x71208, 6), (0x7120c, 0)], castle := { slots := [(2, { mask := [1], masked := [2], ktype := 4, sys := true }), (6, { mask := [1, 2], masked := [3, 5], ktype := 1, owner := 0 })] } } }, 0, 0, by decide⟩

theorem witness_CastleKeyCommands_5 : ∃ (s : State) (w : Nat) (k : Nat),
    s.chip.passes .running = true ∧
    k < 4 ∧ s.chip.accepts w (Reg.CASTLE.KCMD k) = true ∧ s.chip.bitOf (Reg.CASTLE.KSTAT k) 31 = false ∧ s.chip.rootReady = true ∧ s.chip.importAllowed = true ∧ s.chip.castle.rngBad = false ∧
    s.chip.loadCheck k (s.chip.kslot k) (s.chip.kbuf k) (s.chip.klen k) (fun t => 24 + keyLen t) = 1 ∧ (blobHeader (s.chip.kbuf k)).ktype ≠ 3 :=
  ⟨{ chip := { regs := [(0x71040, 2), (0x71204, 0x100), (0x71208, 6), (0x7120c, 40), (0x71300, 0x101424b), (0x71304, 0x44), (0x71308, 0xffff0000), (0x71318, 0x11111111), (0x7131c, 0x22222222), (0x71320, 0x33333333), (0x71324, 0x44444444)], castle := { slots := [(2, { mask := [1], masked := [2], ktype := 4, sys := true }), (6, { mask := [1, 2], masked := [3, 5], ktype := 1, owner := 0 })] } } }, 0, 0, by decide⟩

theorem witness_CastleKeyCommands_6 : ∃ (s : State) (w : Nat) (k : Nat),
    s.chip.passes .running = true ∧
    k < 4 ∧ s.chip.accepts w (Reg.CASTLE.KCMD k) = true ∧ s.chip.bitOf (Reg.CASTLE.KSTAT k) 31 = false ∧ s.chip.castle.rngBad = false ∧
    s.chip.loadCheck k (s.chip.kslot k) (s.chip.kbuf k) (s.chip.klen k) (fun _ => 24) = 1 ∧ (blobHeader (s.chip.kbuf k)).ktype ≠ 3 :=
  ⟨{ chip := { regs := [(0x71040, 2), (0x71204, 0x100), (0x71208, 6), (0x7120c, 24), (0x71300, 0x101424b), (0x71304, 0x44), (0x71308, 0xffff0000), (0x71318, 0x11111111), (0x7131c, 0x22222222), (0x71320, 0x33333333), (0x71324, 0x44444444)], castle := { slots := [(2, { mask := [1], masked := [2], ktype := 4, sys := true }), (6, { mask := [1, 2], masked := [3, 5], ktype := 1, owner := 0 })] } } }, 0, 0, by decide⟩

theorem witness_CastleKeyCommands_7 : ∃ (s : State) (w : Nat) (k : Nat),
    s.chip.passes .running = true ∧
    k < 4 ∧ s.chip.accepts w (Reg.CASTLE.KCMD k) = true ∧ s.chip.bitOf (Reg.CASTLE.KSTAT k) 31 = false ∧ s.chip.slotRefuse k (s.chip.kslot k) false = none :=
  ⟨{ chip := { regs := [(0x71040, 2), (0x71204, 0x100), (0x71208, 6), (0x7120c, 0)], castle := { slots := [(2, { mask := [1], masked := [2], ktype := 4, sys := true }), (6, { mask := [1, 2], masked := [3, 5], ktype := 1, owner := 0 })] } } }, 0, 0, by decide⟩

theorem witness_CastleKeyCommands_8 : ∃ (s : State) (w : Nat) (k : Nat),
    s.chip.passes .running = true ∧
    k < 4 ∧ s.chip.accepts w (Reg.CASTLE.KCMD k) = true ∧ s.chip.bitOf (Reg.CASTLE.KSTAT k) 31 = false ∧ s.chip.slotRefuse k (s.chip.kslot k) false = none :=
  ⟨{ chip := { regs := [(0x71040, 2), (0x71204, 0x100), (0x71208, 6), (0x7120c, 0)], castle := { slots := [(2, { mask := [1], masked := [2], ktype := 4, sys := true }), (6, { mask := [1, 2], masked := [3, 5], ktype := 1, owner := 0 })], gens := [(6, 0xFFFFFFFF)] } } }, 0, 0, by decide⟩

theorem witness_CastleKeyCommands_9 : ∃ (s : State) (w : Nat) (k : Nat),
    s.chip.passes .running = true ∧
    k < 4 ∧ s.chip.accepts w (Reg.CASTLE.KCMD k) = true ∧ s.chip.bitOf (Reg.CASTLE.KSTAT k) 31 = false ∧ s.chip.slotRefuse k (s.chip.kslot k) true = none ∧ (s.chip.slot? (s.chip.kslot k)).map (·.ktype) = some 3 :=
  ⟨{ chip := { regs := [(0x71040, 2), (0x71204, 0x100), (0x71208, 6), (0x7120c, 0)], castle := { slots := [(2, { mask := [1], masked := [2], ktype := 4, sys := true }), (6, { mask := [1], masked := [2], ktype := 3, owner := 0 }), (7, { mask := [1], masked := [2], ktype := 3, owner := 0, second := true })] } } }, 0, 0, by decide⟩

theorem witness_CastleKeyCommands_10 : ∃ (s : State) (w : Nat) (k : Nat),
    s.chip.passes .running = true ∧
    k < 4 ∧ s.chip.accepts w (Reg.CASTLE.KCMD k) = true ∧ s.chip.bitOf (Reg.CASTLE.KSTAT k) 31 = false ∧ s.chip.wrapRefuse k (s.chip.kslot k) = none :=
  ⟨{ chip := { regs := [(0x71040, 2), (0x71204, 0x100), (0x71208, 6), (0x7120c, 0)], castle := { slots := [(2, { mask := [1], masked := [2], ktype := 4, sys := true }), (6, { mask := [1, 2], masked := [3, 5], ktype := 1, owner := 0 })] } } }, 0, 0, by decide⟩

theorem witness_CastleKeyCommands_11 : ∃ (s : State) (w : Nat) (k : Nat),
    s.chip.passes .running = true ∧
    k < 4 ∧ s.chip.accepts w (Reg.CASTLE.KCMD k) = true ∧ s.chip.bitOf (Reg.CASTLE.KSTAT k) 31 = false ∧ s.chip.slotRefuse k (s.chip.kslot k) false = none :=
  ⟨{ chip := { regs := [(0x71040, 2), (0x71204, 0x100), (0x71208, 6), (0x7120c, 0)], castle := { slots := [(2, { mask := [1], masked := [2], ktype := 4, sys := true }), (6, { mask := [1, 2], masked := [3, 5], ktype := 1, owner := 0 })] } } }, 0, 0, by decide⟩

theorem witness_CastleKeyCommands_12 : ∃ (s : State) (k : Nat) (m : CastleCmd) (b : List Byte),
    s.chip.passes .running = true ∧
    (k < 4 ∧ lookupKey s.chip.castle.cmds k = some m ∧ (m.op = 2 ∨ m.op = 7) ∧ m.result = 1 ∧ m.out = some b ∧ b.length ≤ 255) :=
  ⟨{ chip := { regs := [(0x71040, 2), (0x71204, 0xc0000002), (0x71208, 6), (0x7120c, 0)], castle := { cmds := [(0, { op := 2, result := 1, out := some [1, 2, 3, 4, 5] })] } } }, 0, { op := 2, result := 1, out := some [1, 2, 3, 4, 5] }, [1, 2, 3, 4, 5], by decide⟩

theorem witness_CastleKeyCommands_13 : ∃ (s : State) (k : Nat) (m : CastleCmd),
    s.chip.passes .running = true ∧
    (k < 4 ∧ lookupKey s.chip.castle.cmds k = some m ∧ (m.op = 1 ∨ m.op = 3 ∨ m.op = 4)) :=
  ⟨{ chip := { regs := [(0x71040, 2), (0x71204, 0x80000001), (0x71208, 6), (0x7120c, 0), (0x71300, 0x101424b), (0x71304, 0x44), (0x71308, 0xffff0000), (0x71318, 0x11111111), (0x7131c, 0x22222222), (0x71320, 0x33333333), (0x71324, 0x44444444)], castle := { cmds := [(0, { op := 1, result := 8 })] } } }, 0, { op := 1, result := 8 }, by decide⟩

theorem witness_CastleKeyCommands_14 : ∃ (s : State) (k : Nat) (m : CastleCmd) (b : List Byte),
    s.chip.passes .running = true ∧
    k < 4 ∧ lookupKey s.chip.castle.cmds k = some m ∧ m.op = 8 ∧ m.result = 1 ∧ m.out = some b ∧ s.chip.arbRunning = true :=
  ⟨{ chip := { regs := [(0x71040, 2), (0x71204, 0x80000008), (0x71208, 6), (0x7120c, 0), (0x90040, 1)], castle := { cmds := [(0, { op := 8, result := 1, slot := 6, out := some [1] })] } } }, 0, { op := 8, result := 1, slot := 6, out := some [1] }, [1], by decide⟩

theorem witness_CastleKeyCommands_15 : ∃ (s : State) (n : Nat) (x : KeySlot),
    s.chip.passes .running = true ∧
    s.chip.slot? n = some x ∧ x.maskAt / s.chip.remaskFs < s.chip.now / s.chip.remaskFs :=
  ⟨{ chip := { regs := [], now := 10 ^ 16, castle := { slots := [(6, { mask := [1, 2], masked := [3, 5], ktype := 1 })] } } }, 6, { mask := [1, 2], masked := [3, 5], ktype := 1 }, by decide⟩

theorem witness_CastleKeyCommands_16 : ∃ (s : State) (k : Nat) (m : CastleCmd),
    s.chip.passes .running = true ∧
    s.chip.castle.cmds = [(k, m)] ∧ m.op = 2 ∧ m.result = 1 ∧ m.undo = [] :=
  ⟨{ chip := { regs := [], castle := { cmds := [(0, { op := 2, result := 1, out := some [1] })] } } }, 0, { op := 2, result := 1, out := some [1] }, by decide⟩

theorem witness_CastleKeyCommands_17 : ∃ (s : State) (w : Nat) (k : Nat),
    s.chip.passes .running = true ∧
    k < 4 ∧ s.chip.accepts w (Reg.CASTLE.KCMD k) = true ∧ s.chip.bitOf (Reg.CASTLE.KSTAT k) 31 = false ∧ k = s.chip.supervisor ∧ s.chip.otp.lc = 0 :=
  ⟨{ chip := { regs := [(0x71040, 2), (0x71204, 0x100), (0x71208, 0), (0x7120c, 0)] } }, 0, 0, by decide⟩

theorem witness_CastleKeyCommands_18 : ∃ (s : State) (w : Nat) (k : Nat),
    s.chip.passes .running = true ∧
    k < 4 ∧ s.chip.accepts w (Reg.CASTLE.KCMD k) = true ∧ s.chip.bitOf (Reg.CASTLE.KSTAT k) 31 = false ∧ k = s.chip.supervisor ∧ s.chip.rootState = 3 ∧ s.chip.resignLatched = false ∧ s.chip.otp.lc ≠ 4 :=
  ⟨{ chip := { regs := [(0x71040, 3), (0x71204, 0x100), (0x71208, 0), (0x7120c, 0)] } }, 0, 0, by decide⟩

theorem witness_CastleKeyCommands_19 : ∃ (s : State) (n : Nat) (r : TamperReading),
    (n < 15 ∧ (s.chip.power.mode = .play ∨ s.chip.power.mode = .quiet) ∧ s.chip.bitOf Reg.TAMPER.LIVE n = false) ∧
    (s.chip.tamperResp n = 1 ∧ s.chip.starting = false ∧ (s.chip.rootState = 2 ∨ s.chip.rootState = 4)) ∧
    s.chip.sensorEvaluated n = true ∧ s.chip.sensorOut n r = true :=
  ⟨{ chip := { regs := [(0x71040, 2), (0x72108, 0x1)], now := 10 ^ 13 } }, 1, { value := 40000 }, by decide⟩

theorem witness_CastleKeyCommands_20 : ∃ (s : State) (k : Nat) (v : Word) (be : Nat) (x : Word),
    s.chip.passes .running = true ∧
    s.chip.accepts k Reg.TAMPER.SLEEP_LATCH = true ∧ x = s.chip.reg Reg.TAMPER.SLEEP_LATCH &&& ~~~ (v &&& beMask be &&& 0x7FFF) :=
  ⟨{ chip := { regs := [(0x71040, 0x202), (0x7204C, 0x400)] } }, 0, 0x400, 0x2, 0, by decide⟩

theorem witness_CastleKeyCommands_21 : ∃ (s : State) (n : Nat) (b : List Byte),
    s.chip.passes .running = true ∧
    s.chip.castle.deferred = true ∧ s.chip.sleepHold = false ∧ s.chip.arbRunning = true ∧ s.chip.rootReady = true ∧
    s.chip.castle.autoload = [(n, b)] ∧ s.chip.loadCheck (leAt b 8 1 % 4) n b (leAt b 4 2) (fun t => 52 + keyLen t) ≠ 1 :=
  ⟨{ chip := { regs := [(0x71040, 2), (0x90040, 1)], castle := { deferred := true, autoload := [(6, [1])] } } }, 6, [1], by decide⟩

theorem witness_CastleSafetyCommands_1 : ∃ (s : State) (w : Nat) (k : Nat),
    s.chip.passes .running = true ∧
    k < 4 ∧ s.chip.accepts w (Reg.CASTLE.KCMD k) = true ∧ s.chip.bitOf (Reg.CASTLE.KSTAT k) 31 = false ∧ k = s.chip.supervisor ∧ s.chip.otp.lc = 0 :=
  ⟨{ chip := { regs := [(0x71040, 2), (0x71204, 0x100), (0x71208, 0), (0x7120c, 0)] } }, 0, 0, by decide⟩

theorem witness_CastleSafetyCommands_2 : ∃ (s : State) (w : Nat) (k : Nat),
    s.chip.passes .running = true ∧
    k < 4 ∧ s.chip.accepts w (Reg.CASTLE.KCMD k) = true ∧ s.chip.bitOf (Reg.CASTLE.KSTAT k) 31 = false ∧ k ≠ s.chip.supervisor :=
  ⟨{ chip := { regs := [(0x71040, 2), (0x71204, 0x100), (0x71208, 0), (0x7120c, 0)], supervisor := 1 } }, 0, 0, by decide⟩

theorem witness_CastleSafetyCommands_3 : ∃ (s : State) (w : Nat) (k : Nat),
    s.chip.passes .running = true ∧
    k < 4 ∧ s.chip.accepts w (Reg.CASTLE.KCMD k) = true ∧ s.chip.bitOf (Reg.CASTLE.KSTAT k) 31 = false ∧ k = s.chip.supervisor ∧ s.chip.rootState ≠ 3 :=
  ⟨{ chip := { regs := [(0x71040, 2), (0x71204, 0x100), (0x71208, 0), (0x7120c, 0)] } }, 0, 0, by decide⟩

theorem witness_CastleSafetyCommands_4 : ∃ (s : State) (w : Nat) (k : Nat),
    s.chip.passes .running = true ∧
    k < 4 ∧ s.chip.accepts w (Reg.CASTLE.KCMD k) = true ∧ s.chip.bitOf (Reg.CASTLE.KSTAT k) 31 = false ∧ k = s.chip.supervisor ∧ s.chip.rootState = 3 ∧ s.chip.resignLatched = false ∧ s.chip.otp.lc ≠ 4 :=
  ⟨{ chip := { regs := [(0x71040, 3), (0x71204, 0x100), (0x71208, 0), (0x7120c, 0)] } }, 0, 0, by decide⟩

theorem witness_CastleSafetyCommands_5 : ∃ (s : State) (w : Nat) (k : Nat),
    s.chip.passes .running = true ∧
    k < 4 ∧ s.chip.accepts w (Reg.CASTLE.KCMD k) = true ∧ s.chip.bitOf (Reg.CASTLE.KSTAT k) 31 = false ∧ k = s.chip.supervisor ∧ s.chip.rootState = 3 ∧ s.chip.resignLatched = false :=
  ⟨{ chip := { regs := [(0x71040, 3), (0x71204, 0x100), (0x71208, 0), (0x7120c, 0)] } }, 0, 0, by decide⟩

theorem witness_CastleSafetyCommands_6 : ∃ (s : State) (n : Nat) (r : TamperReading),
    (n < 15 ∧ (s.chip.power.mode = .play ∨ s.chip.power.mode = .quiet) ∧ s.chip.bitOf Reg.TAMPER.LIVE n = false) ∧
    s.chip.tamperResp n = 0 ∧ s.chip.starting = false ∧
    s.chip.sensorEvaluated n = true ∧ s.chip.sensorOut n r = true :=
  ⟨{ chip := { regs := [(0x71040, 2), (0x72108, 0x0)], now := 10 ^ 13 } }, 1, { value := 40000 }, by decide⟩

theorem witness_CastleSafetyCommands_7 : ∃ (s : State) (n : Nat) (r : TamperReading),
    (n < 15 ∧ (s.chip.power.mode = .play ∨ s.chip.power.mode = .quiet) ∧ s.chip.bitOf Reg.TAMPER.LIVE n = false) ∧
    (s.chip.tamperResp n = 1 ∧ s.chip.starting = false ∧ (s.chip.rootState = 2 ∨ s.chip.rootState = 4)) ∧
    s.chip.sensorEvaluated n = true ∧ s.chip.sensorOut n r = true :=
  ⟨{ chip := { regs := [(0x71040, 2), (0x72108, 0x1)], now := 10 ^ 13 } }, 1, { value := 40000 }, by decide⟩

theorem witness_CastleSafetyCommands_8 : ∃ (s : State) (n : Nat) (r : TamperReading),
    (n < 15 ∧ (s.chip.power.mode = .play ∨ s.chip.power.mode = .quiet) ∧ s.chip.bitOf Reg.TAMPER.LIVE n = false) ∧
    s.chip.tamperResp n = 1 ∧ s.chip.rootState ≠ 2 ∧ s.chip.rootState ≠ 4 ∧
    s.chip.sensorEvaluated n = true ∧ s.chip.sensorOut n r = true :=
  ⟨{ chip := { regs := [(0x71040, 3), (0x72108, 0x1)], now := 10 ^ 13 } }, 1, { value := 40000 }, by decide⟩

theorem witness_CastleSafetyCommands_9 : ∃ (s : State) (n : Nat) (r : TamperReading),
    (n < 15 ∧ (s.chip.power.mode = .play ∨ s.chip.power.mode = .quiet) ∧ s.chip.bitOf Reg.TAMPER.LIVE n = false) ∧
    s.chip.tamperResp n = 2 ∧ s.chip.otp.resignMark < 32 ∧
    s.chip.sensorEvaluated n = true ∧ s.chip.sensorOut n r = true :=
  ⟨{ chip := { regs := [(0x71040, 2), (0x72108, 0x2), (0x71060, 77)], castle := { slots := [(2, { mask := [1], masked := [2], ktype := 4, sys := true }), (6, { mask := [1, 2], masked := [3, 5], ktype := 1, owner := 0 })], root := some [1] }, now := 10 ^ 13 } }, 1, { value := 40000 }, by decide⟩

theorem witness_CastleSafetyCommands_10 : ∃ (s : State) (n : Nat) (r : TamperReading) (lim : Word),
    (n < 15 ∧ (s.chip.power.mode = .play ∨ s.chip.power.mode = .quiet) ∧ s.chip.sensorEvaluated n = true ∧ (n < 9 ∨ n = 10)) ∧
    lim = s.chip.reg (Reg.TAMPER.TS_LIM n) ∧ (lim.setWidth 16).toInt ≤ r.value ∧ r.value ≤ ((lim >>> 16).setWidth 16).toInt :=
  ⟨{ chip := { regs := [(0x72048, 0x400), (0x72154, 0x00050003)] } }, 10, { value := 5 }, 0x00050003, by decide⟩

theorem witness_CastleSafetyCommands_11 : ∃ (s : State) (n : Nat) (r : TamperReading),
    (n = 2 ∨ (9 ≤ n ∧ n < 15)) ∧ s.chip.power.mode = .adjournedCold ∧ s.chip.bitOf Reg.TAMPER.LIVE n = false ∧
    s.chip.tamperResp n = 2 ∧
    s.chip.sensorEvaluated n = true ∧ s.chip.sensorOut n r = true :=
  ⟨{ chip := { regs := [(0x72150, 0x2)], power := { mode := .adjournedCold }, now := 10 ^ 13 } }, 10, { value := 40000 }, by decide⟩

theorem witness_CastleSafetyCommands_12 : ∃ (s : State) (n : Nat) (r : TamperReading),
    (n = 2 ∨ (9 ≤ n ∧ n < 15)) ∧ s.chip.power.mode = .held ∧ s.chip.bitOf Reg.TAMPER.LIVE n = false ∧
    s.chip.tamperResp n = 2 ∧
    s.chip.sensorEvaluated n = true ∧ s.chip.sensorOut n r = true :=
  ⟨{ chip := { regs := [(0x72150, 0x2)], power := { mode := .held }, now := 10 ^ 13 } }, 10, { value := 40000 }, by decide⟩

theorem witness_CastleSafetyCommands_13 : ∃ (s : State) (k : Nat) (v : Word) (be : Nat) (x : Word),
    s.chip.passes .running = true ∧
    s.chip.accepts k Reg.TAMPER.SLEEP_LATCH = true ∧ x = s.chip.reg Reg.TAMPER.SLEEP_LATCH &&& ~~~ (v &&& beMask be &&& 0x7FFF) :=
  ⟨{ chip := { regs := [(0x71040, 0x202), (0x7204C, 0x400)] } }, 0, 0x400, 0x2, 0, by decide⟩

theorem witness_CastleSafetyCommands_14 : ∃ (s : State) (n : Nat) (b : List Byte),
    s.chip.passes .running = true ∧
    s.chip.castle.deferred = true ∧ s.chip.sleepHold = false ∧ s.chip.arbRunning = true ∧ s.chip.rootReady = true ∧
    s.chip.castle.autoload = [(n, b)] ∧ s.chip.loadCheck (leAt b 8 1 % 4) n b (leAt b 4 2) (fun t => 52 + keyLen t) ≠ 1 :=
  ⟨{ chip := { regs := [(0x71040, 2), (0x90040, 1)], castle := { deferred := true, autoload := [(6, [1])] } } }, 6, [1], by decide⟩

theorem witness_CipherOperationCommands_1 : ∃ (s : State) (j : CxJob),
    s.chip.passes .running = true ∧
    s.chip.cxTakes 0x01 j = true :=
  ⟨{ chip := { regs := [], cx := { jobs := [{ id := 4, op := 0x1, slot := 9, iv := [1], aad := [2], payload := [3, 4] }] }, castle := { slots := [(9, { mask := [1, 2], masked := [3, 5], ktype := 1, usage := 0x5F })] } } }, { id := 4, op := 0x1, slot := 9, iv := [1], aad := [2], payload := [3, 4] }, by decide⟩

theorem witness_CipherOperationCommands_2 : ∃ (s : State) (j : CxJob),
    s.chip.passes .running = true ∧
    s.chip.cxTakes 0x02 j = true :=
  ⟨{ chip := { regs := [], cx := { jobs := [{ id := 4, op := 0x2, slot := 9, iv := [1], aad := [2], payload := [3, 4] }] }, castle := { slots := [(9, { mask := [1, 2], masked := [3, 5], ktype := 1, usage := 0x5F })] } } }, { id := 4, op := 0x2, slot := 9, iv := [1], aad := [2], payload := [3, 4] }, by decide⟩

theorem witness_CipherOperationCommands_3 : ∃ (s : State) (j : CxJob),
    s.chip.passes .running = true ∧
    s.chip.cxTakes 0x03 j = true :=
  ⟨{ chip := { regs := [], cx := { jobs := [{ id := 4, op := 0x3, slot := 9, iv := [1], aad := [2], payload := [3, 4] }] }, castle := { slots := [(9, { mask := [1, 2], masked := [3, 5], ktype := 1, usage := 0x5F })] } } }, { id := 4, op := 0x3, slot := 9, iv := [1], aad := [2], payload := [3, 4] }, by decide⟩

theorem witness_CipherOperationCommands_4 : ∃ (s : State) (j : CxJob),
    s.chip.passes .running = true ∧
    s.chip.cxTakes 0x04 j = true :=
  ⟨{ chip := { regs := [], cx := { jobs := [{ id := 4, op := 0x4, slot := 9, iv := [1], aad := [2], payload := [3, 4] }] }, castle := { slots := [(9, { mask := [1, 2], masked := [3, 5], ktype := 1, usage := 0x5F })] } } }, { id := 4, op := 0x4, slot := 9, iv := [1], aad := [2], payload := [3, 4] }, by decide⟩

theorem witness_CipherOperationCommands_5 : ∃ (s : State) (j : CxJob),
    s.chip.passes .running = true ∧
    s.chip.cxTakes 0x05 j = true :=
  ⟨{ chip := { regs := [], cx := { jobs := [{ id := 4, op := 0x5, slot := 9, iv := [1], aad := [2], payload := [3, 4] }] }, castle := { slots := [(9, { mask := [1, 2], masked := [3, 5], ktype := 1, usage := 0x5F })] } } }, { id := 4, op := 0x5, slot := 9, iv := [1], aad := [2], payload := [3, 4] }, by decide⟩

theorem witness_CipherOperationCommands_6 : ∃ (s : State) (j : CxJob),
    s.chip.passes .running = true ∧
    s.chip.cxTakes 0x06 j = true :=
  ⟨{ chip := { regs := [], cx := { jobs := [{ id := 4, op := 0x6, slot := 9, iv := [1], aad := [2], payload := [3, 4] }] }, castle := { slots := [(9, { mask := [1, 2], masked := [3, 5], ktype := 1, usage := 0x5F })] } } }, { id := 4, op := 0x6, slot := 9, iv := [1], aad := [2], payload := [3, 4] }, by decide⟩

theorem witness_CipherOperationCommands_7 : ∃ (s : State) (j : CxJob),
    s.chip.passes .running = true ∧
    s.chip.cxTakes 0x07 j = true :=
  ⟨{ chip := { regs := [], cx := { jobs := [{ id := 4, op := 0x7, slot := 9, iv := [1], aad := [2], payload := [3, 4] }] }, castle := { slots := [(9, { mask := [1, 2], masked := [3, 5], ktype := 1, usage := 0x5F })] } } }, { id := 4, op := 0x7, slot := 9, iv := [1], aad := [2], payload := [3, 4] }, by decide⟩

theorem witness_CipherOperationCommands_8 : ∃ (s : State) (j : CxJob),
    s.chip.passes .running = true ∧
    s.chip.cxTakes 0x08 j = true :=
  ⟨{ chip := { regs := [], cx := { jobs := [{ id := 4, op := 0x8, slot := 9, iv := [1], aad := [2], payload := [3, 4] }] }, castle := { slots := [(9, { mask := [1, 2], masked := [3, 5], ktype := 1, usage := 0x5F })] } } }, { id := 4, op := 0x8, slot := 9, iv := [1], aad := [2], payload := [3, 4] }, by decide⟩

theorem witness_CipherOperationCommands_9 : ∃ (s : State) (j : CxJob),
    s.chip.passes .running = true ∧
    s.chip.cxTakes 0x09 j = true :=
  ⟨{ chip := { regs := [], cx := { jobs := [{ id := 4, op := 0x9, slot := 9, iv := [1], aad := [2], payload := [3, 4], usesKey := false }] }, castle := { slots := [(9, { mask := [1, 2], masked := [3, 5], ktype := 1, usage := 0x5F })] } } }, { id := 4, op := 0x9, slot := 9, iv := [1], aad := [2], payload := [3, 4], usesKey := false }, by decide⟩

theorem witness_CipherOperationCommands_10 : ∃ (s : State) (j : CxJob),
    s.chip.passes .running = true ∧
    s.chip.cxTakes 0x0a j = true :=
  ⟨{ chip := { regs := [], cx := { jobs := [{ id := 4, op := 0xa, slot := 9, iv := [1], aad := [2], payload := [3, 4] }] }, castle := { slots := [(9, { mask := [1, 2], masked := [3, 5], ktype := 3, usage := 0x5F })] } } }, { id := 4, op := 0xa, slot := 9, iv := [1], aad := [2], payload := [3, 4] }, by decide⟩

theorem witness_CipherOperationCommands_11 : ∃ (s : State) (j : CxJob),
    s.chip.passes .running = true ∧
    s.chip.cxTakes 0x0b j = true :=
  ⟨{ chip := { regs := [], cx := { jobs := [{ id := 4, op := 0xb, slot := 9, iv := [1], aad := [2], payload := [3, 4], usesKey := false }] }, castle := { slots := [(9, { mask := [1, 2], masked := [3, 5], ktype := 1, usage := 0x5F })] } } }, { id := 4, op := 0xb, slot := 9, iv := [1], aad := [2], payload := [3, 4], usesKey := false }, by decide⟩

theorem witness_CipherOperationCommands_12 : ∃ (s : State) (j : CxJob),
    s.chip.passes .running = true ∧
    s.chip.cxTakes 0x0C j = true :=
  ⟨{ chip := { regs := [(0x71040, 2)], cx := { jobs := [{ id := 4, op := 0xc, iv := [1], aad := [2], payload := [3, 4], slot := 0 }] }, castle := { slots := [(0, { mask := [1], masked := [2], ktype := 3, usage := 0x10, sys := true })] } } }, { id := 4, op := 0xc, iv := [1], aad := [2], payload := [3, 4], slot := 0 }, by decide⟩

theorem witness_CipherOperationCommands_13 : ∃ (s : State) (j : CxJob),
    s.chip.passes .running = true ∧
    s.chip.fab.copies.all (fun k => !(k.appended && k.output == 68)) = true ∧
    (s.chip.cx.jobs.filter fun i => i.running && cxCore i.op == 0).length < 6 ∧ s.chip.cxNext 0 = some j ∧ j.op = 1 ∧ j.usesKey = true ∧
    s.chip.slot? j.slot = none ∧ sget false s.chip.castle.orphaned j.slot = false :=
  ⟨{ chip := { regs := [], cx := { jobs := [{ id := 4, op := 0x1, slot := 9, iv := [1], aad := [2], payload := [3, 4] }] } } }, { id := 4, op := 0x1, slot := 9, iv := [1], aad := [2], payload := [3, 4] }, by decide⟩

theorem witness_CipherOperationCommands_14 : ∃ (s : State) (k : Nat) (i : Nat) (n : Nat),
    s.chip.passes .running = true ∧
    k < 4 ∧ s.chip.fab.copies.all (fun x => !(x.appended && x.output == 68)) = true ∧ s.chip.jrSize k = some n ∧
    (s.chip.part k).linkUp = true ∧ s.chip.bitOf (Reg.PART.SEAT k) 31 = false ∧ i = sget 0 s.chip.cx.fetch k ∧ i ≠ s.chip.fldOf (Reg.CX.JR_TAIL k) 11 0 % n ∧
    s.chip.cxRoom k = true ∧ s.chip.bitOf Reg.CX.CTRL 0 = true :=
  ⟨{ chip := { regs := [(0x70040, 1), (0x70148, 8), (0x7014C, 1)], parts := [(1, { linkUp := true })] } }, 1, 0, 8, by decide⟩

theorem witness_CipherOperationCommands_15 : ∃ (s : State) (w : Nat) (k : Nat),
    s.chip.passes .running = true ∧
    k < 4 ∧ s.chip.accepts w (Reg.CX.JR_TAIL k) = true :=
  ⟨{ chip := { regs := [] } }, 2, 2, by decide⟩

theorem witness_CipherOperationCommands_16 : ∃ (s : State) (id : Nat) (j : CxJob) (k : Copy),
    s.chip.passes .running = true ∧
    s.chip.cx.jobs.find? (fun i => i.id == id && (i.running || i.fail != 0)) = some j ∧ j.copy = some k ∧ j.fail = 0x13 ∧
    bit (s.chip.regAt k.epoch Reg.CX.FAIL_SMP) 6 = false :=
  ⟨{ chip := { regs := [], cx := { jobs := [{ id := 4, op := 0x102, profile := 7, copy := some { id := 9 }, fail := 0x13 }] } } }, 4, { id := 4, op := 0x102, profile := 7, copy := some { id := 9 }, fail := 0x13 }, { id := 9 }, by decide⟩

theorem witness_CipherOperationCommands_17 : ∃ (s : State) (j : CxJob) (k : Copy) (w0 : Word64) (w1 : Word64) (w2 : Word64) (t : Nat) (p : List Byte),
    s.chip.passes .running = true ∧
    s.chip.cxTakes 0x101 j = true ∧ j.copy = some k ∧ j.profile < 1024 ∧
    w0 = s.chip.cxWord j.epoch j.profile 0 ∧ w1 = s.chip.cxWord j.epoch j.profile 1 ∧ w2 = s.chip.tword (cxProfileOff j.profile + 16) ∧
    sealBadLen k w0 w1 = false ∧ s.chip.tempoState ≠ 0 ∧ t = s.chip.ns / 1000000 ∧ fld w2 63 16 ≠ t % 2 ^ 48 ∧
    p = (canRecData k.data).take (cxPlen w1) :=
  ⟨{ chip := { regs := [(0x71040, 2), (0x10044, 1)], tempo := { value := 5 * 10 ^ 6 * 2 ^ 48 }, tbl := [(0x720000, 0x8000000000000000), (0x720001, 0x0000000200000000)], cx := { jobs := [{ id := 4, op := 0x101, slot := 9, profile := 0, copy := some { id := 9, data := [1, 0, 0, 0, 2, 0, 0, 64, 0, 0, 0, 0, 0, 0, 0, 0, 0, 0, 0, 0, 0, 0, 0, 0, 7, 8] } }] }, castle := { slots := [(9, { mask := [1, 2], masked := [3, 5], ktype := 1, usage := 0x5F })] } } }, { id := 4, op := 0x101, slot := 9, profile := 0, copy := some { id := 9, data := [1, 0, 0, 0, 2, 0, 0, 64, 0, 0, 0, 0, 0, 0, 0, 0, 0, 0, 0, 0, 0, 0, 0, 0, 7, 8] } }, { id := 9, data := [1, 0, 0, 0, 2, 0, 0, 64, 0, 0, 0, 0, 0, 0, 0, 0, 0, 0, 0, 0, 0, 0, 0, 0, 7, 8] }, 0x8000000000000000, 0x200000000, 0, 5, [7, 8], by decide⟩

theorem witness_CipherOperationCommands_18 : ∃ (s : State) (j : CxJob) (k : Copy) (w0 : Word64) (w1 : Word64) (w2 : Word64) (n : Nat) (b : List Byte) (t : Int),
    s.chip.passes .running = true ∧
    s.chip.cxTakes 0x102 j = true ∧ j.copy = some k ∧ j.profile < 1024 ∧
    w0 = s.chip.cxWord j.epoch j.profile 0 ∧ w1 = s.chip.cxWord j.epoch j.profile 1 ∧ w2 = s.chip.tword (cxProfileOff j.profile + 16) ∧
    n = cxPlen w1 ∧ b = canRecData k.data ∧ k.kind = .can ∧ (canOfRecord k.data).fmt ≠ 0 ∧ n + 3 + macLen w0 ≤ b.length ∧
    t = sealTime (s.chip.ns / 1000000) (beAt b n 2) ∧ s.chip.tempoState = 2 ∧
    (t - Int.ofNat (s.chip.ns / 1000000)).natAbs ≤ (if fld w1 15 8 = 0 then 4 else fld w1 15 8) ∧
    (bit w2 0 = false ∨ Int.ofNat (fld w2 63 16) < t) :=
  ⟨{ chip := { regs := [(0x71040, 2), (0x10044, 2)], tempo := { value := 5 * 10 ^ 6 * 2 ^ 48 }, tbl := [(0x720000, 0x8000000000000000), (0x720001, 0x0000000200000000)], cx := { jobs := [{ id := 4, op := 0x102, slot := 9, profile := 0, copy := some { id := 9, data := [1, 0, 0, 0, 21, 0, 0, 64, 0, 0, 0, 0, 0, 0, 0, 0, 0, 0, 0, 0, 0, 0, 0, 0, 7, 8, 0, 5, 0, 0, 0, 0, 0, 0, 0, 0, 0, 0, 0, 0, 0, 0, 0, 0, 0] } }] }, castle := { slots := [(9, { mask := [1, 2], masked := [3, 5], ktype := 1, usage := 0x5F })] } } }, { id := 4, op := 0x102, slot := 9, profile := 0, copy := some { id := 9, data := [1, 0, 0, 0, 21, 0, 0, 64, 0, 0, 0, 0, 0, 0, 0, 0, 0, 0, 0, 0, 0, 0, 0, 0, 7, 8, 0, 5, 0, 0, 0, 0, 0, 0, 0, 0, 0, 0, 0, 0, 0, 0, 0, 0, 0] } }, { id := 9, data := [1, 0, 0, 0, 21, 0, 0, 64, 0, 0, 0, 0, 0, 0, 0, 0, 0, 0, 0, 0, 0, 0, 0, 0, 7, 8, 0, 5, 0, 0, 0, 0, 0, 0, 0, 0, 0, 0, 0, 0, 0, 0, 0, 0, 0] }, 0x8000000000000000, 0x200000000, 0, 2, [7, 8, 0, 5, 0, 0, 0, 0, 0, 0, 0, 0, 0, 0, 0, 0, 0, 0, 0, 0, 0], 5, by decide⟩

theorem witness_CipherJobCommands_1 : ∃ (s : State) (k : Nat) (i : Nat) (n : Nat),
    s.chip.passes .running = true ∧
    k < 4 ∧ s.chip.fab.copies.all (fun x => !(x.appended && x.output == 68)) = true ∧ s.chip.jrSize k = some n ∧
    (s.chip.part k).linkUp = true ∧ s.chip.bitOf (Reg.PART.SEAT k) 31 = false ∧ i = sget 0 s.chip.cx.fetch k ∧ i ≠ s.chip.fldOf (Reg.CX.JR_TAIL k) 11 0 % n ∧
    s.chip.cxRoom k = true ∧ s.chip.bitOf Reg.CX.CTRL 0 = true :=
  ⟨{ chip := { regs := [(0x70040, 1), (0x70148, 8), (0x7014C, 1)], parts := [(1, { linkUp := true })] } }, 1, 0, 8, by decide⟩

theorem witness_CipherJobCommands_2 : ∃ (s : State) (w : Nat) (k : Nat),
    s.chip.passes .running = true ∧
    k < 4 ∧ s.chip.accepts w (Reg.CX.JR_TAIL k) = true :=
  ⟨{ chip := { regs := [] } }, 2, 2, by decide⟩

theorem witness_CipherJobCommands_3 : ∃ (s : State) (id : Nat) (j : CxJob),
    s.chip.passes .running = true ∧
    s.chip.cx.jobs.find? (fun i => i.id == id && (i.running || i.fail != 0)) = some j ∧ j.copy = none ∧ j.bnl = none ∧ j.fail ≠ 0 ∧ j.part < 4 :=
  ⟨{ chip := { regs := [], cx := { jobs := [{ id := 4, op := 1, part := 2, descAddr := 0x1000, fail := 6 }] } } }, 4, { id := 4, op := 1, part := 2, descAddr := 0x1000, fail := 6 }, by decide⟩

theorem witness_CipherJobCommands_4 : ∃ (s : State) (id : Nat) (j : CxJob) (k : Copy),
    s.chip.passes .running = true ∧
    s.chip.cx.jobs.find? (fun i => i.id == id && (i.running || i.fail != 0)) = some j ∧ j.copy = some k ∧ j.fail = 0x13 ∧
    bit (s.chip.regAt k.epoch Reg.CX.FAIL_SMP) 6 = false :=
  ⟨{ chip := { regs := [], cx := { jobs := [{ id := 4, op := 0x102, profile := 7, copy := some { id := 9 }, fail := 0x13 }] } } }, 4, { id := 4, op := 0x102, profile := 7, copy := some { id := 9 }, fail := 0x13 }, { id := 9 }, by decide⟩

theorem witness_CipherJobCommands_5 : ∃ (s : State) (j : CxJob) (k : Copy) (w0 : Word64) (w1 : Word64) (w2 : Word64) (t : Nat) (p : List Byte),
    s.chip.passes .running = true ∧
    s.chip.cxTakes 0x101 j = true ∧ j.copy = some k ∧ j.profile < 1024 ∧
    w0 = s.chip.cxWord j.epoch j.profile 0 ∧ w1 = s.chip.cxWord j.epoch j.profile 1 ∧ w2 = s.chip.tword (cxProfileOff j.profile + 16) ∧
    sealBadLen k w0 w1 = false ∧ s.chip.tempoState ≠ 0 ∧ t = s.chip.ns / 1000000 ∧ fld w2 63 16 ≠ t % 2 ^ 48 ∧
    p = (canRecData k.data).take (cxPlen w1) :=
  ⟨{ chip := { regs := [(0x71040, 2), (0x10044, 1)], tempo := { value := 5 * 10 ^ 6 * 2 ^ 48 }, tbl := [(0x720000, 0x8000000000000000), (0x720001, 0x0000000200000000)], cx := { jobs := [{ id := 4, op := 0x101, slot := 9, profile := 0, copy := some { id := 9, data := [1, 0, 0, 0, 2, 0, 0, 64, 0, 0, 0, 0, 0, 0, 0, 0, 0, 0, 0, 0, 0, 0, 0, 0, 7, 8] } }] }, castle := { slots := [(9, { mask := [1, 2], masked := [3, 5], ktype := 1, usage := 0x5F })] } } }, { id := 4, op := 0x101, slot := 9, profile := 0, copy := some { id := 9, data := [1, 0, 0, 0, 2, 0, 0, 64, 0, 0, 0, 0, 0, 0, 0, 0, 0, 0, 0, 0, 0, 0, 0, 0, 7, 8] } }, { id := 9, data := [1, 0, 0, 0, 2, 0, 0, 64, 0, 0, 0, 0, 0, 0, 0, 0, 0, 0, 0, 0, 0, 0, 0, 0, 7, 8] }, 0x8000000000000000, 0x200000000, 0, 5, [7, 8], by decide⟩

theorem witness_CipherJobCommands_6 : ∃ (s : State) (j : CxJob) (k : Copy),
    s.chip.passes .running = true ∧
    s.chip.cxTakes 0x101 j = true ∧ j.copy = some k ∧ sealBadLen k (s.chip.cxWord j.epoch j.profile 0) (s.chip.cxWord j.epoch j.profile 1) = true :=
  ⟨{ chip := { regs := [(0x71040, 2), (0x10044, 1)], tbl := [(0x720000, 0x8000000000000000), (0x720001, 0x0000000200000000)], cx := { jobs := [{ id := 4, op := 0x101, slot := 9, profile := 0, copy := some { id := 9, data := [1, 0, 0, 0, 1, 0, 0, 64, 0, 0, 0, 0, 0, 0, 0, 0, 0, 0, 0, 0, 0, 0, 0, 0, 7] } }] }, castle := { slots := [(9, { mask := [1, 2], masked := [3, 5], ktype := 1, usage := 0x5F })] } } }, { id := 4, op := 0x101, slot := 9, profile := 0, copy := some { id := 9, data := [1, 0, 0, 0, 1, 0, 0, 64, 0, 0, 0, 0, 0, 0, 0, 0, 0, 0, 0, 0, 0, 0, 0, 0, 7] } }, { id := 9, data := [1, 0, 0, 0, 1, 0, 0, 64, 0, 0, 0, 0, 0, 0, 0, 0, 0, 0, 0, 0, 0, 0, 0, 0, 7] }, by decide⟩

theorem witness_CipherJobCommands_7 : ∃ (s : State) (j : CxJob) (k : Copy) (w0 : Word64) (w1 : Word64) (w2 : Word64) (n : Nat) (b : List Byte) (t : Int),
    s.chip.passes .running = true ∧
    s.chip.cxTakes 0x102 j = true ∧ j.copy = some k ∧ j.profile < 1024 ∧
    w0 = s.chip.cxWord j.epoch j.profile 0 ∧ w1 = s.chip.cxWord j.epoch j.profile 1 ∧ w2 = s.chip.tword (cxProfileOff j.profile + 16) ∧
    n = cxPlen w1 ∧ b = canRecData k.data ∧ k.kind = .can ∧ (canOfRecord k.data).fmt ≠ 0 ∧ n + 3 + macLen w0 ≤ b.length ∧
    t = sealTime (s.chip.ns / 1000000) (beAt b n 2) ∧ s.chip.tempoState = 2 ∧
    (t - Int.ofNat (s.chip.ns / 1000000)).natAbs ≤ (if fld w1 15 8 = 0 then 4 else fld w1 15 8) ∧
    (bit w2 0 = false ∨ Int.ofNat (fld w2 63 16) < t) :=
  ⟨{ chip := { regs := [(0x71040, 2), (0x10044, 2)], tempo := { value := 5 * 10 ^ 6 * 2 ^ 48 }, tbl := [(0x720000, 0x8000000000000000), (0x720001, 0x0000000200000000)], cx := { jobs := [{ id := 4, op := 0x102, slot := 9, profile := 0, copy := some { id := 9, data := [1, 0, 0, 0, 21, 0, 0, 64, 0, 0, 0, 0, 0, 0, 0, 0, 0, 0, 0, 0, 0, 0, 0, 0, 7, 8, 0, 5, 0, 0, 0, 0, 0, 0, 0, 0, 0, 0, 0, 0, 0, 0, 0, 0, 0] } }] }, castle := { slots := [(9, { mask := [1, 2], masked := [3, 5], ktype := 1, usage := 0x5F })] } } }, { id := 4, op := 0x102, slot := 9, profile := 0, copy := some { id := 9, data := [1, 0, 0, 0, 21, 0, 0, 64, 0, 0, 0, 0, 0, 0, 0, 0, 0, 0, 0, 0, 0, 0, 0, 0, 7, 8, 0, 5, 0, 0, 0, 0, 0, 0, 0, 0, 0, 0, 0, 0, 0, 0, 0, 0, 0] } }, { id := 9, data := [1, 0, 0, 0, 21, 0, 0, 64, 0, 0, 0, 0, 0, 0, 0, 0, 0, 0, 0, 0, 0, 0, 0, 0, 7, 8, 0, 5, 0, 0, 0, 0, 0, 0, 0, 0, 0, 0, 0, 0, 0, 0, 0, 0, 0] }, 0x8000000000000000, 0x200000000, 0, 2, [7, 8, 0, 5, 0, 0, 0, 0, 0, 0, 0, 0, 0, 0, 0, 0, 0, 0, 0, 0, 0], 5, by decide⟩

theorem witness_MemoryCommandsComplete_1 : ∃ (s : State) (m : Nat) (a : Nat),
    s.chip.passes .running = true ∧
    m < 0x40 ∧ a < 2 ^ 22 ∧ s.chip.bitOf Reg.MEM.CTRL 0 = true ∧ s.chip.rangeRetired m (a / 512) = false ∧
    s.chip.now ≤ sget 0 s.chip.mem.passStart m + s.chip.scrubPass :=
  ⟨{ chip := { regs := [] } }, 5, 77, by decide⟩

theorem witness_MemoryCommandsComplete_2 : ∃ (s : State) (m : Nat) (a : Nat),
    s.chip.passes .running = true ∧
    m < 0x40 ∧ a < 2 ^ 22 ∧ s.chip.bitOf Reg.MEM.CTRL 0 = true ∧ s.chip.rangeRetired m (a / 512) = false ∧
    s.chip.now ≤ sget 0 s.chip.mem.passStart m + s.chip.scrubPass :=
  ⟨{ chip := { regs := [(0x807f4, 0x407F)] } }, 63, 77, by decide⟩

theorem witness_MemoryCommandsComplete_3 : ∃ (s : State) (m : Nat) (a : Nat) (r : Nat),
    s.chip.passes .running = true ∧
    m < 0x40 ∧ a < 2 ^ 22 ∧ s.chip.bitOf Reg.MEM.CTRL 0 = true ∧ s.chip.rangeRetired m (a / 512) = false ∧
    s.chip.now ≤ sget 0 s.chip.mem.passStart m + s.chip.scrubPass ∧
    (r = 1 ∨ r = 3) ∧
    s.chip.fldOf (Reg.MEM.INST_STAT m) 31 24 < s.chip.fldOf Reg.MEM.BUCKET_CFG 7 0 :=
  ⟨{ chip := { regs := [(0x8004C, 0xFF)] } }, 5, 77, 1, by decide⟩

theorem witness_MemoryCommandsComplete_4 : ∃ (s : State) (m : Nat) (a : Nat),
    s.chip.passes .running = true ∧
    m < 0x40 ∧ a < 2 ^ 22 ∧ s.chip.bitOf Reg.MEM.CTRL 0 = true ∧ s.chip.rangeRetired m (a / 512) = false ∧
    s.chip.now ≤ sget 0 s.chip.mem.passStart m + s.chip.scrubPass ∧ sget false s.chip.mem.bad (memKey m a) = false :=
  ⟨{ chip := { regs := [] } }, 5, 77, by decide⟩

theorem witness_MemoryCommandsComplete_5 : ∃ (s : State) (m : Nat),
    s.chip.passes .running = true ∧
    memExists m = true ∧ s.chip.leakFs ≠ 0 ∧ s.chip.fldOf (Reg.MEM.INST_STAT m) 31 24 ≠ 0 ∧ sget 0 s.chip.mem.leakAt m / s.chip.leakFs < s.chip.now / s.chip.leakFs :=
  ⟨{ chip := { regs := [(0x80e14, 0x01000000), (0x8004C, 0x00010001)], now := 2 * 10 ^ 15 } }, 0xA1, by decide⟩

theorem witness_MemoryCommandsComplete_6 : ∃ (s : State) (k : Nat) (m : Nat) (p : Nat) (n : Nat) (v : Word),
    s.chip.passes .running = true ∧
    s.chip.accepts k Reg.MEM.RETIRE_GO = true ∧ fld v 15 0 = 0x5254 ∧ m = s.chip.fldOf Reg.MEM.RETIRE_ARG 23 16 ∧ p = s.chip.fldOf Reg.MEM.RETIRE_ARG 11 0 ∧
    memKind m ≠ 0 ∧ memKind m ≠ 2 ∧ p < instPages m ∧ s.chip.rangeRetired m p = false ∧ n = s.chip.fldOf Reg.MEM.RETIRE_STAT 6 0 ∧ n < 64 :=
  ⟨{ chip := { regs := [(0x80060, 0x4100FF)] } }, 0, 0x41, 0xFF, 0, 0x5254, by decide⟩

theorem witness_MemoryCommandsComplete_7 : ∃ (s : State) (k : Nat) (r : Nat) (v : Word),
    s.chip.passes .running = true ∧
    s.chip.accepts k Reg.MEM.RETIRE_GO = true ∧ fld v 15 0 = 0x5254 ∧
    r = s.chip.retireResult (s.chip.fldOf Reg.MEM.RETIRE_ARG 23 16) (s.chip.fldOf Reg.MEM.RETIRE_ARG 11 0) ∧ r ≠ 1 :=
  ⟨{ chip := { regs := [(0x80060, 0x410100)] } }, 0, 3, 0x5254, by decide⟩

theorem witness_MemoryCommandsComplete_8 : ∃ (s : State),
    s.chip.passes .running = true :=
  ⟨{ chip := { regs := [(0x80068, 0x80000001)] } }, by decide⟩

theorem witness_MemoryCommandsComplete_9 : ∃ (s : State) (k : Nat) (m : Nat) (b : Nat) (v : Word),
    s.chip.passes .running = true ∧
    s.chip.accepts k Reg.MEM.BIST_RUN = true ∧ fld v 31 16 = 0x4254 ∧ m = fld v 7 0 ∧ memExists m = true ∧ s.chip.memInReset m = true ∧ b ≤ 8 :=
  ⟨{ chip := { regs := [(0x90040, 2)] } }, 0, 0xA1, 8, 0x425400A1, by decide⟩

theorem witness_MemoryCommandsComplete_10 : ∃ (s : State) (k : Nat) (m : Nat) (b : Nat) (v : Word),
    s.chip.passes .running = true ∧
    s.chip.accepts k Reg.MEM.BIST_RUN = true ∧ fld v 31 16 = 0x4254 ∧ m = fld v 7 0 ∧ memExists m = true ∧ s.chip.memInReset m = true ∧ 8 < b :=
  ⟨{ chip := { regs := [(0x90040, 2)] } }, 0, 0xA1, 9, 0x425400A1, by decide⟩

theorem witness_MemoryCommandsComplete_11 : ∃ (s : State) (k : Nat) (v : Word),
    s.chip.passes .running = true ∧
    k < 4 ∧ s.chip.accepts k Reg.MEM.RET_INIT = true ∧ fld v 15 0 = 0x5249 :=
  ⟨{ chip := { regs := [(0x80050, 1)] } }, 0, 0x5249, by decide⟩

theorem witness_ArbiterCommandsComplete_1 : ∃ (s : State),
    s.chip.passes .running = true ∧
    s.chip.arbState = 1 ∧ s.chip.arb.cmds = [] :=
  ⟨{ chip := { regs := [(0x90040, 1)] } }, by decide⟩

theorem witness_ArbiterCommandsComplete_2 : ∃ (s : State),
    s.chip.passes .running = true ∧
    s.chip.arbState = 1 ∧ s.chip.arb.cmds = [] :=
  ⟨{ chip := { regs := [(0x90040, 1)] } }, by decide⟩

theorem witness_ArbiterCommandsComplete_3 : ∃ (s : State) (k : Nat) (v : Word),
    s.chip.passes .running = true ∧
    s.chip.accepts k Reg.ARB.RESTART = true ∧ fld v 15 0 = 0x4152 ∧ s.chip.arbState ≠ 2 ∧ s.chip.arb.cmds = [] :=
  ⟨{ chip := { regs := [(0x90040, 3)] } }, 0, 0x4152, by decide⟩

theorem witness_ArbiterCommandsComplete_4 : ∃ (s : State) (a : Bool) (b : Bool),
    s.chip.passes .running = true ∧
    s.chip.arbState = 2 ∧ s.chip.arb.restarts = [] ∧ s.chip.record.trial = false ∧ (if s.chip.activeSlot = 0 then a else b) = true ∧
    s.chip.activeSet.entry 1 = none ∧ s.chip.plState s.chip.partner < 3 :=
  ⟨{ chip := { regs := [(0x90040, 2)] } }, true, false, by decide⟩

theorem witness_ArbiterCommandsComplete_5 : ∃ (s : State) (t : Nat) (u : Nat),
    s.chip.passes .running = true ∧
    s.chip.arbState = 2 ∧ s.chip.arb.restarts = [t, u] ∧ s.chip.arb.cmds = [] ∧
    s.chip.now < s.chip.arb.restartFrom + 600 * fsSec ∧ s.chip.now < t + 600 * fsSec ∧ s.chip.now < u + 600 * fsSec :=
  ⟨{ chip := { regs := [(0x90040, 2)], arb := { restarts := [0, 0] } } }, 0, 0, by decide⟩

theorem witness_ArbiterCommandsComplete_6 : ∃ (s : State) (w : Nat) (k : Nat),
    s.chip.passes .running = true ∧
    k < 4 ∧ s.chip.accepts w (Reg.ARB.CMD k) = true ∧ s.chip.bitOf (Reg.ARB.CSTAT k) 31 = false ∧ s.chip.arbState ≠ 3 :=
  ⟨{ chip := { regs := [(0x90040, 1), (0x90184, 0x105)] } }, 1, 1, by decide⟩

theorem witness_ArbiterCommandsComplete_7 : ∃ (s : State) (w : Nat) (k : Nat),
    s.chip.passes .running = true ∧
    k < 4 ∧ s.chip.accepts w (Reg.ARB.CMD k) = true ∧ s.chip.bitOf (Reg.ARB.CSTAT k) 31 = false ∧ s.chip.arbState ≠ 3 :=
  ⟨{ chip := { regs := [(0x90040, 1), (0x90184, 0x105)] } }, 1, 1, by decide⟩

theorem witness_ArbiterCommandsComplete_8 : ∃ (s : State) (w : Nat) (k : Nat),
    s.chip.passes .running = true ∧
    k < 4 ∧ s.chip.accepts w (Reg.ARB.CMD k) = true ∧ s.chip.bitOf (Reg.ARB.CSTAT k) 31 = false ∧ s.chip.arbState ≠ 3 :=
  ⟨{ chip := { regs := [(0x90040, 1), (0x90184, 0x105)] } }, 1, 1, by decide⟩

theorem witness_ArbiterCommandsComplete_9 : ∃ (s : State) (w : Nat) (k : Nat),
    s.chip.passes .running = true ∧
    k < 4 ∧ s.chip.accepts w (Reg.ARB.CMD k) = true ∧ s.chip.bitOf (Reg.ARB.CSTAT k) 31 = false ∧ s.chip.arbState ≠ 3 :=
  ⟨{ chip := { regs := [(0x90040, 1), (0x90184, 0x105)] } }, 1, 1, by decide⟩

theorem witness_ArbiterCommandsComplete_10 : ∃ (s : State) (w : Nat) (k : Nat),
    s.chip.passes .running = true ∧
    k < 4 ∧ s.chip.accepts w (Reg.ARB.CMD k) = true ∧ s.chip.bitOf (Reg.ARB.CSTAT k) 31 = false ∧ s.chip.arbState ≠ 3 :=
  ⟨{ chip := { regs := [(0x90040, 1), (0x90184, 0x105)] } }, 1, 1, by decide⟩

theorem witness_ArbiterCommandsComplete_11 : ∃ (s : State) (w : Nat) (k : Nat),
    s.chip.passes .running = true ∧
    k < 4 ∧ s.chip.accepts w (Reg.ARB.CMD k) = true ∧ s.chip.bitOf (Reg.ARB.CSTAT k) 31 = true :=
  ⟨{ chip := { regs := [(0x90040, 1), (0x90184, 0x80000005)] } }, 1, 1, by decide⟩

theorem witness_ArbiterCommandsComplete_12 : ∃ (s : State) (w : Nat) (k : Nat),
    s.chip.passes .running = true ∧
    k < 4 ∧ s.chip.accepts w (Reg.ARB.CMD k) = true ∧ s.chip.bitOf (Reg.ARB.CSTAT k) 31 = false ∧ s.chip.arbState = 3 :=
  ⟨{ chip := { regs := [(0x90040, 3)] } }, 1, 1, by decide⟩

theorem witness_ArbiterCommandsComplete_13 : ∃ (s : State) (k : Nat),
    s.chip.passes .recovery = true ∧
    k < 4 ∧ lookupKey s.chip.arb.cmds k = some { op := 1 } ∧ s.chip.arbRunning = true :=
  ⟨{ chip := { regs := [(0x90040, 1), (0x90044, 0x123), (0x90060, 0x99)], arb := { cmds := [(3, { op := 1 })] } } }, 3, by decide⟩

theorem witness_ArbiterCommandsComplete_14 : ∃ (s : State) (k : Nat),
    s.chip.passes .recovery = true ∧
    k < 4 ∧ lookupKey s.chip.arb.cmds k = some { op := 4 } ∧ s.chip.arbRunning = true ∧ (s.chip.reg (Reg.ARB.ARG k 0)).toNat < 48 :=
  ⟨{ chip := { regs := [(0x90040, 1), (0x90288, 47)], arb := { cmds := [(3, { op := 4 })] } } }, 3, by decide⟩

theorem witness_ArbiterCommandsComplete_15 : ∃ (s : State) (c : Nat) (v : Nat),
    s.chip.passes .running = true ∧
    c < 24 ∧ lookupKey s.chip.arb.sampled c = none ∧ v < 65536 ∧ s.chip.bitOf Reg.SENS.CTRL 0 = false :=
  ⟨{ chip := { regs := [(0x92040, 0), (0x9227C, 0x00050003)] } }, 23, 0xFFFF, by decide⟩

theorem witness_ArbiterCommandsComplete_16 : ∃ (s : State),
    s.chip.passes .running = true ∧
    s.chip.fldOf Reg.SENS.EYE_CFG 31 16 ≠ 0 ∧ s.chip.arbRunning = true ∧ s.chip.arb.eyeAt + s.chip.fldOf Reg.SENS.EYE_CFG 31 16 * fsSec ≤ s.chip.now ∧
    s.chip.fldOf Reg.SENS.EYE_CFG 15 0 = 0 :=
  ⟨{ chip := { regs := [(0x90040, 1), (0x92044, 0x10000), (0x131044, 1)], now := 10 ^ 15 } }, by decide⟩

theorem witness_ArbiterCommandsComplete_17 : ∃ (s : State) (e : ScoreEntry) (rest : List ScoreEntry) (i : Nat) (q : Nat),
    s.chip.passes .running = true ∧
    s.chip.bitOf Reg.MEM.RET_STAT 0 = false ∧ s.chip.score.queue = e :: rest ∧ i = s.chip.fldOf Reg.SCORE.WR_IDX 12 0 ∧
    q = (if s.chip.reg Reg.SCORE.LAST_SEQ = 0xFFFFFFFF then 1 else (s.chip.reg Reg.SCORE.LAST_SEQ).toNat + 1) :=
  ⟨{ chip := { regs := [(0x80050, 0), (0x91048, 0x1FFF), (0x9104C, 0xFFFFFFFF)], score := { queue := [{ code := 5, sev := 4 }], lossNext := true } } }, { code := 5, sev := 4 }, [], 8191, 1, by decide⟩

theorem witness_ArbiterCommandsComplete_18 : ∃ (s : State),
    s.chip.passes .running = true ∧
    s.chip.arbRunning = true ∧ s.chip.flushDue = true ∧ s.chip.unflushed = [] :=
  ⟨{ chip := { regs := [(0x90040, 1)], score := { critAt := some 0 } } }, by decide⟩

theorem witness_ArbiterCommandsComplete_19 : ∃ (s : State),
    s.chip.passes .running = true ∧
    s.chip.implemented 0x091 = true ∧ s.chip.held 0x091 = false :=
  ⟨{ chip := { regs := [(0x9105C, 0x1FFF)], score := { ring := [(0x1FFF, { seq := 1, detail := [1,2,3,4,5,6,7,8,9,10,11,12] })] } } }, by decide⟩

theorem witness_SensorAndScoresheetCommands_1 : ∃ (s : State) (c : Nat) (v : Nat),
    s.chip.passes .running = true ∧
    c < 24 ∧ lookupKey s.chip.arb.sampled c = none ∧ v < 65536 ∧ s.chip.bitOf Reg.SENS.CTRL 0 = false :=
  ⟨{ chip := { regs := [(0x92040, 0), (0x9227C, 0x00050003)] } }, 23, 0xFFFF, by decide⟩

theorem witness_SensorAndScoresheetCommands_2 : ∃ (s : State) (c : Nat) (v : Nat),
    s.chip.passes .running = true ∧
    c < 24 ∧ lookupKey s.chip.arb.sampled c = none ∧ v < 65536 ∧ s.chip.bitOf Reg.SENS.CTRL 0 = true ∧ sget 0 s.chip.arb.side c = 0 ∧
    s.chip.s16 (Reg.SENS.LIM c) 31 < (BitVec.ofNat 16 v).toInt ∧ s.chip.s16 (Reg.SENS.LIM c) 15 ≤ (BitVec.ofNat 16 v).toInt :=
  ⟨{ chip := { regs := [(0x92040, 1), (0x92274, 0x00050003)] } }, 23, 6, by decide⟩

theorem witness_SensorAndScoresheetCommands_3 : ∃ (s : State),
    s.chip.passes .running = true ∧
    s.chip.fldOf Reg.SENS.EYE_CFG 31 16 ≠ 0 ∧ s.chip.arbRunning = true ∧ s.chip.arb.eyeAt + s.chip.fldOf Reg.SENS.EYE_CFG 31 16 * fsSec ≤ s.chip.now ∧
    s.chip.fldOf Reg.SENS.EYE_CFG 15 0 = 0 :=
  ⟨{ chip := { regs := [(0x90040, 1), (0x92044, 0x10000), (0x131044, 1)], now := 10 ^ 15 } }, by decide⟩

theorem witness_SensorAndScoresheetCommands_4 : ∃ (s : State) (e : ScoreEntry) (rest : List ScoreEntry) (i : Nat) (q : Nat),
    s.chip.passes .running = true ∧
    s.chip.bitOf Reg.MEM.RET_STAT 0 = false ∧ s.chip.score.queue = e :: rest ∧ i = s.chip.fldOf Reg.SCORE.WR_IDX 12 0 ∧
    q = (if s.chip.reg Reg.SCORE.LAST_SEQ = 0xFFFFFFFF then 1 else (s.chip.reg Reg.SCORE.LAST_SEQ).toNat + 1) :=
  ⟨{ chip := { regs := [(0x80050, 0), (0x91048, 0x1FFF), (0x9104C, 0xFFFFFFFF)], score := { queue := [{ code := 5, sev := 4 }], lossNext := true } } }, { code := 5, sev := 4 }, [], 8191, 1, by decide⟩

theorem witness_SensorAndScoresheetCommands_5 : ∃ (s : State),
    s.chip.passes .running = true ∧
    s.chip.arbRunning = true ∧ s.chip.flushDue = true ∧ s.chip.unflushed = [] :=
  ⟨{ chip := { regs := [(0x90040, 1)], score := { critAt := some 0 } } }, by decide⟩

theorem witness_SensorAndScoresheetCommands_6 : ∃ (s : State) (e : ScoreEntry),
    s.chip.passes .running = true ∧
    s.chip.arbRunning = true ∧ s.chip.flushDue = true ∧ s.chip.unflushed = [e] ∧ s.chip.score.archPage = none ∧ e.seq ≠ 0 :=
  ⟨{ chip := { regs := [(0x90040, 1), (0x9104C, 1)], score := { critAt := some 0, ring := [(0, { seq := 1, code := 9 })] } } }, { seq := 1, code := 9 }, by decide⟩

theorem witness_SensorAndScoresheetCommands_7 : ∃ (s : State),
    s.chip.passes .running = true ∧
    s.chip.implemented 0x091 = true ∧ s.chip.held 0x091 = false :=
  ⟨{ chip := { regs := [(0x9105C, 0x1FFF)], score := { ring := [(0x1FFF, { seq := 1, detail := [1,2,3,4,5,6,7,8,9,10,11,12] })] } } }, by decide⟩

theorem witness_HostLinkAndRingCommands_1 : ∃ (s : State) (k : Nat),
    s.chip.passes .recovery = true ∧
    k < 4 ∧ s.chip.host.sems.all (fun e => e.2.part != k) = true :=
  ⟨{ chip := { regs := [(0xc1040, 1), (0xc1044, 0x10203), (0xc110c, 5)], host := { brg := [{ win := 0, ep := 1, write := false, off := 0 }, { win := 0, ep := 2, write := false, off := 0 }] } } }, 1, by decide⟩

theorem witness_HostLinkAndRingCommands_2 : ∃ (s : State) (k : Nat),
    s.chip.passes .recovery = true ∧
    k < 4 ∧ s.chip.host.sems.all (fun e => e.2.part != k) = true :=
  ⟨{ chip := { regs := [(0xc1040, 1), (0xc1044, 0x10203)], parts := [(1, { linkUp := true, unmasked := [3] })], pba := [(1, 3), (2, 3)] } }, 1, by decide⟩

theorem witness_HostLinkAndRingCommands_3 : ∃ (s : State) (k : Nat),
    s.chip.passes .recovery = true ∧
    k < 4 :=
  ⟨{ chip := { regs := [], parts := [(1, { perst := true })] } }, 1, by decide⟩

theorem witness_HostLinkAndRingCommands_4 : ∃ (s : State) (k : Nat) (w : Nat) (g : Nat),
    s.chip.passes .recovery = true ∧
    k < 4 ∧ (s.chip.part k).perst = false ∧ (s.chip.part k).linkUp = false ∧ s.chip.bitOf (Reg.PART.SEAT k) 31 = false ∧ 1 ≤ w ∧ w ≤ 2 ∧ 1 ≤ g ∧ g ≤ 4 :=
  ⟨{ chip := { regs := [] } }, 3, 2, 4, by decide⟩

theorem witness_HostLinkAndRingCommands_5 : ∃ (s : State) (k : Nat),
    s.chip.passes .recovery = true ∧
    k < 4 :=
  ⟨{ chip := { regs := [(0xc1044, 0x10203)], parts := [(1, { linkUp := true })] } }, 1, by decide⟩

theorem witness_HostLinkAndRingCommands_6 : ∃ (s : State) (w : Nat) (k : Nat) (t : Nat),
    s.chip.passes .running = true ∧
    k < 4 ∧ t < 32 ∧ s.chip.accepts w (Reg.HDMA.TX_TAIL k t) = true :=
  ⟨{ chip := { regs := [] } }, 3, 3, 31, by decide⟩

theorem witness_HostLinkAndRingCommands_7 : ∃ (s : State) (k : Nat) (t : Nat) (n : Nat) (e : Nat) (desc : List Byte) (rcd : List Byte) (err : Bool),
    s.chip.passes .running = true ∧
    s.chip.hdmaOn k = true ∧ s.chip.txRingNext k = some t ∧ s.chip.txRing k t = some n ∧ lookupKey s.chip.host.done k = none ∧
    e = s.chip.txCheck k desc rcd err ∧ 1 ≤ e ∧ e ≤ 3 :=
  ⟨{ chip := { regs := [(0xc1040, 1), (0xc1108, 8), (0xc110c, 1)], parts := [(1, { linkUp := true })] } }, 1, 0, 8, 1, [], [], false, by decide⟩

theorem witness_HostLinkAndRingCommands_8 : ∃ (s : State) (k : Nat) (t : Nat) (n : Nat) (desc : List Byte) (rcd : List Byte),
    s.chip.passes .running = true ∧
    s.chip.hdmaOn k = true ∧ s.chip.txRingNext k = some t ∧ s.chip.txRing k t = some n ∧ t < 32 ∧ lookupKey s.chip.host.done k = none ∧
    s.chip.txCheck k desc rcd false = 0 ∧ leAt desc 11 1 = 0 :=
  ⟨{ chip := { regs := [(0xc1040, 1), (0xc1108, 8), (0xc110c, 1), (0x105008, 1)], parts := [(1, { linkUp := true })] } }, 1, 0, 8, [0, 0, 0, 0, 0, 0, 0, 0, 24, 0, 1, 0, 5, 2, 0, 0], List.replicate 24 0, by decide⟩

theorem witness_HostLinkAndRingCommands_9 : ∃ (c : Chip) (k : Nat) (h : Nat) (x : HdmaDone),
    c.host.done = [(k, x)] ∧ k < 4 ∧ c.itemHeld true k = false ∧ c.hdmaOn k = true ∧ x.ring < 32 ∧ 0 < x.size ∧ x.size ≤ 4096 ∧
    h = c.fldOf (Reg.HDMA.TX_HEAD k x.ring) 11 0 :=
  ⟨{ regs := [(0xc1040, 1), (0xc1108, 8), (0xc110c, 1)], parts := [(1, { linkUp := true })], host := { done := [(1, { ring := 0, size := 8, status := 3 })] } }, 1, 0, { ring := 0, size := 8, status := 3 }, by decide⟩

theorem witness_HostLinkAndRingCommands_10 : ∃ (s : State) (p : Nat),
    s.chip.passes .running = true ∧
    p < 4 ∧ s.chip.hdmaOn p = false :=
  ⟨{ chip := { regs := [], fab := { copies := [{ id := 1, output := 66, appended := true }] } } }, 2, by decide⟩

theorem witness_HostLinkAndRingCommands_11 : ∃ (s : State) (p : Nat) (n : Nat) (k : Copy),
    s.chip.passes .running = true ∧
    s.chip.hdmaOn p = true ∧ s.chip.itemHeld true p = false ∧ s.chip.fab.copies = [k] ∧ k.appended = true ∧ k.output = 64 + p ∧ k.cls < 8 ∧ k.ready = true ∧
    s.chip.residenceOver k = false ∧ s.chip.rxRing p k.ring = some n ∧ k.discarded = false ∧ k.ring < 32 :=
  ⟨{ chip := { regs := [(0xc2040, 1), (0xc2508, 8), (0xc250c, 1)], parts := [(2, { linkUp := true })], fab := { copies := [{ id := 1, output := 66, cls := 3, appended := true, data := [1, 2, 3] }] } } }, 2, 8, { id := 1, output := 66, cls := 3, appended := true, data := [1, 2, 3] }, by decide⟩

theorem witness_HostLinkAndRingCommands_12 : ∃ (s : State) (k : Nat) (r : Nat) (p : RxPend),
    s.chip.passes .running = true ∧
    k < 4 ∧ r < 32 ∧ p = sget {} s.chip.host.rx (32 * k + r) ∧ p.count ≠ 0 ∧ p.since + s.chip.fldOf (Reg.HDMA.RX_CFG k r) 31 16 * fsUs ≤ s.chip.now :=
  ⟨{ chip := { regs := [], host := { rx := [(33, { count := 1 })] } } }, 1, 1, { count := 1 }, by decide⟩

theorem witness_BridgeCommandsComplete_1 : ∃ (s : State) (k : Nat) (off : Nat) (n : Nat),
    s.chip.passes .running = true ∧
    k < 4 ∧ (s.chip.part k).linkUp = true ∧ s.chip.winMapped k off n = true ∧ s.chip.faulted (off / 2 ^ 24) = false ∧ s.chip.host.brg = [] ∧ 1 ≤ n ∧ n ≤ 512 :=
  ⟨{ chip := { regs := [(0xb0160, 0x90000000), (0xb0170, 0x1)], parts := [(1, { linkUp := true })] } }, 1, 0x3000008, 4, by decide⟩

theorem witness_BridgeCommandsComplete_2 : ∃ (s : State) (k : Nat) (off : Nat) (n : Nat),
    s.chip.passes .running = true ∧
    k < 4 ∧ (s.chip.part k).linkUp = true ∧ s.chip.winMapped k off n = false ∧ 1 ≤ n ∧ n ≤ 512 :=
  ⟨{ chip := { regs := [(0xb0160, 0x90000000), (0xb0170, 0x1)], parts := [(1, { linkUp := true })] } }, 1, 0x3100000, 1, by decide⟩

theorem witness_BridgeCommandsComplete_3 : ∃ (s : State) (k : Nat) (off : Nat) (n : Nat) (b : List Byte),
    s.chip.passes .running = true ∧
    k < 4 ∧ (s.chip.part k).linkUp = true ∧ s.chip.winMapped k off n = true ∧ s.chip.faulted (off / 2 ^ 24) = false ∧ s.chip.host.brg = [] ∧ n = b.length ∧ 1 ≤ n ∧ n ≤ 256 :=
  ⟨{ chip := { regs := [(0xb0160, 0x90000000), (0xb0170, 0x1)], parts := [(1, { linkUp := true })] } }, 1, 0x3000008, 4, [1, 2, 3, 4], by decide⟩

theorem witness_BridgeCommandsComplete_4 : ∃ (s : State) (k : Nat) (off : Nat) (n : Nat) (op : Nat),
    s.chip.passes .running = true ∧
    (k < 4 ∧ (s.chip.part k).linkUp = true ∧ s.chip.winMapped k off n = true ∧ s.chip.faulted (off / 2 ^ 24) = false ∧ s.chip.host.brg = [] ∧ op ≤ 2 ∧ (n = 4 ∨ n = 8) ∧ lookupKey s.chip.host.sems (off / 2 ^ 24) = none) :=
  ⟨{ chip := { regs := [(0xb0160, 0x90000000), (0xb0170, 0x1)], parts := [(1, { linkUp := true })] } }, 1, 0x3000008, 8, 2, by decide⟩

theorem witness_BridgeCommandsComplete_5 : ∃ (s : State) (m : BnlReq) (r : BrgReq),
    s.chip.passes .running = true ∧
    s.chip.host.responses = [m] ∧ s.chip.host.brg = [r] ∧ r.stage = 1 ∧ r.atomic = none ∧ r.write = false ∧ r.win < 16 ∧ r.tag < 64 ∧
    m.tag = r.win * 64 + r.tag ∧ m.typ = 0x90 ∧ leAt m.body 0 1 = 0 :=
  ⟨{ chip := { regs := [], host := { brg := [{ win := 3, ep := 1, write := false, off := 8, len := 4, stage := 1 }], responses := [{ typ := 144, peer := 0, gwid := 0, mac := 0, square := 0, tag := 192, body := [0, 0, 0, 0, 9, 8, 7, 6] }] } } }, { typ := 144, peer := 0, gwid := 0, mac := 0, square := 0, tag := 192, body := [0, 0, 0, 0, 9, 8, 7, 6] }, { win := 3, ep := 1, write := false, off := 8, len := 4, stage := 1 }, by decide⟩

theorem witness_BridgeCommandsComplete_6 : ∃ (s : State) (m : BnlReq) (r : BrgReq) (e : Nat),
    s.chip.passes .running = true ∧
    s.chip.host.responses = [m] ∧ s.chip.host.brg = [r] ∧ r.stage = 1 ∧ r.atomic = none ∧ r.write = true ∧ r.win < 16 ∧ r.tag < 64 ∧
    m.tag = r.win * 64 + r.tag ∧ m.typ = 0x91 ∧ e = leAt m.body 0 1 ∧ e ≠ 0 ∧ e ≠ 4 ∧ s.chip.host.werr.length < 16 :=
  ⟨{ chip := { regs := [], host := { brg := [{ win := 3, ep := 1, write := true, off := 8, len := 4, data := [1, 2, 3, 4], stage := 1 }], responses := [{ typ := 145, peer := 0, gwid := 0, mac := 0, square := 0, tag := 192, body := [3] }] } } }, { typ := 145, peer := 0, gwid := 0, mac := 0, square := 0, tag := 192, body := [3] }, { win := 3, ep := 1, write := true, off := 8, len := 4, data := [1, 2, 3, 4], stage := 1 }, 3, by decide⟩

theorem witness_BridgeCommandsComplete_7 : ∃ (s : State) (w : Nat) (t : Nat) (r : BrgReq),
    s.chip.passes .running = true ∧
    s.chip.host.brg = [r] ∧ r.stage = 1 ∧ r.win = w ∧ r.tag = t ∧ r.atomic = none ∧ r.write = false ∧ r.since + s.chip.brgTimeout ≤ s.chip.now :=
  ⟨{ chip := { regs := [], now := 10 ^ 15, host := { brg := [{ win := 3, ep := 1, write := false, off := 8, len := 4, stage := 1 }] } } }, 3, 0, { win := 3, ep := 1, write := false, off := 8, len := 4, stage := 1 }, by decide⟩

theorem witness_BridgeCommandsComplete_8 : ∃ (s : State) (w : Nat) (t : Nat) (r : BrgReq),
    s.chip.passes .running = true ∧
    s.chip.host.brg = [r] ∧ r.stage = 2 ∧ r.win = w ∧ r.tag = t ∧ r.retryAt ≤ s.chip.now :=
  ⟨{ chip := { regs := [], host := { brg := [{ win := 3, ep := 1, write := false, off := 8, len := 4, stage := 2 }] } } }, 3, 0, { win := 3, ep := 1, write := false, off := 8, len := 4, stage := 2 }, by decide⟩

theorem witness_BridgeCommandsComplete_9 : ∃ (s : State) (k : Nat) (w : Nat),
    s.chip.passes .running = true ∧
    w < 16 ∧ (lookupKey s.chip.inReset 0x0B0).isNone = true ∧ s.chip.winOwner w = k ∧ lookupKey s.chip.host.sems w = none :=
  ⟨{ chip := { regs := [(0xb0160, 0x90000000), (0xb0170, 0x1)] } }, 1, 3, by decide⟩

theorem witness_BridgeCommandsComplete_10 : ∃ (s : State) (k : Nat) (w : Nat) (h : SemHold),
    s.chip.passes .running = true ∧
    w < 16 ∧ (lookupKey s.chip.inReset 0x0B0).isNone = true ∧ s.chip.winOwner w = k ∧ lookupKey s.chip.host.sems w = some h :=
  ⟨{ chip := { regs := [(0xb0160, 0x90000000), (0xb0170, 0x1)], host := { sems := [(3, { part := 4, since := 0, renewed := 0 })] } } }, 1, 3, { part := 4, since := 0, renewed := 0 }, by decide⟩

theorem witness_BridgeCommandsComplete_11 : ∃ (s : State) (k : Nat) (w : Nat) (h : SemHold),
    s.chip.passes .running = true ∧
    w < 16 ∧ (lookupKey s.chip.inReset 0x0B0).isNone = true ∧ s.chip.winOwner w = k ∧ lookupKey s.chip.host.sems w = some h ∧ h.part = k ∧ s.chip.host.brg = [] :=
  ⟨{ chip := { regs := [(0xb0160, 0x90000000), (0xb0170, 0x1)], host := { sems := [(3, { part := 1, since := 0, renewed := 0 })] } } }, 1, 3, { part := 1, since := 0, renewed := 0 }, by decide⟩

theorem witness_BridgeCommandsComplete_12 : ∃ (s : State) (w : Nat) (h : SemHold),
    s.chip.passes .running = true ∧
    lookupKey s.chip.host.sems w = some h ∧ h.part ≠ 4 ∧ h.renewed + 500 * fsUs ≤ s.chip.now :=
  ⟨{ chip := { regs := [(0xb0160, 0x90000000), (0xb0170, 0x1)], now := 10 ^ 15, host := { sems := [(3, { part := 1, since := 0, renewed := 0 })] } } }, 3, { part := 1, since := 0, renewed := 0 }, by decide⟩

theorem witness_BridgeCommandsComplete_13 : ∃ (s : State) (w : Nat) (h : SemHold),
    s.chip.passes .running = true ∧
    lookupKey s.chip.host.sems w = some h ∧ h.part ≠ 4 ∧ h.since + s.chip.fldOf Reg.BRG.SEM_HOLD 15 0 * fsUs ≤ s.chip.now ∧ s.chip.host.brg = [] :=
  ⟨{ chip := { regs := [(0xb0160, 0x90000000), (0xb0170, 0x1)], now := 10 ^ 15, host := { sems := [(3, { part := 1, since := 0, renewed := 0 })] } } }, 3, { part := 1, since := 0, renewed := 0 }, by decide⟩

theorem witness_BridgeCommandsComplete_14 : ∃ (s : State) (e : WErr) (rest : List WErr),
    s.chip.passes .running = true ∧
    s.chip.host.werr = e :: rest ∧ s.chip.implemented 0x0B0 = true ∧ s.chip.held 0x0B0 = false :=
  ⟨{ chip := { regs := [], host := { werr := [{ kind := 2, win := 15, status := 3, tag := 63, off := 77, time := 5 }] } } }, { kind := 2, win := 15, status := 3, tag := 63, off := 77, time := 5 }, [], by decide⟩

theorem witness_BenolsiaMessagesAndRequests_1 : ∃ (s : State) (k : Copy),
    s.chip.passes .running = true ∧
    s.chip.fab.copies = [k] ∧ k.appended = true ∧ k.output = 70 ∧ k.kind = .eth ∧ k.mirror = false ∧ k.arrived = k.cells ∧ k.cls < 8 ∧ s.chip.residenceOver k = false ∧
    s.chip.bnlLevel.tokens < oneToken :=
  ⟨{ chip := { regs := [(0xB1068, 0)], fab := { copies := [{ id := 1, output := 70, kind := .eth, appended := true }] } } }, { id := 1, output := 70, kind := .eth, appended := true }, by decide⟩

theorem witness_BenolsiaMessagesAndRequests_2 : ∃ (s : State) (k : Copy),
    s.chip.passes .running = true ∧
    s.chip.fab.copies = [k] ∧ k.appended = true ∧ k.output = 70 ∧ k.kind = .eth ∧ k.mirror = false ∧ k.arrived = k.cells ∧ k.cls < 8 ∧ s.chip.residenceOver k = false ∧
    oneToken ≤ s.chip.bnlLevel.tokens ∧ ((frameBytes k.data).drop (bnlOffset (frameBytes k.data))).length < 32 :=
  ⟨{ chip := { regs := [], fab := { copies := [{ id := 1, output := 70, kind := .eth, appended := true }] } } }, { id := 1, output := 70, kind := .eth, appended := true }, by decide⟩

theorem witness_BenolsiaMessagesAndRequests_3 : ∃ (s : State) (k : Copy) (m : List Byte) (n : Nat) (key : SaInst),
    s.chip.passes .running = true ∧
    s.chip.fab.copies = [k] ∧ k.appended = true ∧ k.output = 70 ∧ k.kind = .eth ∧ k.mirror = false ∧ k.arrived = k.cells ∧ k.cls < 8 ∧ s.chip.residenceOver k = false ∧
    oneToken ≤ s.chip.bnlLevel.tokens ∧ m = (frameBytes k.data).drop (bnlOffset (frameBytes k.data)) ∧ 32 + beAt m 12 2 ≤ m.length ∧
    leAt m 0 1 = 1 ∧ beAt m 12 2 ≤ 1024 ∧ agentTypes.contains (leAt m 1 1) = true ∧ leAt m 14 1 = 0 ∧
    s.chip.bnlPeer (beAt m 2 2) = some n ∧ beAt m 4 2 = s.chip.fldOf Reg.BNL.GWID 15 0 ∧ lookupKey s.chip.host.bnlKeys 0 = some key ∧
    sget 0 s.chip.host.peerKey n = 1 ∧ (s.chip.reg (Reg.BNL.PEER_SEQ n)).toNat < beAt m 8 4 ∧ s.chip.arbRunning = true :=
  ⟨{ chip := { regs := [(0x90040, 1), (0xb1400, 0xC0000003)], fab := { copies := [{ id := 1, output := 70, kind := .eth, appended := true, data := [0, 0, 0, 0, 0, 0, 0, 0, 0, 0, 0, 0, 0, 0, 0, 0] ++ List.replicate 12 0 ++ [0x88, 0xB5] ++ [1, 0x13, 0, 3, 0, 0, 0, 5, 0, 0, 0, 9, 0, 0, 0, 0] ++ List.replicate 40 0 }] }, host := { bnlKeys := [(0, { slot := 9, key := [1] })], peerKey := [(0, 1)] } } }, { id := 1, output := 70, kind := .eth, appended := true, data := [0, 0, 0, 0, 0, 0, 0, 0, 0, 0, 0, 0, 0, 0, 0, 0] ++ List.replicate 12 0 ++ [0x88, 0xB5] ++ [1, 0x13, 0, 3, 0, 0, 0, 5, 0, 0, 0, 9, 0, 0, 0, 0] ++ List.replicate 40 0 }, [1, 0x13, 0, 3, 0, 0, 0, 5, 0, 0, 0, 9, 0, 0, 0, 0] ++ List.replicate 40 0, 0, { slot := 9, key := [1] }, by decide⟩

theorem witness_BenolsiaMessagesAndRequests_4 : ∃ (s : State) (r : BnlReq),
    s.chip.passes .running = true ∧
    s.chip.serves r 2 = true ∧ r.body.length = 36 ∧ arbKnown (leAt r.body 0 1) = false :=
  ⟨{ chip := { regs := [(0x90040, 1), (0xb1400, 0xC0000003)], host := { agent := [{ typ := 2, peer := 0, gwid := 3, mac := 7, square := 48, tag := 5, body := List.replicate 36 6 }] } } }, { typ := 2, peer := 0, gwid := 3, mac := 7, square := 48, tag := 5, body := List.replicate 36 6 }, by decide⟩

theorem witness_BenolsiaMessagesAndRequests_5 : ∃ (s : State) (r : BnlReq) (eye : Nat) (x : Chip × Nat × List Nat),
    s.chip.passes .running = true ∧
    s.chip.serves r 2 = true ∧ r.body.length = 36 ∧ arbKnown (leAt r.body 0 1) = true ∧
    x = s.chip.served.arbWork (s.chip.peerPart r.peer) (leAt r.body 0 1) ((List.range 8).map fun j => beAt r.body (4 + 4 * j) 4) eye :=
  ⟨{ chip := { regs := [(0x90040, 1), (0xb1400, 0xC0000003)], host := { agent := [{ typ := 2, peer := 0, gwid := 3, mac := 7, square := 48, tag := 5, body := [3] ++ List.replicate 35 0 }] } } }, { typ := 2, peer := 0, gwid := 3, mac := 7, square := 48, tag := 5, body := [3] ++ List.replicate 35 0 }, 0, (Chip.served { regs := [(0x90040, 1), (0xb1400, 0xC0000003)], host := { agent := [{ typ := 2, peer := 0, gwid := 3, mac := 7, square := 48, tag := 5, body := [3] ++ List.replicate 35 0 }] } }).arbWork 0 3 (List.replicate 8 0) 0, by decide⟩

theorem witness_BenolsiaMessagesAndRequests_6 : ∃ (s : State) (r : BnlReq),
    s.chip.passes .running = true ∧
    s.chip.serves r 3 = true ∧ 36 + beAt r.body 6 2 ≤ r.body.length ∧ s.chip.fab.copies.all (fun k => !(k.appended && k.output == 68)) = true ∧
    s.chip.cxRoom (s.chip.peerPart r.peer) = true :=
  ⟨{ chip := { regs := [(0x90040, 1), (0xb1400, 0xC0000003)], host := { agent := [{ typ := 3, peer := 0, gwid := 3, mac := 7, square := 48, tag := 5, body := List.replicate 40 0 }] } } }, { typ := 3, peer := 0, gwid := 3, mac := 7, square := 48, tag := 5, body := List.replicate 40 0 }, by decide⟩

theorem witness_BenolsiaMessagesAndRequests_7 : ∃ (s : State) (r : BnlReq),
    s.chip.passes .running = true ∧
    s.chip.serves r 3 = true ∧ 36 + beAt r.body 6 2 ≤ r.body.length ∧ s.chip.fab.copies.all (fun k => !(k.appended && k.output == 68)) = true ∧
    s.chip.cxRoom (s.chip.peerPart r.peer) = false :=
  ⟨{ chip := { regs := [(0x90040, 1), (0xb1400, 0xC0000003), (0x070114, 0)], host := { agent := [{ typ := 3, peer := 0, gwid := 3, mac := 7, square := 48, tag := 5, body := List.replicate 40 0 }] } } }, { typ := 3, peer := 0, gwid := 3, mac := 7, square := 48, tag := 5, body := List.replicate 40 0 }, by decide⟩

theorem witness_BenolsiaMessagesAndRequests_8 : ∃ (s : State) (r : BnlReq),
    s.chip.passes .running = true ∧
    s.chip.serves r 4 = true ∧ r.bcast = false ∧ r.body.length = 8 ∧ leAt r.body 0 1 = 0 ∧ beAt r.body 2 2 ≤ 1024 :=
  ⟨{ chip := { regs := [(0x90040, 1), (0xb1400, 0xC0000003)], host := { agent := [{ typ := 4, peer := 0, gwid := 3, mac := 7, square := 48, tag := 5, body := List.replicate 8 0 }] } } }, { typ := 4, peer := 0, gwid := 3, mac := 7, square := 48, tag := 5, body := List.replicate 8 0 }, by decide⟩

theorem witness_BenolsiaMessagesAndRequests_9 : ∃ (s : State) (r : BnlReq),
    s.chip.passes .running = true ∧
    s.chip.serves r 5 = true ∧ r.body.length = 5 ∧ 1 ≤ leAt r.body 4 1 ∧ leAt r.body 4 1 ≤ 31 ∧ s.chip.peerPart r.peer = s.chip.supervisor :=
  ⟨{ chip := { regs := [(0x90040, 1), (0xb1400, 0xC0000003)], host := { agent := [{ typ := 5, peer := 0, gwid := 3, mac := 7, square := 48, tag := 5, body := [0, 0, 0, 1, 31] }] } } }, { typ := 5, peer := 0, gwid := 3, mac := 7, square := 48, tag := 5, body := [0, 0, 0, 1, 31] }, by decide⟩

theorem witness_BenolsiaAccessLeasesAndKeys_1 : ∃ (s : State) (r : BnlReq) (seen : Bool) (x : Chip × List Byte),
    s.chip.passes .running = true ∧
    s.chip.serves r 16 = true ∧ r.body.length = 10 ∧ 1 ≤ beAt r.body 8 2 ∧ beAt r.body 8 2 ≤ 512 ∧ beAt r.body 0 8 + beAt r.body 8 2 ≤ 0x1000000 ∧
    s.chip.leased r.peer (beAt r.body 0 8) (beAt r.body 8 2) = false ∧
    s.chip.served.readBar0 (s.chip.peerPart r.peer) (beAt r.body 0 8) (beAt r.body 8 2) seen = some x :=
  ⟨{ chip := { regs := [(0x90040, 1), (0xb1400, 0xC0000003)], host := { agent := [{ typ := 16, peer := 0, gwid := 3, mac := 7, square := 48, tag := 5, body := [0, 0, 0, 0, 0, 0, 0, 8, 0, 4] }] } } }, { typ := 16, peer := 0, gwid := 3, mac := 7, square := 48, tag := 5, body := [0, 0, 0, 0, 0, 0, 0, 8, 0, 4] }, false, ((Chip.served { regs := [(0x90040, 1), (0xb1400, 0xC0000003)], host := { agent := [{ typ := 16, peer := 0, gwid := 3, mac := 7, square := 48, tag := 5, body := [0, 0, 0, 0, 0, 0, 0, 8, 0, 4] }] } }).readBar0 0 8 4 false).getD ({}, []), by decide⟩

theorem witness_BenolsiaAccessLeasesAndKeys_2 : ∃ (s : State) (r : BnlReq),
    s.chip.passes .running = true ∧
    s.chip.serves r 16 = true ∧ r.body.length = 10 ∧ 1 ≤ beAt r.body 8 2 ∧ beAt r.body 8 2 ≤ 512 :=
  ⟨{ chip := { regs := [(0x90040, 1), (0xb1400, 0xC0000003)], host := { agent := [{ typ := 16, peer := 0, gwid := 3, mac := 7, square := 48, tag := 5, body := [0, 0, 0, 0, 0, 0, 0, 0, 0, 8] }], leases := [{ peer := 1, base := 4, len := 4, until_ := 5 }] } } }, { typ := 16, peer := 0, gwid := 3, mac := 7, square := 48, tag := 5, body := [0, 0, 0, 0, 0, 0, 0, 0, 0, 8] }, by decide⟩

theorem witness_BenolsiaAccessLeasesAndKeys_3 : ∃ (s : State) (r : BnlReq) (a : Nat) (b : List Byte),
    s.chip.passes .running = true ∧
    s.chip.serves r 17 = true ∧ 11 ≤ r.body.length ∧ r.body.length ≤ 266 ∧ a = beAt r.body 0 8 ∧ b = r.body.drop 10 :=
  ⟨{ chip := { regs := [(0x90040, 1), (0xb1400, 0xC0000003)], host := { agent := [{ typ := 17, peer := 0, gwid := 3, mac := 7, square := 48, tag := 5, body := [0, 0, 0, 0, 0, 0x01, 0, 0x40, 0, 0, 7] }] } } }, { typ := 17, peer := 0, gwid := 3, mac := 7, square := 48, tag := 5, body := [0, 0, 0, 0, 0, 0x01, 0, 0x40, 0, 0, 7] }, 0x10040, [7], by decide⟩

theorem witness_BenolsiaAccessLeasesAndKeys_4 : ∃ (s : State) (r : BnlReq) (a : Nat) (n : Nat),
    s.chip.passes .running = true ∧
    s.chip.serves r 18 = true ∧ r.body.length = 13 ∧ r.bcast = false ∧ a = beAt r.body 0 8 ∧ n = beAt r.body 8 4 ∧
    s.chip.peerWrite r.peer = true ∧ bnlSpace a n = true ∧ s.chip.leased r.peer a n = false ∧ s.chip.host.leases.length < 16 :=
  ⟨{ chip := { regs := [(0x90040, 1), (0xb1400, 0xC0000003), (0xB1040, 1)], host := { agent := [{ typ := 18, peer := 0, gwid := 3, mac := 7, square := 48, tag := 5, body := [0, 0, 0, 0, 0, 0, 0, 8, 0, 0, 0, 8, 0] }], bnlKeys := [(0, { slot := 9, key := [1] })] } } }, { typ := 18, peer := 0, gwid := 3, mac := 7, square := 48, tag := 5, body := [0, 0, 0, 0, 0, 0, 0, 8, 0, 0, 0, 8, 0] }, 8, 8, by decide⟩

theorem witness_BenolsiaAccessLeasesAndKeys_5 : ∃ (s : State) (r : BnlReq) (a : Nat),
    s.chip.passes .running = true ∧
    s.chip.serves r 19 = true ∧ r.body.length = 8 ∧ a = beAt r.body 0 8 ∧ s.chip.peerWrite r.peer = true ∧ bnlSpace a 0 = true :=
  ⟨{ chip := { regs := [(0x90040, 1), (0xb1400, 0xC0000003)], host := { agent := [{ typ := 19, peer := 0, gwid := 3, mac := 7, square := 48, tag := 5, body := [0, 0, 0, 0, 0, 0, 0, 8] }], leases := [{ peer := 0, base := 8, len := 4, until_ := 5 }, { peer := 1, base := 8, len := 4, until_ := 5 }] } } }, { typ := 19, peer := 0, gwid := 3, mac := 7, square := 48, tag := 5, body := [0, 0, 0, 0, 0, 0, 0, 8] }, 8, by decide⟩

theorem witness_BenolsiaAccessLeasesAndKeys_6 : ∃ (s : State),
    s.chip.passes .running = true :=
  ⟨{ chip := { regs := [], now := 5, host := { leases := [{ peer := 0, base := 8, len := 4, until_ := 5 }, { peer := 1, base := 8, len := 4, until_ := 6 }] } } }, by decide⟩

theorem witness_BenolsiaAccessLeasesAndKeys_7 : ∃ (s : State) (w : Nat) (x : Nat) (v : Word) (q : KeySlot),
    s.chip.passes .running = true ∧
    x < 2 ∧ s.chip.accepts w (if x = 0 then Reg.BNL.KEY0 else Reg.BNL.KEY1) = true ∧ bit v 31 = true ∧
    s.chip.slot? (fld v 9 0) = some q ∧ q.ktype = 2 ∧ q.sys = false ∧ q.owner = s.chip.owner 0x0B1 ∧ natBits q.usage 1 0 = 3 :=
  ⟨{ chip := { regs := [], castle := { slots := [(5, { mask := [1], masked := [3], ktype := 2, usage := 3, owner := 0 })] } } }, 0, 1, 0x80000005, { mask := [1], masked := [3], ktype := 2, usage := 3, owner := 0 }, by decide⟩

theorem witness_BenolsiaAccessLeasesAndKeys_8 : ∃ (s : State) (w : Nat) (x : Nat) (v : Word),
    s.chip.passes .running = true ∧
    (x < 2 ∧ s.chip.accepts w (if x = 0 then Reg.BNL.KEY0 else Reg.BNL.KEY1) = true ∧ (bit v 31 = false ∨ s.chip.slot? (fld v 9 0) = none)) :=
  ⟨{ chip := { regs := [], host := { bnlKeys := [(0, { slot := 9, key := [1] })] } } }, 0, 0, 0x80000005, by decide⟩

theorem witness_BenolsiaAccessLeasesAndKeys_9 : ∃ (s : State) (w : Nat),
    s.chip.passes .running = true ∧
    s.chip.accepts w Reg.BNL.TX_SEL = true :=
  ⟨{ chip := { regs := [(0xB1064, 77)] } }, 0, by decide⟩

theorem witness_BenolsiaAccessLeasesAndKeys_10 : ∃ (s : State) (w : Nat) (n : Nat),
    s.chip.passes .running = true ∧
    n < 64 ∧ s.chip.accepts w (Reg.BNL.PEER_CFG n) = true :=
  ⟨{ chip := { regs := [(0xB17F4, 77)], host := { peerKey := [(63, 1)] } } }, 0, 63, by decide⟩

theorem witness_BenolsiaAccessLeasesAndKeys_11 : ∃ (s : State) (k : Copy) (m : List Byte) (n : Nat) (key : SaInst),
    s.chip.passes .running = true ∧
    s.chip.fab.copies = [k] ∧ k.appended = true ∧ k.output = 70 ∧ k.kind = .eth ∧ k.mirror = false ∧ k.arrived = k.cells ∧ k.cls < 8 ∧ s.chip.residenceOver k = false ∧
    oneToken ≤ s.chip.bnlLevel.tokens ∧ m = (frameBytes k.data).drop (bnlOffset (frameBytes k.data)) ∧ 32 + beAt m 12 2 ≤ m.length ∧
    leAt m 0 1 = 1 ∧ beAt m 12 2 ≤ 1024 ∧ agentTypes.contains (leAt m 1 1) = true ∧ leAt m 14 1 = 0 ∧
    s.chip.bnlPeer (beAt m 2 2) = some n ∧ beAt m 4 2 = s.chip.fldOf Reg.BNL.GWID 15 0 ∧ lookupKey s.chip.host.bnlKeys 0 = some key ∧
    sget 0 s.chip.host.peerKey n = 1 ∧ (s.chip.reg (Reg.BNL.PEER_SEQ n)).toNat < beAt m 8 4 ∧ s.chip.arbRunning = true :=
  ⟨{ chip := { regs := [(0x90040, 1), (0xb1400, 0xC0000003)], fab := { copies := [{ id := 1, output := 70, kind := .eth, appended := true, data := [0, 0, 0, 0, 0, 0, 0, 0, 0, 0, 0, 0, 0, 0, 0, 0] ++ List.replicate 12 0 ++ [0x88, 0xB5] ++ [1, 0x13, 0, 3, 0, 0, 0, 5, 0, 0, 0, 9, 0, 0, 0, 0] ++ List.replicate 40 0 }] }, host := { bnlKeys := [(0, { slot := 9, key := [1] })], peerKey := [(0, 1)] } } }, { id := 1, output := 70, kind := .eth, appended := true, data := [0, 0, 0, 0, 0, 0, 0, 0, 0, 0, 0, 0, 0, 0, 0, 0] ++ List.replicate 12 0 ++ [0x88, 0xB5] ++ [1, 0x13, 0, 3, 0, 0, 0, 5, 0, 0, 0, 9, 0, 0, 0, 0] ++ List.replicate 40 0 }, [1, 0x13, 0, 3, 0, 0, 0, 5, 0, 0, 0, 9, 0, 0, 0, 0] ++ List.replicate 40 0, 0, { slot := 9, key := [1] }, by decide⟩

theorem witness_BenolsiaAccessLeasesAndKeys_12 : ∃ (s : State) (r : BnlReq) (eye : Nat) (x : Chip × Nat × List Nat),
    s.chip.passes .running = true ∧
    s.chip.serves r 2 = true ∧ r.body.length = 36 ∧ arbKnown (leAt r.body 0 1) = true ∧
    x = s.chip.served.arbWork (s.chip.peerPart r.peer) (leAt r.body 0 1) ((List.range 8).map fun j => beAt r.body (4 + 4 * j) 4) eye :=
  ⟨{ chip := { regs := [(0x90040, 1), (0xb1400, 0xC0000003)], host := { agent := [{ typ := 2, peer := 0, gwid := 3, mac := 7, square := 48, tag := 5, body := [3] ++ List.replicate 35 0 }] } } }, { typ := 2, peer := 0, gwid := 3, mac := 7, square := 48, tag := 5, body := [3] ++ List.replicate 35 0 }, 0, (Chip.served { regs := [(0x90040, 1), (0xb1400, 0xC0000003)], host := { agent := [{ typ := 2, peer := 0, gwid := 3, mac := 7, square := 48, tag := 5, body := [3] ++ List.replicate 35 0 }] } }).arbWork 0 3 (List.replicate 8 0) 0, by decide⟩

theorem witness_BenolsiaAccessLeasesAndKeys_13 : ∃ (s : State) (r : BnlReq),
    s.chip.passes .running = true ∧
    s.chip.serves r 3 = true ∧ 36 + beAt r.body 6 2 ≤ r.body.length ∧ s.chip.fab.copies.all (fun k => !(k.appended && k.output == 68)) = true ∧
    s.chip.cxRoom (s.chip.peerPart r.peer) = true :=
  ⟨{ chip := { regs := [(0x90040, 1), (0xb1400, 0xC0000003)], host := { agent := [{ typ := 3, peer := 0, gwid := 3, mac := 7, square := 48, tag := 5, body := List.replicate 40 0 }] } } }, { typ := 3, peer := 0, gwid := 3, mac := 7, square := 48, tag := 5, body := List.replicate 40 0 }, by decide⟩

theorem witness_BenolsiaAccessLeasesAndKeys_14 : ∃ (s : State) (r : BnlReq),
    s.chip.passes .running = true ∧
    s.chip.serves r 4 = true ∧ r.bcast = false ∧ r.body.length = 8 ∧ leAt r.body 0 1 = 0 ∧ beAt r.body 2 2 ≤ 1024 :=
  ⟨{ chip := { regs := [(0x90040, 1), (0xb1400, 0xC0000003)], host := { agent := [{ typ := 4, peer := 0, gwid := 3, mac := 7, square := 48, tag := 5, body := List.replicate 8 0 }] } } }, { typ := 4, peer := 0, gwid := 3, mac := 7, square := 48, tag := 5, body := List.replicate 8 0 }, by decide⟩

theorem witness_BenolsiaAccessLeasesAndKeys_15 : ∃ (s : State) (r : BnlReq),
    s.chip.passes .running = true ∧
    s.chip.serves r 5 = true ∧ r.body.length = 5 ∧ 1 ≤ leAt r.body 4 1 ∧ leAt r.body 4 1 ≤ 31 ∧ s.chip.peerPart r.peer = s.chip.supervisor :=
  ⟨{ chip := { regs := [(0x90040, 1), (0xb1400, 0xC0000003)], host := { agent := [{ typ := 5, peer := 0, gwid := 3, mac := 7, square := 48, tag := 5, body := [0, 0, 0, 1, 31] }] } } }, { typ := 5, peer := 0, gwid := 3, mac := 7, square := 48, tag := 5, body := [0, 0, 0, 1, 31] }, by decide⟩

theorem witness_GambitCommandResults_1 : ∃ (s : State) (w : Nat) (k : Nat),
    s.chip.passes .recovery = true ∧
    k < 4 ∧ s.chip.accepts w (Reg.ARB.CMD k) = true ∧ s.chip.bitOf (Reg.ARB.CSTAT k) 31 = false ∧ s.chip.arbState ≠ 3 ∧ s.chip.inRecovery = false :=
  ⟨{ chip := { regs := [(0x90040, 1), (0x90284, 0x105)] } }, 3, 3, by decide⟩

theorem witness_GambitCommandResults_2 : ∃ (s : State) (w : Nat) (k : Nat),
    s.chip.passes .recovery = true ∧
    k < 4 ∧ s.chip.accepts w (Reg.ARB.CMD k) = true ∧ s.chip.bitOf (Reg.ARB.CSTAT k) 31 = false ∧ s.chip.arbState ≠ 3 ∧ s.chip.inRecovery = false :=
  ⟨{ chip := { regs := [(0x90040, 1), (0x90284, 0x105)] } }, 3, 3, by decide⟩

theorem witness_GambitCommandResults_3 : ∃ (s : State) (w : Nat) (k : Nat),
    s.chip.passes .recovery = true ∧
    k < 4 ∧ s.chip.accepts w (Reg.ARB.CMD k) = true ∧ s.chip.bitOf (Reg.ARB.CSTAT k) 31 = false ∧ s.chip.arbState ≠ 3 ∧ s.chip.inRecovery = false :=
  ⟨{ chip := { regs := [(0x90040, 1), (0x90284, 0x105)] } }, 3, 3, by decide⟩

theorem witness_GambitCommandResults_4 : ∃ (s : State) (w : Nat) (k : Nat),
    s.chip.passes .recovery = true ∧
    k < 4 ∧ s.chip.accepts w (Reg.ARB.CMD k) = true ∧ s.chip.bitOf (Reg.ARB.CSTAT k) 31 = false ∧ s.chip.arbState ≠ 3 ∧ s.chip.inRecovery = false :=
  ⟨{ chip := { regs := [(0x90040, 1), (0x90284, 0x105)] } }, 3, 3, by decide⟩

theorem witness_GambitCommandResults_5 : ∃ (s : State) (w : Nat) (k : Nat),
    s.chip.passes .recovery = true ∧
    k < 4 ∧ s.chip.accepts w (Reg.ARB.CMD k) = true ∧ s.chip.bitOf (Reg.ARB.CSTAT k) 31 = false ∧ s.chip.arbState ≠ 3 ∧ s.chip.inRecovery = false :=
  ⟨{ chip := { regs := [(0x90040, 1), (0x90284, 0x105)] } }, 3, 3, by decide⟩

theorem witness_GambitCommandResults_6 : ∃ (s : State) (k : Nat),
    s.chip.passes .recovery = true ∧
    k < 4 ∧ s.chip.inRecovery = true ∧ lookupKey s.chip.arb.cmds k = none :=
  ⟨{ chip := { regs := [(0x54, 0xF)] } }, 2, by decide⟩

theorem witness_GambitCommandResults_7 : ∃ (s : State),
    s.chip.passes .recovery = true ∧
    s.chip.inRecovery = true :=
  ⟨{ chip := { regs := [(0x54, 0xF)] } }, by decide⟩

theorem witness_GambitCommandResults_8 : ∃ (s : State) (k : Nat) (op : Nat),
    s.chip.passes .recovery = true ∧
    k < 4 ∧ lookupKey s.chip.arb.cmds k = some { op := op } ∧ 0x40 ≤ op ∧ op ≤ 0x44 ∧ s.chip.arbRunning = true ∧ s.chip.owner 0x0A0 ≠ k :=
  ⟨{ chip := { regs := [(0x90040, 1)], arb := { cmds := [(1, { op := 0x44 })] } } }, 1, 0x44, by decide⟩

theorem witness_GambitCommandResults_9 : ∃ (s : State) (k : Nat),
    s.chip.passes .recovery = true ∧
    k < 4 ∧ lookupKey s.chip.arb.cmds k = some { op := 0x40 } ∧ s.chip.arbRunning = true ∧ s.chip.owner 0x0A0 = k ∧
    (s.chip.reg (Reg.ARB.ARG k 0)).toNat < 64 :=
  ⟨{ chip := { regs := [(0x90040, 1), (0x90108, 63)], arb := { cmds := [(0, { op := 0x40 })] } } }, 0, by decide⟩

theorem witness_GambitCommandResults_10 : ∃ (s : State) (k : Nat),
    s.chip.passes .recovery = true ∧
    k < 4 ∧ lookupKey s.chip.arb.cmds k = some { op := 0x41 } ∧ s.chip.arbRunning = true ∧ s.chip.owner 0x0A0 = k ∧
    s.chip.gambit.staging.manifest = [] :=
  ⟨{ chip := { regs := [(0x90040, 1)], arb := { cmds := [(0, { op := 0x41 })] } } }, 0, by decide⟩

theorem witness_GambitCommandResults_11 : ∃ (s : State) (k : Nat),
    s.chip.passes .recovery = true ∧
    k < 4 ∧ lookupKey s.chip.arb.cmds k = some { op := 0x42 } ∧ s.chip.arbRunning = true ∧ s.chip.owner 0x0A0 = k ∧
    s.chip.phase ≠ 0 :=
  ⟨{ chip := { regs := [(0x90040, 1), (0xA0044, 0x10000000)], arb := { cmds := [(0, { op := 0x42 })] } } }, 0, by decide⟩

theorem witness_GambitCommandResults_12 : ∃ (s : State) (k : Nat),
    s.chip.passes .recovery = true ∧
    k < 4 ∧ lookupKey s.chip.arb.cmds k = some { op := 0x43 } ∧ s.chip.arbRunning = true ∧ s.chip.owner 0x0A0 = k ∧
    s.chip.phase ≠ 3 :=
  ⟨{ chip := { regs := [(0x90040, 1)], arb := { cmds := [(0, { op := 0x43 })] } } }, 0, by decide⟩

theorem witness_GambitCommandResults_13 : ∃ (s : State) (k : Nat) (p : PtrRec),
    s.chip.passes .recovery = true ∧
    k < 4 ∧ lookupKey s.chip.arb.cmds k = some { op := 0x43 } ∧ s.chip.arbRunning = true ∧ s.chip.owner 0x0A0 = k ∧
    s.chip.phase = 3 ∧ s.chip.pointer = some p ∧ p.trial = true ∧ s.chip.activeSet.manifest = [] :=
  ⟨{ chip := { regs := [(0x90040, 1), (0xA0044, 0x30000000)], arb := { cmds := [(0, { op := 0x43 })] }, gambit := { sec0 := some { trial := true, prevValid := true, buildAct := 7 }, trialEnd := some 5 } } }, 0, { trial := true, prevValid := true, buildAct := 7 }, by decide⟩

theorem witness_GambitCommandResults_14 : ∃ (s : State) (k : Nat),
    s.chip.passes .recovery = true ∧
    k < 4 ∧ lookupKey s.chip.arb.cmds k = some { op := 0x44 } ∧ s.chip.arbRunning = true ∧ s.chip.owner 0x0A0 = k ∧
    (s.chip.phase = 0 ∨ s.chip.phase = 3 ∨ s.chip.phase = 4) ∧ s.chip.flashAlive = true :=
  ⟨{ chip := { regs := [(0x90040, 1)], arb := { cmds := [(0, { op := 0x44 })] }, gambit := { staging := { manifest := [1] } } } }, 0, by decide⟩

theorem witness_GambitTrialAndFallBack_1 : ∃ (s : State) (p : PtrRec),
    s.chip.passes .running = true ∧
    (s.chip.pointer = some p ∧ p.applyPend = true ∧ p.trial = true ∧ (s.chip.phase = 2 ∨ s.chip.phase = 4) ∧ s.chip.arbRunning = true ∧ s.chip.gambit.retryAt ≤ s.chip.now) ∧
    s.chip.now < s.chip.gambit.applyFrom + s.chip.applyFs ∧ (s.chip.txn 4).state = 0 ∧ s.chip.activeSet.manifest = [] :=
  ⟨{ chip := { regs := [(0x90040, 1), (0xA0044, 0x20000000)], gambit := { sec0 := some { trial := true, prevValid := true, applyPend := true } } } }, { trial := true, prevValid := true, applyPend := true }, by decide⟩

theorem witness_GambitTrialAndFallBack_2 : ∃ (s : State) (p : PtrRec),
    s.chip.passes .running = true ∧
    s.chip.pointer = some p ∧ p.applyPend = true ∧ p.prevValid = true ∧ s.chip.phase = 2 ∧ s.chip.arbRunning = true ∧ s.chip.gambit.retryAt ≤ s.chip.now ∧
    s.chip.gambit.applyFrom + s.chip.applyFs ≤ s.chip.now ∧ (s.chip.txn 4).state = 0 :=
  ⟨{ chip := { regs := [(0x90040, 1), (0xA0044, 0x20000000)], now := 10 ^ 20, gambit := { sec1 := some { trial := true, active := 1, prevValid := true, applyPend := true } } } }, { trial := true, active := 1, prevValid := true, applyPend := true }, by decide⟩

theorem witness_GambitTrialAndFallBack_3 : ∃ (s : State) (p : PtrRec) (t : Nat),
    s.chip.passes .running = true ∧
    s.chip.pointer = some p ∧ p.trial = true ∧ p.prevValid = true ∧ s.chip.gambit.trialEnd = some t ∧ t ≤ s.chip.now ∧ (s.chip.txn 4).state = 0 :=
  ⟨{ chip := { regs := [(0x90040, 1), (0xA0044, 0x30000000)], now := 10 ^ 20, gambit := { trialEnd := some 5, sec1 := some { trial := true, active := 1, prevValid := true, buildPrev := 9 } } } }, { trial := true, active := 1, prevValid := true, buildPrev := 9 }, 5, by decide⟩

theorem witness_GambitTrialAndFallBack_4 : ∃ (s : State),
    s.chip.passes .recovery = true ∧
    s.chip.gambit.dev0Fail = false :=
  ⟨{ chip := { regs := [(0xA1044, 3)] } }, by decide⟩

theorem witness_GambitTrialAndFallBack_5 : ∃ (s : State),
    s.chip.passes .recovery = true ∧
    s.chip.gambit.dev0Fail = false ∧ s.chip.mirrorAlive = true :=
  ⟨{ chip := { regs := [(0xA1044, 3)] } }, by decide⟩

theorem witness_GambitTrialAndFallBack_6 : ∃ (s : State) (st : FlashSet),
    s.chip.passes .recovery = true ∧
    s.chip.gambit.copy = some st ∧ s.chip.flashAlive = true ∧ s.chip.inRecovery = false ∧ s.chip.arbRunning = true :=
  ⟨{ chip := { regs := [(0x90040, 1), (0xA0044, 0x10000000)], gambit := { copy := some {} } } }, {}, by decide⟩

theorem witness_GambitTrialAndFallBack_7 : ∃ (s : State) (st : FlashSet) (p : PtrRec),
    s.chip.passes .recovery = true ∧
    s.chip.gambit.copy = some st ∧ s.chip.flashAlive = true ∧ s.chip.inRecovery = false ∧ s.chip.arbRunning = true ∧ s.chip.pointer = some p ∧ p.active < 2 ∧ s.chip.slotUsable p.active = true :=
  ⟨{ chip := { regs := [(0x90040, 1), (0xA0044, 0x10000000)], gambit := { copy := some { manifest := [7] }, slotA := { manifest := [1] }, sec0 := some { bBad := true, trials := 3, buildAct := 8 } } } }, { manifest := [7] }, { bBad := true, trials := 3, buildAct := 8 }, by decide⟩

theorem witness_GambitTrialAndFallBack_8 : ∃ (s : State) (w : Nat) (k : Nat),
    s.chip.passes .recovery = true ∧
    k < 4 ∧ s.chip.accepts w (Reg.ARB.CMD k) = true ∧ s.chip.bitOf (Reg.ARB.CSTAT k) 31 = false ∧ s.chip.arbState ≠ 3 ∧ s.chip.inRecovery = false :=
  ⟨{ chip := { regs := [(0x90040, 1), (0x90284, 0x105)] } }, 3, 3, by decide⟩

theorem witness_GambitTrialAndFallBack_9 : ∃ (s : State) (w : Nat) (k : Nat),
    s.chip.passes .recovery = true ∧
    k < 4 ∧ s.chip.accepts w (Reg.ARB.CMD k) = true ∧ s.chip.bitOf (Reg.ARB.CSTAT k) 31 = false ∧ s.chip.arbState ≠ 3 ∧ s.chip.inRecovery = false :=
  ⟨{ chip := { regs := [(0x90040, 1), (0x90284, 0x105)] } }, 3, 3, by decide⟩

theorem witness_GambitTrialAndFallBack_10 : ∃ (s : State) (w : Nat) (k : Nat),
    s.chip.passes .recovery = true ∧
    k < 4 ∧ s.chip.accepts w (Reg.ARB.CMD k) = true ∧ s.chip.bitOf (Reg.ARB.CSTAT k) 31 = false ∧ s.chip.arbState ≠ 3 ∧ s.chip.inRecovery = false :=
  ⟨{ chip := { regs := [(0x90040, 1), (0x90284, 0x105)] } }, 3, 3, by decide⟩

theorem witness_GambitTrialAndFallBack_11 : ∃ (s : State) (w : Nat) (k : Nat),
    s.chip.passes .recovery = true ∧
    k < 4 ∧ s.chip.accepts w (Reg.ARB.CMD k) = true ∧ s.chip.bitOf (Reg.ARB.CSTAT k) 31 = false ∧ s.chip.arbState ≠ 3 ∧ s.chip.inRecovery = false :=
  ⟨{ chip := { regs := [(0x90040, 1), (0x90284, 0x105)] } }, 3, 3, by decide⟩

theorem witness_GambitTrialAndFallBack_12 : ∃ (s : State) (w : Nat) (k : Nat),
    s.chip.passes .recovery = true ∧
    k < 4 ∧ s.chip.accepts w (Reg.ARB.CMD k) = true ∧ s.chip.bitOf (Reg.ARB.CSTAT k) 31 = false ∧ s.chip.arbState ≠ 3 ∧ s.chip.inRecovery = false :=
  ⟨{ chip := { regs := [(0x90040, 1), (0x90284, 0x105)] } }, 3, 3, by decide⟩

theorem witness_PowerCommands_1 : ∃ (s : State) (w : Nat),
    s.chip.passes .running = true ∧
    s.chip.accepts w Reg.PWR.CMD = true ∧ s.chip.power.switchTo = none ∧ s.chip.power.entering = none ∧ s.chip.phase ≠ 1 ∧ s.chip.phase ≠ 2 ∧ s.chip.power.mode = .quiet :=
  ⟨{ chip := { regs := [(0x1044, 1)], power := { mode := .quiet } } }, 0, by decide⟩

theorem witness_PowerCommands_2 : ∃ (s : State) (w : Nat),
    s.chip.passes .running = true ∧
    s.chip.accepts w Reg.PWR.CMD = true ∧ s.chip.power.switchTo = none ∧ s.chip.power.entering = none ∧ s.chip.phase ≠ 1 ∧ s.chip.phase ≠ 2 ∧ s.chip.power.mode = .play :=
  ⟨{ chip := { regs := [] } }, 0, by decide⟩

theorem witness_PowerCommands_3 : ∃ (s : State) (w : Nat),
    s.chip.passes .running = true ∧
    s.chip.accepts w Reg.PWR.CMD = true ∧ s.chip.power.switchTo = none ∧ s.chip.power.entering = none ∧ s.chip.phase ≠ 1 ∧ s.chip.phase ≠ 2 ∧ s.chip.power.mode = .play ∧ s.chip.wakeEnabled = true :=
  ⟨{ chip := { regs := [(0x2044, 1)] } }, 0, by decide⟩

theorem witness_PowerCommands_4 : ∃ (s : State) (w : Nat),
    s.chip.passes .running = true ∧
    s.chip.accepts w Reg.PWR.CMD = true ∧ s.chip.power.switchTo = none ∧ s.chip.power.entering = none ∧ s.chip.phase ≠ 1 ∧ s.chip.phase ≠ 2 ∧ s.chip.power.mode = .play ∧ s.chip.wakeEnabled = true :=
  ⟨{ chip := { regs := [(0x2044, 1)] } }, 0, by decide⟩

theorem witness_PowerCommands_5 : ∃ (s : State) (w : Nat),
    s.chip.passes .running = true ∧
    s.chip.accepts w Reg.PWR.CMD = true ∧ s.chip.power.switchTo = none ∧ s.chip.power.entering = none ∧ s.chip.phase ≠ 1 ∧ s.chip.phase ≠ 2 ∧ s.chip.power.mode = .play ∧ s.chip.wakeEnabled = false :=
  ⟨{ chip := { regs := [] } }, 0, by decide⟩

theorem witness_PowerCommands_6 : ∃ (s : State) (w : Nat),
    s.chip.passes .running = true ∧
    s.chip.accepts w Reg.PWR.CMD = true ∧ s.chip.power.mode = .quiet :=
  ⟨{ chip := { regs := [], power := { mode := .quiet } } }, 0, by decide⟩

theorem witness_PowerCommands_7 : ∃ (s : State) (w : Nat),
    s.chip.passes .running = true ∧
    (s.chip.accepts w Reg.PWR.CMD = true ∧ (s.chip.power.switchTo.isSome ∨ s.chip.power.entering.isSome ∨ s.chip.phase = 1 ∨ s.chip.phase = 2)) :=
  ⟨{ chip := { regs := [(0xA0044, 0x20000000)] } }, 0, by decide⟩

theorem witness_WakeDetectors_1 : ∃ (s : State) (q : Nat) (n : Nat) (f : CanFrame),
    s.chip.armed = true ∧ s.chip.power.woken = false ∧ s.chip.power.wakeTick ≠ some s.chip.tempo.ao ∧ s.chip.asleep = true ∧
    q < 40 ∧ s.chip.decodes q = true ∧ s.chip.wakeOn = true ∧ f.fmt = 0 ∧ s.chip.canRule q f = some n ∧
    s.chip.power.captured.all (fun x => x.square != q) = true :=
  ⟨{ chip := { regs := [], power := { mode := .adjournedWarm, wakeOut := false, rc := true }, tbl := [(0x750000, 0x8000000000000123), (0x750001, 0x1FFFFFFF), (0x750003, 0x0000000000000008), (0x750218, 0x8000000000000000)] } }, 3, 0, { ide := false, id := 0x123, fmt := 0, dlc := 1, data := [5] }, by decide⟩

theorem witness_WakeDetectors_2 : ∃ (s : State) (q : Nat),
    s.chip.asleep = true ∧ q < 40 ∧ s.chip.decodes q = true :=
  ⟨{ chip := { regs := [], power := { mode := .adjournedWarm, wakeOut := false, rc := true }, tbl := [(0x750218, 0x8000000000000000)] } }, 3, by decide⟩

theorem witness_WakeDetectors_3 : ∃ (s : State) (q : Nat) (n : Nat) (f : CanFrame),
    s.chip.awake = true ∧ s.chip.power.entering = none ∧ s.chip.power.woken = false ∧ s.chip.power.wakeTick ≠ some s.chip.tempo.ao ∧
    q < 40 ∧ s.chip.decodes q = true ∧ s.chip.wakeOn = true ∧ s.chip.canRule q f = some n :=
  ⟨{ chip := { regs := [(0x2040, 3), (0x103044, 0x20)], power := { mode := .quiet }, tbl := [(0x750000, 0x8000000000000123), (0x750001, 0x1FFFFFFF), (0x750003, 0x0000000000000008)] } }, 3, 0, { ide := false, id := 0x123, fmt := 0, dlc := 1, data := [5] }, by decide⟩

theorem witness_WakeDetectors_4 : ∃ (s : State) (q : Nat) (n : Nat) (b : List Byte),
    s.chip.armed = true ∧ s.chip.power.woken = false ∧ s.chip.power.wakeTick ≠ some s.chip.tempo.ao ∧
    40 ≤ q ∧ q < 48 ∧ s.chip.decodes q = true ∧ s.chip.wakeOn = true ∧
    ((List.range 64).find? fun n => s.chip.ruleMatch n q (fld (s.chip.wakeRule n 0) 28 16 * 2 ^ 16 + beAt b 12 2) (wakeData (b.drop 14))) = some n :=
  ⟨{ chip := { regs := [], power := { mode := .adjournedWarm, wakeOut := false, rc := true }, tbl := [(0x750000, 0x80000000000008DD), (0x750001, 0xFFFF), (0x750003, 0x0000020000000000), (0x750348, 0x8000000000000000)] } }, 41, 0, List.replicate 12 0 ++ [0x08, 0xDD], by decide⟩

theorem witness_WakeDetectors_5 : ∃ (s : State) (q : Nat),
    s.chip.armed = true ∧ s.chip.power.woken = false ∧ s.chip.power.wakeTick ≠ some s.chip.tempo.ao ∧
    40 ≤ q ∧ q < 48 ∧ s.chip.wakeOn = true ∧ bit (s.chip.wakeCfg q 0) 62 = true :=
  ⟨{ chip := { regs := [], power := { mode := .adjournedWarm, wakeOut := false, rc := true }, tbl := [(0x750378, 0x4000000000000000)] } }, 47, by decide⟩

theorem witness_WakeDetectors_6 : ∃ (s : State) (q : Nat) (n : Nat) (b : List Byte),
    s.chip.armed = true ∧ s.chip.power.woken = false ∧ s.chip.power.wakeTick ≠ some s.chip.tempo.ao ∧
    40 ≤ q ∧ q < 48 ∧ s.chip.decodes q = true ∧ s.chip.wakeOn = true ∧
    ((List.range 32).find? fun n => s.chip.patMatch n q (b ++ bytesLE 4 (ethFcs b).toNat)) = some n :=
  ⟨{ chip := { regs := [], power := { mode := .adjournedWarm, wakeOut := false, rc := true }, tbl := [(0x750100, 1), (0x750102, 0x20001e1f0), (0x750348, 0x8000000000000000)] } }, 41, 0, [0], by decide⟩

theorem witness_WakeDetectors_7 : ∃ (s : State) (q : Nat),
    s.chip.armed = true ∧ s.chip.power.woken = false ∧ s.chip.power.wakeTick ≠ some s.chip.tempo.ao ∧
    48 ≤ q ∧ q < 64 ∧ s.chip.wakeOn = true ∧ bit (s.chip.wakeCfg q 0) 61 = true :=
  ⟨{ chip := { regs := [], power := { mode := .adjournedWarm, wakeOut := false, rc := true }, tbl := [(0x7503f8, 0x2000000000000000)] } }, 63, by decide⟩

theorem witness_WakeDetectors_8 : ∃ (s : State) (n : Nat) (rising : Bool),
    s.chip.armed = true ∧ s.chip.power.woken = false ∧ s.chip.power.wakeTick ≠ some s.chip.tempo.ao ∧
    n < 32 ∧ s.chip.bitOf Reg.WAKE.GPIO_EN n = true ∧ s.chip.bitOf Reg.WAKE.GPIO_POL n = rising :=
  ⟨{ chip := { regs := [(0x2044, 0x80000000)], power := { mode := .adjournedWarm, wakeOut := false, rc := true } } }, 31, false, by decide⟩

theorem witness_WakeDetectors_9 : ∃ (s : State) (k : Nat),
    s.chip.armed = true ∧ s.chip.power.woken = false ∧ s.chip.power.wakeTick ≠ some s.chip.tempo.ao ∧
    k < 4 ∧ s.chip.bitOf Reg.WAKE.HOST_EN k = true :=
  ⟨{ chip := { regs := [(0x204C, 0x8)], power := { mode := .adjournedWarm, wakeOut := false, rc := true } } }, 3, by decide⟩

theorem witness_WakeDetectors_10 : ∃ (s : State) (k : Nat),
    s.chip.armed = true ∧ k < 4 ∧ s.chip.bitOf Reg.WAKE.HOST_EN k = true ∧ s.chip.power.woken = true ∧ s.chip.power.wakeTick = some s.chip.tempo.ao :=
  ⟨{ chip := { regs := [(0x204C, 0x8), (0x2054, 0x87030000), (0x205C, 0x80)], power := { mode := .adjournedWarm, woken := true, wakeTick := some 0 } } }, 3, by decide⟩

theorem witness_WakeDetectors_11 : ∃ (s : State) (k : Nat),
    s.chip.armed = true ∧ k < 4 ∧ s.chip.power.woken = true ∧ s.chip.power.wakeTick ≠ some s.chip.tempo.ao :=
  ⟨{ chip := { regs := [(0x204C, 0x8)], power := { mode := .adjournedWarm, woken := true, wakeTick := some 7 } } }, 3, by decide⟩

theorem witness_WakeDetectors_12 : ∃ (s : State),
    s.chip.asleep = true ∧ s.chip.power.rc = false :=
  ⟨{ chip := { regs := [], power := { mode := .adjournedCold } } }, by decide⟩

theorem witness_WakeDetectors_13 : ∃ (s : State),
    s.chip.power.rc = true ∧ s.chip.power.rcEdge + fsMs ≤ s.chip.now :=
  ⟨{ chip := { regs := [], now := 10 ^ 12, power := { mode := .adjournedCold, rc := true } } }, by decide⟩

theorem witness_AdjournedEntryAndHandover_1 : ∃ (s : State) (m : PowerMode),
    s.chip.awake = true ∧ s.chip.power.entering = some m ∧ s.chip.entryHeldUp = true :=
  ⟨{ chip := { regs := [], power := { entering := some .adjournedWarm }, pawn := { run := [(0, { prog := 0, epoch := 0 })] } } }, .adjournedWarm, by decide⟩

theorem witness_AdjournedEntryAndHandover_2 : ∃ (s : State) (m : PowerMode),
    s.chip.awake = true ∧ s.chip.power.entering = some m ∧ s.chip.entryHeldUp = false :=
  ⟨{ chip := { regs := [], power := { entering := some .adjournedWarm }, fab := { copies := [{ id := 1, output := 5 }] } } }, .adjournedWarm, by decide⟩

theorem witness_AdjournedEntryAndHandover_3 : ∃ (s : State) (m : PowerMode),
    (s.chip.awake = true ∧ s.chip.power.entering = some m ∧ s.chip.entryHeldUp = false ∧ (m = .adjournedWarm ∨ m = .adjournedCold)) :=
  ⟨{ chip := { regs := [], power := { entering := some .adjournedWarm, woken := true }, fab := { copies := [{ id := 1, output := 5 }] }, castle := { root := some [1], slots := [(5, { mask := [1], masked := [3] })] } } }, .adjournedWarm, by decide⟩

theorem witness_AdjournedEntryAndHandover_4 : ∃ (s : State) (m : PowerMode),
    s.chip.power.entering = some m ∧ s.chip.power.woken = true :=
  ⟨{ chip := { regs := [(0x1044, 0x100)], power := { entering := some .adjournedWarm, woken := true } } }, .adjournedWarm, by decide⟩

theorem witness_AdjournedEntryAndHandover_5 : ∃ (s : State),
    s.chip.power.woken = false :=
  ⟨{ chip := { regs := [], power := { mode := .adjournedWarm } } }, by decide⟩

theorem witness_AdjournedEntryAndHandover_6 : ∃ (s : State),
    s.chip.passes .running = true ∧
    s.chip.onBook = true ∧ s.chip.arbRunning = true ∧ (s.chip.txn 4).state = 0 ∧ s.chip.activeSet.manifest = [] ∧ s.chip.bookProfiles = [] :=
  ⟨{ chip := { regs := [(0x90040, 1), (0x48044, 1)] } }, by decide⟩

theorem witness_AdjournedEntryAndHandover_7 : ∃ (s : State),
    s.chip.passes .running = true ∧
    s.chip.onBook = true ∧ s.chip.power.bookLate = false ∧ s.chip.power.wokeAt + 120 * fsMs ≤ s.chip.now ∧ s.chip.arbRunning = false :=
  ⟨{ chip := { regs := [(0x48044, 1)], now := 10 ^ 15 } }, by decide⟩

theorem witness_CoreResets_1 : ∃ (s : State),
    s.chip.power.resetLow = true ∧ s.chip.otp.supervisor = 0 :=
  ⟨{ chip := { regs := [(0x10040, 1), (0x90040, 1)], power := { mode := .off, resetLow := true }, tbl := [(5, 6)] } }, by decide⟩

theorem witness_CoreResets_2 : ∃ (s : State),
    (s.chip.power.resetLow = false ∧ s.chip.power.brownout = false ∧ (s.chip.power.testMode = false ∨ s.chip.otp.lc = 0)) :=
  ⟨{ chip := { regs := [], power := { mode := .off } } }, by decide⟩

theorem witness_CoreResets_3 : ∃ (s : State),
    s.chip.awake = true ∧ s.chip.power.resetLow = false :=
  ⟨{ chip := { regs := [(0x68, 5)], castle := { root := some [1], slots := [(5, { mask := [1], masked := [3] })] } } }, by decide⟩

theorem witness_CoreResets_4 : ∃ (s : State),
    (s.chip.power.mode = .off ∨ s.chip.power.resetLow = true) :=
  ⟨{ chip := { regs := [], power := { mode := .off } } }, by decide⟩

theorem witness_CoreResets_5 : ∃ (s : State),
    (s.chip.power.resetLow = true ∧ (s.chip.power.mode ≠ .held ∨ s.chip.power.brownout = true ∨ (s.chip.power.testMode = true ∧ s.chip.otp.lc ≠ 0))) :=
  ⟨{ chip := { regs := [], power := { mode := .held, resetLow := true, brownout := true } } }, by decide⟩

theorem witness_CoreResets_6 : ∃ (s : State),
    (s.chip.power.resetLow = true ∧ s.chip.power.mode = .held ∧ s.chip.power.brownout = false ∧ (s.chip.power.testMode = false ∨ s.chip.otp.lc = 0)) :=
  ⟨{ chip := { regs := [], power := { mode := .held, resetLow := true } } }, by decide⟩

theorem witness_CoreResets_7 : ∃ (s : State) (w : Nat),
    s.chip.passes .recovery = true ∧
    (s.chip.accepts w Reg.GLB.RST_CMD = true ∧ s.chip.power.resetLow = false ∧ s.chip.power.brownout = false ∧ (s.chip.power.testMode = false ∨ s.chip.otp.lc = 0)) :=
  ⟨{ chip := { regs := [] } }, 0, by decide⟩

theorem witness_CoreResets_8 : ∃ (s : State) (w : Nat) (v : Word),
    s.chip.passes .recovery = true ∧
    s.chip.accepts w Reg.GLB.RST_CMD = true ∧ v ≠ 0x52530001 :=
  ⟨{ chip := { regs := [] } }, 0, 0x52530002, by decide⟩

theorem witness_CoreResets_9 : ∃ (s : State),
    s.chip.awake = true :=
  ⟨{ chip := { regs := [], castle := { root := some [1], slots := [(5, { mask := [1], masked := [3] })] } } }, by decide⟩

theorem witness_CoreResets_10 : ∃ (s : State),
    (s.chip.power.brownout = true ∧ s.chip.power.mode = .held ∧ s.chip.power.resetLow = false ∧ (s.chip.power.testMode = false ∨ s.chip.otp.lc = 0)) :=
  ⟨{ chip := { regs := [], power := { mode := .held, brownout := true } } }, by decide⟩

theorem witness_CoreResets_11 : ∃ (s : State),
    (s.chip.power.brownout = true ∧ (s.chip.power.mode ≠ .held ∨ s.chip.power.resetLow = true)) :=
  ⟨{ chip := { regs := [], power := { mode := .held, resetLow := true, brownout := true } } }, by decide⟩

theorem witness_CoreResets_12 : ∃ (s : State),
    s.chip.awake = true ∧ s.chip.otp.lc ≠ 0 :=
  ⟨{ chip := { regs := [], otp := { lc := 2 } } }, by decide⟩

theorem witness_CoreResets_13 : ∃ (s : State),
    (s.chip.awake = false ∨ s.chip.otp.lc = 0) :=
  ⟨{ chip := { regs := [], otp := { lc := 2 }, power := { mode := .adjournedWarm } } }, by decide⟩

theorem witness_CoreResets_14 : ∃ (s : State),
    s.chip.power.mode = .held ∧ s.chip.power.resetLow = false ∧ s.chip.power.brownout = false :=
  ⟨{ chip := { regs := [], otp := { lc := 2 }, power := { mode := .held, testMode := true } } }, by decide⟩

theorem witness_CoreResets_15 : ∃ (s : State),
    s.chip.otp.supervisor = 0 :=
  ⟨{ chip := { regs := [], castle := { resignPending := 1 } } }, by decide⟩

theorem witness_BlockAndSquareResets_1 : ∃ (s : State) (v : Word),
    s.chip.passes .recovery = true ∧
    fld v 31 16 ≠ 0x4252 :=
  ⟨{ chip := { regs := [] } }, 0x425300B1, by decide⟩

theorem witness_BlockAndSquareResets_2 : ∃ (s : State) (w : Nat) (p : Nat) (v : Word),
    s.chip.passes .recovery = true ∧
    fld v 31 16 = 0x4252 ∧ fld v 11 0 = p ∧ s.chip.implemented p = true ∧ s.chip.owner p ≠ w ∧ w < 4 :=
  ⟨{ chip := { regs := [] } }, 1, 0x0B1, 0x425200B1, by decide⟩

theorem witness_BlockAndSquareResets_3 : ∃ (s : State) (w : Nat) (p : Nat) (v : Word),
    s.chip.passes .recovery = true ∧
    (fld v 31 16 = 0x4252 ∧ fld v 11 0 = p ∧ s.chip.owner p = w ∧ (p = 0 ∨ (8 ≤ p ∧ p ≤ 11) ∨ s.chip.implemented p = false ∨ (s.chip.journalOwner p).isSome = true)) :=
  ⟨{ chip := { regs := [] } }, 0, 0, 0x42520000, by decide⟩

theorem witness_BlockAndSquareResets_4 : ∃ (s : State) (w : Nat) (p : Nat) (v : Word),
    s.chip.passes .recovery = true ∧
    fld v 31 16 = 0x4252 ∧ fld v 11 0 = p ∧ p = 0x0B1 ∧ s.chip.implemented p = true ∧ s.chip.owner p = w ∧ s.chip.journalOwner p = none ∧ s.chip.held p = false :=
  ⟨{ chip := { regs := [(0xB1040, 1), (0xB1064, 9), (0xB1080, 3)], host := { bnlKeys := [(0, { slot := 9, key := [1] })] } } }, 0, 0x0B1, 0x425200B1, by decide⟩

theorem witness_BlockAndSquareResets_5 : ∃ (s : State) (w : Nat) (p : Nat) (v : Word),
    s.chip.passes .recovery = true ∧
    (fld v 31 16 = 0x4252 ∧ fld v 11 0 = p ∧ s.chip.implemented p = true ∧ p ≠ 0 ∧ (p < 8 ∨ 11 < p) ∧ s.chip.owner p = w ∧ s.chip.journalOwner p = none ∧ s.chip.held p = true) :=
  ⟨{ chip := { regs := [(0x127008, 2)], inReset := [(0x127, 0)] } }, 2, 0x127, 0x42520127, by decide⟩

theorem witness_BlockAndSquareResets_6 : ∃ (s : State) (w : Nat) (p : Nat) (q : Nat) (v : Word),
    s.chip.passes .recovery = true ∧
    fld v 31 16 = 0x4252 ∧ fld v 11 0 = p ∧ p = 0x100 + q ∧ q < 40 ∧ s.chip.implemented p = true ∧ s.chip.owner p = w ∧ s.chip.journalOwner p = none ∧ s.chip.held p = false ∧ (s.chip.canSq q).onBus.isSome = true :=
  ⟨{ chip := { regs := [(0x127008, 2)], can := [(39, { onBus := some (.mailbox 3) })] } }, 2, 0x127, 39, 0x42520127, by decide⟩

theorem witness_BlockAndSquareResets_7 : ∃ (s : State) (w : Nat) (p : Nat) (q : Nat) (v : Word),
    s.chip.passes .recovery = true ∧
    fld v 31 16 = 0x4252 ∧ fld v 11 0 = p ∧ p = 0x100 + q ∧ q < 40 ∧ s.chip.implemented p = true ∧ s.chip.owner p = w ∧ s.chip.journalOwner p = none ∧ s.chip.held p = false ∧ (s.chip.canSq q).onBus = none :=
  ⟨{ chip := { regs := [(0x127008, 2)] } }, 2, 0x127, 39, 0x42520127, by decide⟩

theorem witness_BlockAndSquareResets_8 : ∃ (s : State) (w : Nat) (p : Nat) (q : Nat) (v : Word),
    s.chip.passes .recovery = true ∧
    fld v 31 16 = 0x4252 ∧ fld v 11 0 = p ∧ p = 0x100 + q ∧ 40 ≤ q ∧ q < 64 ∧ s.chip.implemented p = true ∧ s.chip.owner p = w ∧ s.chip.journalOwner p = none ∧ s.chip.held p = false ∧ (s.chip.ethSq q).resetAt = none :=
  ⟨{ chip := { regs := [(0x13F008, 2)] } }, 2, 0x13F, 63, 0x4252013F, by decide⟩

theorem witness_BlockAndSquareResets_9 : ∃ (s : State) (q : Nat) (a : Nat) (b : Nat),
    s.chip.passes .recovery = true ∧
    q < 40 ∧ (s.chip.canSq q).resetReq = true ∧ (s.chip.canSq q).onBus = none ∧ a ≤ 8 ∧ b ≤ 8 :=
  ⟨{ chip := { regs := [(0x127040, 0x11), (0x167044, 5)], can := [(39, { resetReq := true })], inReset := [(0x127, 0), (0x167, 0)] } }, 39, 3, 8, by decide⟩

theorem witness_BlockAndSquareResets_10 : ∃ (s : State) (q : Nat) (a : Nat) (b : Nat),
    s.chip.passes .recovery = true ∧
    q < 40 ∧ (s.chip.canSq q).resetReq = true ∧ (s.chip.canSq q).onBus = none ∧ 8 < a ∧ b ≤ 8 :=
  ⟨{ chip := { regs := [], can := [(39, { resetReq := true })], inReset := [(0x127, 0), (0x167, 0)] } }, 39, 9, 0, by decide⟩

theorem witness_BlockAndSquareResets_11 : ∃ (s : State) (q : Nat) (a : Nat) (b : Nat) (t : Nat),
    s.chip.passes .recovery = true ∧
    (40 ≤ q ∧ q < 64 ∧ (s.chip.ethSq q).resetAt = some t ∧ ((s.chip.ethSq q).tx = none ∨ t + 10 * fsUs ≤ s.chip.now) ∧ a ≤ 8 ∧ b ≤ 8) :=
  ⟨{ chip := { regs := [(0xA0068, 0x800000), (0x13F040, 0x11), (0x17F044, 5)], eth := [(63, { resetAt := some 0 })], inReset := [(0x13F, 0), (0x17F, 0), (0x18F, 0), (0x19F, 0)] } }, 63, 3, 8, 0, by decide⟩

theorem witness_BlockAndSquareResets_12 : ∃ (s : State) (q : Nat) (t : Nat),
    s.chip.passes .recovery = true ∧
    40 ≤ q ∧ q < 64 ∧ (s.chip.ethSq q).resetAt = some t ∧ (s.chip.ethSq q).tx.isSome = true ∧ s.chip.now < t + 10 * fsUs :=
  ⟨{ chip := { regs := [], eth := [(63, { resetAt := some 0, tx := some { copy := {} } })] } }, 63, 0, by decide⟩

theorem witness_BlockAndSquareResets_13 : ∃ (s : State),
    s.chip.power.resetLow = true ∧ s.chip.otp.supervisor = 0 :=
  ⟨{ chip := { regs := [(0x10040, 1), (0x90040, 1)], power := { mode := .off, resetLow := true }, tbl := [(5, 6)] } }, by decide⟩

theorem witness_BlockAndSquareResets_14 : ∃ (s : State),
    s.chip.awake = true ∧ s.chip.power.resetLow = false :=
  ⟨{ chip := { regs := [(0x68, 5)], castle := { root := some [1], slots := [(5, { mask := [1], masked := [3] })] } } }, by decide⟩

theorem witness_BlockAndSquareResets_15 : ∃ (s : State) (w : Nat),
    s.chip.passes .recovery = true ∧
    (s.chip.accepts w Reg.GLB.RST_CMD = true ∧ s.chip.power.resetLow = false ∧ s.chip.power.brownout = false ∧ (s.chip.power.testMode = false ∨ s.chip.otp.lc = 0)) :=
  ⟨{ chip := { regs := [] } }, 0, by decide⟩

theorem witness_BlockAndSquareResets_16 : ∃ (s : State),
    s.chip.awake = true ∧ s.chip.otp.lc ≠ 0 :=
  ⟨{ chip := { regs := [], otp := { lc := 2 } } }, by decide⟩

theorem witness_BlockAndSquareResets_17 : ∃ (s : State),
    s.chip.otp.supervisor = 0 :=
  ⟨{ chip := { regs := [], castle := { resignPending := 1 } } }, by decide⟩

theorem witness_ReferenceClockCommands_1 : ∃ (s : State) (r : Nat),
    s.chip.awake = true ∧ r < 2 ∧ s.chip.refLost r = false ∧ s.chip.refLost (1 - r) = false ∧ s.chip.refInUse = r ∧ s.chip.bitOf Reg.GLB.REF_CTRL 0 = true :=
  ⟨{ chip := { regs := [(0x60, 1)] } }, 0, by decide⟩

theorem witness_ReferenceClockCommands_2 : ∃ (s : State) (r : Nat),
    s.chip.awake = true ∧ r < 2 ∧ s.chip.refLost r = false ∧ s.chip.refLost (1 - r) = false ∧ s.chip.refInUse ≠ r :=
  ⟨{ chip := { regs := [] } }, 1, by decide⟩

theorem witness_ReferenceClockCommands_3 : ∃ (s : State) (r : Nat),
    s.chip.awake = true ∧ r < 2 ∧ s.chip.refLost r = false ∧ s.chip.refLost (1 - r) = true ∧ s.chip.bitOf Reg.TAMPER.LIVE 7 = true :=
  ⟨{ chip := { regs := [(0x64, 2), (0x10044, 2), (0x1006C, 0xFFFF0001), (0x72048, 0x80)] } }, 0, by decide⟩

theorem witness_ReferenceClockCommands_4 : ∃ (s : State) (r : Nat) (h : Nat),
    s.chip.awake = true ∧ r < 2 ∧ s.chip.refLost r = true ∧ s.chip.bothLost = true ∧ s.chip.power.holdRateSaved = some h ∧ h < 65536 :=
  ⟨{ chip := { regs := [(0x64, 0xB), (0x1006C, 20000), (0x72048, 0x80)], power := { holdRateSaved := some 10 } } }, 1, 10, by decide⟩

theorem witness_ReferenceClockCommands_5 : ∃ (s : State) (r : Nat),
    s.chip.awake = true ∧ r < 2 ∧ s.chip.refLost r = true ∧ s.chip.bothLost = false :=
  ⟨{ chip := { regs := [(0x64, 0x11)] } }, 0, by decide⟩

theorem witness_ReferenceClockCommands_6 : ∃ (s : State) (t : Nat),
    s.chip.awake = true ∧ s.chip.power.refASince = some t ∧ s.chip.bitOf Reg.GLB.REF_CTRL 1 = true ∧ s.chip.refLost 0 = false ∧ t + 10 * fsSec ≤ s.chip.now ∧ s.chip.refInUse = 1 :=
  ⟨{ chip := { regs := [(0x60, 3), (0x64, 0x10)], now := 10 ^ 17 } }, 0, by decide⟩

theorem witness_ReferenceClockCommands_7 : ∃ (s : State) (w : Nat) (v : Word),
    s.chip.passes .recovery = true ∧
    s.chip.accepts w Reg.GLB.REF_CTRL = true ∧ s.chip.refLost (fld v 4 4) = false :=
  ⟨{ chip := { regs := [] } }, 0, 0x12, by decide⟩

theorem witness_ReferenceClockCommands_8 : ∃ (s : State) (w : Nat) (v : Word),
    s.chip.passes .recovery = true ∧
    s.chip.accepts w Reg.GLB.REF_CTRL = true ∧ s.chip.refLost (fld v 4 4) = true :=
  ⟨{ chip := { regs := [(0x64, 2)] } }, 0, 0x12, by decide⟩

theorem witness_LifeCycleRequests_1 : ∃ (s : State) (w : Nat),
    s.chip.passes .recovery = true ∧
    s.chip.accepts w Reg.GLB.LC_CMD = true ∧ s.chip.otp.lc = 0 ∧ s.chip.otp.resignPerm = false :=
  ⟨{ chip := { regs := [], otp := {} } }, 0, by decide⟩

theorem witness_LifeCycleRequests_2 : ∃ (s : State) (w : Nat),
    s.chip.passes .recovery = true ∧
    s.chip.accepts w Reg.GLB.LC_CMD = true ∧ s.chip.otp.lc = 1 ∧ s.chip.otp.resignPerm = false :=
  ⟨{ chip := { regs := [], otp := { lc := 1 } } }, 0, by decide⟩

theorem witness_LifeCycleRequests_3 : ∃ (s : State) (w : Nat),
    s.chip.passes .recovery = true ∧
    s.chip.accepts w Reg.GLB.LC_CMD = true ∧ s.chip.otp.lc ≠ 4 :=
  ⟨{ chip := { regs := [], otp := { lc := 2, resignPerm := true } } }, 0, by decide⟩

theorem witness_LifeCycleRequests_4 : ∃ (s : State) (w : Nat),
    s.chip.passes .recovery = true ∧
    s.chip.accepts w Reg.GLB.LC_CMD = true ∧ s.chip.otp.lc = 2 ∧ s.chip.otp.resignPerm = false :=
  ⟨{ chip := { regs := [], otp := { lc := 2 } } }, 0, by decide⟩

theorem witness_LifeCycleRequests_5 : ∃ (s : State) (w : Nat),
    s.chip.passes .recovery = true ∧
    s.chip.accepts w Reg.GLB.LC_CMD = true ∧ s.chip.otp.lc = 3 ∧ s.chip.otp.returns < 3 ∧ s.chip.otp.resignPerm = false :=
  ⟨{ chip := { regs := [], otp := { lc := 3, returns := 2 } } }, 0, by decide⟩

theorem witness_LifeCycleRequests_6 : ∃ (s : State) (w : Nat),
    s.chip.passes .recovery = true ∧
    (s.chip.accepts w Reg.GLB.LC_CMD = true ∧ (s.chip.otp.lc ≠ 1 ∨ s.chip.otp.resignPerm = true)) :=
  ⟨{ chip := { regs := [], otp := { lc := 3 } } }, 0, by decide⟩

theorem witness_LifeCycleRequests_7 : ∃ (s : State) (w : Nat),
    s.chip.passes .recovery = true ∧
    s.chip.accepts w Reg.GLB.LC_CMD = true ∧ s.chip.otp.lc = 4 :=
  ⟨{ chip := { regs := [], otp := { lc := 4 } } }, 0, by decide⟩

theorem witness_TestAccessPortCommands_1 : ∃ (s : State),
    s.chip.tapOn = true :=
  ⟨{ chip := { regs := [], tap := { instr := 2, preload := [true, false] } } }, by decide⟩

theorem witness_TestAccessPortCommands_2 : ∃ (s : State),
    s.chip.tapOn = true :=
  ⟨{ chip := { regs := [], tap := { instr := 2, preload := [true, false] } } }, by decide⟩

theorem witness_TestAccessPortCommands_3 : ∃ (s : State),
    s.chip.tapOn = true :=
  ⟨{ chip := { regs := [], tap := { instr := 2, preload := [true, false] } } }, by decide⟩

theorem witness_TestAccessPortCommands_4 : ∃ (s : State),
    s.chip.tapOn = true :=
  ⟨{ chip := { regs := [], tap := { instr := 2, preload := [true, false] } } }, by decide⟩

theorem witness_TestAccessPortCommands_5 : ∃ (s : State),
    s.chip.tapOn = true :=
  ⟨{ chip := { regs := [], tap := { instr := 2, preload := [true, false] } } }, by decide⟩

theorem witness_TestAccessPortCommands_6 : ∃ (s : State),
    s.chip.tapOn = true :=
  ⟨{ chip := { regs := [], tap := { instr := 2, preload := [true, false] } } }, by decide⟩

theorem witness_TestAccessPortCommands_7 : ∃ (s : State),
    s.chip.tapOn = true :=
  ⟨{ chip := { regs := [], tap := { instr := 2, preload := [true, false] } } }, by decide⟩

theorem witness_TestAccessPortCommands_8 : ∃ (s : State),
    (s.chip.asleep = true ∨ s.chip.power.mode = .off) :=
  ⟨{ chip := { regs := [], power := { mode := .off } } }, by decide⟩


theorem witness_IdleStepIsOneTick_1 : ∃ (s : State),
    s.pending = [] :=
  ⟨State.reset, by decide⟩

theorem witness_IdleStepIsOneTick_2 : ∃ (s : State),
    s.pending = [] ∧ s.chip.power.mode = .held :=
  ⟨{ chip := { power := { mode := .held } } }, by decide⟩

theorem witness_IdleStepIsOneTick_3 : ∃ (s : State),
    s.pending = [] ∧ s.chip.power.mode = .off :=
  ⟨{ chip := { power := { mode := .off } } }, by decide⟩





theorem witness_OnlyAlwaysActingCommandsReachASleepingPart_1 : ∃ (s : State) (i : Instr),
    s.chip.awake = false ∧ alwaysActs i = false :=
  ⟨{ chip := { power := { mode := .held } } }, .quarantineHoldExpiry 3, by decide⟩

theorem witness_OnlyAlwaysActingCommandsReachASleepingPart_2 : ∃ (s : State) (i : Instr),
    s.chip.fldOf Reg.GLB.BOOT_STAT 3 0 = 14 ∧ alwaysActs i = false :=
  ⟨{ chip := { regs := [(0x54, 0xE)] } }, .quarantineHoldExpiry 3, by decide⟩

theorem witness_OnlyAlwaysActingCommandsReachASleepingPart_3 : ∃ (s : State) (i : Instr),
    s.chip.fldOf Reg.GLB.BOOT_STAT 3 0 = 15 ∧ alwaysActs i = false ∧ recoveryActs i = false :=
  ⟨{ chip := { regs := [(0x54, 0xF)] } }, .quarantineHoldExpiry 3, by decide⟩



theorem witness_BrownoutHoldsThePart_1 : ∃ (s : State),
    s.chip.awake = true :=
  ⟨State.reset, by decide⟩

theorem witness_BrownoutHoldsThePart_3 : ∃ (s : State),
    s.chip.power.mode = .held ∧ s.chip.power.brownout = false ∧ s.chip.power.resetLow = false :=
  ⟨{ chip := { power := { mode := .held } } }, by decide⟩


theorem witness_StartUpRunsTheCore_1 : ∃ (s : State),
    (s.chip.power.resetLow = true ∧ s.chip.power.mode = .held ∧ s.chip.power.brownout = false ∧ (s.chip.power.testMode = false ∨ s.chip.otp.lc = 0)) :=
  ⟨{ chip := { power := { mode := .held, resetLow := true } } }, by decide⟩

theorem witness_WakeRunsTheCore_1 : ∃ (s : State),
    s.chip.asleep = true ∧ s.chip.power.woken = true ∧ s.chip.power.entering = none :=
  ⟨{ chip := { power := { mode := .adjournedWarm, woken := true } } }, by decide⟩

theorem witness_ReadsFollowOwnership_1 : ∃ (c : Chip) (a : Nat),
    c.implemented (a / 0x1000) = false ∧ bankOf a = none :=
  ⟨{}, 0x1F0040, by decide⟩

theorem witness_ReadsFollowOwnership_2 : ∃ (c : Chip) (a : Nat),
    c.implemented (a / 0x1000) = true ∧ 0x30 ≤ a % 0x1000 ∧ rowOf a = none :=
  ⟨{}, 0x100FFC, by decide⟩

theorem witness_ReadsFollowOwnership_3 : ∃ (c : Chip) (a : Nat),
    c.implemented (a / 0x1000) = true ∧ a % 0x1000 < 0x00C :=
  ⟨{}, 0x100008, by decide⟩

theorem witness_ReadsFollowOwnership_4 : ∃ (c : Chip) (a : Nat),
    c.implemented (a / 0x1000) = true ∧ a % 0x1000 = 0x00C :=
  ⟨{}, 0x10000C, by decide⟩

theorem witness_ReadsFollowOwnership_5 : ∃ (c : Chip) (k : Nat) (a : Nat),
    c.implemented (a / 0x1000) = true ∧ 0x30 ≤ a % 0x1000 ∧ (rowOf a).isSome = true ∧ bankOf a = none ∧ pageKind (a / 0x1000) ≠ some .brg ∧ k < 4 ∧
    k ≠ c.owner (a / 0x1000) ∧ k ≠ c.supervisor ∧ c.bitOf (hOwner (a / 0x1000)) 16 = false :=
  ⟨{}, 3, 0x100040, by decide⟩

theorem witness_ReadsFollowOwnership_6 : ∃ (c : Chip) (k : Nat) (a : Nat),
    c.implemented (a / 0x1000) = true ∧ 0x30 ≤ a % 0x1000 ∧ (rowOf a).isSome = true ∧ c.held (a / 0x1000) = true ∧ bankOf a = none ∧ pageKind (a / 0x1000) ≠ some .brg ∧
    (k = c.owner (a / 0x1000) ∨ k = c.supervisor ∨ c.bitOf (hOwner (a / 0x1000)) 16 = true) :=
  ⟨{ inReset := [(0x100, 0)], regs := [(0x100040, 5)] }, 0, 0x100040, by decide⟩

theorem witness_ReadsFollowOwnership_7 : ∃ (s : State) (p : Nat) (off : Nat) (n : Nat) (r : WideRead),
    s.chip.passes .recovery = true ∧
    s.chip.implemented p = true ∧ p * 0x1000 + off + 4 * n ≤ 0x1000000 ∧
    ((pageKind p).any isVolatile = true ∧ (n ≠ 1 ∨ r.be ≠ 0xF ∨ off % 4 ≠ 0)) ∨ n = 0 ∨ 32 < n ∨ 0x1000 < off + 4 * n ∧
    r.part = none :=
  ⟨State.reset, 0x100, 0x40, 2, { be := 0xF }, by decide⟩

theorem witness_ReadsFollowOwnership_8 : ∃ (s : State) (j : Nat) (e : DenyEntry) (rest : List DenyEntry),
    s.chip.passes .recovery = true ∧
    j < 4 ∧ (s.chip.part j).deny = e :: rest ∧
    s.chip.held (0x008 + j) = false :=
  ⟨{ chip := { parts := [(2, { deny := [⟨true, false, 0x91, 0x58, 2048⟩] })] } }, 2, ⟨true, false, 0x91, 0x58, 2048⟩, [], by decide⟩

theorem witness_WritesFollowOwnership_1 : ∃ (s : State) (k : Nat) (a : Nat) (p : Nat) (v : Word) (be : Nat) (env : WriteEnv),
    s.chip.passes .recovery = true ∧
    k < 4 ∧ a % 4 = 0 ∧ a < 0x1000000 ∧ 0x30 ≤ a % 0x1000 ∧ p = a / 0x1000 ∧
    (0x100 ≤ p ∨ s.chip.ownWrite k a v be env = none) ∧
    env.msix = none ∧
    s.chip.implemented p = false :=
  ⟨{ chip := { regs := [] } }, 1, 0x1F0040, 0x1F0, 7, 0xF, {}, by decide⟩

theorem witness_WritesFollowOwnership_2 : ∃ (s : State) (k : Nat) (a : Nat) (p : Nat) (v : Word) (be : Nat) (env : WriteEnv),
    s.chip.passes .recovery = true ∧
    k < 4 ∧ a % 4 = 0 ∧ a < 0x1000000 ∧ 0x30 ≤ a % 0x1000 ∧ p = a / 0x1000 ∧
    (0x100 ≤ p ∨ s.chip.ownWrite k a v be env = none) ∧
    env.msix = none ∧
    s.chip.implemented p = true ∧ rowOf a = none :=
  ⟨{ chip := { regs := [] } }, 1, 0x191084, 0x191, 7, 0xF, {}, by decide⟩

theorem witness_WritesFollowOwnership_3 : ∃ (s : State) (k : Nat) (a : Nat) (p : Nat) (v : Word) (be : Nat) (env : WriteEnv),
    s.chip.passes .recovery = true ∧
    k < 4 ∧ a % 4 = 0 ∧ a < 0x1000000 ∧ 0x30 ≤ a % 0x1000 ∧ p = a / 0x1000 ∧
    (0x100 ≤ p ∨ s.chip.ownWrite k a v be env = none) ∧
    env.msix = none ∧
    s.chip.implemented p = true ∧ (rowOf a).isSome = true ∧ s.chip.mayWrite k a = false :=
  ⟨{ chip := { regs := [] } }, 2, 0x111040, 0x111, 7, 0xF, {}, by decide⟩

theorem witness_WritesFollowOwnership_4 : ∃ (s : State) (k : Nat) (a : Nat) (p : Nat) (v : Word) (be : Nat) (env : WriteEnv),
    s.chip.passes .recovery = true ∧
    k < 4 ∧ a % 4 = 0 ∧ a < 0x1000000 ∧ 0x30 ≤ a % 0x1000 ∧ p = a / 0x1000 ∧
    (0x100 ≤ p ∨ s.chip.ownWrite k a v be env = none) ∧
    env.msix = none ∧
    s.chip.implemented p = true ∧ (rowOf a).isSome = true ∧ s.chip.mayWrite k a = true ∧ s.chip.held p = true :=
  ⟨{ chip := { regs := [], inReset := [(0x111, 0)] } }, 0, 0x111040, 0x111, 7, 0xF, {}, by decide⟩

theorem witness_WritesFollowOwnership_5 : ∃ (s : State) (k : Nat) (a : Nat) (env : WriteEnv) (r : RegRow),
    s.chip.passes .recovery = true ∧
    k < 4 ∧ a % 4 = 0 ∧ a < 0x1000000 ∧ 0x30 ≤ a % 0x1000 ∧
    plainPage (a / 0x1000) = true ∧ s.chip.implemented (a / 0x1000) = true ∧
    rowOf a = some r ∧ r.sup = false ∧ s.chip.owner (a / 0x1000) = k ∧
    s.chip.held (a / 0x1000) = false ∧ s.chip.unjournalled k (a / 0x1000) = true ∧ env.msix = none :=
  ⟨State.reset, 0, 0x9105C, {}, { off := 0x05C, rw := 0x1FFF }, by decide⟩

theorem witness_WritesFollowOwnership_6 : ∃ (s : State) (k : Nat) (p : Nat) (v : Word),
    s.chip.passes .recovery = true ∧
    s.chip.implemented p = true ∧ pageKind p ≠ some .part ∧
    s.chip.owner p = k ∧ s.chip.supervisor ≠ k ∧
    fld v 1 0 = k ∧ bit v 16 = s.chip.bitOf (hOwner p) 16 ∧ bit v 31 = s.chip.bitOf (hOwner p) 31 :=
  ⟨State.reset, 1, 0x0C1, 0x00000301, by decide⟩

theorem witness_WritesFollowOwnership_7 : ∃ (s : State) (k : Nat) (p : Nat),
    s.chip.passes .recovery = true ∧
    s.chip.implemented p = true ∧ s.chip.owner p = k ∧ allBankBits p = 0 :=
  ⟨State.reset, 0, 0x000, by decide⟩

theorem witness_WritesFollowOwnership_8 : ∃ (s : State) (j : Nat) (v : Word),
    s.chip.passes .recovery = true ∧
    j < 4 ∧ fld v 15 0 = 0x5356 ∧ s.chip.held (0x008 + j) = false :=
  ⟨State.reset, 2, 0x5356, by decide⟩

theorem witness_WritesFollowOwnership_9 : ∃ (s : State) (k : Nat),
    s.chip.passes .recovery = true ∧
    s.chip.tempo.lastSupvCheck + 10 ^ 13 ≤ s.chip.now ∧
    s.chip.absent s.chip.supervisor = true ∧ k < 4 ∧ k ≠ s.chip.supervisor ∧ s.chip.absent k = false ∧
    0 < s.chip.fldOf (Reg.PART.SUPV_WATCH k) 15 0 ∧
    s.chip.fldOf (Reg.PART.SUPV_WATCH k) 15 0 * 10 ^ 13 < s.chip.absentFor s.chip.supervisor ∧
    (∀ j, j < k → j = s.chip.supervisor ∨ s.chip.absent j = true ∨ s.chip.absentFor s.chip.supervisor ≤ s.chip.fldOf (Reg.PART.SUPV_WATCH j) 15 0 * 10 ^ 13 ∨ s.chip.fldOf (Reg.PART.SUPV_WATCH j) 15 0 = 0) :=
  ⟨{ chip := { now := 10 ^ 14, parts := [(1, { linkUp := true })], regs := [(0x904C, 1)] } }, 1, by decide⟩

theorem witness_WritesFollowOwnership_10 : ∃ (s : State) (t : Nat),
    s.chip.alarmLow = some t ∧ t + 10 ^ 11 ≤ s.chip.now ∧
    s.chip.awake = true ∧ s.chip.reg Reg.GLB.ALARM_STAT &&& s.chip.reg Reg.GLB.ALARM_EN = 0 ∧ s.chip.fldOf Reg.GLB.BOOT_STAT 3 0 < 14 :=
  ⟨{ chip := { now := 10 ^ 11, alarmLow := some 0 } }, 0, by decide⟩

theorem witness_EmptyCommitCreatesNoEpoch_1 : ∃ (s : State) (w : Nat) (k : Nat) (i : Instr),
    s.chip.passes .running = true ∧
    k < 4 ∧ s.chip.accepts w (Reg.EPOCH.TXN_CMD k) = true ∧ (s.chip.txn k).state = 1 ∧ (s.chip.txn k).taint = 0 ∧ (s.chip.txn k).journal = [] ∧
    (i = .txnCommitImmediate w k ∨ i = .txnCommitNextBoundary w k ∨ i = .txnCommitAtTime w k) :=
  ⟨{ chip := { regs := [(0x20040, 9)], ep := { txns := [(2, { state := 1 })] } } }, 2, 2, .txnCommitAtTime 2 2, by decide⟩


theorem witness_StepKeepsTheStateSound : ∃ (s t : State), s.chip.sound ∧ step s = .next t :=
  ⟨{ chip := { free := 1 }, pending := [.refclkLoss 1] }, _, by unfold Chip.sound; decide, rfl⟩

theorem witness_OffIsLeftOnlyByPowerOn : ∃ (s t : State), s.chip.power.mode = .off ∧ step s = .next t ∧ ∀ env, s.pending.head? ≠ some (.powerOnReset env) :=
  ⟨{ chip := { power := { mode := .off } }, pending := [.jtagTrst] }, _, rfl, rfl, by intro _ h; simp at h⟩

theorem witness_HeldPartStartsOnlyWhenReleased : ∃ (s t : State), s.chip.power.mode = .held ∧ step s = .next t ∧ t.chip.power.mode ≠ .held ∧ t.chip.power.mode ≠ .off :=
  have h : (Chip.startUp { power := { mode := .held } } noFw).power.mode = .play := congrArg (fun x => x.1) (Chip.startView_startUp { power := { mode := .held } } rfl rfl)
  ⟨{ chip := { power := { mode := .held, brownout := true } }, pending := [.brownoutRelease noFw] }, { chip := Chip.startUp { power := { mode := .held } } noFw }, rfl, rfl, by rw [h]; decide, by rw [h]; decide⟩

theorem witness_BrownoutHoldsThePart_2 : ∃ (s t : State) (i : Instr), (s.chip.power.mode = .held ∧ s.chip.power.brownout = true ∧ i ≠ .vddAoLoss) ∧ (∀ env, i ≠ .brownoutRelease env) ∧ exec i s = .next t :=
  ⟨{ chip := { power := { mode := .held, brownout := true } } }, _, .resetNAssert, by decide, by intro _ h; simp at h, rfl⟩

theorem witness_NoKeyAppearsWhileTheCoreStands : ∃ (s t : State), (s.chip.awake = false ∧ s.chip.castle.slots = [] ∧ s.chip.castle.root = none) ∧ step s = .next t ∧ t.chip.awake = false :=
  ⟨{ chip := { power := { mode := .adjournedCold } }, pending := [.wakeHostSideband 1] }, _, by decide, rfl, by decide⟩

end Sys2Proof
end

namespace Sys2Proof.Machine

/-! ## Every step keeps the state sound

One lemma per function of the model that answers a part: `Chip.sound.f` says that `f` keeps the part sound. A proof
follows the function's definition from the outside in: `h.f.g` is `g` after `f`, `.ite` an `if`, `.foldl` a loop over a
list, `.update` a record update of the fields that soundness does not read. Only the few functions that write a register,
a table word or a supervisor have something to show. -/

variable {c d : Chip}

/-! ### The rules that the definitions are made of -/

theorem Chip.sound.ite {p : Prop} {_ : Decidable p} (hc : c.sound) (hd : d.sound) : (if p then c else d).sound := by
  split
  · exact hc
  · exact hd

/-- Soundness speaks of the registers, the tables and the two supervisors alone: every other field may take any value. -/
theorem Chip.sound.update (h : c.sound)
    {now out pba free parts echoUnread inReset alarmLow tempo ep score stg can fab pol guard eth adj frer sas sig pawn
      castle cx host power mem gambit arb tap} :
    Chip.sound { c with
      now := now, out := out, pba := pba, free := free, parts := parts, echoUnread := echoUnread, inReset := inReset,
      alarmLow := alarmLow, tempo := tempo, ep := ep, score := score, stg := stg, can := can, fab := fab, pol := pol,
      guard := guard, eth := eth, adj := adj, frer := frer, sas := sas, sig := sig, pawn := pawn, castle := castle,
      cx := cx, host := host, power := power, mem := mem, gambit := gambit, arb := arb, tap := tap } :=
  h

theorem Chip.sound.foldl {α : Type} {f : Chip → α → Chip} {l : List α} (h : c.sound)
    (hf : ∀ d x, d.sound → (f d x).sound) : (l.foldl f c).sound :=
  l.foldlRecOn f h fun d hd x _ => hf d x hd

/-- What answers a part and data beside it answers a sound part. -/
def Chip.fstSound {α : Type} (r : Chip × α) : Prop := r.1.sound

theorem Chip.fstSound.mk {α : Type} {x : α} (h : c.sound) : Chip.fstSound (c, x) :=
  h

theorem Chip.fstSound.ite {α : Type} {p : Prop} {_ : Decidable p} {r s : Chip × α}
    (hr : Chip.fstSound r) (hs : Chip.fstSound s) : Chip.fstSound (if p then r else s) := by
  split
  · exact hr
  · exact hs

theorem Chip.fstSound.foldPair {α β : Type} {f : Chip × β → α → Chip × β} {l : List α} {r : Chip × β}
    (h : Chip.fstSound r) (hf : ∀ r x, Chip.fstSound r → Chip.fstSound (f r x)) : Chip.fstSound (l.foldl f r) :=
  l.foldlRecOn f h fun r hr x _ => hf r x hr

/-- What answers data and a part beside it answers a sound part. -/
def Chip.sndSound {α : Type} (r : α × Chip) : Prop := r.2.sound

theorem Chip.sndSound.mk {α : Type} {x : α} (h : c.sound) : Chip.sndSound (x, c) :=
  h

theorem Chip.sndSound.ite {α : Type} {p : Prop} {_ : Decidable p} {r s : α × Chip}
    (hr : Chip.sndSound r) (hs : Chip.sndSound s) : Chip.sndSound (if p then r else s) := by
  split
  · exact hr
  · exact hs

/-- What may answer nothing answers a sound part where it answers. -/
def Chip.allSound (o : Option Chip) : Prop := ∀ d ∈ o, d.sound

theorem Chip.allSound.none : Chip.allSound none := by
  rintro _ ⟨⟩

theorem Chip.allSound.some (h : c.sound) : Chip.allSound (some c) := by
  rintro _ ⟨⟩
  exact h

theorem Chip.allSound.ite {p : Prop} {_ : Decidable p} {o o' : Option Chip}
    (ho : Chip.allSound o) (ho' : Chip.allSound o') : Chip.allSound (if p then o else o') := by
  split
  · exact ho
  · exact ho'

/-! ### Registers, tables, interrupts, alarms and the Scoresheet -/

theorem Chip.sound.setReg (h : c.sound) {a v} : (c.setReg a v).sound :=
  ⟨sparseWf_sset resetOf h.1 a v, h.2⟩

theorem Chip.sound.setFldOf (h : c.sound) {a hi lo n} : (c.setFldOf a hi lo n).sound := h.setReg

theorem Chip.sound.setBitOf (h : c.sound) {a n b} : (c.setBitOf a n b).sound := h.setReg

theorem Chip.sound.addTo (h : c.sound) {a n} : (c.addTo a n).sound := h.setReg

theorem Chip.sound.inc (h : c.sound) {a} : (c.inc a).sound := h.addTo

theorem Chip.sound.peak (h : c.sound) {a n} : (c.peak a n).sound := .ite h.setReg h

theorem Chip.sound.setTword (h : c.sound) {off v} : (c.setTword off v).sound :=
  ⟨h.1, sparseWf_sset (fun _ => 0) h.2.1 _ v, h.2.2⟩

theorem Chip.sound.tcount (h : c.sound) {off hi} : (c.tcount off hi).sound := .ite h.setTword h.setTword

theorem Chip.sound.emit (h : c.sound) {o} : (c.emit o).sound := h.update

theorem Chip.sound.setPart (h : c.sound) {k v} : (c.setPart k v).sound := h.update

theorem Chip.sound.sendVec (h : c.sound) {k v} : (c.sendVec k v).sound := .ite h.emit (.ite (.ite h.emit h.update) h)

theorem Chip.sound.irqEdge (h : c.sound) {before : Chip} : (before.irqEdge c).sound :=
  h.foldl fun _ _ hd => hd.sendVec

theorem Chip.sound.pbaSettle (h : c.sound) : c.pbaSettle.sound := h.update

theorem Chip.sound.raise (h : c.sound) {p b} : (c.raise p b).sound := h.setReg.irqEdge

theorem Chip.sound.setErr (h : c.sound) {p b} : (c.setErr p b).sound := .ite h h.setBitOf.raise

theorem Chip.sound.incRaise (h : c.sound) {a p b} : (c.incRaise a p b).sound := h.inc.raise

theorem Chip.sound.alarmLevel (h : c.sound) : c.alarmLevel.sound := by
  unfold Chip.alarmLevel
  refine .ite ?_ ?_
  · split
    · exact .foldl (.emit h.update) fun _ _ hd => hd.raise
    · exact h
  · split
    · exact h
    · exact .ite (.emit h.update) h

theorem Chip.sound.setAlarm (h : c.sound) {b} : (c.setAlarm b).sound := h.setBitOf.alarmLevel

theorem Chip.sound.deny (h : c.sound) {k write bar2 page off} : (c.deny k write bar2 page off).sound :=
  .raise (.ite h.inc.setPart h.inc)

theorem Chip.sound.scoreAs (h : c.sound) {code sev page part plane detail} :
    (c.scoreAs code sev page part plane detail).sound :=
  .ite h.update (.incRaise h.update)

theorem Chip.sound.scoreLog (h : c.sound) {code sev page detail} : (c.scoreLog code sev page detail).sound :=
  h.scoreAs

theorem Chip.sound.advanceFree (h : c.sound) : c.advanceFree.sound := h.update

theorem Chip.sound.setTxn (h : c.sound) {k t} : (c.setTxn k t).sound := h.update

theorem Chip.sound.tempoMark (h : c.sound) : c.tempoMark.sound := h.update

theorem Chip.sound.rejectWrite (h : c.sound) {k reason bar2 addr} : (c.rejectWrite k reason bar2 addr).sound :=
  .setBitOf (.ite h.setReg.setTxn h.setReg)

theorem Chip.sound.journalWrite (h : c.sound) {k bar2 addr j} : (c.journalWrite k bar2 addr j).sound :=
  .ite h.setTxn h.rejectWrite

theorem Chip.sound.plainWrite (h : c.sound) {a v mask} : (c.plainWrite a v mask).sound := by
  unfold Chip.plainWrite
  split
  · exact h
  · exact h.setReg

theorem Chip.sound.blockWrite (h : c.sound) {k a v mask act} (hact : ∀ d, d.sound → (act d).sound) :
    (c.blockWrite k a v mask act).sound := by
  unfold Chip.blockWrite
  refine .ite h ?_
  split
  · exact h.setErr
  · refine .ite h.deny (.ite h.setErr ?_)
    extract_lets +onlyGivenNames mine
    split
    · exact h
    · refine .ite ?_ (.ite h.setErr.rejectWrite (hact _ h))
      split
      · exact .ite h.journalWrite (.ite h.setErr.rejectWrite h.setErr)
      · exact .ite h.journalWrite (hact _ h)

theorem Chip.sound.echo (h : c.sound) {k a data seen} : (c.echo k a data seen).sound :=
  .update (.setReg (.setReg (.ite h.setErr h)))

theorem Chip.sound.resetPage (h : c.sound) {p} : (c.resetPage p).sound :=
  ⟨sparseWf_filter resetOf _ h.1, h.2⟩

theorem Chip.sound.wipeTable (h : c.sound) {base len} : (c.wipeTable base len).sound :=
  ⟨h.1, sparseWf_filter (fun _ => 0) _ h.2.1, h.2.2⟩

theorem Chip.sound.outOfReset (h : c.sound) {p} : (c.outOfReset p).sound := h.update

theorem Chip.sound.stbEdge (h : c.sound) {before : Chip} : (before.stbEdge c).sound :=
  h.foldl fun _ _ hd => .ite hd hd.emit

/-! ### CAN, the receive side (chapter 4) -/

theorem Chip.sound.setCan (h : c.sound) {q v} : (c.setCan q v).sound := h.update

theorem Chip.sound.setRx (h : c.sound) {q n b} : (c.setRx q n b).sound := h.setCan

theorem Chip.sound.rxFullIrq (h : c.sound) {q n} : (c.rxFullIrq q n).sound := .ite (.ite h.raise h) h.raise

theorem Chip.sound.rxArrive (h : c.sound) {q n r} : (c.rxArrive q n r).sound := by
  unfold Chip.rxArrive
  refine .ite h.setRx.rxFullIrq (.ite h.setRx.inc.raise ?_)
  split
  · exact h.setRx
  · exact h.setRx.inc.raise

theorem Chip.sound.rxRelease (h : c.sound) {q n} : (c.rxRelease q n).sound := by
  unfold Chip.rxRelease
  refine .ite ?_ h
  split
  · exact h.setRx
  · exact h.setRx.rxFullIrq

theorem Chip.sound.releaseLocks (h : c.sound) {p} : (c.releaseLocks p).sound := by
  unfold Chip.releaseLocks
  split
  · exact h.foldl fun _ _ hd => hd.rxRelease
  · exact h

/-! ### Page ownership and the supervisor (chapter 2) -/

theorem Chip.sound.moveSupervisor (h : c.sound) {j} (hj : j < 4) : (c.moveSupervisor j).sound := by
  unfold Chip.moveSupervisor
  extract_lets old c1
  have h1 : c1.sound := ⟨h.1, h.2.1, hj, h.2.2.2⟩
  exact .ite h1.raise h1.raise.raise

theorem Chip.sound.doSupvXfer (h : c.sound) {k j v} : (doSupvXfer k j v c).sound := by
  unfold Machine.doSupvXfer
  split
  next => exact h
  next hj => exact h.blockWrite fun _ hd => .ite (hd.moveSupervisor (by omega)) hd

theorem Chip.sound.doSupvWatchCheck (h : c.sound) : (doSupvWatchCheck c).sound := by
  unfold Machine.doSupvWatchCheck
  refine .ite h ?_
  extract_lets _ c1 c2
  have h1 : c1.sound := h.update
  have h2 : c2.sound := .ite h1.setAlarm h1
  split
  · exact h2
  next j e => exact h2.moveSupervisor (List.mem_range.mp (List.mem_of_find?_eq_some e))

theorem Chip.sound.irqRewrite (h : c.sound) {p} : (c.irqRewrite p).sound :=
  .pbaSettle (h.foldl fun _ _ hd => hd.sendVec)

theorem Chip.sound.irqStatWrite (h : c.sound) {k p v mask} : (c.irqStatWrite k p v mask).sound := h.setReg.irqRewrite

theorem Chip.sound.irqMaskWrite (h : c.sound) {k p v mask} : (c.irqMaskWrite k p v mask).sound := h.setReg.irqRewrite

theorem Chip.sound.irqForce (h : c.sound) {k p v mask} : (c.irqForce k p v mask).sound := h.setReg.irqEdge

theorem Chip.sound.doPageIrqForceWrite (h : c.sound) {k p v be} : (doPageIrqForceWrite k p v be c).sound :=
  .ite h (.ite h.irqForce h.deny)

theorem Chip.sound.changeOwner (h : c.sound) {p new} : (c.changeOwner p new).sound :=
  .ite h (.ite h.setErr (.pbaSettle (.raise (.raise (.releaseLocks h.setReg.setReg.setReg.setReg.update)))))

theorem Chip.sound.supervisorOwnerWrite (h : c.sound) {p v} : (c.supervisorOwnerWrite p v).sound :=
  .ite (.changeOwner (.ite h h.setBitOf)) (.setBitOf (.changeOwner (.ite h h.setBitOf)))

theorem Chip.sound.doPageOwnerWrite (h : c.sound) {k p v be} : (doPageOwnerWrite k p v be c).sound := by
  unfold Machine.doPageOwnerWrite
  refine .ite h ?_
  extract_lets +onlyGivenNames old nv own sup
  refine .ite h.deny ?_
  extract_lets isPart c1 c2 strayVec straySup
  have h1 : c1.sound := .ite h.setFldOf.irqEdge h
  have h2 : c2.sound := .ite h1.supervisorOwnerWrite h1
  exact .ite h2.deny h2

theorem Chip.sound.volatileRead (h : c.sound) {k a seen data act} (hact : ∀ d, d.sound → (act d).sound) :
    (c.volatileRead k a seen data act).sound :=
  .ite h (.ite h (.ite (hact _ h).echo (.ite h h.deny)))

theorem Chip.sound.doDenyPop (h : c.sound) {k j seen} : (doDenyPop k j seen c).sound := by
  unfold Machine.doDenyPop
  refine .ite h ?_
  split
  · exact h.volatileRead fun _ hd => hd
  · exact h.volatileRead fun _ hd => hd.setPart.setReg

theorem Chip.sound.doWideReadReject (h : c.sound) {p off n r} : (doWideReadReject p off n r c).sound := by
  unfold Machine.doWideReadReject
  refine .ite h ?_
  extract_lets c1
  have h1 : c1.sound := .ite h.setErr h
  split
  · exact h1
  · exact .ite h1.emit h1

theorem Chip.sound.doAlarmNHoldExpiry (h : c.sound) : (doAlarmNHoldExpiry c).sound := h.alarmLevel

/-! ### Staging FIFOs (chapter 6) -/

theorem Chip.sound.setStg (h : c.sound) {q v} : (c.setStg q v).sound := h.update

theorem Chip.sound.stgErr (h : c.sound) {q reason ptr} : (c.stgErr q reason ptr).sound := h.setReg

theorem Chip.sound.setStgFree (h : c.sound) {q n} : (c.setStgFree q n).sound := h.setFldOf.peak

theorem Chip.sound.stgDrop (h : c.sound) {q reason} : (c.stgDrop q reason).sound := h.inc.stgErr.raise

theorem Chip.sound.stgWrote (h : c.sound) {q slots} : (c.stgWrote q slots).sound := h.update

theorem Chip.sound.setProg (h : c.sound) {q g} : (c.setProg q g).sound := h.setStg

theorem Chip.sound.stgBegin (h : c.sound) {q} : (c.stgBegin q).sound :=
  .ite h (.ite h.stgDrop.setProg (.ite h.stgDrop.setProg h.setProg.setStgFree))

theorem Chip.sound.setStgRd (h : c.sound) {x q p} : (c.setStgRd x q p).sound := h.setReg

theorem Chip.sound.stgFeed (h : c.sound) {q data} : (c.stgFeed q data).sound := by
  unfold Chip.stgFeed
  extract_lets c1
  have h1 : c1.sound := h.stgBegin
  split
  · exact h1
  · exact .ite h1 h1.stgWrote.setProg.setReg.setStgFree

theorem Chip.sound.stgPush (h : c.sound) {q g k commit} : (c.stgPush q g k commit).sound :=
  .setStgFree (.ite h.stgWrote.setStg.setReg.setReg h.stgWrote.setStg.setReg)

theorem Chip.sound.stgGave (h : c.sound) {x q w} : (c.stgGave x q w).sound := h.setStg

theorem Chip.sound.stgUnread (h : c.sound) {x q g} : (c.stgUnread x q g).sound := .ite h.setStgRd.stgGave h

theorem Chip.sound.stgRewind (h : c.sound) {q g} : (c.stgRewind q g).sound :=
  h.stgUnread.stgUnread.setProg.setReg.setStgFree

theorem Chip.sound.stgCommit (h : c.sound) {q data wire early} : (c.stgCommit q data wire early).sound := by
  unfold Chip.stgCommit
  refine .ite h ?_
  extract_lets +onlyGivenNames c1
  have h1 : c1.sound := h.stgBegin
  split
  · exact h1
  · exact .ite h1.setProg (.ite h1.stgRewind.inc.stgErr.raise h1.stgPush.inc)

theorem Chip.sound.stgReject (h : c.sound) {q data early} : (c.stgReject q data early).sound := by
  unfold Chip.stgReject
  extract_lets c1
  have h1 : c1.sound := h.stgBegin
  split
  · exact h1
  · exact .ite h1.setProg (.ite h1.stgPush.inc.stgErr.raise h1.stgRewind.inc.stgErr)

theorem Chip.sound.stgLose (h : c.sound) {q} : (c.stgLose q).sound := by
  unfold Chip.stgLose
  split
  · exact h
  · exact h.stgReject

theorem Chip.sound.stgMark (h : c.sound) {x q} : (c.stgMark x q).sound := .ite h.setBitOf.setFldOf h.setBitOf.setStg

theorem Chip.sound.stgSaw (h : c.sound) {x q p} : (c.stgSaw x q p).sound := by
  unfold Chip.stgSaw
  split
  · exact h
  · exact .ite h.setProg h

theorem Chip.sound.stgReadWord (h : c.sound) {x q} : (c.stgReadWord x q).sound := by
  unfold Chip.stgReadWord
  refine .ite h.setStg.stgGave ?_
  split
  · exact h.stgGave
  · exact h.stgGave.setStgRd.stgSaw

theorem Chip.sound.stgBack (h : c.sound) {x q} : (c.stgBack x q).sound := by
  unfold Chip.stgBack
  extract_lets s
  split
  · exact h.setStgRd
  · exact .ite h.setStgRd.setStg (.ite h.setStgRd.setStg h)

theorem Chip.sound.stgReleaseBy (h : c.sound) {x q n} : (c.stgReleaseBy x q n).sound := by
  unfold Chip.stgReleaseBy
  extract_lets s ks span stop c1 c2
  have h1 : c1.sound := h.setStg
  have h2 : c2.sound := by
    unfold c2
    split
    · exact .ite h1.setBitOf h1
    · exact h1
  exact .ite h2.setStgRd h2

theorem Chip.sound.stgFreeUp (h : c.sound) {q n} : (c.stgFreeUp q n).sound := by
  unfold Chip.stgFreeUp
  extract_lets +onlyGivenNames s
  split
  · exact h
  · exact h.setStg.setReg.setFldOf

theorem Chip.sound.stgSettle (h : c.sound) {q} : (c.stgSettle q).sound := h.stgFreeUp

theorem Chip.sound.stgRetire (h : c.sound) {x} : (c.stgRetire x).sound := h.foldl fun _ _ hd => hd.setBitOf.stgSettle

theorem Chip.sound.stgServe (h : c.sound) {x q} : (c.stgServe x q).sound :=
  .ite h.setStgRd.setBitOf.setFldOf.setStg h.setStgRd.setBitOf.setStg

theorem Chip.sound.stgJoin (h : c.sound) {x} : (c.stgJoin x).sound := h.foldl fun _ _ hd => hd.stgServe

theorem Chip.sound.stgMarksLost (h : c.sound) {q} : (c.stgMarksLost q).sound :=
  .ite h h.setFldOf.setBitOf.setStg.addTo.stgErr.raise

theorem Chip.sound.stgClear (h : c.sound) {q} : (c.stgClear q).sound := h.setReg.setReg.setReg.setReg.setFldOf.setStg

theorem Chip.sound.stgFlushAll (h : c.sound) {q} : (c.stgFlushAll q).sound := by
  unfold Chip.stgFlushAll
  extract_lets s cut c1 c2 c3 t
  have h1 : c1.sound := h.addTo
  have h2 : c2.sound := by
    unfold c2
    split
    · exact .ite h1 h1.stgErr
    · exact h1.stgErr
    · exact h1
  exact h2.stgMarksLost.stgClear.setStg

theorem Chip.sound.doStgFlush (h : c.sound) {k q v} : (doStgFlush k q v c).sound :=
  .ite h (h.blockWrite fun _ hd => .ite hd.stgFlushAll hd)

theorem Chip.sound.doStgHwmRead (h : c.sound) {k q seen} : (doStgHwmRead k q seen c).sound :=
  .ite h (h.volatileRead fun _ hd => hd.setReg)

theorem Chip.sound.doStgLastErrRead (h : c.sound) {k q seen} : (doStgLastErrRead k q seen c).sound :=
  .ite h (h.volatileRead fun _ hd => hd.setReg)

theorem Chip.sound.stgReset (h : c.sound) {q} : (c.stgReset q).sound := h.stgFlushAll.stgWrote.resetPage

/-! ### The Tour fabric (chapter 11) -/

theorem Chip.sound.setCopies (h : c.sound) {l} : (c.setCopies l).sound := h.update

theorem Chip.sound.modCopy (h : c.sound) {id f} : (c.modCopy id f).sound := h.setCopies

theorem Chip.sound.delCopy (h : c.sound) {id} : (c.delCopy id).sound := h.setCopies

theorem Chip.sound.dropRest (h : c.sound) {id} : (c.dropRest id).sound := by
  unfold Chip.dropRest
  split
  · exact h
  · exact .ite h.delCopy h.delCopy.setCopies

theorem Chip.sound.low (h : c.sound) {a n} : (c.low a n).sound := .ite h.setReg h

theorem Chip.sound.fabDone (h : c.sound) {before : Chip} : (before.fabDone c).sound := by
  unfold Chip.fabDone
  extract_lets _ c1 c2 c3 de c4
  have h3 : c3.sound := .low (.low (.setReg (.setReg h.update)))
  have h4 : c4.sound := .ite h3.raise h3
  exact .ite h4.raise h4

theorem Chip.sound.setEth (h : c.sound) {q v} : (c.setEth q v).sound := h.update

theorem Chip.sound.lastDrop (h : c.sound) {q cls reason} : (c.lastDrop q cls reason).sound := h.setReg

theorem Chip.sound.holdDrop (h : c.sound) {q cls reason} : (c.holdDrop q cls reason).sound := h.inc.lastDrop

theorem Chip.sound.holdFlushCount (h : c.sound) {q cls} : (c.holdFlushCount q cls).sound := h.inc.lastDrop

theorem Chip.sound.voqRefuse (h : c.sound) {k} : Chip.allSound (c.voqRefuse k) :=
  .ite (.some h.holdDrop) (.ite (.some h.inc) (.ite .none (.ite (.some h.inc)
    (.ite (.some (.ite h.inc (.ite h.incRaise h.inc))) .none))))

theorem Chip.sound.voqAdmit (h : c.sound) {sq pcls k} : (c.voqAdmit sq pcls k).sound := by
  unfold Chip.voqAdmit
  split
  · rename_i c' e
    have h' := h.voqRefuse _ e
    exact h'
  · exact h.update

theorem Chip.sound.enqueueFrame (h : c.sound) {sq pcls copies} : (c.enqueueFrame sq pcls copies).sound :=
  .fabDone (.update (h.foldl fun _ _ hd => hd.voqAdmit))

theorem Chip.sound.resDrop (h : c.sound) {k} : (c.resDrop k).sound := .ite h.delCopy.inc.lastDrop h.delCopy.incRaise

theorem Chip.sound.staleDrop (h : c.sound) {k} : (c.staleDrop k).sound :=
  .ite h.delCopy.incRaise (.ite h.delCopy.incRaise.lastDrop h.delCopy.inc)

theorem Chip.sound.lastKnown (h : c.sound) {k} : (c.lastKnown k).sound := h.update

theorem Chip.sound.launchCell (h : c.sound) {k m kept} : (c.launchCell k m kept).sound :=
  .ite (.lastKnown (.modCopy h.update)) (.modCopy h.update)

theorem Chip.sound.launchFirst {m l} (h : c.sound) : (c.launchFirst m l).sound := by
  induction l generalizing c with
  | nil => exact h
  | cons k rest ih =>
    exact .ite (ih h.delCopy.incRaise) (.ite (ih h.delCopy.inc) (.ite (ih h)
      (.ite (.ite (ih h.inc) h.launchCell) (.ite h.launchCell.incRaise h.launchCell.peak))))

theorem Chip.sound.lineOut (h : c.sound) {q o} : (c.lineOut q o).sound := .ite h h.emit

theorem Chip.sound.sendPause (h : c.sound) {q ch quanta} : (c.sendPause q ch quanta).sound := h.setEth

theorem Chip.sound.pauseCheck (h : c.sound) {q ch} : (c.pauseCheck q ch).sound :=
  .ite h.setEth.sendPause (.ite h.setEth.sendPause h)

theorem Chip.sound.pauseChecks (h : c.sound) : c.pauseChecks.sound :=
  h.foldl fun _ _ hd => hd.foldl fun _ _ hd2 => hd2.pauseCheck

theorem Chip.sound.doCopyLaunchGrant (h : c.sound) {i} : (doCopyLaunchGrant i c).sound :=
  .ite h (.pauseChecks (.fabDone h.launchFirst.update))

theorem Chip.sound.creditUpdate (h : c.sound) {q} : (c.creditUpdate q).sound := h.setEth

theorem Chip.sound.creditAtQueue (h : c.sound) {o} : (c.creditAtQueue o).sound := .ite h.creditUpdate h

theorem Chip.sound.append (h : c.sound) {k} : (c.append k).sound :=
  .ite h.delCopy (.ite h.delCopy.holdDrop (.ite h.delCopy.inc h.creditAtQueue.setCopies))

theorem Chip.sound.appendReady {n} (h : c.sound) : (c.appendReady n).sound := by
  induction n generalizing c with
  | zero => exact h
  | succ n ih =>
    unfold Chip.appendReady
    split
    · exact h
    · exact ih h.append

theorem Chip.sound.linkWaiting {flow n} (h : c.sound) : (c.linkWaiting flow n).sound := by
  induction n generalizing c with
  | zero => exact h
  | succ n ih =>
    unfold Chip.linkWaiting
    extract_lets exp
    split
    · exact h
    · exact ih (.modCopy (.ite (.peak h.update) h.update))

theorem Chip.sound.cellArrives (h : c.sound) {x} : (c.cellArrives x).sound := .appendReady (.linkWaiting h.update)

theorem Chip.sound.doReseqTimeout (h : c.sound) {i o cls} : (doReseqTimeout i o cls c).sound := by
  unfold Machine.doReseqTimeout
  extract_lets +onlyGivenNames flow
  refine .ite h ?_
  extract_lets exp _ c1 c2 c3
  have h1 : c1.sound := .incRaise h.update
  have h2 : c2.sound := by
    unfold c2
    split
    · exact h1
    · extract_lets c2
      have h2 : c2.sound := h1.modCopy
      exact .ite h2.modCopy h2.dropRest
  exact h2.linkWaiting.appendReady.fabDone

theorem Chip.sound.agePass {kept l} (h : c.sound) : (c.agePass kept l).sound := by
  induction l generalizing c kept with
  | nil => exact h
  | cons k rest ih =>
    exact .ite (ih h) (.ite (ih h) (.ite (ih (.ite h.resDrop h.delCopy.incRaise))
      (.ite (ih (.ite h.staleDrop h.delCopy.inc)) (ih h))))

theorem Chip.sound.doAgerScan (h : c.sound) : (doAgerScan c).sound := .ite h (.fabDone (.agePass h.update))

theorem Chip.sound.doHoldReclaim (h : c.sound) : (doHoldReclaim c).sound := by
  unfold Machine.doHoldReclaim
  refine .ite h ?_
  split
  · exact h
  · exact .fabDone (.incRaise (.delCopy h.update))

theorem Chip.sound.doBufSplitWrite (h : c.sound) {k v be} : (doBufSplitWrite k v be c).sound :=
  h.blockWrite fun _ hd => .ite hd.setErr hd.setFldOf.fabDone

theorem Chip.sound.resetDrops (h : c.sound) {q} : (c.resetDrops q).sound := h.setCopies.addTo.fabDone

/-! ### The planes' flags and disagreements (chapter 13) -/

theorem Chip.sound.showPartner (h : c.sound) : c.showPartner.sound := h.setFldOf

theorem Chip.sound.setPlState (h : c.sound) {x st} : (c.setPlState x st).sound := h.setFldOf.showPartner

theorem Chip.sound.retirePlane (h : c.sound) {x cause} : (c.retirePlane x cause).sound :=
  .stgRetire h.setFldOf.setPlState.setAlarm.setAlarm.scoreAs.inc.raise.update

theorem Chip.sound.haltPlanes (h : c.sound) : c.haltPlanes.sound :=
  .ite h h.setBitOf.setPlState.setAlarm.scoreLog.raise

theorem Chip.sound.reintFail (h : c.sound) : c.reintFail.sound := h.retirePlane.inc.raise.update

theorem Chip.sound.disagreeAt (h : c.sound) {point loc cls copy d dma} :
    (c.disagreeAt point loc cls copy d dma).sound :=
  h.update

theorem Chip.sound.disagree (h : c.sound) {point loc cls copy} : (c.disagree point loc cls copy).sound := h.disagreeAt

theorem Chip.sound.planeFlag (h : c.sound) {x f} : (c.planeFlag x f).sound := by
  unfold Chip.planeFlag
  extract_lets c1 _ c2
  have h2 : c2.sound := .raise h.setBitOf.setReg.inc.update
  exact .ite h2 (.ite h2.reintFail (.ite (.ite h2.haltPlanes h2)
    (.ite (.ite h2.disagreeAt h2) (.ite (.ite h2.retirePlane h2) h2))))

theorem Chip.sound.flagPlanes (h : c.sound) {w b f} : (c.flagPlanes w b f).sound :=
  .ite (.planeFlag (.ite h.planeFlag h)) (.ite h.planeFlag h)

/-! ### Uncorrectable words (chapter 17) -/

theorem Chip.sound.memUe (h : c.sound) {m addr src} : (c.memUe m addr src).sound := by
  unfold Chip.memUe
  extract_lets c1 _ c3 c4 c2
  have h1 : c1.sound := h.inc
  have h3 : c3.sound := h1.update
  have h2 : c2.sound := .ite h1 (.scoreLog (.setAlarm (.raise (.inc (.ite h3 h3.setReg.setReg)))))
  split
  · exact h2.planeFlag
  · exact h2

theorem Chip.sound.memPoison (h : c.sound) {m addr p} : (c.memPoison m addr p).sound := h.memUe.inc.raise.setErr

theorem Chip.sound.memClean (h : c.sound) {m addr} : (c.memClean m addr).sound := h.update

theorem Chip.sound.planesUe (h : c.sound) {xs u addr} : (c.planesUe xs u addr).sound := h.foldl fun _ _ hd => hd.memUe

theorem Chip.sound.poolDiffer (h : c.sound) {xs k} : (c.poolDiffer xs k).sound := .ite h.inc.disagree h

theorem Chip.sound.poolAbort (h : c.sound) {xs k} : (c.poolAbort xs k).sound := .poolDiffer (.ite h.modCopy h)

theorem Chip.sound.poolBad (h : c.sound) {x k} : (c.poolBad x k).sound := by
  unfold Chip.poolBad
  extract_lets +onlyGivenNames xs
  refine .ite h ?_
  extract_lets c1
  have h1 : c1.sound := .planesUe (.ite h.incRaise h)
  split
  · exact h1
  · exact .ite h1.poolDiffer h1.poolAbort

theorem Chip.sound.doCellArriveResequencer (h : c.sound) {j r} : (doCellArriveResequencer j r c).sound := by
  unfold Machine.doCellArriveResequencer
  refine .ite h ?_
  extract_lets s _ c0 c1
  have h0 : c0.sound := h.update
  have h1 : c1.sound := by
    unfold c1
    refine .ite ?_ h0
    split
    · exact h0
    · exact h0.poolBad
  split
  · exact h1
  · exact .ite (.ite h1.poolBad.update h1.poolBad.cellArrives.fabDone)
      (.ite h1.poolBad.cellArrives.fabDone h1.cellArrives.fabDone)

/-! ### Policing, guards and mirrors (chapter 8) -/

theorem Chip.sound.bucketCommit (h : c.sound) {b} : (c.bucketCommit b).sound := .setTword h.update

theorem Chip.sound.bucketMeter (h : c.sound) {e b len} : Chip.fstSound (c.bucketMeter e b len) :=
  .ite (.mk h) (.ite (.mk (.tcount h.update)) (.ite (.mk (.inc (.tcount h.update))) (.mk (.inc (.tcount h.update)))))

theorem Chip.sound.streamGateRuns (h : c.sound) {g r} : (c.streamGateRuns g r).sound := h.update

theorem Chip.sound.streamGateLoad (h : c.sound) {g} : (c.streamGateLoad g).sound := by
  unfold Chip.streamGateLoad
  split
  · exact h.update
  · refine .ite h.streamGateRuns ?_
    split
    · exact .ite h.update h.streamGateRuns
    · exact h.streamGateRuns

theorem Chip.sound.streamGateCommit (h : c.sound) {g} : (c.streamGateCommit g).sound := h.setTword.streamGateLoad

theorem Chip.sound.doStreamGateEntry (h : c.sound) {g} : (doStreamGateEntry g c).sound := by
  unfold Machine.doStreamGateEntry
  refine .ite h ?_
  split
  · refine .ite h.streamGateRuns ?_
    split
    · exact h
    · exact .ite h h.update
  · split
    · exact h
    · exact .ite h h.update

theorem Chip.sound.meterCommit (h : c.sound) {m} : (c.meterCommit m).sound :=
  .setTword (.setTword (.setTword h.update))

theorem Chip.sound.flowMeter (h : c.sound) {e m filt len} : Chip.fstSound (c.flowMeter e m filt len) := by
  unfold Chip.flowMeter
  extract_lets off w0 w1 red
  have hred {d : Chip} (hd : d.sound) : Chip.fstSound (red d) := .mk (.ite hd.tcount.tcount.setTword hd.tcount.tcount)
  exact .ite (.mk h.tcount) (.ite (hred h) (.ite (.mk (.tcount h.update))
    (.ite (.mk (.tcount h.update)) (hred h.update))))

theorem Chip.sound.streamFilter (h : c.sound) {e h' cls len} : Chip.fstSound (c.streamFilter e h' cls len) := by
  unfold Chip.streamFilter
  extract_lets +onlyGivenNames off w
  refine .ite (.mk h) (.ite (.mk h.inc) ?_)
  extract_lets +onlyGivenNames c1 long blocked
  have h1 : c1.sound := h.tcount
  exact .ite (.mk (.ite h1.tcount.setTword.raise h1.tcount))
    (.ite (.mk (.ite (.raise (.setTword (.ite h1.tcount.setErr h1.tcount))) (.ite h1.tcount.setErr h1.tcount)))
    (.ite (.mk h1.tcount.flowMeter) (.mk h1.tcount)))

theorem Chip.sound.setExpress (h : c.sound) {p l} : (c.setExpress p l).sound := h.update

theorem Chip.sound.expressAdmit (h : c.sound) {e p len} : Chip.fstSound (c.expressAdmit e p len) :=
  .ite (.mk h.setExpress) (.ite (.mk h.setExpress.incRaise) (.mk h.setExpress.incRaise))

theorem Chip.sound.expressCopies {len l} (h : c.sound) : Chip.fstSound (c.expressCopies len l) := by
  induction l generalizing c with
  | nil => exact h
  | cons k rest ih => exact .ite (.mk (ih h.expressAdmit)) (.mk (ih h))

theorem Chip.sound.setGuard (h : c.sound) {i g} : (c.setGuard i g).sound := h.update

theorem Chip.sound.setQuar (h : c.sound) {i b} : (c.setQuar i b).sound := .ite h.setBitOf h.setBitOf

theorem Chip.sound.guardFire (h : c.sound) {i det count} : (c.guardFire i det count).sound := by
  unfold Chip.guardFire
  extract_lets +onlyGivenNames g
  refine .ite h ?_
  extract_lets +onlyGivenNames resp c1 c2
  have h1 : c1.sound := h.setGuard.setBitOf
  have h2 : c2.sound := .ite h1.inc (.ite h1.inc (.ite h1.inc h1))
  refine .ite h2 ?_
  extract_lets +onlyGivenNames c3 c4
  have h3 : c3.sound := h2.scoreLog.setReg
  have h4 : c4.sound := .ite h3 h3.raise.setAlarm
  exact .ite (.setGuard (.ite h4 h4.setQuar.raise)) h4

theorem Chip.sound.guardBabble (h : c.sound) {i wire} : (c.guardBabble i wire).sound :=
  .ite h.setGuard.guardFire h.setGuard

theorem Chip.sound.guardUnknown (h : c.sound) {i} : (c.guardUnknown i).sound := .ite h.setGuard.guardFire h.setGuard

theorem Chip.sound.guardPause (h : c.sound) {i} : (c.guardPause i).sound := .ite h h.setGuard.guardFire

theorem Chip.sound.masquerade (h : c.sound) {i can v} : Chip.fstSound (c.masquerade i can v) :=
  .ite (.mk h) (.mk h.addTo.setGuard.guardFire)

theorem Chip.sound.doGuardWindowEnd (h : c.sound) : (doGuardWindowEnd c).sound :=
  .ite h (.update (h.foldl fun _ _ hd => .setGuard (.ite hd.setReg hd.setFldOf)))

theorem Chip.sound.guardStep (h : c.sound) : c.guardStep.sound := .update (h.foldl fun _ _ hd => hd.setFldOf.setGuard)

theorem Chip.sound.guardResume (h : c.sound) : c.guardResume.sound := h.update

theorem Chip.sound.expressEmpty (h : c.sound) : c.expressEmpty.sound := h.update

theorem Chip.sound.guardCtrl (h : c.sound) {before : Chip} : (before.guardCtrl c).sound :=
  .ite (.ite h h.update) (.update (.ite h h.update))

theorem Chip.sound.doQuarantineClear (h : c.sound) {k hi v be} : (doQuarantineClear k hi v be c).sound :=
  h.blockWrite fun _ hd => hd.setReg

theorem Chip.sound.doQuarantineHoldExpiry (h : c.sound) {i} : (doQuarantineHoldExpiry i c).sound := by
  unfold Machine.doQuarantineHoldExpiry
  refine .ite h ?_
  split
  · exact h
  · exact .ite h h.setQuar.setGuard

theorem Chip.sound.mirrorOffer (h : c.sound) {s input src action epoch entry kind rec quar} :
    (c.mirrorOffer s input src action epoch entry kind rec quar).sound :=
  .ite h (.ite (.inc h.update) (.enqueueFrame (.inc (.inc h.update))))

/-! ### Classification (chapter 7) -/

theorem Chip.sound.admitCopies (h : c.sound) {fl fc len ks} : (c.admitCopies fl fc len ks).sound :=
  h.expressCopies.enqueueFrame

theorem Chip.sound.acfDecap (h : c.sound) {fl p cls fc useMtv de} :
    Chip.fstSound (c.acfDecap fl p cls fc useMtv de) := by
  unfold Chip.acfDecap
  split
  · exact .mk h.incRaise
  · exact .ite (.mk h) (.mk (.foldl (.addTo (.ite h.incRaise h)) fun _ _ hd => hd.admitCopies))

theorem Chip.sound.lbLoop (h : c.sound) : c.lbLoop.sound := h.incRaise

theorem Chip.sound.routeFrame (h : c.sound) {fl p w0 d0 w1 w2 w3 pcpMap policed} :
    (c.routeFrame fl p w0 d0 w1 w2 w3 pcpMap policed).sound := by
  unfold Chip.routeFrame
  extract_lets +onlyGivenNames fc cls0 len polOn f
  have hf : Chip.fstSound f := .ite h.streamFilter (.mk h)
  refine .ite hf ?_
  extract_lets +onlyGivenNames de b
  have hb : Chip.fstSound b := .ite hf.bucketMeter (.mk hf)
  exact .ite hb (.ite hb.admitCopies (.ite (.ite hb.lbLoop (.ite
    (.ite hb.acfDecap.admitCopies hb.acfDecap) hb.admitCopies)) hb.addTo.admitCopies))

theorem Chip.sound.quarDrop (h : c.sound) {fl a} : (c.quarDrop fl a).sound := .inc (.ite h.mirrorOffer h)

theorem Chip.sound.applyAction (h : c.sound) {fl p lk srcEnt quar masqDrop} :
    (c.applyAction fl p lk srcEnt quar masqDrop).sound := by
  unfold Chip.applyAction
  extract_lets +onlyGivenNames w a hitOff c0 d0
  have h0 : c0.sound := h.setTword
  refine .ite h0.incRaise ?_
  extract_lets c1
  have h1 : c1.sound := .ite h0.mirrorOffer h0
  exact .ite h1 (.ite h1.quarDrop (.ite h1.inc h1.routeFrame))

theorem Chip.sound.bookRoute (h : c.sound) {fl k fc quar masqDrop} : (c.bookRoute fl k fc quar masqDrop).sound := by
  unfold Chip.bookRoute
  refine .ite h (.ite h.quarDrop ?_)
  extract_lets go
  split
  · exact .ite h.inc (.ite h.inc h.admitCopies)
  · exact .ite h.inc (.ite h.inc h.admitCopies)

theorem Chip.sound.guardFrame (h : c.sound) {sq isCanRec key miss wire} :
    Chip.fstSound (c.guardFrame sq isCanRec key miss wire) :=
  .ite (.mk h) (.ite (.mk h) (.mk (.ite h.masquerade.guardBabble.guardUnknown h.masquerade.guardBabble)))

theorem Chip.sound.classify (h : c.sound) {fl wire} : (c.classify fl wire).sound := by
  unfold Chip.classify
  refine .ite h.inc ?_
  extract_lets +onlyGivenNames srcEnt p quar fc c0 fl k watch
  have hw {d : Chip} {miss} (hd : d.sound) : (watch d miss).1.sound := by
    unfold watch
    split
    · exact hd
    · split
      · exact hd
      · exact hd.guardFrame
  have h0 : c0.sound := h.inc
  refine .ite (.ite (hw h0) (.ite (hw h0).quarDrop (hw h0).admitCopies)) ?_
  extract_lets c1
  have h1 : c1.sound := .ite h0.inc h0
  exact .ite (hw h1).bookRoute (hw (.ite h1.incRaise.setReg.setReg h1.inc)).applyAction

/-! ### CAN controllers (chapter 4) -/

theorem Chip.sound.setStatus (h : c.sound) {q hi lo n} : (c.setStatus q hi lo n).sound := h.setFldOf

theorem Chip.sound.setMbStatus (h : c.sound) {q n st} : (c.setMbStatus q n st).sound :=
  .ite h.setFldOf (.ite h.setFldOf.setBitOf.raise h.setFldOf.setBitOf)

theorem Chip.sound.setMb (h : c.sound) {q n m} : (c.setMb q n m).sound := h.setCan

theorem Chip.sound.mbAdmit (h : c.sound) {q n e} : (c.mbAdmit q n e).sound :=
  .ite h.setMb.setMbStatus h.setMb.setMbStatus

theorem Chip.sound.txRequest (h : c.sound) {q n} : (c.txRequest q n).sound := .ite h.setMb h.mbAdmit

theorem Chip.sound.mbFinish (h : c.sound) {q n st} : (c.mbFinish q n st).sound := by
  unfold Chip.mbFinish
  split
  · exact h.setMb.setMbStatus.mbAdmit
  · exact h.setMb.setMbStatus

theorem Chip.sound.doTxReq (h : c.sound) {k q v} : (doTxReq k q v c).sound :=
  .ite h (h.blockWrite fun _ hd => hd.foldl fun _ _ hd2 => hd2.txRequest)

theorem Chip.sound.txCancel (h : c.sound) {q n} : (c.txCancel q n).sound := .ite h (.ite h.setMb h.setMb.setMbStatus)

theorem Chip.sound.doTxCancel (h : c.sound) {k q v} : (doTxCancel k q v c).sound :=
  .ite h (h.blockWrite fun _ hd => hd.foldl fun _ _ hd2 => hd2.txCancel)

theorem Chip.sound.doCanScheduleEntry (h : c.sound) {q} : (doCanScheduleEntry q c).sound := by
  unfold Machine.doCanScheduleEntry
  refine .ite h ?_
  split
  · exact h
  · refine .ite h ?_
    extract_lets w _ c1 c2 c3
    have h2 : c2.sound := h.setCan.setFldOf
    have h3 : c3.sound := .ite h2.setFldOf (.ite h2.setFldOf h2)
    exact .ite h3.txRequest h3

theorem Chip.sound.trxMode (h : c.sound) {q f arg} : (c.trxMode q f arg).sound := .ite h h.emit.emit

theorem Chip.sound.doCanTxAttempt (h : c.sound) {q} : (doCanTxAttempt q c).sound := by
  unfold Machine.doCanTxAttempt
  refine .ite h ?_
  split
  · exact h
  · extract_lets _ c1
    have h1 : c1.sound := h.setCan.setStatus
    split
    · exact h1
    · exact .ite h1 h1.emit

theorem Chip.sound.canWipe (h : c.sound) {q} : (c.canWipe q).sound :=
  .stbEdge (.stgReset (h.resetDrops.addTo.setCan.resetPage.wipeTable.foldl fun _ _ hd => hd.setMbStatus))

theorem Chip.sound.canHalt (h : c.sound) {q} : (c.canHalt q).sound := h.canWipe.setCan

theorem Chip.sound.idleGate (h : c.sound) {before : Chip} {q} : (before.idleGate c q).sound := by
  unfold Chip.idleGate
  refine .ite ?_ (.ite ?_ h)
  · split
    · exact h.setCan
    · exact h
  · split
    · exact h.setCan
    · exact h

theorem Chip.sound.switchMode (h : c.sound) {q m} : (c.switchMode q m).sound := h.setStatus.idleGate

theorem Chip.sound.busEnd (h : c.sound) {q} : (c.busEnd q).sound := by
  unfold Chip.busEnd
  extract_lets +onlyGivenNames _ c1
  have h1 : c1.sound := h.setCan
  exact .ite h1.canHalt (.ite h1.setCan.setStatus.setStatus
    (.ite h1.setCan.setStatus.setStatus h1.switchMode.setStatus))

theorem Chip.sound.warnLevels (h : c.sound) {q} : (c.warnLevels q).sound := h.setStatus.setStatus

theorem Chip.sound.setCounters (h : c.sound) {q tec rec} : (c.setCounters q tec rec).sound := by
  unfold Chip.setCounters
  extract_lets +onlyGivenNames oldT oldR tw rw c1 c2 c3 c4 st old c5 c6
  have h2 : c2.sound := h.setReg.warnLevels
  have h3 : c3.sound := .ite h2.raise h2
  have h5 : c5.sound := .idleGate (.setStatus (.ite h3.raise h3))
  have h6 : c6.sound := .ite h5.raise h5
  exact .ite (.ite h6.inc.raise.setStatus.setStatus h6.inc.raise.setStatus.setStatus) h6

theorem Chip.sound.canDeliver (h : c.sound) {q f self x} : (c.canDeliver q f self x).sound := by
  unfold Chip.canDeliver
  extract_lets c1
  have h1 : c1.sound := h.stgCommit
  split
  · exact h1
  · exact h1.rxArrive

theorem Chip.sound.doCanFrameReceived (h : c.sound) {q f x} : (doCanFrameReceived q f x c).sound :=
  .ite h (.busEnd (.canDeliver (.trxMode (.setCan (.ite h.inc h.inc.setCounters.advanceFree)))))

theorem Chip.sound.tsFail (h : c.sound) {q seq} : (c.tsFail q seq).sound := h.setReg.inc.raise

theorem Chip.sound.tsFuFail (h : c.sound) {q} : (c.tsFuFail q).sound := h.setBitOf.inc.raise

theorem Chip.sound.queueSync (h : c.sound) {q} : (c.queueSync q).sound := h.setCan

theorem Chip.sound.syncFollow (h : c.sound) {q} : (c.syncFollow q).sound := .ite h.queueSync h

theorem Chip.sound.tsAttemptFailed (h : c.sound) {q s} : (c.tsAttemptFailed q s).sound := by
  unfold Chip.tsAttemptFailed
  split
  · refine .ite ?_ h
    split
    · exact h
    · exact h.setCan.tsFail.syncFollow
  · split
    · exact h.setCan.tsFuFail
    · exact h
  · exact h

theorem Chip.sound.doCanArbitrationLost (h : c.sound) {q} : (doCanArbitrationLost q c).sound := by
  unfold Machine.doCanArbitrationLost
  refine .ite h ?_
  split
  · exact h
  · extract_lets _ c1 c2
    have h1 : c1.sound := h.setCan.inc
    have h2 : c2.sound := by
      unfold c2
      split
      · refine .ite h1.mbFinish ?_
        split
        · exact h1.setMb.mbAdmit
        · exact h1
      · exact h1.tsAttemptFailed
    exact .ite h2.canHalt h2

theorem Chip.sound.dropCls (h : c.sound) {q n} : (c.dropCls q n).sound := h.setCan

theorem Chip.sound.attemptFailed (h : c.sound) {q s} : (c.attemptFailed q s).sound := by
  unfold Chip.attemptFailed
  extract_lets +onlyGivenNames lim
  split
  · refine .ite h.mbFinish (.ite h.mbFinish ?_)
    split
    · exact h.setMb.mbAdmit
    · exact h.setMb
  · split
    · exact h
    · exact .ite h.dropCls.inc h.setCan
  · exact h.tsAttemptFailed

theorem Chip.sound.tdcMeasure (h : c.sound) {q f delay} : (c.tdcMeasure q f delay).sound := by
  unfold Chip.tdcMeasure
  split
  · exact h
  · exact .ite h.setFldOf h

theorem Chip.sound.ownMeasure (h : c.sound) {q delay} : (c.ownMeasure q delay).sound := by
  unfold Chip.ownMeasure
  split
  · exact h
  · split
    · exact h
    · exact h.tdcMeasure

theorem Chip.sound.suspendTx (h : c.sound) {q} : (c.suspendTx q).sound := .ite h h.setCan

theorem Chip.sound.ownFailed (h : c.sound) {q own} : (c.ownFailed q own).sound := by
  unfold Chip.ownFailed
  split
  · exact h
  · exact h.attemptFailed.suspendTx

theorem Chip.sound.canLost (h : c.sound) {q field} : (c.canLost q field).sound := .ite h.stgReject h

theorem Chip.sound.canError (h : c.sound) {q ty field pos heavy exempt} :
    (c.canError q ty field pos heavy exempt).sound := by
  unfold Chip.canError
  extract_lets +onlyGivenNames c own c1 c2 c3
  have h1 : c1.sound := h.canLost.setReg.inc
  have h2 : c2.sound := .ite h1 (.ite h1.setCounters h1.setCounters)
  exact .busEnd (.ownFailed (.setCan (.ite h2 h2.emit)))

theorem Chip.sound.reintegrate (h : c.sound) {q} : (c.reintegrate q).sound := .ite h.busEnd h.busEnd.setStatus

theorem Chip.sound.xlQuiet (h : c.sound) {q} : (c.xlQuiet q).sound := h.trxMode.canLost.setCan.ownFailed.reintegrate

theorem Chip.sound.doCanErrorFrame (h : c.sound) {q ty e pos heavy exempt} :
    (doCanErrorFrame q ty e pos heavy exempt c).sound :=
  .ite h (.ite h.ownMeasure.xlQuiet h.ownMeasure.canError)

theorem Chip.sound.doProtocolException (h : c.sound) {q pos} : (doProtocolException q pos c).sound :=
  .ite h (.ite h.canError h.inc.raise.reintegrate)

theorem Chip.sound.fmtPurge (h : c.sound) {q} : (c.fmtPurge q).sound := h.foldl fun _ _ hd => hd.dropCls.incRaise

theorem Chip.sound.leaveConfig (h : c.sound) {q m} : (c.leaveConfig q m).sound :=
  .ite h.setStatus.setStatus.fmtPurge h.setCan

theorem Chip.sound.enterConfig (h : c.sound) {q rx} : (c.enterConfig q rx).sound :=
  .ite h.setCan.fmtPurge (.ite h.setCan (.ite h.setCan.setCan h.setCan.setStatus.setStatus.setCan))

theorem Chip.sound.canCtrl (h : c.sound) {q nv rx} : (c.canCtrl q nv rx).sound := by
  unfold Chip.canCtrl
  extract_lets +onlyGivenNames old m act cfgErr
  refine .ite h.setStatus.setErr (.ite h.setStatus.setErr (.ite h.setStatus
    (.ite (.ite h.setReg.setStatus.leaveConfig h.setReg.setStatus) ?_)))
  extract_lets +onlyGivenNames c1
  have h1 : c1.sound := h.setReg.setStatus
  exact .ite h1.enterConfig (.ite h1 (.ite h1.setCan h1.switchMode))

theorem Chip.sound.doCanCtrlWrite (h : c.sound) {k q v be rx} : (doCanCtrlWrite k q v be rx c).sound :=
  .ite h (h.blockWrite fun _ hd => hd.canCtrl)

theorem Chip.sound.doCanIntegrationDone (h : c.sound) {q} : (doCanIntegrationDone q c).sound := by
  unfold Machine.doCanIntegrationDone
  refine .ite h ?_
  extract_lets +onlyGivenNames c1
  have h1 : c1.sound := h.setStatus
  split
  · exact h1.setCan
  · exact h1

theorem Chip.sound.doRxMailboxLock (h : c.sound) {k q n seen} : (doRxMailboxLock k q n seen c).sound :=
  .ite h (h.volatileRead fun _ hd => hd.setRx)

theorem Chip.sound.doRxMailboxRelease (h : c.sound) {k q n seen} : (doRxMailboxRelease k q n seen c).sound :=
  .ite h (h.volatileRead fun _ hd => hd.rxRelease)

theorem Chip.sound.srcSent (h : c.sound) {q s} : (c.srcSent q s).sound := by
  unfold Chip.srcSent
  split
  · exact h.mbFinish
  · exact h.dropCls
  · split
    · exact h
    · exact h.setReg.setCan.syncFollow
  · exact h.setCan.setBitOf

theorem Chip.sound.doCanFrameTransmitted (h : c.sound) {q delay} : (doCanFrameTransmitted q delay c).sound := by
  unfold Machine.doCanFrameTransmitted
  refine .ite h ?_
  split
  · exact h
  · split
    · exact h
    · extract_lets +onlyGivenNames f int c0 c1 c2 loop c3 c4
      have h0 : c0.sound := .ite h h.tdcMeasure
      have h2 : c2.sound := .setCounters (.inc (.ite h0 h0.trxMode.emit))
      have h3 : c3.sound := .ite h2.canDeliver h2
      exact .busEnd (.suspendTx (.srcSent (.setCan (.ite h3.inc h3))))

theorem Chip.sound.doCanDeadlineExpiry (h : c.sound) {q s} : (doCanDeadlineExpiry q s c).sound := by
  unfold Machine.doCanDeadlineExpiry
  refine .ite h ?_
  split
  · exact .ite h h.setMb.setMbStatus.inc.raise
  · exact h.dropCls.inc.raise
  · exact h

theorem Chip.sound.doBoRecover (h : c.sound) {k q v} : (doBoRecover k q v c).sound :=
  .ite h (h.blockWrite fun _ hd => .ite hd.setStatus.setStatus hd)

theorem Chip.sound.doCanBusoffRecovered (h : c.sound) {q seqs} : (doCanBusoffRecovered q seqs c).sound :=
  .ite h (.ite h.setStatus h.setStatus.setStatus.setCounters.setStatus.raise)

theorem Chip.sound.doCanStuckDominant (h : c.sound) {q} : (doCanStuckDominant q c).sound := .ite h h.setStatus.raise

theorem Chip.sound.doStuckClear (h : c.sound) {q} : (doStuckClear q c).sound := .ite h h.setStatus

theorem Chip.sound.doTxdDominantLimit (h : c.sound) {q} : (doTxdDominantLimit q c).sound :=
  .ite h h.emit.raise.scoreLog

theorem Chip.sound.doCanIdleTimeout (h : c.sound) {q} : (doCanIdleTimeout q c).sound := by
  unfold Machine.doCanIdleTimeout
  refine .ite h ?_
  split
  · exact h
  · exact .ite h h.setCan.raise

theorem Chip.sound.doRxdWake (h : c.sound) {q} : (doRxdWake q c).sound := .ite h.setStatus h

theorem Chip.sound.doErrCapRead (h : c.sound) {k q seen} : (doErrCapRead k q seen c).sound :=
  .ite h (h.volatileRead fun _ hd => hd.setReg)

theorem Chip.sound.syncSkip (h : c.sound) {q} : (c.syncSkip q).sound := .ite h.setCan.tsFail h

theorem Chip.sound.doCanSyncQueue (h : c.sound) {q} : (doCanSyncQueue q c).sound := by
  unfold Machine.doCanSyncQueue
  refine .ite h ?_
  extract_lets +onlyGivenNames _ c1 allowed
  have h1 : c1.sound := h.setCan
  refine .ite h1.syncSkip.setCan ?_
  extract_lets _ c2
  have h2 : c2.sound := by
    unfold c2
    split
    · exact h1
    · exact h1.setCan.tsFail
  exact .ite h2.queueSync h2

theorem Chip.sound.doCanFollowupQueue (h : c.sound) {q} : (doCanFollowupQueue q c).sound := by
  unfold Machine.doCanFollowupQueue
  refine .ite h ?_
  split
  · exact h
  · extract_lets +onlyGivenNames _ c1
    have h1 : c1.sound := h.setCan
    split
    · exact h1.setCan
    · refine .ite ?_ h1.setCan.tsFuFail
      extract_lets +onlyGivenNames c2
      have h2 : c2.sound := by
        unfold c2
        split
        · exact h1
        · exact h1.tsFuFail
      exact h2.setCan

theorem Chip.sound.tsReconfigure (h : c.sound) {before : Chip} {q} : (before.tsReconfigure c q).sound := by
  unfold Chip.tsReconfigure
  refine .ite ?_ (.ite h.setCan h)
  split
  · exact .ite h.setCan h.setCan.setReg
  · exact h

theorem Chip.sound.doTsyncConfigWrite (h : c.sound) {k q v be} : (doTsyncConfigWrite k q v be c).sound :=
  .ite h (h.blockWrite fun _ hd => .ite (hd.plainWrite.foldl fun _ _ hd2 => hd2.tsReconfigure)
    hd.plainWrite.tsReconfigure)

/-! ### Inline MACsec (chapter 16) -/

theorem Chip.sound.pnUsed (h : c.sound) {q n a pn k} : (c.pnUsed q n a pn k).sound :=
  .ite (.raise h.setTword.update) h.setTword.update

theorem Chip.sound.saCount (h : c.sound) {q n a w} : (c.saCount q n a w).sound := .ite h h.setTword

theorem Chip.sound.macsecTx (h : c.sound) {q b} : Chip.fstSound (c.macsecTx q b) := by
  unfold Chip.macsecTx
  refine .ite (.mk h) ?_
  split
  · exact .mk h.inc
  · extract_lets +onlyGivenNames a
    split
    · exact .mk h.inc
    · exact .ite (.mk h.incRaise) (.ite (.mk h.inc) (.mk h.pnUsed.inc.saCount))

theorem Chip.sound.secFail (h : c.sound) {q reason b} : Chip.fstSound (c.secFail q reason b) :=
  .ite (.mk (.ite h.incRaise h.inc)) (.mk (.ite (.incRaise (.ite h.inc h)) (.ite h.inc h)))

theorem Chip.sound.macsecRx (h : c.sound) {q b} : Chip.fstSound (c.macsecRx q b) := by
  unfold Chip.macsecRx
  refine .ite (.mk h) (.ite (.mk h.inc) ?_)
  extract_lets +onlyGivenNames tci hasSci hdr
  split
  · exact h.secFail
  · extract_lets +onlyGivenNames a
    split
    · exact h.secFail
    · exact .ite h.saCount.secFail (.ite h.saCount.secFail (.mk h.setTword.saCount.inc))

/-! ### Ethernet, the receive side and the link (chapter 5) -/

theorem Chip.sound.setEthStat (h : c.sound) {q b v} : (c.setEthStat q b v).sound := h.setBitOf

theorem Chip.sound.add64 (h : c.sound) {lo hi n} : (c.add64 lo hi n).sound := h.setReg.setReg

theorem Chip.sound.rxDiscard (h : c.sound) {q a reason} : (c.rxDiscard q a reason).sound := h.incRaise.lastDrop

theorem Chip.sound.pauseAccount (h : c.sound) {q} : (c.pauseAccount q).sound := h.setEth.setReg

theorem Chip.sound.dutyEvent (h : c.sound) {q ch} : (c.dutyEvent q ch).sound :=
  .ite h h.setEth.setEthStat.raise.guardPause

theorem Chip.sound.pauseStatus (h : c.sound) {q} : (c.pauseStatus q).sound := h.setEthStat.setFldOf

theorem Chip.sound.pauseFrom (h : c.sound) {q ch quanta} : (c.pauseFrom q ch quanta).sound := h.setEth

theorem Chip.sound.pauseTake (h : c.sound) {q ch quanta} : Chip.fstSound (c.pauseTake q ch quanta) := by
  unfold Chip.pauseTake
  refine .ite (.mk h) (.ite (.mk h.dutyEvent) ?_)
  extract_lets e
  split
  · exact .mk h.pauseFrom
  · exact .ite (.mk h.pauseFrom) (.mk h.setEth)

theorem Chip.sound.ctrlDrop (h : c.sound) {q} : (c.ctrlDrop q).sound := h.inc.lastDrop

theorem Chip.sound.pauseFrame (h : c.sound) {q chs} : (c.pauseFrame q chs).sound := by
  unfold Chip.pauseFrame
  extract_lets c1 r c2 c3
  have hr : Chip.fstSound r := .foldPair (.mk h.pauseAccount) fun _ _ hd => .mk hd.pauseTake
  have h2 : c2.sound := .ite hr.inc hr.ctrlDrop
  exact .pauseStatus (.ite h2.inc h2)

theorem Chip.sound.pauseBegin (h : c.sound) {q id} : (c.pauseBegin q id).sound :=
  .ite h (.pauseStatus (h.pauseAccount.foldl fun _ _ hd => hd.pauseFrom))

theorem Chip.sound.doPauseFrameReceived (h : c.sound) {q op vec times} :
    (doPauseFrameReceived q op vec times c).sound := by
  unfold Machine.doPauseFrameReceived
  refine .ite h ?_
  split
  · exact h.ctrlDrop
  · exact h.pauseFrame

theorem Chip.sound.ethDeliver (h : c.sound) {q b preempt early stamp} :
    (c.ethDeliver q b preempt early stamp).sound := by
  unfold Chip.ethDeliver
  extract_lets c1 s
  have hs : Chip.fstSound s := h.inc.add64.macsecRx
  split
  · exact hs.stgReject
  · exact hs.stgCommit

theorem Chip.sound.rxOversize (h : c.sound) {q b preempt early stamp} :
    (c.rxOversize q b preempt early stamp).sound :=
  h.rxDiscard.stgReject

theorem Chip.sound.rxPart (h : c.sound) {q b early stamp} : (c.rxPart q b early stamp).sound :=
  .ite h (.ite h.rxOversize.setEth.setProg h.stgFeed)

theorem Chip.sound.rxLose (h : c.sound) {q} : (c.rxLose q).sound := h.setEth.stgLose

theorem Chip.sound.ethReceive (h : c.sound) {q b fcsOk preempt early stamp} :
    (c.ethReceive q b fcsOk preempt early stamp).sound := by
  unfold Chip.ethReceive
  extract_lets +onlyGivenNames n rcd
  refine .ite h.rxLose (.ite h.rxDiscard.stgReject (.ite h.rxOversize
    (.ite h.rxDiscard.stgReject (.ite ?_ h.ethDeliver))))
  extract_lets op times c
  have hc : c.sound := h.stgLose
  split
  · exact hc.ctrlDrop
  · exact hc.pauseFrame

theorem Chip.sound.mmSucceed (h : c.sound) {q} : (c.mmSucceed q).sound := h.setFldOf.setEth.raise

theorem Chip.sound.mmAttempt (h : c.sound) {q n} : (c.mmAttempt q n).sound := h.setEth

theorem Chip.sound.mmFrame (h : c.sound) {q resp} : (c.mmFrame q resp).sound :=
  .ite h (.ite (.ite h.mmSucceed h) h.setEth)

theorem Chip.sound.plcaHeard (h : c.sound) {q n} : (c.plcaHeard q n).sound := by
  unfold Chip.plcaHeard
  split
  · exact h
  · exact h.setEth

theorem Chip.sound.doEthFrameReceived (h : c.sound) {q b fcsOk x early} :
    (doEthFrameReceived q b fcsOk x early c).sound := by
  unfold Machine.doEthFrameReceived
  refine .ite h (.ite (.rxLose (.ite h.plcaHeard h)) ?_)
  extract_lets stamp
  split
  · exact h.plcaHeard.ethReceive
  · exact h.ethReceive
  · exact h.incRaise.stgReject
  · exact h.mmFrame
  · exact h.mmFrame
  · exact h.rxPart
  · exact h.stgCommit

theorem Chip.sound.doPauseExpiry (h : c.sound) {q ch} : (doPauseExpiry q ch c).sound :=
  .ite h h.pauseAccount.setEth.pauseStatus

theorem Chip.sound.doPauseDutyWindow (h : c.sound) {q} : (doPauseDutyWindow q c).sound := by
  unfold Machine.doPauseDutyWindow
  refine .ite h ?_
  extract_lets +onlyGivenNames c1 c2 w
  have h2 : c2.sound := h.pauseAccount.foldl fun _ _ hd => .ite hd.dutyEvent hd
  exact .ite h2.pauseStatus h2.setEth.setEthStat.setReg.pauseStatus

theorem Chip.sound.doPauseTxRepeat (h : c.sound) {q ch} : (doPauseTxRepeat q ch c).sound :=
  .ite h (.ite h h.setEth.sendPause)

theorem Chip.sound.mmIdle (h : c.sound) {q} : (c.mmIdle q).sound := h.setFldOf.setEth

theorem Chip.sound.mmStart (h : c.sound) {q} : (c.mmStart q).sound :=
  .ite h (.ite h.mmIdle h.mmIdle.setFldOf.mmAttempt)

theorem Chip.sound.holdCut (h : c.sound) {k} : (c.holdCut k).sound := .ite h.modCopy h.delCopy

theorem Chip.sound.holdStale (h : c.sound) {q} : (c.holdStale q).sound :=
  .ite h (.ite h (.fabDone (h.foldl fun _ _ hd => hd.holdCut.holdDrop)))

theorem Chip.sound.linkRise (h : c.sound) {q} : (c.linkRise q).sound :=
  .ite h h.holdStale.setEthStat.setEthStat.raise.setEth.setBitOf.mmStart

theorem Chip.sound.holdFlushAll (h : c.sound) {q} : (c.holdFlushAll q).sound :=
  h.foldl fun _ _ hd => hd.holdCut.holdFlushCount

theorem Chip.sound.holdPurge (h : c.sound) {q} : (c.holdPurge q).sound :=
  h.foldl fun _ _ hd => .ite hd.holdCut.holdDrop (.ite hd.holdCut.holdDrop hd.modCopy)

theorem Chip.sound.countCut (h : c.sound) {q f} : (c.countCut q f).sound := h.incRaise.lastDrop

theorem Chip.sound.truncateTx (h : c.sound) {q} : (c.truncateTx q).sound :=
  .foldl (.setEth (h.creditUpdate.foldl fun _ _ hd => hd.delCopy.lineOut.countCut)) fun _ _ hd => hd.pauseBegin

theorem Chip.sound.linkFall (h : c.sound) {q} : (c.linkFall q).sound := by
  unfold Chip.linkFall
  refine .ite h ?_
  extract_lets +onlyGivenNames c1 hold cm _ c2
  have h1 : c1.sound := h.rxLose.setEthStat.setEthStat.setEthStat.incRaise.truncateTx
  have h2 : c2.sound := .holdPurge (.setEth (.ite h1 h1.mmIdle))
  exact .fabDone (.ite h2.holdFlushAll.setEth h2)

theorem Chip.sound.doLinkHoldExpiry (h : c.sound) {q} : (doLinkHoldExpiry q c).sound := by
  unfold Machine.doLinkHoldExpiry
  refine .ite h ?_
  split
  · exact h
  · exact .ite h.holdStale h.holdStale.holdFlushAll.setEth.raise.fabDone

theorem Chip.sound.sdsReport (h : c.sound) {q st} : (c.sdsReport q st).sound := by
  unfold Chip.sdsReport
  extract_lets old up keep c1 c2 c3 c4 e
  have h1 : c1.sound := h.setReg
  have h2 : c2.sound := .ite h1.raise h1
  have h3 : c3.sound := .ite h2.raise h2
  exact .setEth (.ite h3.raise h3)

theorem Chip.sound.laneCounts (h : c.sound) {q st} : (c.laneCounts q st).sound := by
  unfold Chip.laneCounts
  extract_lets c1 c2 c3
  have h1 : c1.sound := h.setEthStat.addTo.addTo
  have h3 : c3.sound := .addTo (.ite h1 h1.raise)
  exact .ite h3.addTo h3

theorem Chip.sound.t1sLink (h : c.sound) {q} : (c.t1sLink q).sound := .ite h.linkRise h.linkFall

theorem Chip.sound.doLinkUp (h : c.sound) {q st} : (doLinkUp q st c).sound := by
  unfold Machine.doLinkUp
  refine .ite h (.ite h.t1sLink ?_)
  extract_lets c1
  have h1 : c1.sound := h.sdsReport.laneCounts
  split
  · exact h1.linkFall
  · exact .ite h1.linkRise h1

theorem Chip.sound.doLinkDown (h : c.sound) {q st} : (doLinkDown q st c).sound :=
  .ite h (.ite h.t1sLink (.ite h.sdsReport.laneCounts.linkFall h.sdsReport.laneCounts))

theorem Chip.sound.plcaCycle (h : c.sound) {q} : (c.plcaCycle q).sound := h.setEth

theorem Chip.sound.doPlcaBeaconReceived (h : c.sound) {q} : (doPlcaBeaconReceived q c).sound :=
  .ite h h.setEthStat.setEthStat.plcaCycle.t1sLink

theorem Chip.sound.doPlcaLoss (h : c.sound) {q} : (doPlcaLoss q c).sound :=
  .ite h h.setEthStat.inc.raise.setEthStat.t1sLink

theorem Chip.sound.doSdsModeWrite (h : c.sound) {k q v be} : (doSdsModeWrite k q v be c).sound :=
  .ite h (h.blockWrite fun _ hd => .ite hd.setBitOf.setErr hd.setReg.setBitOf.sdsReport.linkFall)

theorem Chip.sound.mdioFrames (h : c.sound) {q v} : (c.mdioFrames q v).sound := .ite h.emit (.ite h.emit h.emit.emit)

theorem Chip.sound.doMdioCmd (h : c.sound) {k q v} : (doMdioCmd k q v c).sound :=
  .ite h (h.blockWrite fun _ hd => .ite hd.setErr (.ite hd.setReg.mdioFrames hd.setReg))

theorem Chip.sound.doMdioDone (h : c.sound) {q rdata} : (doMdioDone q rdata c).sound :=
  .ite h (.raise (.ite h.setBitOf.setReg h.setBitOf))

theorem Chip.sound.doLastDropRead (h : c.sound) {k q seen} : (doLastDropRead k q seen c).sound :=
  .ite h (h.volatileRead fun _ hd => hd.setReg)

/-! ### Frame replication and elimination (chapter 5) -/

theorem Chip.sound.setFrer (h : c.sound) {fn f} : (c.setFrer fn f).sound := h.update

theorem Chip.sound.frerCommit (h : c.sound) {fn} : (c.frerCommit fn).sound := by
  unfold Chip.frerCommit
  extract_lets w0 c1 c2
  have h2 : c2.sound := .setFrer (h.setTword.foldl fun _ _ hd => hd.setTword)
  exact .ite h2.setErr h2

theorem Chip.sound.frerAccept (h : c.sound) {fn seq hist keepSeq} : (c.frerAccept fn seq hist keepSeq).sound :=
  h.setTword.tcount.setFrer

theorem Chip.sound.frerRecover (h : c.sound) {e fn seq} : Chip.fstSound (c.frerRecover e fn seq) :=
  .ite (.mk h) (.ite (.mk h.frerAccept) (.ite (.ite (.mk h.tcount) (.mk (.frerAccept (.ite h h.tcount))))
    (.ite (.mk h.tcount) (.ite (.ite (.mk h.tcount) (.mk h.tcount.frerAccept))
    (.mk (.frerAccept (.setTword (.ite h h.tcount))))))))

theorem Chip.sound.doFrerRecoveryReset (h : c.sound) {fn} : (doFrerRecoveryReset fn c).sound :=
  .ite h (.ite h h.setTword.tcount)

theorem Chip.sound.doFrerLatentTest (h : c.sound) {fn} : (doFrerLatentTest fn c).sound :=
  .ite h (.ite h (.ite h.setFrer.tcount h.setFrer))

theorem Chip.sound.frerDraw (h : c.sound) {k} : (c.frerDraw k).sound := by
  unfold Chip.frerDraw
  split
  · exact h.setTword.update
  · exact h

/-! ### Ethernet, the transmit side (chapter 5) -/

theorem Chip.sound.showGates (h : c.sound) {q gates entry} : (c.showGates q gates entry).sound := h.setReg

theorem Chip.sound.gateOverrun (h : c.sound) {q ws} : (c.gateOverrun q ws).sound := by
  unfold Chip.gateOverrun
  split
  · exact h
  · exact .ite h h.setEth.incRaise

theorem Chip.sound.gateAdvance (h : c.sound) {q r} : (c.gateAdvance q r).sound := by
  unfold Chip.gateAdvance
  extract_lets +onlyGivenNames c
  have hc : c.sound := h.creditUpdate
  split
  · exact hc.showGates
  · extract_lets ws _ c1 c2
    have h1 : c1.sound := hc.setEth.showGates
    exact .gateOverrun (.ite h1.setErr h1)

theorem Chip.sound.gateLoad (h : c.sound) {q} : (c.gateLoad q).sound := by
  unfold Chip.gateLoad
  extract_lets +onlyGivenNames c
  have hc : c.sound := h.creditUpdate
  split
  · exact hc.setEth.showGates
  · split
    · exact hc.setEth.gateAdvance
    · exact .ite hc.setEth.showGates (.ite hc.setEth.gateAdvance hc.setEth.showGates)

theorem Chip.sound.doGateListEntry (h : c.sound) {q} : (doGateListEntry q c).sound := by
  unfold Machine.doGateListEntry
  refine .ite h ?_
  extract_lets e
  split
  · exact h
  · split
    · refine .ite h.setEth.gateAdvance (.ite h ?_)
      split
      · exact .ite h h.gateAdvance
      · exact h.gateAdvance
    · exact .ite h h.gateAdvance

theorem Chip.sound.purgeHead {q cls n} (h : c.sound) : (c.purgeHead q cls n).sound := by
  induction n generalizing c with
  | zero => exact h
  | succ n ih =>
    unfold Chip.purgeHead
    split
    · exact h
    · refine .ite h (.ite (ih h.delCopy) (.ite (.ite (ih h.staleDrop) h) (.ite (ih h.resDrop) (.ite (ih h.staleDrop)
        (.ite (ih h.delCopy.incRaise.lastDrop) (.ite ?_ h))))))
      split
      · exact h
      · exact .ite h.frerRecover.modCopy (ih h.frerRecover.delCopy)

theorem Chip.sound.plcaSent (h : c.sound) {q} : (c.plcaSent q).sound := h.setEth

theorem Chip.sound.plcaBeacon (h : c.sound) {q} : (c.plcaBeacon q).sound := .ite h (.ite h.plcaCycle.lineOut h)

theorem Chip.sound.startGap (h : c.sound) {q n} : (c.startGap q n).sound := h.setEth

theorem Chip.sound.loopFrame (h : c.sound) {q b fcsOk preempt} : (c.loopFrame q b fcsOk preempt).sound :=
  .ite h.ethReceive h

theorem Chip.sound.stomp (h : c.sound) {q f have_} : (c.stomp q f have_).sound :=
  h.creditUpdate.dropRest.lineOut.incRaise.setEth.startGap.pauseBegin.loopFrame

theorem Chip.sound.stompParity (h : c.sound) {q f} : (c.stompParity q f).sound := h.stomp.scoreLog

theorem Chip.sound.startFrame (h : c.sound) {q k parity} : (c.startFrame q k parity).sound := by
  unfold Chip.startFrame
  refine .ite h.dropRest.incRaise.scoreLog ?_
  extract_lets +onlyGivenNames s
  have hs : Chip.fstSound s := h.macsecTx
  split
  · exact hs.dropRest
  · exact hs.modCopy.setEth

theorem Chip.sound.leaveLpi (h : c.sound) {q} : (c.leaveLpi q).sound := h.setEthStat.setEth

theorem Chip.sound.idleAfter (h : c.sound) {q n} : (c.idleAfter q n).sound := h.setEth

theorem Chip.sound.putPause (h : c.sound) {q ch quanta} : (c.putPause q ch quanta).sound :=
  .ite h.lineOut.inc.startGap.idleAfter.ethReceive h.lineOut.inc.startGap.idleAfter

theorem Chip.sound.putVerify (h : c.sound) {q resp} : (c.putVerify q resp).sound :=
  .ite h.lineOut.startGap.idleAfter.mmFrame h.lineOut.startGap.idleAfter

theorem Chip.sound.sendControl (h : c.sound) {q} : Chip.allSound (c.sendControl q) := by
  unfold Chip.sendControl
  extract_lets e
  split
  · exact .none
  · exact .some (.ite h.leaveLpi h.setEth.putPause)
  · exact .some (.ite h.leaveLpi h.setEth.putVerify)

theorem Chip.sound.fragCount (h : c.sound) {q f} : (c.fragCount q f).sound := .ite h h.inc

theorem Chip.sound.preempt (h : c.sound) {q f out} : (c.preempt q f out).sound := h.lineOut.fragCount.setEth.startGap

theorem Chip.sound.step8 (h : c.sound) {k} : (c.step8 k).sound := h.frerDraw.modCopy

theorem Chip.sound.txChoose (h : c.sound) {q parity} : (c.txChoose q parity).sound := by
  unfold Chip.txChoose
  split
  · exact .ite h.leaveLpi (.ite h.step8 (.ite h.startFrame h))
  · split
    · exact h
    · exact .ite h h.setEth

theorem Chip.sound.txPreempt (h : c.sound) {q f} : (c.txPreempt q f).sound := by
  unfold Chip.txPreempt
  extract_lets express c1 ready
  have h1 : c1.sound := by
    unfold c1
    clear_value express
    split
    · exact .ite h h.step8
    · exact h
  refine .ite ?_ h1
  split
  · exact h1.preempt
  · exact h1

theorem Chip.sound.doEthTransmitSelect (h : c.sound) {q parity} : (doEthTransmitSelect q parity c).sound := by
  unfold Machine.doEthTransmitSelect
  refine .ite h ?_
  extract_lets +onlyGivenNames c0
  have h0 : c0.sound := h.plcaBeacon
  refine .ite h0 ?_
  split
  · refine .ite h0 ?_
    split
    · rename_i c1 e
      have h1 := h0.sendControl _ e
      exact h1
    · exact .ite h0 (.fabDone (.txChoose (h0.creditUpdate.foldl fun _ _ hd => hd.purgeHead)))
  · refine .ite h0 ?_
    extract_lets c1
    have h1 : c1.sound := h0.creditUpdate.foldl fun _ _ hd => hd.purgeHead
    refine .fabDone (.ite h1.stompParity ?_)
    split
    · exact .stomp (.ite h1.incRaise h1)
    · exact .ite h1 h1.txPreempt

theorem Chip.sound.txEnd (h : c.sound) {q coll f} : (c.txEnd q coll f).sound := by
  unfold Chip.txEnd
  extract_lets c0 c1 c2 _ c3 c4
  have h1 : c1.sound := h.creditUpdate.lineOut.inc.add64.fragCount
  exact .loopFrame (.pauseBegin (.startGap (.plcaSent (.setEth (.delCopy (.ite h1.addTo h1))))))

theorem Chip.sound.doEthFrameTxDone (h : c.sound) {q t} : (doEthFrameTxDone q t c).sound := by
  unfold Machine.doEthFrameTxDone
  refine .ite h ?_
  split
  · exact h
  · refine .fabDone (.ite h.stompParity ?_)
    split
    · exact .stomp (.ite h.incRaise h)
    · exact h.txEnd

theorem Chip.sound.doLpiEnter (h : c.sound) {q} : (doLpiEnter q c).sound := by
  unfold Machine.doLpiEnter
  refine .ite h ?_
  extract_lets idle
  split
  · exact h
  · exact .ite h h.setEthStat.inc

theorem Chip.sound.doLpiGateWake (h : c.sound) {q} : (doLpiGateWake q c).sound := by
  unfold Machine.doLpiGateWake
  refine .ite h ?_
  split
  · exact h
  · exact .ite h h.leaveLpi

theorem Chip.sound.doMmVerifyTimer (h : c.sound) {q resp} : (doMmVerifyTimer q resp c).sound := by
  unfold Machine.doMmVerifyTimer
  refine .ite h (.ite h.mmSucceed ?_)
  split
  · exact h
  · exact .ite h (.ite h.setFldOf.setEth.inc.raise h.mmAttempt)

theorem Chip.sound.ethClear (h : c.sound) {q} : (c.ethClear q).sound := by
  unfold Chip.ethClear
  extract_lets cut c1 c2 c3 c4 _ c5
  have h4 : c4.sound := h.resetDrops.truncateTx.linkFall.resetPage.wipeTable.stgReset.setEth.setBitOf
  have hs : ((c4.resetPage (pSds q)).resetPage (pSec q)).sound := h4.resetPage.resetPage
  have h5 : c5.sound := .ite h4 ⟨hs.1, sparseWf_filter (fun _ => 0) _ h4.2.1, hs.2.2⟩
  exact h5.foldl fun _ _ hd => hd.countCut

theorem Chip.sound.ethReset (h : c.sound) {q} : (c.ethReset q).sound :=
  .ite h.ethClear.outOfReset.outOfReset h.ethClear.outOfReset.outOfReset.outOfReset.outOfReset

/-! ### CAN squares at the fabric (chapter 4) -/

theorem Chip.sound.canPull {q cls parity n} (h : c.sound) : (c.canPull q cls parity n).sound := by
  induction n generalizing c with
  | zero => exact h
  | succ n ih =>
    unfold Chip.canPull
    split
    · exact h
    · exact .ite h (.ite (ih h.staleDrop) (.ite (ih h.delCopy)
        (.ite h.delCopy.inc.scoreLog (.ite h.delCopy.setCan h.delCopy.incRaise))))

theorem Chip.sound.doCanClassBufferPull (h : c.sound) {q cls parity} : (doCanClassBufferPull q cls parity c).sound :=
  .ite h h.canPull.fabDone

theorem Chip.sound.canReset (h : c.sound) {q} : (c.canReset q).sound :=
  .outOfReset (.outOfReset (h.canWipe.foldl fun _ _ hd => hd.setMbStatus))

/-! ### The Adjudicator (chapter 13) -/

theorem Chip.sound.driveFail (h : c.sound) {counter loc cls copy dma} :
    (c.driveFail counter loc cls copy dma).sound :=
  h.inc.planeFlag.disagreeAt

theorem Chip.sound.compareCell (h : c.sound) {o cls same drive} : (c.compareCell o cls same drive).sound := by
  unfold Chip.compareCell
  split
  · exact h
  · exact .ite h (.ite h.delCopy.incRaise.fabDone (.ite h.resDrop.fabDone
      (.ite h.staleDrop.fabDone (.ite h.modCopy.modCopy.fabDone
      (.ite h.modCopy.driveFail h.modCopy.inc.disagreeAt)))))

theorem Chip.sound.compareDma (h : c.sound) {k cls same drive} : (c.compareDma k cls same drive).sound := by
  unfold Chip.compareDma
  split
  · exact h
  · exact .ite h (.ite h.driveFail h.inc.disagreeAt)

theorem Chip.sound.compareDigest (h : c.sound) {n same} : (c.compareDigest n same).sound := by
  unfold Chip.compareDigest
  split
  · exact h
  · extract_lets _ c1
    have h1 : c1.sound := h.update
    exact .ite h1 h1.inc.disagreeAt

theorem Chip.sound.checkFlags (h : c.sound) {point x} : (c.checkFlags point x).sound := by
  unfold Chip.checkFlags
  extract_lets raise both
  have hboth {d : Chip} (hd : d.sound) {f} : (both d f).sound :=
    have hraise {d : Chip} (hd : d.sound) {p bits} : (raise d p bits f).sound := .ite hd.planeFlag hd
    hraise (hraise hd)
  exact .ite (hboth (hboth h)) (hboth h)

theorem Chip.sound.doAdjItemCompare {c0 : Chip} (h : c0.sound) {point loc cls x drive} :
    (doAdjItemCompare point loc cls x drive c0).sound := by
  unfold Machine.doAdjItemCompare
  extract_lets c
  have hc : c.sound := h.checkFlags
  split
  · exact .ite hc hc.compareCell
  · exact .ite hc hc.compareDigest
  · exact .ite hc hc.compareDma
  · exact hc

theorem Chip.sound.countUndecided (h : c.sound) {t} : (c.countUndecided t).sound :=
  .ite (.retirePlane (.update h.update)) h.update

theorem Chip.sound.diagnose (h : c.sound) {t} : (c.diagnose t).sound :=
  .ite h.countUndecided (.ite (.setBitOf h.update) (.countUndecided h.update))

theorem Chip.sound.doneDrop (h : c.sound) {k} : (c.doneDrop k).sound := by
  unfold Chip.doneDrop
  split
  · exact h
  · exact .irqEdge (.setBitOf (.setReg h.update))

theorem Chip.sound.discardItem (h : c.sound) {p} : (c.discardItem p).sound := by
  unfold Chip.discardItem
  extract_lets +onlyGivenNames slot
  split
  · exact .ite (.inc h.update) (.ite h.doneDrop.inc h)
  · exact .ite h.modCopy.inc (.ite h.modCopy.inc h.delCopy.inc.fabDone)

theorem Chip.sound.gapEnd (h : c.sound) {p q f} : (c.gapEnd p q f).sound := .ite h h.stomp.inc

theorem Chip.sound.gapStomp (h : c.sound) {p q} : (c.gapStomp p q).sound := by
  unfold Chip.gapStomp
  extract_lets +onlyGivenNames c1
  have h1 : c1.sound := by
    unfold c1
    split
    · exact h
    · exact h.gapEnd
  split
  · exact h1
  · exact .ite h1 h1.setEth.gapEnd

theorem Chip.sound.switchOver (h : c.sound) {p cause} : (c.switchOver p cause).sound :=
  .fabDone (.raise (.inc (.foldl h.setBitOf.setPlState.retirePlane.setBitOf.update fun _ _ hd => hd.gapStomp)))

theorem Chip.sound.lastDis (h : c.sound) {p outcome} : (c.lastDis p outcome).sound := .ite h h.setReg.setReg

theorem Chip.sound.tableAfter (h : c.sound) {p} : (c.tableAfter p).sound := by
  unfold Chip.tableAfter
  extract_lets aT bT c1
  have h1 : c1.sound := .ite h.retirePlane h
  exact .ite h1 (.ite h1.switchOver h1.haltPlanes)

theorem Chip.sound.undecided (h : c.sound) {p outcome} : (c.undecided p outcome).sound := by
  unfold Chip.undecided
  extract_lets c1 c2
  have h1 : c1.sound := .incRaise (.discardItem (.ite h.setAlarm h))
  exact .diagnose (.tableAfter (.ite h1.retirePlane h1))

theorem Chip.sound.joinDisagree (h : c.sound) {p} : (c.joinDisagree p).sound :=
  .ite (.haltPlanes (.ite h.lastDis.reintFail h.lastDis)) (.ite h.lastDis.reintFail h.lastDis)

theorem Chip.sound.decide1 (h : c.sound) {p} : (c.decide1 p).sound := by
  unfold Chip.decide1
  refine .ite h (.ite h.joinDisagree ?_)
  extract_lets o c1
  have h1 : c1.sound := h.lastDis
  exact .ite (.ite h1.retirePlane h1) (.ite (.ite h1.tableAfter
    (.ite h1.switchOver (.ite h1.haltPlanes h1))) h1.undecided)

theorem Chip.sound.doAdjDecision (h : c.sound) : (doAdjDecision c).sound := by
  unfold Machine.doAdjDecision
  split
  · exact h
  · exact .ite h (.decide1 h.update)

theorem Chip.sound.doSwitchoverGapEnd (h : c.sound) : (doSwitchoverGapEnd c).sound := by
  unfold Machine.doSwitchoverGapEnd
  split
  · exact h
  · exact .setBitOf (.update (.ite h.setFldOf h))

theorem Chip.sound.sweepDone (h : c.sound) {x bad} : (c.sweepDone x bad).sound :=
  .ite h.setFldOf (.planeFlag (.raise (.ite h.setFldOf h.setFldOf.setBitOf.setFldOf)))

theorem Chip.sound.doTableSweep (h : c.sound) {x bad} : (doTableSweep x bad c).sound :=
  .ite h (.ite h (.sweepDone h.update))

theorem Chip.sound.doSweepNow (h : c.sound) {k x v bad} : (doSweepNow k x v bad c).sound :=
  .ite h (h.blockWrite fun _ hd => .ite hd.sweepDone hd)

theorem Chip.sound.doDiagDone (h : c.sound) {wBad bBad} : (doDiagDone wBad bBad c).sound := by
  unfold Machine.doDiagDone
  refine .ite h ?_
  extract_lets f _ c1 c2 c3
  have h1 : c1.sound := .raise (.setBitOf h.update)
  have h2 : c2.sound := .ite h1.sweepDone h1
  have h3 : c3.sound := .ite h2.sweepDone h2
  clear_value f
  refine .ite ?_ h3
  split
  · exact h3.countUndecided
  · exact h3

theorem Chip.sound.doPlCtrlReset (h : c.sound) {k x v} : (doPlCtrlReset k x v c).sound :=
  .ite h (h.blockWrite fun _ hd => .ite hd (.ite hd.setErr (.ite hd hd.retirePlane)))

theorem Chip.sound.startReint (h : c.sound) : c.startReint.sound :=
  .setPlState (.update (.setReg (h.foldl fun _ _ hd => hd.setReg)))

theorem Chip.sound.doReint (h : c.sound) {k v} : (doReint k v c).sound :=
  h.blockWrite fun _ hd => .ite hd (.ite (.ite (.startReint hd.update) (.update hd.update)) hd.setErr)

theorem Chip.sound.doReintAutoStart (h : c.sound) : (doReintAutoStart c).sound := .ite h.startReint h

theorem Chip.sound.planesResume (h : c.sound) : c.planesResume.sound := by
  unfold Chip.planesResume
  extract_lets +onlyGivenNames _ c1
  have h1 : c1.sound := .ite h.startReint (.ite h.startReint h.update)
  exact .ite (.setBitOf h1.update) h1

theorem Chip.sound.reintWiped (h : c.sound) : c.reintWiped.sound := .setPlState h.update

theorem Chip.sound.doReintCopyDone (h : c.sound) : (doReintCopyDone c).sound := .ite h (.setPlState h.update)

theorem Chip.sound.doReintCopyTimeout (h : c.sound) : (doReintCopyTimeout c).sound := .ite h h.reintFail

theorem Chip.sound.doReintSnapshotDone (h : c.sound) : (doReintSnapshotDone c).sound :=
  .ite h (.stgJoin (.setPlState h.update))

theorem Chip.sound.doReintJoinDone (h : c.sound) : (doReintJoinDone c).sound :=
  .ite h (.incRaise h.setPlState.setFldOf.update)

theorem Chip.sound.swapPlanes (h : c.sound) : c.swapPlanes.sound := h.setBitOf.setPlState.setPlState.incRaise

theorem Chip.sound.setProofNext (h : c.sound) {t} : (c.setProofNext t).sound := h.setReg.setReg

theorem Chip.sound.doProofSwapDue (h : c.sound) : (doProofSwapDue c).sound :=
  .ite h (.ite h.setProofNext (.ite h.setProofNext.update h.setProofNext.swapPlanes))

theorem Chip.sound.doSwap (h : c.sound) {k v} : (doSwap k v c).sound :=
  h.blockWrite fun _ hd => .ite hd (.ite hd.setErr hd.swapPlanes)

theorem Chip.sound.doProofSwapResume (h : c.sound) : (doProofSwapResume c).sound :=
  .ite h (.ite h.update (.ite h (.swapPlanes h.update)))

/-! ### The Signal Table (chapter 9) -/

theorem Chip.sound.sigBegin (h : c.sound) {r} : (c.sigBegin r).sound := h.update

theorem Chip.sound.keepPast (h : c.sound) {i} : (c.keepPast i).sound := .ite h.sigBegin h.sigBegin.update

theorem Chip.sound.putSig (h : c.sound) {l} : (c.putSig l).sound :=
  h.foldl fun _ _ hd => hd.setTword.setTword.setTword

theorem Chip.sound.sigErr (h : c.sound) {reason layout} : (c.sigErr reason layout).sound := h.setReg

theorem Chip.sound.sigMalformed (h : c.sound) {reason layout} : (c.sigMalformed reason layout).sound :=
  h.incRaise.sigErr.setErr

theorem Chip.sound.queueDrop (h : c.sound) {event} : (c.queueDrop event).sound := h.incRaise

theorem Chip.sound.pawnRequest (h : c.sound) {r} : (c.pawnRequest r).sound := by
  unfold Chip.pawnRequest
  split
  · exact .peak h.update
  · exact h.inc
  · exact h.queueDrop
  · exact h.incRaise

theorem Chip.sound.toEmit (h : c.sound) {l e} : (c.toEmit l e).sound := .ite h h.update

theorem Chip.sound.trigger (h : c.sound) {l e} : (c.trigger l e).sound := .ite h (.ite h.update h.toEmit)

theorem Chip.sound.changeEvent (h : c.sound) {e i depth new old status cap} :
    (c.changeEvent e i depth new old status cap).sound :=
  .ite (.trigger (.ite h.pawnRequest h)) (.ite h.pawnRequest h)

theorem Chip.sound.sigWrite (h : c.sound) {e i value cap0 inv layout depth} :
    (c.sigWrite e i value cap0 inv layout depth).sound := by
  unfold Chip.sigWrite
  extract_lets +onlyGivenNames c0 cap w2 st
  have h0 : c0.sound := .ite h.incRaise h
  exact .ite h0.inc (.ite h0.keepPast.setTword.setTword.setTword.changeEvent h0.keepPast.setTword.setTword.setTword)

/-! ### PDUs, layouts and emission (chapter 9) -/

theorem Chip.sound.sgEnqueue (h : c.sound) {e l kind data dl sub} : (c.sgEnqueue e l kind data dl sub).sound :=
  .ite h.expressCopies.enqueueFrame h.addTo.expressCopies.enqueueFrame

theorem Chip.sound.countEmission (h : c.sound) {l seq} : (c.countEmission l seq).sound := h.inc.setTword.update

theorem Chip.sound.emitPdu (h : c.sound) {e l pdu cap dl sub} : (c.emitPdu e l pdu cap dl sub).sound :=
  .ite h.countEmission.sgEnqueue (.ite h.sigMalformed h.countEmission.sgEnqueue)

theorem Chip.sound.emitContainer (h : c.sound) {e l} : (c.emitContainer e l).sound :=
  .ite h.sigMalformed (.ite h.sigMalformed h.countEmission.sgEnqueue)

theorem Chip.sound.slotCycle (h : c.sound) : c.slotCycle.sound := .ite h h.update

theorem Chip.sound.emitSlot (h : c.sound) {e l} : (c.emitSlot e l).sound :=
  .ite h.countEmission.update h.countEmission.update

theorem Chip.sound.emission (h : c.sound) {e l} : (c.emission e l).sound := by
  unfold Chip.emission
  refine .ite h ?_
  refine .ite h.sigMalformed ?_
  split
  · exact .ite h (.ite h.sigErr h.emitPdu)
  · exact .ite h (.ite h.sigErr h.emitPdu)
  · exact h.emitContainer
  · exact h.expressCopies.countEmission.enqueueFrame
  · exact h.emitSlot
  · exact h

theorem Chip.sound.flushEmits (h : c.sound) : c.flushEmits.sound := .foldl h.update fun _ _ hd => hd.emission

/-! ### Unpacking and the signals' sweeps (chapter 9) -/

theorem Chip.sound.staleIn (h : c.sound) {i} : (c.staleIn i).sound := h.tcount

theorem Chip.sound.unpackRec (h : c.sound) {e l depth data cap r} : (c.unpackRec e l depth data cap r).sound :=
  .ite h.inc.sigErr (.ite h.staleIn (.ite h h.sigWrite))

theorem Chip.sound.unpackPdu (h : c.sound) {e l src data cap} : (c.unpackPdu e l src data cap).sound := by
  unfold Chip.unpackPdu
  extract_lets +onlyGivenNames c1 c2 b
  have h2 : c2.sound := .inc (h.foldl fun _ _ hd => hd.unpackRec)
  exact .ite h2.pawnRequest h2

theorem Chip.sound.unpackMembers {e l src stamp pad locked data ms n off} (h : c.sound) :
    (c.unpackMembers e l src stamp pad locked data ms n off).sound := by
  induction n generalizing c off with
  | zero => exact h
  | succ n ih =>
    refine .ite h.incRaise.sigErr (.ite h.incRaise.sigErr (ih ?_))
    split
    · exact h.inc.sigErr
    · exact .ite h.sigMalformed h.unpackPdu

theorem Chip.sound.unpackContainer (h : c.sound) {e l src stamp data} :
    (c.unpackContainer e l src stamp data).sound :=
  .ite h.incRaise.sigErr (.ite h.incRaise.sigErr h.unpackMembers)

theorem Chip.sound.passEmit (h : c.sound) {k data stamp} : (c.passEmit k data stamp).sound :=
  .ite h.countEmission.sgEnqueue (.ite h.sigMalformed h.countEmission.sgEnqueue)

theorem Chip.sound.unpackCopy (h : c.sound) {k} : (c.unpackCopy k).sound :=
  .ite h.inc (.ite h.sigMalformed (.ite h.inc.sigErr (.ite (.ite h h.passEmit) (.ite h.unpackContainer h.unpackPdu))))

theorem Chip.sound.doUnpackPdu (h : c.sound) : (doUnpackPdu c).sound := by
  unfold Machine.doUnpackPdu
  split
  · exact h
  · exact .ite h.delCopy.fabDone (.ite h.resDrop.fabDone (.ite h h.delCopy.fabDone.sigBegin.unpackCopy))

theorem Chip.sound.sigHostRefuse (h : c.sound) : c.sigHostRefuse.sound := h.setErr.sigErr

theorem Chip.sound.hostSigWrite (h : c.sound) {i w v wide} : (c.hostSigWrite i w v wide).sound :=
  .ite (.ite h.sigHostRefuse h.sigBegin.sigWrite) (.ite h.setTword h)

theorem Chip.sound.doHostSignalWrite (h : c.sound) {k i w v wide} : (doHostSignalWrite k i w v wide c).sound :=
  .ite h (.ite h.deny (.ite h.setErr (.ite h.setErr.rejectWrite h.hostSigWrite)))

theorem Chip.sound.fallWatches (h : c.sound) {i} : (c.fallWatches i).sound := h.foldl fun _ _ hd => .ite hd.raise hd

theorem Chip.sound.doFlagFall (h : c.sound) {i} : (doFlagFall i c).sound := .ite h h.update

theorem Chip.sound.flagFalls (h : c.sound) {i} : (c.flagFalls i).sound := by
  unfold Chip.flagFalls
  extract_lets e stepped cap c1 c2 c3
  have h2 : c2.sound := h.keepPast.setTword.tcount.inc
  have h3 : c3.sound := .ite h2.pawnRequest h2
  exact .ite h3.trigger h3

theorem Chip.sound.judgeFalls (h : c.sound) : Chip.fstSound c.judgeFalls :=
  .foldPair (.mk h.update) fun _ _ hr => .ite (.mk hr.flagFalls) hr

theorem Chip.sound.sigCycle (h : c.sound) : c.sigCycle.sound :=
  h.judgeFalls.flushEmits.foldl fun _ _ hd => hd.fallWatches

theorem Chip.sound.doSweepDone (h : c.sound) : (doSweepDone c).sound := .ite h h.setBitOf.raise

theorem Chip.sound.layoutCommit (h : c.sound) {l} : (c.layoutCommit l).sound := h.update

theorem Chip.sound.doPduPeriodEmit (h : c.sound) {l} : (doPduPeriodEmit l c).sound :=
  .ite h (.ite h (.toEmit h.layoutCommit.update))

theorem Chip.sound.doEmitDeferred (h : c.sound) {l} : (doEmitDeferred l c).sound := by
  unfold Machine.doEmitDeferred
  split
  · exact h
  · exact .ite h (.toEmit h.update)

theorem Chip.sound.signalStep (h : c.sound) : c.signalStep.sound :=
  h.setFldOf.setBitOf.foldl fun _ _ hd => hd.layoutCommit

/-! ### The Pawn engines' issue and commit (chapter 10) -/

theorem Chip.sound.setInv (h : c.sound) {n v} : (c.setInv n v).sound := h.update

theorem Chip.sound.invEnd (h : c.sound) {n v fault} : (c.invEnd n v fault).sound :=
  .setReg (.ite (.setReg (.inc h.update)) (.inc h.update))

theorem Chip.sound.bothFlag (h : c.sound) {f} : (c.bothFlag f).sound :=
  .ite (.planeFlag (.ite h.planeFlag h)) (.ite h.planeFlag h)

theorem Chip.sound.faultRecord (h : c.sound) {n v code ucode} : (c.faultRecord n v code ucode).sound :=
  h.setReg.setReg.setReg

theorem Chip.sound.pawnFault (h : c.sound) {n v code ucode} : (c.pawnFault n v code ucode).sound := by
  unfold Chip.pawnFault
  refine .ite h ?_
  extract_lets c1 c2 c3
  have h1 : c1.sound := h.invEnd.faultRecord.inc
  have h3 : c3.sound := .scoreLog (.ite h1.incRaise h1.raise)
  exact .ite h3.bothFlag h3

theorem Chip.sound.pawnRead (h : c.sound) {n v u addr go} (hgo : ∀ d, d.sound → (go d).sound) :
    (c.pawnRead n v u addr go).sound := by
  unfold Chip.pawnRead
  extract_lets +onlyGivenNames xs
  refine .ite (hgo _ h) ?_
  extract_lets +onlyGivenNames c1 differs
  have h1 : c1.sound := h.planesUe
  exact .ite (.ite (.ite h1.pawnFault h1.pawnFault.inc.disagree) h1.pawnFault)
    (.ite (.ite (hgo _ h1) (hgo _ h1).inc.disagree) (hgo _ h1))

theorem Chip.sound.timerRun (h : c.sound) {j next} : (c.timerRun j next).sound := h.setTword

theorem Chip.sound.timerStop (h : c.sound) {j} : (c.timerStop j).sound := h.setTword

theorem Chip.sound.timerOp (h : c.sound) {e o} : (c.timerOp e o).sound := .ite h.timerStop h.timerRun

theorem Chip.sound.commitWrite (h : c.sound) {v w} : (c.commitWrite v w).sound := .ite h.sigWrite h.inc

theorem Chip.sound.storePoison (h : c.sound) {m k} : (c.storePoison m k).sound := .ite h.memUe.inc.raise h

theorem Chip.sound.commitStore (h : c.sound) {s} : (c.commitStore s).sound :=
  .ite h.setTword.memClean.memClean h.setTword.storePoison.storePoison

theorem Chip.sound.sendPdu (h : c.sound) {v l data capmin dlmin sub} : (c.sendPdu v l data capmin dlmin sub).sound :=
  .ite h (.ite h.sigErr (.ite h.sigMalformed (.ite h.sigMalformed h.emitPdu)))

theorem Chip.sound.commitEmit (h : c.sound) {v x} : (c.commitEmit v x).sound := by
  unfold Chip.commitEmit
  split
  · exact h.trigger
  · exact h.sendPdu

theorem Chip.sound.pawnCommit (h : c.sound) {n v} : (c.pawnCommit n v).sound :=
  .foldl (.foldl (.foldl (h.sigBegin.invEnd.foldl fun _ _ hd => hd.commitWrite) fun _ _ hd => hd.commitStore)
    fun _ _ hd => hd.timerOp) fun _ _ hd => hd.commitEmit

theorem Chip.sound.pawnApply (h : c.sound) {n v w x} : (c.pawnApply n v w x).sound := by
  unfold Chip.pawnApply
  split
  · exact h.pawnFault
  · exact h.pawnFault
  · exact .ite h h.pawnCommit
  · exact h.setInv
  · exact h.setInv

theorem Chip.sound.issue (h : c.sound) {n op sub f} : (c.issue n op sub f).sound := by
  unfold Chip.issue
  split
  · exact h
  · refine .ite h.pawnFault (.ite h.pawnFault ?_)
    refine h.pawnRead fun _ hd => .ite hd.pawnFault (.ite ?_ hd)
    split
    · exact hd.pawnApply
    · exact hd.pawnRead fun _ hd2 => hd2.pawnApply

/-! ### The Pawn instructions (chapter 10) -/

theorem Chip.sound.doEnd (h : c.sound) {n} : (doEnd n c).sound := .ite h.issue h

/-! ### Dispatch, kicks and timers of the Pawn engines (chapter 10) -/

theorem Chip.sound.doPawnDispatch (h : c.sound) : (doPawnDispatch c).sound := by
  unfold Machine.doPawnDispatch
  refine .ite h ?_
  split
  · exact h
  · extract_lets +onlyGivenNames _ c1
    have h1 : c1.sound := h.update
    exact .ite h1.inc (.ite h1.incRaise.scoreLog h1.setInv.setReg)

theorem Chip.sound.pawnKick (h : c.sound) {n v} : (c.pawnKick n v).sound := .ite h.setReg.raise h.pawnRequest.setReg

theorem Chip.sound.doPawnKick (h : c.sound) {k n v} : (doPawnKick k n v c).sound :=
  .ite h (h.blockWrite fun _ hd => hd.pawnKick)

theorem Chip.sound.doPawnTimerExpiry (h : c.sound) {j} : (doPawnTimerExpiry j c).sound := by
  unfold Machine.doPawnTimerExpiry
  extract_lets +onlyGivenNames w0 w1 next
  refine .ite h ?_
  extract_lets +onlyGivenNames p others c1 mine merged
  have h1 : c1.sound := .ite h.timerStop h.timerRun
  exact .ite (.incRaise h1.update) h1.pawnRequest

theorem Chip.sound.timerCommit (h : c.sound) {j old} : (c.timerCommit j old).sound :=
  .ite (.ite h.timerRun h) (.ite h.timerStop h)

theorem Chip.sound.doBudgetExhausted (h : c.sound) {n} : (doBudgetExhausted n c).sound := by
  unfold Machine.doBudgetExhausted
  split
  · exact h
  · exact .ite h.pawnFault h

theorem Chip.sound.doIllegalInstruction (h : c.sound) {n} : (doIllegalInstruction n c).sound := by
  unfold Machine.doIllegalInstruction
  split
  · exact h
  · exact .ite h (.ite h.pawnFault (h.pawnRead fun _ hd => .ite hd hd.pawnFault))

theorem Chip.sound.codeRefuse (h : c.sound) : c.codeRefuse.sound := h.incRaise.setErr

/-! ### Tempo (chapter 3) -/

theorem Chip.sound.setRate (h : c.sound) {r} : (c.setRate r).sound :=
  .ite h.tempoMark.setReg.setFldOf.setBitOf h.tempoMark.setReg.setFldOf.setBitOf.raise

theorem Chip.sound.servoRate (h : c.sound) {r} : (c.servoRate r).sound := h.setRate

theorem Chip.sound.doRateHiWrite (h : c.sound) {k hi lo be} : (doRateHiWrite k hi lo be c).sound :=
  .ite (.ite h.servoRate h) (h.blockWrite fun _ hd => .ite hd hd.setRate)

theorem Chip.sound.rateLoWrite (h : c.sound) {v mask} : (c.rateLoWrite v mask).sound := .ite h h.update

theorem Chip.sound.capture (h : c.sound) : c.capture.sound := h.setReg.setReg.setReg.setFldOf

theorem Chip.sound.doCapture (h : c.sound) {k v} : (doCapture k v c).sound :=
  h.blockWrite fun _ hd => .ite hd.capture hd

theorem Chip.sound.setTempoState (h : c.sound) {s} : (c.setTempoState s).sound := .ite h h.tempoMark.setFldOf.raise

theorem Chip.sound.setLock (h : c.sound) {n} : (c.setLock n).sound := h.update

theorem Chip.sound.steer (h : c.sound) : c.steer.sound := .ite h (.emit h.update)

theorem Chip.sound.toHoldover (h : c.sound) : c.toHoldover.sound := .steer (.setTempoState h.update)

theorem Chip.sound.toFree (h : c.sound) {alarm} : (c.toFree alarm).sound :=
  .ite h.setLock.setReg.setTempoState.steer.setAlarm h.setLock.setReg.setTempoState.steer

theorem Chip.sound.reachTargets (h : c.sound) : c.reachTargets.sound := h.foldl fun _ _ hd => .ite hd.setTxn hd

theorem Chip.sound.passTargets (h : c.sound) : c.passTargets.sound := h.foldl fun _ _ hd => .ite hd.setTxn hd

theorem Chip.sound.tempoStep {c0 : Chip} (h : c0.sound) {d fraction} : (c0.tempoStep d fraction).sound :=
  .signalStep (.guardStep (.update (.raise (.setReg (.setReg (.passTargets h.reachTargets.tempoMark.update))))))

theorem Chip.sound.servoSync (h : c.sound) {off lost} : (c.servoSync off lost).sound :=
  .ite (.ite h.toHoldover (.ite h.setReg.toHoldover h.setReg))
    (.ite h.setLock.tempoStep (.ite h.setLock (.ite h.setLock.setReg.setTempoState.steer h.setLock)))

theorem Chip.sound.syncNote (h : c.sound) {q m} : (c.syncNote q m).sound := h.update

theorem Chip.sound.doSyncReceived {c0 : Chip} (h : c0.sound) {q m raw} : (doSyncReceived q m raw c0).sound := by
  unfold Machine.doSyncReceived
  refine .ite h ?_
  extract_lets +onlyGivenNames off c
  have hc : c.sound := h.syncNote
  exact .ite hc (.ite (.servoSync hc.setReg.setReg.setReg.setReg.update) hc.setReg.setReg.setReg.setReg.update)

theorem Chip.sound.doSyncReceiptTimeout (h : c.sound) : (doSyncReceiptTimeout c).sound := .ite h h.toHoldover

theorem Chip.sound.doHoldoverExpiry (h : c.sound) : (doHoldoverExpiry c).sound := .ite h h.toFree

theorem Chip.sound.doHoldCfgWrite (h : c.sound) {k max v be} : (doHoldCfgWrite k max v be c).sound :=
  h.blockWrite fun _ hd => hd.plainWrite.doHoldoverExpiry

theorem Chip.sound.tempoCtrl (h : c.sound) {v mask present} : (c.tempoCtrl v mask present).sound := by
  unfold Chip.tempoCtrl
  extract_lets was c1
  have h1 : c1.sound := h.plainWrite.setBitOf.steer
  exact .ite (.ite h1.toHoldover h1.setLock) (.ite h1.setLock h1)

theorem Chip.sound.doTempoCtrlWrite (h : c.sound) {k v be present} : (doTempoCtrlWrite k v be present c).sound :=
  h.blockWrite fun _ hd => hd.tempoCtrl

theorem Chip.sound.setGo (h : c.sound) {v} : (c.setGo v).sound := .ite h h.tempoStep.toFree

theorem Chip.sound.doSetGo (h : c.sound) {k v} : (doSetGo k v c).sound := h.blockWrite fun _ hd => hd.setGo

theorem Chip.sound.doRef10Loss (h : c.sound) : (doRef10Loss c).sound :=
  .ite h.setBitOf.steer h.setBitOf.steer.setFldOf.raise.doHoldoverExpiry

theorem Chip.sound.doGptpSyncRelay (h : c.sound) {q corr rin rout ratio} :
    (doGptpSyncRelay q corr rin rout ratio c).sound :=
  .ite h (.ite h.incRaise h.emit)

theorem Chip.sound.doGptpSyncTransmit (h : c.sound) {q} : (doGptpSyncTransmit q c).sound := .ite h (.emit h.update)

theorem Chip.sound.almCtrl (h : c.sound) {i v mask} : (c.almCtrl i v mask).sound :=
  .ite h.plainWrite.update h.plainWrite

theorem Chip.sound.doAlmCtrlWrite (h : c.sound) {k i v be} : (doAlmCtrlWrite k i v be c).sound :=
  .ite h (h.blockWrite fun _ hd => hd.almCtrl)

theorem Chip.sound.alarmFires (h : c.sound) {i t} : (c.alarmFires i t).sound :=
  .ite (.setBitOf h.raise.update) h.raise.update

/-! ### What the Castle's commands share (chapter 15) -/

theorem Chip.sound.setCastle (h : c.sound) {k} : (c.setCastle k).sound := h.update

theorem Chip.sound.setRoot (h : c.sound) {s} : (c.setRoot s).sound := h.setFldOf

theorem Chip.sound.fresh (h : c.sound) {n} : Chip.sndSound (c.fresh? n) := .mk h.advanceFree

theorem Chip.sound.failJobs (h : c.sound) {ns code} : (c.failJobs ns code).sound := h.update

theorem Chip.sound.revokeKeys (h : c.sound) {gone} : (c.revokeKeys gone).sound := by
  unfold Chip.revokeKeys
  extract_lets +onlyGivenNames squares c1 c2 bnl
  have h2 : c2.sound := .foldl h.update fun _ _ hd => hd.raise
  exact .ite h2 (.raise h2.update)

theorem Chip.sound.clearSlots (h : c.sound) {ns code} : (c.clearSlots ns code).sound :=
  .ite h h.setCastle.failJobs.revokeKeys

theorem Chip.sound.putSlot (h : c.sound) {n s key} : (c.putSlot n s key).sound := h.fresh.setCastle

theorem Chip.sound.storeKey (h : c.sound) {n s key} : (c.storeKey n s key).sound := .ite h.putSlot.putSlot h.putSlot

theorem Chip.sound.install (h : c.sound) {n b key} : (c.install n b key).sound := h.clearSlots.storeKey

theorem Chip.sound.loadBlob (h : c.sound) {k n b klen} : Chip.fstSound (c.loadBlob k n b klen) :=
  .ite (.mk h) (.ite (.mk h) (.mk h.install))

theorem Chip.sound.blobOf (h : c.sound) {n} : Chip.sndSound (c.blobOf n) := by
  unfold Chip.blobOf
  split
  · exact .mk h
  · exact .mk h.fresh

theorem Chip.sound.bumpGen (h : c.sound) {n} : (c.bumpGen n).sound := h.setCastle

theorem Chip.sound.orphanAll {count fuel ps} (h : c.sound) : Chip.fstSound (c.orphanAll count fuel ps) := by
  induction fuel generalizing c count ps with
  | zero => exact h
  | succ fuel ih =>
    cases ps with
    | nil => exact h
    | cons p rest => exact ih (.setCastle (h.clearSlots.foldl fun _ _ hd => hd.bumpGen))

theorem Chip.sound.eraseSlots (h : c.sound) {ns} : (c.eraseSlots ns).sound := by
  unfold Chip.eraseSlots
  extract_lets c1 r
  have hr : Chip.fstSound r := .orphanAll (h.clearSlots.foldl fun _ _ hd => hd.bumpGen)
  exact .ite hr hr.addTo.raise

theorem Chip.sound.fuseResign (h : c.sound) : c.fuseResign.sound := by
  unfold Chip.fuseResign
  split
  · exact h.update
  · exact h.update

theorem Chip.sound.drawChal (h : c.sound) : c.drawChal.sound := h.fresh.foldl fun _ _ hd => hd.setReg

theorem Chip.sound.showId (h : c.sound) {pub} : (c.showId pub).sound :=
  .setReg (.setReg (h.foldl fun _ _ hd => hd.setReg))

theorem Chip.sound.zeroize (h : c.sound) : c.zeroize.sound := .setCastle (.showId (.revokeKeys h.update))

theorem Chip.sound.scoreClear (h : c.sound) {cause} : (c.scoreClear cause).sound :=
  .setBitOf (.setReg (.setReg (.setReg h.update)))

theorem Chip.sound.tamperScore (h : c.sound) {s resp phase} : (c.tamperScore s resp phase).sound := h.scoreLog

theorem Chip.sound.resign (h : c.sound) : c.resign.sound :=
  h.zeroize.fuseResign.setRoot.setCastle.setBitOf.raise.scoreClear.setAlarm

theorem Chip.sound.writeGenTable (h : c.sound) : c.writeGenTable.sound := h.fresh.setCastle

theorem Chip.sound.genFlush (h : c.sound) : c.genFlush.sound := .ite h.writeGenTable h

theorem Chip.sound.readGenTable (h : c.sound) : c.readGenTable.sound := by
  unfold Chip.readGenTable
  extract_lets +onlyGivenNames load
  have hload {up} : (load up c).sound := h.setCastle.foldl fun _ _ hd => hd.setReg
  split
  · exact .setCastle (.scoreLog hload.setBitOf)
  · exact .ite hload (.scoreLog (.raise hload.setBitOf))

theorem Chip.sound.autoloadOne (h : c.sound) {e} : (c.autoloadOne e).sound :=
  .ite h.loadBlob.inc h.loadBlob.inc.advanceFree.scoreLog

theorem Chip.sound.autoloadAll (h : c.sound) : c.autoloadAll.sound :=
  .ite h (.ite h.setCastle (.setCastle (h.foldl fun _ _ hd => hd.autoloadOne)))

theorem Chip.sound.regenerate (h : c.sound) {good} : (Chip.regenerate good c).sound := by
  unfold Chip.regenerate
  extract_lets +onlyGivenNames _ c0 c1
  have h1 : c1.sound := h.setCastle.setBitOf.showId
  refine .ite h1.setRoot.setAlarm ?_
  extract_lets +onlyGivenNames ct
  have ht : ct.sound := h1.advanceFree.setReg
  exact .ite ht.setRoot.raise.scoreLog ht.setCastle.setRoot.storeKey.storeKey.showId.readGenTable

/-! ### The Castle's commands and its sensors (chapter 15) -/

theorem Chip.sound.setKbuf (h : c.sound) {k b} : (c.setKbuf k b).sound := h.foldl fun _ _ hd => hd.setReg

theorem Chip.sound.castleStart (h : c.sound) {w k op work} (hwork : ∀ d, d.sound → Chip.fstSound (work d)) :
    (c.castleStart w k op work).sound :=
  .ite h (h.blockWrite fun _ hd => .ite hd.setBitOf.setErr (hwork _ hd).setCastle.setReg)

theorem Chip.sound.endsWith (h : c.sound) {op r} : Chip.fstSound (endsWith op r c) := .mk h

theorem Chip.sound.castleBad (h : c.sound) {w k op} : (c.castleBad w k op).sound :=
  h.castleStart fun _ hd => hd.endsWith

theorem Chip.sound.doLoad (h : c.sound) {w k} : (doLoad w k c).sound := h.castleStart fun _ hd => .mk hd.loadBlob

theorem Chip.sound.doWrap (h : c.sound) {w k} : (doWrap w k c).sound := by
  unfold Machine.doWrap
  refine h.castleStart fun _ hd => ?_
  split
  · exact hd.endsWith
  · exact .ite hd.endsWith (.mk hd.blobOf)

theorem Chip.sound.doImport (h : c.sound) {w k} : (doImport w k c).sound :=
  h.castleStart fun _ hd => .ite hd.endsWith (.ite hd.endsWith
    (.ite hd.endsWith (.ite hd.endsWith (.ite hd.endsWith (.mk hd.install)))))

theorem Chip.sound.doGenerate (h : c.sound) {w k} : (doGenerate w k c).sound :=
  h.castleStart fun _ hd => .ite hd.endsWith (.ite hd.endsWith (.mk hd.fresh.install))

theorem Chip.sound.doUnload (h : c.sound) {w k} : (doUnload w k c).sound := by
  unfold Machine.doUnload
  refine h.castleStart fun _ hd => ?_
  split
  · exact hd.endsWith
  · exact .mk hd.clearSlots

theorem Chip.sound.doErase (h : c.sound) {w k} : (doErase w k c).sound := by
  unfold Machine.doErase
  refine h.castleStart fun _ hd => ?_
  split
  · exact hd.endsWith
  · exact .mk hd.eraseSlots

theorem Chip.sound.doPubkey (h : c.sound) {w k} : (doPubkey w k c).sound := by
  unfold Machine.doPubkey
  refine h.castleStart fun _ hd => ?_
  split
  · exact hd.endsWith
  · exact .ite hd.endsWith (.mk hd)

theorem Chip.sound.doStore (h : c.sound) {w k} : (doStore w k c).sound := by
  unfold Machine.doStore
  refine h.castleStart fun _ hd => ?_
  split
  · exact hd.endsWith
  · exact .mk hd.blobOf

theorem Chip.sound.doUnstore (h : c.sound) {w k} : (doUnstore w k c).sound := by
  unfold Machine.doUnstore
  refine h.castleStart fun _ hd => ?_
  split
  · exact hd.endsWith
  · exact .mk hd

theorem Chip.sound.doClearResign (h : c.sound) {w k} : (doClearResign w k c).sound :=
  h.castleStart fun _ hd => .ite hd.endsWith (.mk (.ite hd.drawChal.setCastle hd.drawChal))

theorem Chip.sound.doRootRetry (h : c.sound) {w k good} : (doRootRetry w k good c).sound :=
  h.castleStart fun _ hd => .ite hd.endsWith (.mk (.ite hd.regenerate.autoloadAll hd))

theorem Chip.sound.setAutoload (h : c.sound) {n b} : (c.setAutoload n b).sound := h.setCastle

theorem Chip.sound.doCastleCommandDone (h : c.sound) {k} : (doCastleCommandDone k c).sound := by
  unfold Machine.doCastleCommandDone
  split
  · exact h
  · refine .ite h ?_
    extract_lets ok _ c1 c2 c3 rejected c4
    have h1 : c1.sound := h.setCastle
    have h2 : c2.sound := .ite h1.writeGenTable (.ite h1.setAutoload (.ite h1.setAutoload (.ite h1.inc h1)))
    have h3 : c3.sound := by
      unfold c3
      refine .ite ?_ h2.setKbuf
      split
      · exact h2.setKbuf.setReg
      · exact h2
    exact h3.setReg.raise

theorem Chip.sound.doSlotRemask (h : c.sound) {n} : (doSlotRemask n c).sound := by
  unfold Machine.doSlotRemask
  split
  · exact h
  · exact .ite h h.fresh.setCastle

theorem Chip.sound.doRngFail (h : c.sound) : (doRngFail c).sound := h.setCastle.raise

theorem Chip.sound.tamperLast (h : c.sound) {s resp phase} : (c.tamperLast s resp phase).sound := h.setReg.setReg

theorem Chip.sound.aoTamper (h : c.sound) {s resp phase} : (c.aoTamper s resp phase).sound :=
  .ite h.setCastle h.setCastle

theorem Chip.sound.resignLogged (h : c.sound) {s phase} : (c.resignLogged s phase).sound :=
  .update (.tamperScore (.resign h.update))

theorem Chip.sound.copyAoLog (h : c.sound) : c.copyAoLog.sound := by
  unfold Chip.copyAoLog
  extract_lets +onlyGivenNames put c1 _ c2
  have h2 : c2.sound := .setCastle (h.foldl fun _ _ hd => hd.tamperScore.update)
  exact .ite h2 h2.update

theorem Chip.sound.tamperIn (h : c.sound) {s resp phase} : (c.tamperIn s resp phase).sound := by
  unfold Chip.tamperIn
  extract_lets +onlyGivenNames c1
  have h1 : c1.sound := h.tamperLast
  refine .ite h1.tamperScore ?_
  extract_lets x c2 c3 c4
  have hx : x.sound := .ite h1 h1.zeroize.setRoot.setAlarm
  have h3 : c3.sound := .setReg (.ite (.ite h1.resign h1.resignLogged) (.ite hx hx.tamperScore))
  exact .setAlarm (.raise (.ite h3.aoTamper h3))

theorem Chip.sound.tamperRunning (h : c.sound) {s resp} : (c.tamperRunning s resp).sound := h.tamperIn

theorem Chip.sound.tamperLogLater (h : c.sound) {s phase} : (c.tamperLogLater s phase).sound := h.tamperScore.update

theorem Chip.sound.tamperAo (h : c.sound) {s resp phase} : (c.tamperAo s resp phase).sound :=
  .setAlarm (.raise (.setReg (.ite h.tamperLast.aoTamper.setCastle h.tamperLast.aoTamper)))

theorem Chip.sound.tamperHeld (h : c.sound) {s resp} : (c.tamperHeld s resp).sound :=
  .ite h.tamperLast.tamperLogLater h.tamperAo.setRoot.setAlarm

theorem Chip.sound.tamperAsleep (h : c.sound) {s resp} : (c.tamperAsleep s resp).sound :=
  .ite h.tamperLast.tamperLogLater h.setReg.tamperAo

theorem Chip.sound.tamperEvent (h : c.sound) {s out} : (Chip.tamperEvent s out c).sound := by
  unfold Chip.tamperEvent
  refine .ite h ?_
  split
  · exact h
  · exact .ite h (.ite h.setBitOf (.ite h h.setBitOf.tamperHeld))
  · exact .ite h (.ite h.setBitOf (.ite h h.setBitOf.tamperAsleep))
  · exact .ite h (.ite h.setBitOf (.ite h h.setBitOf.tamperAsleep))
  · exact .ite h.setBitOf (.ite h h.setBitOf.tamperRunning)
  · exact .ite h.setBitOf (.ite h h.setBitOf.tamperRunning)

theorem Chip.sound.doTamperSensorFire (h : c.sound) {s r} : (doTamperSensorFire s r c).sound := .ite h.tamperEvent h

theorem Chip.sound.doSleepLatchWrite (h : c.sound) {k v be} : (doSleepLatchWrite k v be c).sound :=
  h.blockWrite fun _ hd => .ite hd.setReg.setBitOf hd.setReg

theorem Chip.sound.doAutoloadDeferred (h : c.sound) : (doAutoloadDeferred c).sound := .ite h h.autoloadAll

theorem Chip.sound.minSvnWrite (h : c.sound) {k v mask} : (c.minSvnWrite k v mask).sound :=
  .ite h h.setReg.setCastle.genFlush

/-! ### Sending Benolsia messages (chapter 19) -/

theorem Chip.sound.bnlSeqNext (h : c.sound) : c.bnlSeqNext.sound := .ite h.setReg.raise h.setReg

theorem Chip.sound.bnlSend (h : c.sound) {dst mac square vlan typ tag body} :
    (c.bnlSend dst mac square vlan typ tag body).sound :=
  .ite h h.bnlSeqNext.inc.enqueueFrame

theorem Chip.sound.bnlRespond (h : c.sound) {r body} : (c.bnlRespond r body).sound := .ite h h.bnlSend

/-! ### The cipher complex's queue (chapter 16) -/

theorem Chip.sound.setJobs (h : c.sound) {l} : (c.setJobs l).sound := h.update

theorem Chip.sound.modJob (h : c.sound) {id f} : (c.modJob id f).sound := h.setJobs

theorem Chip.sound.addJob (h : c.sound) {j} : (c.addJob j).sound := h.update

theorem Chip.sound.intakeCopy (h : c.sound) {k} : (c.intakeCopy k).sound :=
  .ite h.resDrop.fabDone (.ite h.delCopy.fabDone.incRaise h.delCopy.fabDone.addJob)

theorem Chip.sound.cxIntake (h : c.sound) : c.cxIntake.sound := h.foldl fun _ _ hd => hd.intakeCopy

theorem Chip.sound.cxDispatch (h : c.sound) {op work} (hwork : ∀ d x0 x1, d.sound → Chip.fstSound (work d x0 x1)) :
    (c.cxDispatch op work).sound := by
  unfold Chip.cxDispatch
  extract_lets c0 core
  have h0 : c0.sound := h.cxIntake
  refine .ite h0 ?_
  split
  · exact h0
  · exact .ite h0 (.ite h0.modJob (hwork _ _ _ h0).modJob)

theorem Chip.sound.arbJob (h : c.sound) {desc segs} : (c.arbJob desc segs).sound := .ite h h.addJob

theorem Chip.sound.doCxDescriptorFetch (h : c.sound) {k desc segs err} :
    (doCxDescriptorFetch k desc segs err c).sound := by
  unfold Machine.doCxDescriptorFetch
  extract_lets +onlyGivenNames c0
  have h0 : c0.sound := h.cxIntake
  refine .ite h0.arbJob ?_
  split
  · exact h0
  · exact .ite h0 h0.addJob.update

theorem Chip.sound.doJrTailWrite (h : c.sound) {w k v be} : (doJrTailWrite w k v be c).sound :=
  .ite h (h.blockWrite fun _ hd => hd.plainWrite)

/-! ### Cipher jobs (chapter 16) -/

theorem Chip.sound.pureJob (h : c.sound) {f j key} : Chip.fstSound (pureJob f c j key) := .mk h

theorem Chip.sound.doGcmEncrypt (h : c.sound) : (doGcmEncrypt c).sound := h.cxDispatch fun _ _ _ hd => hd.pureJob

theorem Chip.sound.doGcmDecrypt (h : c.sound) : (doGcmDecrypt c).sound := h.cxDispatch fun _ _ _ hd => hd.pureJob

theorem Chip.sound.doGmacGenerate (h : c.sound) : (doGmacGenerate c).sound := h.cxDispatch fun _ _ _ hd => hd.pureJob

theorem Chip.sound.doGmacVerify (h : c.sound) : (doGmacVerify c).sound := h.cxDispatch fun _ _ _ hd => hd.pureJob

theorem Chip.sound.doCcmEncrypt (h : c.sound) : (doCcmEncrypt c).sound := h.cxDispatch fun _ _ _ hd => hd.pureJob

theorem Chip.sound.doCcmDecrypt (h : c.sound) : (doCcmDecrypt c).sound := h.cxDispatch fun _ _ _ hd => hd.pureJob

theorem Chip.sound.doCmacGenerate (h : c.sound) : (doCmacGenerate c).sound := h.cxDispatch fun _ _ _ hd => hd.pureJob

theorem Chip.sound.doCmacVerify (h : c.sound) : (doCmacVerify c).sound := h.cxDispatch fun _ _ _ hd => hd.pureJob

theorem Chip.sound.doShake256 (h : c.sound) : (doShake256 c).sound := h.cxDispatch fun _ _ _ hd => hd.pureJob

theorem Chip.sound.doEd448Sign (h : c.sound) : (doEd448Sign c).sound := h.cxDispatch fun _ _ _ hd => hd.pureJob

theorem Chip.sound.doEd448Verify (h : c.sound) : (doEd448Verify c).sound := h.cxDispatch fun _ _ _ hd => hd.pureJob

theorem Chip.sound.doAttest (h : c.sound) : (doAttest c).sound := h.cxDispatch fun _ _ _ hd => .mk hd

theorem Chip.sound.freeAccept (h : c.sound) : c.freeAccept.sound := h.incRaise

theorem Chip.sound.sealWork (h : c.sound) {j key} : Chip.fstSound (c.sealWork j key) := by
  unfold Chip.sealWork
  split
  · exact .mk h
  · exact .ite (.mk h) (.ite (.mk h) (.ite (.mk h) (.mk (.ite h.setTword.freeAccept h.setTword))))

theorem Chip.sound.verifyWork (h : c.sound) {j key} : Chip.fstSound (c.verifyWork j key) := by
  unfold Chip.verifyWork
  split
  · exact .mk h
  · exact .ite (.mk h) (.ite (.mk h) (.ite (.mk h) (.ite (.mk h)
      (.ite (.mk (.ite h.freeAccept h)) (.mk (.setTword (.ite h.freeAccept h)))))))

theorem Chip.sound.doSealJob (h : c.sound) : (doSealJob c).sound := h.cxDispatch fun _ _ _ hd => hd.sealWork

theorem Chip.sound.doVerifyJob (h : c.sound) : (doVerifyJob c).sound := h.cxDispatch fun _ _ _ hd => hd.verifyWork

theorem Chip.sound.cxByAction (h : c.sound) {k r} : (c.cxByAction k r).sound :=
  .ite h.incRaise (.ite h.incRaise h.routeFrame)

theorem Chip.sound.cxByPlace (h : c.sound) {k r} : (c.cxByPlace k r).sound :=
  .ite (.ite h.inc h.expressCopies.enqueueFrame) h.addTo.expressCopies.enqueueFrame

theorem Chip.sound.cxContinue (h : c.sound) {j k} : (c.cxContinue j k).sound :=
  .ite h.tcount.inc.cxByAction h.tcount.inc.cxByPlace

theorem Chip.sound.cxCount (h : c.sound) {status} : (c.cxCount status).sound := by
  unfold Chip.cxCount
  split
  · exact h.incRaise
  · exact h.incRaise
  · exact h.incRaise
  · exact h.incRaise
  · exact h.incRaise
  · exact h.inc
  · exact h.inc
  · exact h

theorem Chip.sound.cxDiscard (h : c.sound) {j k} : (c.cxDiscard j k).sound :=
  .ite h.tcount.cxCount.setReg.setReg.mirrorOffer h.tcount.cxCount.setReg.setReg

theorem Chip.sound.jrAdvance {k size n} (h : c.sound) : (c.jrAdvance k size n).sound := by
  induction n generalizing c with
  | zero => exact h
  | succ n ih => exact .ite (ih (.setReg h.update)) h

theorem Chip.sound.cxHostDone (h : c.sound) {j dma} : (c.cxHostDone j dma).sound := by
  unfold Chip.cxHostDone
  extract_lets status w output tag c1 word c2 _ c3
  have hw {d : Chip} (hd : d.sound) {a b} : (w d a b).sound := .ite hd hd.emit
  have houtput : (output c).sound := .ite (hw h) h
  have h1 : c1.sound := .ite (hw houtput) houtput
  have h2 : c2.sound := hw h1
  exact .ite h (.ite (.raise (.ite h (.ite houtput h1))) (.raise (.jrAdvance (.ite h2 h2.update))))

theorem Chip.sound.cxBnlDone (h : c.sound) {j r} : (c.cxBnlDone j r).sound := h.bnlRespond

theorem Chip.sound.doCxJobDone (h : c.sound) {id dma} : (doCxJobDone id dma c).sound := by
  unfold Machine.doCxJobDone
  split
  · exact h
  · extract_lets c1
    have h1 : c1.sound := h.setJobs.inc
    split
    · exact .ite h1.cxContinue h1.cxDiscard
    · split
      · exact h1.cxBnlDone
      · exact h1.cxHostDone

theorem Chip.sound.saCommit (h : c.sound) {q n a} : (c.saCommit q n a).sound := by
  unfold Chip.saCommit
  extract_lets +onlyGivenNames off w0 id c1
  have h1 : c1.sound := h.setTword
  refine .ite h1.update ?_
  split
  · exact h1.update
  · exact .setErr h1.setTword.update

/-! ### Memory errors and repair (chapter 17) -/

theorem Chip.sound.memCe (h : c.sound) {m addr} : (c.memCe m addr).sound := by
  unfold Chip.memCe
  extract_lets +onlyGivenNames c1 c2 level
  have h1 : c1.sound := h.inc.inc
  have h2 : c2.sound := .ite h1 h1.setReg.setReg
  exact .ite h2.setFldOf (.ite h2 (.scoreLog (.raise h2.update)))

theorem Chip.sound.trackCe (h : c.sound) {m addr pass} : (c.trackCe m addr pass).sound := by
  unfold Chip.trackCe
  extract_lets +onlyGivenNames t put
  split
  · extract_lets e' c1
    have h1 : c1.sound := h.update
    exact .ite h1.inc.raise.scoreLog h1
  · extract_lets new c1
    have h1 : c1.sound := .ite h.update h.inc.update
    exact .ite h1.inc.raise.scoreLog h1

theorem Chip.sound.passDone (h : c.sound) {m} : (c.passDone m).sound :=
  .ite (.setFldOf h.update) (.setBitOf (.setFldOf h.update))

theorem Chip.sound.passLate (h : c.sound) {m} : (c.passLate m).sound := .ite h.setBitOf.raise h

theorem Chip.sound.doScrubRead (h : c.sound) {m addr res last} : (doScrubRead m addr res last c).sound := by
  unfold Machine.doScrubRead
  refine .ite h ?_
  extract_lets c0 c1
  have h0 : c0.sound := h.passLate
  have h1 : c1.sound := .ite h0 (.ite h0.memCe.trackCe (.ite h0.memUe (.ite h0.memCe h0)))
  exact .ite h1.passDone h1

theorem Chip.sound.doBucketLeak (h : c.sound) {m} : (doBucketLeak m c).sound := .ite h (.setFldOf h.update)

theorem Chip.sound.doRetireGo (h : c.sound) {k v} : (doRetireGo k v c).sound := by
  unfold Machine.doRetireGo
  refine h.blockWrite fun _ hd => .ite hd ?_
  extract_lets +onlyGivenNames m pg r c1
  have h1 : c1.sound := hd.setFldOf
  exact .ite h1 (.ite (.fabDone (.setBitOf h1.setReg.setFldOf.update)) h1.setReg.setFldOf)

theorem Chip.sound.doAllocRetireComplete (h : c.sound) : (doAllocRetireComplete c).sound := h.setBitOf

theorem Chip.sound.bist (h : c.sound) {m bad} : (c.bist m bad).sound := .ite h.setBitOf.raise h.setFldOf.setBitOf

theorem Chip.sound.doBistRun (h : c.sound) {k v bad} : (doBistRun k v bad c).sound :=
  h.blockWrite fun _ hd => .ite hd hd.bist

theorem Chip.sound.retInit (h : c.sound) : c.retInit.sound := .ite h.scoreClear h

theorem Chip.sound.doRetInit (h : c.sound) {k v} : (doRetInit k v c).sound :=
  .ite (.ite h.retInit h) (h.blockWrite fun _ hd => .ite hd.setBitOf hd)

/-! ### The Arbiter (chapter 18) -/

theorem Chip.sound.setArb (h : c.sound) {a} : (c.setArb a).sound := h.update

theorem Chip.sound.setArbState (h : c.sound) {s} : (c.setArbState s).sound := h.setFldOf

theorem Chip.sound.arbEnd (h : c.sound) {k op result} : (c.arbEnd k op result).sound := h.setArb.setReg.raise

theorem Chip.sound.arbRestart (h : c.sound) {cause} : (c.arbRestart cause).sound := by
  unfold Chip.arbRestart
  extract_lets running c1 _ c2 c3 _ _ c4 c5
  have h5 : c5.sound := .scoreLog (.setFldOf (.update (.setReg
    (.inc (.setArb (.setArbState (.ite (h.foldl fun _ _ hd => hd.arbEnd) h)))))))
  exact .ite h5.setAlarm h5

theorem Chip.sound.doArbCoreMismatch (h : c.sound) : (doArbCoreMismatch c).sound := .ite h.arbRestart h

theorem Chip.sound.doArbWatchdogExpiry (h : c.sound) : (doArbWatchdogExpiry c).sound := .ite h.arbRestart h

theorem Chip.sound.doRestart (h : c.sound) {k v} : (doRestart k v c).sound :=
  h.blockWrite fun _ hd => .ite hd.arbRestart hd

theorem Chip.sound.arbStart (h : c.sound) {w k op bad} : (c.arbStart w k op bad).sound :=
  .ite h (h.blockWrite fun _ hd => .ite hd.setErr (.ite hd.arbEnd hd.setReg.setArb))

theorem Chip.sound.doPing (h : c.sound) {w k} : (doPing w k c).sound := h.arbStart

theorem Chip.sound.doFlush (h : c.sound) {w k} : (doFlush w k c).sound := h.arbStart

theorem Chip.sound.doArchRead (h : c.sound) {w k} : (doArchRead w k c).sound := h.arbStart

theorem Chip.sound.doEyeScan (h : c.sound) {w k} : (doEyeScan w k c).sound := h.arbStart

theorem Chip.sound.doMka (h : c.sound) {w k} : (doMka w k c).sound := h.arbStart

theorem Chip.sound.doScoreEntryWrite (h : c.sound) : (doScoreEntryWrite c).sound := by
  unfold Machine.doScoreEntryWrite
  refine .ite h ?_
  split
  · exact h
  · extract_lets i old seq _ c1 c2 c3
    have h1 : c1.sound := h.update
    have h3 : c3.sound := .setReg (.setReg (.ite h1.incRaise h1))
    exact .ite h3.raise h3

theorem Chip.sound.archiveEntry (h : c.sound) {e} : (c.archiveEntry e).sound := .ite (.inc h.update) h.update

theorem Chip.sound.scoreFlush (h : c.sound) : c.scoreFlush.sound :=
  .setReg (.update (h.foldl fun _ _ hd => hd.archiveEntry))

theorem Chip.sound.doScoreFlush (h : c.sound) : (doScoreFlush c).sound := .ite h.scoreFlush h

theorem Chip.sound.doEnt7Read (h : c.sound) {k seen} : (doEnt7Read k seen c).sound := by
  unfold Machine.doEnt7Read
  exact h.volatileRead fun _ hd => hd.setReg

theorem Chip.sound.sensLog (h : c.sound) {ch side val lim} : (c.sensLog ch side val lim).sound := h.scoreLog

theorem Chip.sound.sensCheck (h : c.sound) {ch val} : (c.sensCheck ch val).sound :=
  .ite h.setArb.setBitOf.setBitOf.raise.setAlarm.sensLog (.ite h.setArb.setBitOf.sensLog h)

theorem Chip.sound.doSensSample (h : c.sound) {ch val} : (doSensSample ch val c).sound := by
  unfold Machine.doSensSample
  extract_lets +onlyGivenNames due
  refine .ite h ?_
  extract_lets _ c1 mx mn v c2 c3
  have h1 : c1.sound := h.setArb.setReg
  have h2 : c2.sound := .ite h1.setFldOf h1
  have h3 : c3.sound := .ite h2.setFldOf h2
  exact .ite h3.sensCheck h3

theorem Chip.sound.eyeMeasured (h : c.sound) {q eye} : (c.eyeMeasured q eye).sound :=
  .ite h.setReg.setBitOf.raise.scoreLog h.setReg

theorem Chip.sound.doEyeScanPeriodic (h : c.sound) {eyes} : (doEyeScanPeriodic eyes c).sound :=
  .ite h (h.setArb.foldl fun _ _ hd => .ite hd.eyeMeasured hd)

theorem Chip.sound.arbExec (h : c.sound) {k op args eye} : Chip.fstSound (c.arbExec k op args eye) := by
  unfold Chip.arbExec
  refine .ite (.mk h) (.ite (.mk h.scoreFlush) (.ite ?_ (.ite (.ite (.mk h) (.mk h.eyeMeasured))
    (.ite (.ite (.mk h) (.ite (.mk h) (.mk h.setArb))) (.mk h)))))
  split
  · exact .mk h
  · exact .mk h

/-! ### Remote windows (chapter 19) -/

theorem Chip.sound.setHost (h : c.sound) {h'} : (c.setHost h').sound := h.update

theorem Chip.sound.setBrg (h : c.sound) {l} : (c.setBrg l).sound := h.setHost

theorem Chip.sound.complete (h : c.sound) {k code data} : (c.complete k code data).sound := .ite h.emit.inc h.emit

theorem Chip.sound.winSend (h : c.sound) {w typ tag body} : (c.winSend w typ tag body).sound := h.bnlSend

theorem Chip.sound.werrLog (h : c.sound) {kind win status tag off} : (c.werrLog kind win status tag off).sound :=
  .ite h.setHost h.inc

theorem Chip.sound.faultWin (h : c.sound) {w} : (c.faultWin w).sound := h.setBitOf.raise

theorem Chip.sound.sendReq (h : c.sound) {r} : (c.sendReq r).sound := by
  unfold Chip.sendReq
  extract_lets a
  split
  · exact .ite h.winSend (.ite h.winSend h.winSend)
  · exact .ite h.winSend h.winSend

theorem Chip.sound.replaceReq (h : c.sound) {r} : (c.replaceReq r).sound := h.setBrg

theorem Chip.sound.dropReq (h : c.sound) {r} : (c.dropReq r).sound := h.setBrg

theorem Chip.sound.pump {n} (h : c.sound) : (c.pump n).sound := by
  induction n generalizing c with
  | zero => exact h
  | succ n ih =>
    unfold Chip.pump
    split
    · exact h
    · exact ih (.sendReq (.ite h.setBrg.setHost h.setBrg))

theorem Chip.sound.pumpAll (h : c.sound) : c.pumpAll.sound := h.pump

theorem Chip.sound.bar4 (h : c.sound) {k off len posted r} : (c.bar4 k off len posted r).sound :=
  .ite h (.ite (.ite h h.complete) (.ite (.ite h.inc h.complete) (.ite h h.setBrg.pumpAll)))

theorem Chip.sound.doBar4Read (h : c.sound) {k off len} : (doBar4Read k off len c).sound :=
  .ite (.ite h.complete h) h.bar4

theorem Chip.sound.doBar4Write (h : c.sound) {k off d} : (doBar4Write k off d c).sound := .ite h h.bar4

theorem Chip.sound.doBar4AtomicOp (h : c.sound) {k off op size a b} : (doBar4AtomicOp k off op size a b c).sound :=
  .ite (.ite h.complete h) h.bar4

theorem Chip.sound.semRelease (h : c.sound) {w addr} : (c.semRelease w addr).sound := h.setHost.winSend.pumpAll

theorem Chip.sound.atomicEnd (h : c.sound) {r code data} : (c.atomicEnd r code data).sound :=
  h.dropReq.semRelease.complete

theorem Chip.sound.atomicStep (h : c.sound) {r m status data} : (c.atomicStep r m status data).sound := by
  unfold Chip.atomicStep
  refine .ite (.ite h.werrLog.faultWin.atomicEnd h.werrLog.atomicEnd)
    (.ite h.replaceReq.sendReq (.ite ?_ h.atomicEnd))
  extract_lets old
  split
  · exact h.atomicEnd
  · exact h.replaceReq.sendReq

theorem Chip.sound.doBnlResponseReceived (h : c.sound) : (doBnlResponseReceived c).sound := by
  unfold Machine.doBnlResponseReceived
  split
  · exact h
  · extract_lets _ c0 w t typ status
    have h0 : c0.sound := h.setHost
    split
    · exact .ite h0.werrLog.incRaise h0
    · refine .ite h0 (.ite h0 (.ite h0.replaceReq ?_))
      split
      · exact h0.atomicStep
      · exact .ite (.ite h0.dropReq.pumpAll h0.dropReq.werrLog.faultWin.pumpAll)
          (.ite h0.dropReq.complete.pumpAll h0.dropReq.werrLog.complete.pumpAll)

theorem Chip.sound.doBridgeTagTimeout (h : c.sound) {w t} : (doBridgeTagTimeout w t c).sound := by
  unfold Machine.doBridgeTagTimeout
  split
  · exact h
  · refine .ite h ?_
    extract_lets c1
    have h1 : c1.sound := h.inc
    split
    · exact .ite h1.werrLog.faultWin.atomicEnd h1.werrLog.atomicEnd
    · exact .ite h1.dropReq.werrLog.faultWin.pumpAll h1.dropReq.werrLog.complete.pumpAll

theorem Chip.sound.doBridgeBusyRetry (h : c.sound) {w t} : (doBridgeBusyRetry w t c).sound := by
  unfold Machine.doBridgeBusyRetry
  split
  · exact h
  · exact .ite h h.replaceReq.sendReq

theorem Chip.sound.doSemAcquireRead (h : c.sound) {k w seen} : (doSemAcquireRead k w seen c).sound := by
  unfold Machine.doSemAcquireRead
  refine .ite h ?_
  split
  · exact h.echo
  · exact h.setHost.winSend.echo

theorem Chip.sound.doSemRelease (h : c.sound) {k w} : (doSemRelease k w c).sound :=
  .ite h (.ite h.deny (.ite h.setErr (.ite h.semRelease h)))

theorem Chip.sound.doSemLeaseRenew (h : c.sound) {w} : (doSemLeaseRenew w c).sound := by
  unfold Machine.doSemLeaseRenew
  split
  · exact h
  · exact .ite h h.setHost.winSend

theorem Chip.sound.doSemHoldTimeout (h : c.sound) {w} : (doSemHoldTimeout w c).sound := by
  unfold Machine.doSemHoldTimeout
  split
  · exact h
  · exact .ite h h.semRelease.raise

theorem Chip.sound.doWerrPop (h : c.sound) {k seen} : (doWerrPop k seen c).sound := by
  unfold Machine.doWerrPop
  split
  · exact h.volatileRead fun _ hd => hd
  · exact h.volatileRead fun _ hd => hd.setHost.setReg.setReg

theorem Chip.sound.brgAbort (h : c.sound) : c.brgAbort.sound := .setHost (h.foldl fun _ _ hd => .ite hd hd.complete)

/-! ### Host partitions and their rings (chapter 19) -/

theorem Chip.sound.hdmaForget (h : c.sound) {k} : (c.hdmaForget k).sound := h.setHost

theorem Chip.sound.hdmaReset (h : c.sound) {k} : (c.hdmaReset k).sound := h.resetPage.setReg.hdmaForget.pbaSettle

theorem Chip.sound.semsRelease (h : c.sound) {k} : (c.semsRelease k).sound := h.foldl fun _ _ hd => hd.semRelease

theorem Chip.sound.msixReset (h : c.sound) {k} : (c.msixReset k).sound := .setPart h.update

theorem Chip.sound.flr (h : c.sound) {k} : (c.flr k).sound := h.hdmaReset.msixReset.setBrg.semsRelease

theorem Chip.sound.doFunctionLevelReset (h : c.sound) {k} : (doFunctionLevelReset k c).sound := .ite h h.flr

theorem Chip.sound.linkOff (h : c.sound) {k} : (c.linkOff k).sound := h.setPart.msixReset.setReg

theorem Chip.sound.doPerstAssert (h : c.sound) {k} : (doPerstAssert k c).sound := .ite h h.linkOff.setPart.flr

theorem Chip.sound.doPerstNRelease (h : c.sound) {k} : (doPerstNRelease k c).sound := .ite h h.setPart

theorem Chip.sound.sendPending (h : c.sound) {k} : (c.sendPending k).sound := h.foldl fun _ _ hd => hd.sendVec

theorem Chip.sound.msixWrite (h : c.sound) {k unmasked} : (c.msixWrite k unmasked).sound :=
  .foldl (.setPart h.update) fun _ _ hd => hd.sendVec

theorem Chip.sound.doPcieLinkUp (h : c.sound) {k width speed} : (doPcieLinkUp k width speed c).sound :=
  .ite h h.setPart.setReg.sendPending

theorem Chip.sound.doDlDown (h : c.sound) {k} : (doDlDown k c).sound := .ite h h.linkOff

theorem Chip.sound.doHdmaTxTailWrite (h : c.sound) {w k t v be} : (doHdmaTxTailWrite w k t v be c).sound :=
  .ite h (h.blockWrite fun _ hd => hd.plainWrite)

theorem Chip.sound.txInject (h : c.sound) {k desc rec} : (c.txInject k desc rec).sound :=
  .ite h.classify h.expressCopies.enqueueFrame

theorem Chip.sound.txEnds (h : c.sound) {k t n status ns} : (c.txEnds k t n status ns).sound := h.setHost

theorem Chip.sound.txDone (h : c.sound) {k t n status ns} : (c.txDone k t n status ns).sound :=
  h.emit.setReg.setBitOf.irqEdge

theorem Chip.sound.dmaRelease (h : c.sound) : c.dmaRelease.sound :=
  h.foldl fun _ _ hd => .ite hd (.ite hd.setHost.txDone hd.setHost)

theorem Chip.sound.doHdmaTxFetch (h : c.sound) {k desc rec err} : (doHdmaTxFetch k desc rec err c).sound := by
  unfold Machine.doHdmaTxFetch
  refine .ite h ?_
  split
  · exact h
  · extract_lets +onlyGivenNames n _ c0
    have h0 : c0.sound := h.setHost
    split
    · exact h0.txInject.inc.txEnds
    · extract_lets c1 c2
      have h1 : c1.sound := h0.incRaise
      exact .txEnds (.ite h1.incRaise h1)

theorem Chip.sound.rxSignal (h : c.sound) {k r} : (c.rxSignal k r).sound := h.setHost.setBitOf.irqEdge

theorem Chip.sound.rxComplete (h : c.sound) {k r} : (c.rxComplete k r).sound := .ite h.rxSignal h.setHost

theorem Chip.sound.rxWrite (h : c.sound) {p k r n desc} : (c.rxWrite p k r n desc).sound := by
  unfold Chip.rxWrite
  extract_lets head base len room bytes status src c1 tail c2 c3 c4 c5
  have h3 : c3.sound := .setReg (.emit (.ite h h.emit))
  have h4 : c4.sound := .ite h3 h3.inc
  exact .rxComplete (.ite h4.inc h4)

theorem Chip.sound.rxTake {p desc classes fuel} (h : c.sound) : (c.rxTake p desc classes fuel).sound := by
  induction fuel generalizing c classes with
  | zero => cases classes <;> exact h
  | succ fuel ih =>
    cases classes with
    | nil => exact h
    | cons cls rest =>
      unfold Chip.rxTake
      split
      · exact ih h
      · refine .ite (ih h) (.ite (ih h.resDrop) ?_)
        split
        · exact h.delCopy.rxWrite
        · exact .ite (ih h) h.delCopy.incRaise

theorem Chip.sound.doHdmaRxDeliver (h : c.sound) {p desc} : (doHdmaRxDeliver p desc c).sound :=
  .ite h (.ite h.setCopies.addTo.fabDone (.ite h h.rxTake.fabDone))

theorem Chip.sound.doRxIrqTimer (h : c.sound) {k r} : (doRxIrqTimer k r c).sound := .ite h (.ite h h.rxSignal)

/-! ### The Benolsia agent (chapter 19) -/

theorem Chip.sound.peerReset (h : c.sound) {n} : (c.peerReset n).sound := h.setReg.setReg.setReg.setHost

theorem Chip.sound.setPeerMap (h : c.sound) {n v} : (c.setPeerMap n v).sound := h.setReg.setReg

theorem Chip.sound.replay (h : c.sound) {n seq} : Chip.allSound (c.replay n seq) :=
  .ite (.some h.setReg.setPeerMap) (.ite .none (.some h.setPeerMap))

theorem Chip.sound.bnlAccept (h : c.sound) {req} : (c.bnlAccept req).sound := by
  unfold Chip.bnlAccept
  extract_lets +onlyGivenNames part c1 _ c2
  have h1 : c1.sound := h.inc
  have h2 : c2.sound := .ite h1.setPart h1
  exact .ite h2.setHost (.ite h2 (.ite h2.setHost h2.inc))

theorem Chip.sound.bnlCheck (h : c.sound) {sq fb} : (c.bnlCheck sq fb).sound := by
  unfold Chip.bnlCheck
  refine .ite h.inc ?_
  split
  · exact h.inc
  · refine .ite h.inc ?_
    extract_lets +onlyGivenNames sel hdr ct
    split
    · exact h.incRaise
    · refine .ite h.incRaise ?_
      extract_lets last c1 _ c2
      have h2 : c2.sound := .setHost (.ite h.peerReset h)
      split
      · exact h2.incRaise
      · rename_i c3 e
        have h3 := h2.replay _ e
        exact h3.bnlAccept

theorem Chip.sound.doBnlMessageReceived (h : c.sound) : (doBnlMessageReceived c).sound := by
  unfold Machine.doBnlMessageReceived
  split
  · exact h
  · exact .ite h.resDrop.fabDone (.ite h.delCopy.fabDone.setHost.inc h.delCopy.fabDone.setHost.bnlCheck)

theorem Chip.sound.serve (h : c.sound) {typ fits act} (hact : ∀ d x0, d.sound → (act d x0).sound) :
    (c.serve typ fits act).sound := by
  unfold Chip.serve
  split
  · exact h
  · exact .ite h (.ite (hact _ _ h.setHost) h.setHost.bnlRespond)

theorem Chip.sound.doLock (h : c.sound) : (doLock c).sound :=
  h.serve fun _ _ hd => .ite hd.bnlRespond (.ite hd.bnlRespond
    (.ite hd.bnlRespond (.ite hd.bnlRespond hd.setHost.bnlRespond)))

theorem Chip.sound.doUnlock (h : c.sound) : (doUnlock c).sound :=
  h.serve fun _ _ hd => .ite hd.bnlRespond (.ite hd.bnlRespond hd.setHost.bnlRespond)

theorem Chip.sound.doLeaseExpiry (h : c.sound) : (doLeaseExpiry c).sound := h.setHost

theorem Chip.sound.doCxJob (h : c.sound) : (doCxJob c).sound :=
  h.serve fun _ _ hd => .ite hd.cxIntake.bnlRespond hd.cxIntake.addJob

theorem Chip.sound.doScoreRead (h : c.sound) : (doScoreRead c).sound :=
  h.serve fun _ _ hd => .ite hd.bnlRespond hd.deny.bnlRespond

theorem Chip.sound.doBnlKeyWrite (h : c.sound) {w x v be} : (doBnlKeyWrite w x v be c).sound := by
  unfold Machine.doBnlKeyWrite
  refine .ite h ?_
  extract_lets a
  refine h.blockWrite fun _ hd => ?_
  extract_lets +onlyGivenNames c1
  have h1 : c1.sound := hd.plainWrite
  refine .ite h1.setHost ?_
  split
  · exact h1.setHost
  · exact h1.setHost.setErr

theorem Chip.sound.doTxSelWrite (h : c.sound) {w v be} : (doTxSelWrite w v be c).sound :=
  h.blockWrite fun _ hd => hd.plainWrite.setReg

theorem Chip.sound.doPeerCfgWrite (h : c.sound) {w n v be} : (doPeerCfgWrite w n v be c).sound :=
  .ite h (h.blockWrite fun _ hd => hd.plainWrite.peerReset)

/-! ### What accepted register writes do -/

theorem Chip.sound.clearOnZero (h : c.sound) {a v mask} : (c.clearOnZero a v mask).sound := .ite h.setReg h

theorem Chip.sound.clearOnValid (h : c.sound) {a v mask} : (c.clearOnValid a v mask).sound := .ite h.setReg h

theorem Chip.sound.writeUnless (h : c.sound) {a v mask bad} : (c.writeUnless a v mask bad).sound :=
  .ite h.setErr h.plainWrite

theorem Chip.sound.glbEffect (h : c.sound) {off a v mask} : (c.glbEffect off a v mask).sound :=
  .ite h.plainWrite.setReg.alarmLevel (.ite h.plainWrite.alarmLevel h.plainWrite)

theorem Chip.sound.seatWrite (h : c.sound) {k a v mask} : (c.seatWrite k a v mask).sound :=
  .ite h.plainWrite (.ite h.plainWrite h.plainWrite.linkOff.sendPending)

theorem Chip.sound.schedWrite (h : c.sound) {q} : (c.schedWrite q).sound := .ite h h.setCan.setFldOf

theorem Chip.sound.txDoneIe (h : c.sound) {before : Chip} {q} : (before.txDoneIe c q).sound := .ite h.raise h

theorem Chip.sound.canEffect (h : c.sound) {q off a v mask} : (c.canEffect q off a v mask).sound := by
  unfold Chip.canEffect
  refine .ite h.setStatus.setErr ?_
  extract_lets +onlyGivenNames w
  have hw : w.sound := h.plainWrite
  exact .ite hw.setCan (.ite hw.warnLevels (.ite hw.stbEdge (.ite hw.txDoneIe (.ite hw.schedWrite hw))))

theorem Chip.sound.ethCtrlEffect (h : c.sound) {q a v mask} : (c.ethCtrlEffect q a v mask).sound := by
  unfold Chip.ethCtrlEffect
  extract_lets +onlyGivenNames nv old
  refine .ite h.setErr ?_
  extract_lets c1 c2 c2' _ c3
  have h1 : c1.sound := h.plainWrite
  have h2 : c2.sound := .ite h1.mmStart h1
  have h3 : c3.sound := .ite h2.pauseAccount.setEth.pauseStatus h2
  exact .ite h3.t1sLink h3

theorem Chip.sound.plcaRole (h : c.sound) {q was} : (c.plcaRole q was).sound := by
  unfold Chip.plcaRole
  refine .ite h ?_
  extract_lets en coord c1 _ c2
  have h1 : c1.sound := .ite h.setEthStat.setEthStat (.ite h.setEthStat.setEthStat (.ite h.setEthStat h))
  exact .t1sLink (.ite h1 h1.setEth)

theorem Chip.sound.fcNarrow (h : c.sound) {q} : (c.fcNarrow q).sound := h.setEth

theorem Chip.sound.mmCfg (h : c.sound) {before : Chip} {q} : (before.mmCfg c q).sound := .ite h h.mmStart

theorem Chip.sound.ethEffect (h : c.sound) {q off a v mask} : (c.ethEffect q off a v mask).sound :=
  .ite h.ethCtrlEffect (.ite h.writeUnless (.ite h.plainWrite.fcNarrow
    (.ite h.plainWrite.setBitOf.mmCfg (.ite h.plainWrite.gateLoad
    (.ite h.creditUpdate.plainWrite (.ite h.creditUpdate.writeUnless
    (.ite (.ite h.setErr h.plainWrite.plcaRole) (.ite h.plainWrite.plcaRole h.plainWrite))))))))

theorem Chip.sound.stgEffect (h : c.sound) {q off a v mask} : (c.stgEffect q off a v mask).sound :=
  .ite h.plainWrite (.ite h.plainWrite h.writeUnless)

theorem Chip.sound.polEffect (h : c.sound) {off a v mask} : (c.polEffect off a v mask).sound :=
  .ite h.setExpress.plainWrite.setExpress h.plainWrite

theorem Chip.sound.smpEffect (h : c.sound) {off a v mask} : (c.smpEffect off a v mask).sound :=
  .ite (.ite h.setErr h.plainWrite.setReg.setReg.update) h.plainWrite

theorem Chip.sound.bufEffect (h : c.sound) {off a v mask} : (c.bufEffect off a v mask).sound :=
  .ite (.ite h.setReg h) (.ite (.ite h.setReg h) (.ite (.ite h.setErr h.plainWrite.pauseChecks) h.plainWrite))

theorem Chip.sound.adjCtrl (h : c.sound) {a v mask} : (c.adjCtrl a v mask).sound :=
  .ite h.plainWrite h.plainWrite.update

theorem Chip.sound.regEffectIn (h : c.sound) {a v mask} : (c.regEffectIn a v mask).sound := by
  unfold Chip.regEffectIn
  extract_lets +onlyGivenNames p off nv
  split
  · exact h.glbEffect
  · exact .ite h.seatWrite h.plainWrite
  · exact .ite h.rateLoWrite h.plainWrite
  · exact .ite h.clearOnZero h.plainWrite
  · exact .ite h.adjCtrl (.ite h.clearOnZero (.ite h.clearOnValid h.plainWrite))
  · exact .ite h.plainWrite.appendReady.fabDone (.ite h.clearOnZero h.plainWrite)
  · exact h.bufEffect
  · exact h.polEffect
  · exact .ite h.plainWrite.guardCtrl (.ite h.writeUnless h.plainWrite)
  · exact h.smpEffect
  · exact .ite h.clearOnValid h.plainWrite
  · exact .ite h.clearOnZero (.ite h.clearOnValid h.plainWrite)
  · exact .ite h.clearOnValid h.plainWrite
  · exact .ite h.minSvnWrite h.plainWrite
  · exact .ite (.ite h.setBitOf h) (.ite h.writeUnless h.plainWrite)
  · exact .ite h.clearOnValid h.plainWrite
  · exact .ite (.ite h.setReg h) h.plainWrite
  · exact .ite h.writeUnless h.plainWrite
  · exact h.canEffect
  · exact h.ethEffect
  · exact h.stgEffect
  · exact h.plainWrite

theorem Chip.sound.regEffect (h : c.sound) {a v mask} : (c.regEffect a v mask).sound :=
  .ite h.regEffectIn.irqEdge.pbaSettle h.regEffectIn

/-! ### Table windows -/

theorem Chip.sound.cleanWord (h : c.sound) {off} : (c.cleanWord off).sound := by
  unfold Chip.cleanWord
  refine .ite h ?_
  split
  · exact .ite h.memClean.memClean h.memClean
  · exact h

theorem Chip.sound.mergeRead (h : c.sound) {off p ecc} : (c.mergeRead off p ecc).sound := by
  unfold Chip.mergeRead
  split
  · exact h
  · exact .ite h.memPoison (.ite h.memCe h)

theorem Chip.sound.entryEffect (h : c.sound) {r i old} : (c.entryEffect r i old).sound := by
  unfold Chip.entryEffect
  split
  · exact h.frerCommit
  · exact h.bucketCommit
  · exact h.setTword.setTword.setTword.setTword
  · exact h.meterCommit
  · exact h.streamGateCommit
  · exact h.foldl fun _ _ hd => hd.streamGateLoad
  · exact h.layoutCommit
  · exact h.timerCommit
  · exact h.setTword.setTword
  · exact h.saCommit
  · exact h.gateLoad
  · exact h

theorem Chip.sound.putEntry (h : c.sound) {r i ws} : (c.putEntry r i ws).sound :=
  h.foldl fun _ _ hd => .ite hd hd.setTword.cleanWord

theorem Chip.sound.commitEntry (h : c.sound) {r i ws} : (c.commitEntry r i ws).sound := h.putEntry.entryEffect

theorem Chip.sound.setBuf (h : c.sound) {k b} : (c.setBuf k b).sound := h.update

theorem Chip.sound.abandonOther (h : c.sound) {k first} : (c.abandonOther k first).sound := by
  unfold Chip.abandonOther
  split
  · exact h
  · exact .ite h (.ite h.setBuf.setErr.incRaise h.setBuf.setErr)

theorem Chip.sound.acceptEntry (h : c.sound) {k off r i ws} : (c.acceptEntry k off r i ws).sound :=
  .ite h.journalWrite h.commitEntry

theorem Chip.sound.entryWrite (h : c.sound) {k off r i w v m} : (c.entryWrite k off r i w v m).sound := by
  unfold Chip.entryWrite
  extract_lets +onlyGivenNames base
  split
  · exact h.acceptEntry
  · extract_lets +onlyGivenNames first c1 held now
    have h1 : c1.sound := h.abandonOther
    exact .ite h1.setBuf h1.setBuf.acceptEntry

theorem Chip.sound.liveWrite (h : c.sound) {r i w v m wide} : (c.liveWrite r i w v m wide).sound :=
  .ite h.hostSigWrite (.ite (.cleanWord (.setTword (.ite h.sigBegin h))) (.setTword (.ite h.sigBegin h)))

theorem Chip.sound.tableWrite (h : c.sound) {k off v be ecc} : (c.tableWrite k off v be ecc).sound := by
  unfold Chip.tableWrite
  split
  · exact h
  · refine .ite h (.ite h.deny ?_)
    split
    · exact h
    · exact .ite (.ite h.setErr.rejectWrite (.ite h.setErr (.liveWrite (.ite h h.mergeRead))))
        (.ite (.ite h.setErr.rejectWrite h.setErr) (.ite h.setErr
        (.ite h.codeRefuse (.entryWrite (.ite h h.mergeRead)))))

theorem Chip.sound.doTableEntryWrite (h : c.sound) {k off v be ecc} : (doTableEntryWrite k off v be ecc c).sound :=
  .ite h h.tableWrite

/-! ### Transactions and epochs (chapter 14) -/

theorem Chip.sound.txnResult (h : c.sound) {k r} : (c.txnResult k r).sound := .ite h.setFldOf h

theorem Chip.sound.txnState (h : c.sound) {k s} : (c.txnState k s).sound := .ite h.setTxn.setFldOf h.setTxn

theorem Chip.sound.txnRaise (h : c.sound) {k b} : (c.txnRaise k b).sound := .ite h.raise h

theorem Chip.sound.txnDiscard (h : c.sound) {k r} : (c.txnDiscard k r).sound := h.setTxn.txnState.txnResult

theorem Chip.sound.txnFail (h : c.sound) {k r} : (c.txnFail k r).sound := h.txnDiscard.inc.txnRaise

theorem Chip.sound.txnOpen (h : c.sound) {k} : (c.txnOpen k).sound := .ite h.setTxn.setReg.setReg.setReg h.setTxn

theorem Chip.sound.txnBegin (h : c.sound) {k} : (c.txnBegin k).sound := .ite h.txnResult h.txnOpen

theorem Chip.sound.txnPend (h : c.sound) {k mode} : (c.txnPend k mode).sound := h.setTxn.txnState

theorem Chip.sound.txnCycle (h : c.sound) : c.txnCycle.sound := h.foldl fun _ _ hd => .ite hd.setTxn hd

theorem Chip.sound.codeRefuseAll (h : c.sound) {items} : (c.codeRefuseAll items).sound :=
  h.foldl fun _ _ hd => hd.codeRefuse

theorem Chip.sound.txnCommit (h : c.sound) {k mode} : (c.txnCommit k mode).sound :=
  .ite h.txnResult (.ite h.txnFail (.ite h.codeRefuseAll.txnFail
    (.ite (.txnRaise (.ite h.txnDiscard.inc.setFldOf h.txnDiscard.inc)) h.txnPend)))

theorem Chip.sound.txnRollback (h : c.sound) {k} : (c.txnRollback k).sound := .ite h.txnResult h.txnDiscard

theorem Chip.sound.txnCmd (h : c.sound) {w k v} : (c.txnCmd w k v).sound := by
  unfold Chip.txnCmd
  refine .ite h (h.blockWrite fun _ hd => ?_)
  split
  · exact hd.txnResult
  · exact hd.txnBegin
  · exact hd.txnCommit
  · exact hd.txnRollback

theorem Chip.sound.doBegin (h : c.sound) {w k} : (doBegin w k c).sound := h.txnCmd

theorem Chip.sound.doCommitImmediate (h : c.sound) {w k} : (doCommitImmediate w k c).sound := h.txnCmd

theorem Chip.sound.doCommitNextBoundary (h : c.sound) {w k} : (doCommitNextBoundary w k c).sound := h.txnCmd

theorem Chip.sound.doCommitAtTime (h : c.sound) {w k} : (doCommitAtTime w k c).sound := h.txnCmd

theorem Chip.sound.doRollback (h : c.sound) {w k} : (doRollback w k c).sound := h.txnCmd

theorem Chip.sound.doTxnBadCmd (h : c.sound) {w k v} : (doTxnBadCmd w k v c).sound := .ite h h.txnCmd

theorem Chip.sound.doTxnJournalWrite (h : c.sound) {k bar2 addr v be ecc} :
    (doTxnJournalWrite k bar2 addr v be ecc c).sound := by
  unfold Machine.doTxnJournalWrite
  refine .ite h (.ite ?_ (.ite (h.blockWrite fun _ hd => hd.regEffect) h))
  split
  · exact .ite h.tableWrite h
  · exact h

theorem Chip.sound.keepOld (h : c.sound) {x} : (c.keepOld x).sound := by
  unfold Chip.keepOld
  split
  · exact h.update
  · exact h.update

theorem Chip.sound.applyItem (h : c.sound) {x} : (c.applyItem x).sound := by
  unfold Chip.applyItem
  split
  · exact .ite h.plainWrite h.regEffect
  · split
    · exact h
    · exact .ite h.putEntry (.ite h.commitEntry h.setTword.cleanWord)

theorem Chip.sound.txnSwitched (h : c.sound) {k} : (c.txnSwitched k).sound := by
  unfold Chip.txnSwitched
  extract_lets +onlyGivenNames late c1
  have h1 : c1.sound := h.txnDiscard
  refine .ite h1 ?_
  extract_lets c2 c3 c4
  have h4 : c4.sound := h1.setFldOf.setBitOf.setReg.setReg.txnRaise
  exact .ite h4.txnRaise h4

theorem Chip.sound.applyItems (h : c.sound) {items} : (c.applyItems items).sound :=
  .foldl (h.foldl fun _ _ hd => hd.applyItem) fun _ _ hd => hd.gateLoad

theorem Chip.sound.switchEpoch (h : c.sound) {ks} : (c.switchEpoch ks).sound :=
  .foldl (.applyItems (.inc (.setReg (.setReg (.setReg (.setFldOf
    (.foldl h.update fun _ _ hd => hd.keepOld))))))) fun _ _ hd => hd.txnSwitched

theorem Chip.sound.txnBusy (h : c.sound) {k} : (c.txnBusy k).sound :=
  .ite (.ite h h.setTxn.raise) h.txnDiscard.inc.raise.txnRaise

theorem Chip.sound.switchDue (h : c.sound) : c.switchDue.sound :=
  .ite h (.ite (h.foldl fun _ _ hd => hd.txnBusy) h.switchEpoch)

theorem Chip.sound.retireOld (h : c.sound) : c.retireOld.sound :=
  .ite (.setReg (.raise (.setBitOf h.update))) (.raise (.setBitOf h.update))

theorem Chip.sound.txnAbort (h : c.sound) {k} : (c.txnAbort k).sound := h.txnDiscard.inc.txnRaise

theorem Chip.sound.doTxnAutoAbort (h : c.sound) {k} : (doTxnAutoAbort k c).sound := .ite h h.txnAbort.scoreAs

/-! ### Gambit (chapter 20) -/

theorem Chip.sound.setGambit (h : c.sound) {g} : (c.setGambit g).sound := h.update

theorem Chip.sound.setPhase (h : c.sound) {n} : (c.setPhase n).sound := h.setFldOf

theorem Chip.sound.setPair (h : c.sound) {lo hi v} : (c.setPair lo hi v).sound := h.setReg.setReg

theorem Chip.sound.gambitShow (h : c.sound) : c.gambitShow.sound := by
  unfold Chip.gambitShow
  extract_lets c1 st n c2
  have h1 : c1.sound := by
    unfold c1
    split
    · exact h
    · exact h.setBitOf.setBitOf.setFldOf.setPair
  exact h1.setReg.setPair.foldl fun _ _ hd => .ite hd.setReg hd

theorem Chip.sound.writePointer (h : c.sound) {p} : (c.writePointer p).sound := h.setGambit.inc.gambitShow

theorem Chip.sound.setSlot (h : c.sound) {n s} : (c.setSlot n s).sound := h.setGambit

theorem Chip.sound.flashError (h : c.sound) {addr} : (c.flashError addr).sound := h.inc.scoreLog

theorem Chip.sound.eraseStaging (h : c.sound) : c.eraseStaging.sound := h.setGambit.addTo.gambitShow

theorem Chip.sound.gStage (h : c.sound) {n} : Chip.fstSound (c.gStage n) :=
  .ite (.mk h) (.ite (.mk h.flashError) (.mk (.scoreLog (.gambitShow (.setGambit (.ite h h.addTo))))))

theorem Chip.sound.gChunk (h : c.sound) {n} : Chip.fstSound (c.gChunk n) := by
  unfold Chip.gChunk
  refine .ite (.mk h) (.ite (.mk h) ?_)
  split
  · exact .mk h
  · exact .ite (.mk h) (.ite (.mk h.flashError) (.mk h.setGambit.gambitShow))

theorem Chip.sound.gActivate (h : c.sound) : Chip.fstSound (c.gActivate) :=
  .ite (.mk h) (.ite (.mk h) (.ite (.mk h) (.ite (.mk h.advanceFree)
    (.ite (.mk h) (.ite (.mk h) (.ite (.mk h) (.ite (.mk h.flashError)
    (.mk h.writePointer.setSlot.addTo.setGambit.setPhase))))))))

theorem Chip.sound.gConfirm (h : c.sound) : Chip.fstSound (c.gConfirm) :=
  .ite (.mk h) (.mk h.setGambit.writePointer.setPhase.scoreLog.raise)

theorem Chip.sound.gAbandon (h : c.sound) : Chip.fstSound (c.gAbandon) :=
  .ite (.mk h) (.ite (.mk h.flashError) (.mk h.eraseStaging))

theorem Chip.sound.gambitExec (h : c.sound) {k op arg0} : Chip.fstSound (c.gambitExec k op arg0) := by
  unfold Chip.gambitExec
  refine .ite (.mk h) ?_
  extract_lets r
  have hr : Chip.fstSound r := .ite h.gStage (.ite h.gChunk (.ite h.gActivate (.ite h.gConfirm h.gAbandon)))
  exact .mk hr.setReg

theorem Chip.sound.gambitStart (h : c.sound) {w k op} : (c.gambitStart w k op).sound :=
  .ite (.ite h.setArb h) h.arbStart

theorem Chip.sound.doStage (h : c.sound) {w k} : (doStage w k c).sound := h.gambitStart

theorem Chip.sound.doChunk (h : c.sound) {w k} : (doChunk w k c).sound := h.gambitStart

theorem Chip.sound.doActivate (h : c.sound) {w k} : (doActivate w k c).sound := h.gambitStart

theorem Chip.sound.doConfirm (h : c.sound) {w k} : (doConfirm w k c).sound := h.gambitStart

theorem Chip.sound.doAbandon (h : c.sound) {w k} : (doAbandon w k c).sound := h.gambitStart

theorem Chip.sound.arbWork (h : c.sound) {k op args eye} : Chip.fstSound (c.arbWork k op args eye) :=
  .ite h.gambitExec h.arbExec

theorem Chip.sound.doArbCommandDone (h : c.sound) {k eye} : (doArbCommandDone k eye c).sound := by
  unfold Machine.doArbCommandDone
  split
  · exact h
  · exact .ite h (.ite h.arbEnd (.arbEnd (h.arbWork.foldl fun _ _ hd => hd.setReg)))

theorem Chip.sound.gambitRollback (h : c.sound) : c.gambitRollback.sound := .ite h h.txnRollback

theorem Chip.sound.fallBack (h : c.sound) {cause} : (c.fallBack cause).sound :=
  .ite h h.gambitRollback.writePointer.setGambit.setPhase.setAlarm.raise.scoreLog

theorem Chip.sound.trialStart (h : c.sound) : c.trialStart.sound :=
  .ite h (.ite h.fallBack h.writePointer.setGambit.raise)

theorem Chip.sound.ucodePend (h : c.sound) : c.ucodePend.sound := by
  unfold Chip.ucodePend
  extract_lets mark
  have hm {d : Chip} {t lo n} (hd : d.sound) : (mark d t lo n).sound := by
    unfold mark
    split
    · exact hd
    · exact .ite hd hd.setGambit.setReg
  exact hm (hm h)

theorem Chip.sound.gambitFinish (h : c.sound) : c.gambitFinish.sound := by
  unfold Chip.gambitFinish
  extract_lets +onlyGivenNames c1 newer
  have h1 : c1.sound := h.ucodePend
  clear_value newer -- only whether there is one matters, and the split is to carry no more
  split
  · exact h1.setGambit.arbRestart
  · extract_lets +onlyGivenNames p c2 e
    have h2 : c2.sound := h1.writePointer.raise
    exact .ite h2.setGambit.setPhase h2.setPhase

theorem Chip.sound.gambitConflicts (h : c.sound) {items} : (c.gambitConflicts items).sound :=
  h.foldl fun _ _ hd => hd.setErr

theorem Chip.sound.gambitJournal (h : c.sound) {items} : Chip.allSound (c.gambitJournal items) :=
  .ite .none (.some h.gambitRollback.txnBegin.setTxn)

theorem Chip.sound.gambitLater (h : c.sound) : c.gambitLater.sound := h.setGambit

theorem Chip.sound.gambitAttempt (h : c.sound) : c.gambitAttempt.sound := by
  unfold Chip.gambitAttempt
  refine .ite h.gambitFinish ?_
  split
  · exact h.gambitConflicts.gambitLater
  · rename_i c1 e
    have h1 := h.gambitJournal _ e
    extract_lets c2
    have h2 : c2.sound := h1.txnCommit
    exact .ite h2.gambitLater (.ite h2.fallBack h2.gambitLater)

theorem Chip.sound.doGambitApplyRetry (h : c.sound) : (doGambitApplyRetry c).sound :=
  .ite h (.ite h.fallBack (.ite h.gambitLater h.gambitAttempt))

theorem Chip.sound.doTrialWindowExpiry (h : c.sound) : (doTrialWindowExpiry c).sound := by
  unfold Machine.doTrialWindowExpiry
  split
  · exact h
  · exact .ite h h.fallBack

theorem Chip.sound.actDone (h : c.sound) {good} : (c.actDone good).sound := by
  unfold Chip.actDone
  split
  · exact h
  · extract_lets +onlyGivenNames _ c1
    have h1 : c1.sound := h.setGambit
    exact .ite h1.flashError.setReg.setPhase h1.setSlot.writePointer.setGambit.setPhase.raise.scoreLog

theorem Chip.sound.doFlashDeviceFail (h : c.sound) {whole} : (doFlashDeviceFail whole c).sound :=
  .ite h (.ite (.ite h.inc.incRaise h.inc) h.setGambit.setBitOf.raise)

theorem Chip.sound.firmwareStart (h : c.sound) : c.firmwareStart.sound := by
  unfold Chip.firmwareStart
  extract_lets +onlyGivenNames s _ c1
  have h1 : c1.sound := h.setArbState.setArb.genFlush
  split
  · exact h1
  · exact h1.setReg.setReg.setGambit

theorem Chip.sound.chooseFirmware (h : c.sound) {okA okB} : Chip.allSound (c.chooseFirmware okA okB) :=
  .ite (.some h.trialStart) (.ite (.some h.trialStart.fallBack) .none)

theorem Chip.sound.resumeActivation (h : c.sound) {reset} : (c.resumeActivation reset).sound := by
  unfold Chip.resumeActivation
  extract_lets +onlyGivenNames _ c1 p
  have h1 : c1.sound := .ite h.setGambit.setPhase h
  exact .ite h1 (.ite h1.setGambit.setPhase (.ite h1.setPhase h1.setPhase))

theorem Chip.sound.arbFailed (h : c.sound) : c.arbFailed.sound :=
  h.setArbState.raise.setAlarm.scoreLog.foldl fun _ _ hd => hd.arbEnd

theorem Chip.sound.doArbRestartDone (h : c.sound) {okA okB} : (doArbRestartDone okA okB c).sound := by
  unfold Machine.doArbRestartDone
  refine .ite h ?_
  extract_lets recent _ c1
  have h1 : c1.sound := h.setArb
  refine .ite h1.arbFailed ?_
  split
  · exact h1.arbFailed
  · rename_i c2 e
    have h2 := h1.chooseFirmware _ e
    exact h2.firmwareStart.setReg.raise.copyAoLog.resumeActivation.planesResume

theorem Chip.sound.bookEnd (h : c.sound) : c.bookEnd.sound := .setReg h.setBitOf.update

theorem Chip.sound.gambitSwitched (h : c.sound) : c.gambitSwitched.sound :=
  .ite (.gambitFinish (.ite h.bookEnd h)) (.ite h.bookEnd h)

theorem Chip.sound.epochSwitch (h : c.sound) : c.epochSwitch.sound := .ite h.switchDue.gambitSwitched h.switchDue

theorem Chip.sound.doEpochSwitch (h : c.sound) : (doEpochSwitch c).sound := h.epochSwitch

theorem Chip.sound.doOldEpochRetire (h : c.sound) : (doOldEpochRetire c).sound := .ite h.retireOld.epochSwitch h

theorem Chip.sound.handover (h : c.sound) : c.handover.sound := by
  unfold Chip.handover
  extract_lets items
  split
  · exact h.gambitConflicts.gambitLater
  · rename_i c1 e
    have h1 := h.gambitJournal _ e
    exact .ite h1.codeRefuseAll.gambitRollback.gambitLater h1.txnPend

theorem Chip.sound.doBookHandover (h : c.sound) : (doBookHandover c).sound := .ite h h.handover

theorem Chip.sound.doBookLate (h : c.sound) : (doBookLate c).sound := .ite h (.doBookHandover (.raise h.update))

/-! ### The narrower resets (chapter 22) -/

theorem Chip.sound.memForget (h : c.sound) {ms} : (c.memForget ms).sound := h.foldl fun _ _ hd => .setFldOf hd.update

theorem Chip.sound.squareBist (h : c.sound) {q a b} : (c.squareBist q a b).sound := h.memForget.bist.bist

theorem Chip.sound.doCanSquareReset (h : c.sound) {q bistStg bistSq} : (doCanSquareReset q bistStg bistSq c).sound :=
  .ite h (.ite h.squareBist h.squareBist.canReset)

theorem Chip.sound.doEthSquareReset (h : c.sound) {q bistStg bistSq} :
    (doEthSquareReset q bistStg bistSq c).sound := by
  unfold Machine.doEthSquareReset
  refine .ite h ?_
  split
  · exact h
  · exact .ite h (.ite h.squareBist.ethClear.setEth h.squareBist.ethReset)

theorem Chip.sound.doReintWipeDone (h : c.sound) {u bad} : (doReintWipeDone u bad c).sound :=
  .ite h (.ite h.memForget.bist.reintFail h.memForget.bist.reintWiped)

theorem Chip.sound.resetExcept (h : c.sound) {p keep} : (c.resetExcept p keep).sound :=
  ⟨sparseWf_filter resetOf _ h.1, h.2⟩

theorem Chip.sound.requestSquareReset (h : c.sound) {q} : (c.requestSquareReset q).sound :=
  .ite (.ite (.setCan h.update) (.canHalt (.setCan h.update))) (.setEth h.update)

theorem Chip.sound.tempoReset (h : c.sound) : c.tempoReset.sound := .steer (.setFldOf h.resetExcept.update)

theorem Chip.sound.tsyncReset (h : c.sound) : c.tsyncReset.sound := h.resetExcept.foldl fun _ _ hd => hd.tsReconfigure

theorem Chip.sound.epochReset (h : c.sound) : c.epochReset.sound :=
  h.resetExcept.foldl fun _ _ hd => .ite hd.txnDiscard.txnRaise (.ite hd.txnState hd)

theorem Chip.sound.adjReset (h : c.sound) : c.adjReset.sound := h.resetExcept.setProofNext

theorem Chip.sound.polReset (h : c.sound) : c.polReset.sound := by
  unfold Chip.polReset
  refine .foldl h.resetPage.update fun _ _ hd => ?_
  split
  · exact hd
  · exact .ite hd.entryEffect (.ite hd.setTword hd)

theorem Chip.sound.guardReset (h : c.sound) : c.guardReset.sound := h.resetPage.update

theorem Chip.sound.sigReset (h : c.sound) : c.sigReset.sound := h.resetPage.wipeTable.wipeTable.update

theorem Chip.sound.pawnReset (h : c.sound) {n} : (c.pawnReset n).sound := by
  unfold Chip.pawnReset
  extract_lets +onlyGivenNames c1 c2
  have h1 : c1.sound := by
    unfold c1
    split
    · exact h
    · exact h.pawnFault
  have h2 : c2.sound := h1.resetPage
  exact .ite h2 (.foldl (.foldl h2.update fun _ _ hd => hd.queueDrop) fun _ _ hd => .ite (.ite hd.timerStop hd)
    (.ite hd.timerRun hd))

theorem Chip.sound.cxReset (h : c.sound) : c.cxReset.sound := h.resetPage.update

theorem Chip.sound.castleReset (h : c.sound) : c.castleReset.sound := h.clearSlots.setCastle.resetExcept.genFlush

theorem Chip.sound.tamperReset (h : c.sound) : c.tamperReset.sound := .ite h h.resetExcept

theorem Chip.sound.memReset (h : c.sound) : c.memReset.sound := h.resetExcept.memForget.setFldOf.update

theorem Chip.sound.arbBlockReset (h : c.sound) : c.arbBlockReset.sound := h.resetExcept.foldl fun _ _ hd => hd.arbEnd

theorem Chip.sound.gambitReset (h : c.sound) : c.gambitReset.sound := h.resetExcept.setPhase.gambitShow

theorem Chip.sound.bnlReset (h : c.sound) : c.bnlReset.sound := h.resetPage.setHost

theorem Chip.sound.secReset (h : c.sound) {q} : (c.secReset q).sound := h.resetPage.update

theorem Chip.sound.blockReset (h : c.sound) {p} : (c.blockReset p).sound := by
  unfold Chip.blockReset
  split
  · exact h
  · exact h
  · exact h
  · exact h.requestSquareReset
  · exact h.requestSquareReset
  · exact h.stgReset
  · exact h.secReset
  · exact h.resetPage.sdsReport.linkFall
  · exact h.tempoReset
  · exact h.tsyncReset
  · exact h.epochReset
  · exact h.adjReset
  · exact h.resetPage.setPlState
  · exact h.resetPage.fabDone
  · exact h.resetPage.fabDone
  · exact h.resetPage.setBitOf
  · exact h.polReset
  · exact h.guardReset
  · exact h.resetPage.update
  · exact h.sigReset
  · exact h.pawnReset
  · exact h.cxReset
  · exact h.castleReset
  · exact h.tamperReset
  · exact h.memReset
  · exact h.arbBlockReset
  · exact h.resetPage.setArb
  · exact h.resetExcept
  · exact h.gambitReset
  · exact h.resetExcept
  · exact h.brgAbort.resetPage.setHost
  · exact h.bnlReset
  · exact h.hdmaReset
  · exact h.resetExcept
  · exact h.resetExcept

theorem Chip.sound.doBlkRst (h : c.sound) {w v} : (doBlkRst w v c).sound :=
  .ite h (.ite h.deny (.ite h.setErr (.ite h h.blockReset)))

/-! ### Resets that stop the core clock, and start-up (chapter 22) -/

theorem Chip.sound.setPower (h : c.sound) {p} : (c.setPower p).sound := h.update

theorem Chip.sound.latchTempo (h : c.sound) : c.latchTempo.sound := h.update

theorem Chip.sound.restoreTempo (h : c.sound) : c.restoreTempo.sound := by
  unfold Chip.restoreTempo
  extract_lets err st v _ c1 c2 c3
  have h3 : c3.sound := .setReg (.setTempoState (.setFldOf h.update))
  exact .guardResume (.steer (.ite h3.setAlarm h3))

theorem Chip.sound.ownPages (h : c.sound) : c.ownPages.sound := by
  unfold Chip.ownPages
  refine .ite h (h.foldl fun _ _ hd => ?_)
  split
  · exact hd
  · exact hd
  · exact hd
  · exact hd.setFldOf

theorem Chip.sound.resetCore (h : c.sound) {kind} : (c.resetCore kind).sound := by
  unfold Chip.resetCore
  extract_lets c0 latched _ fresh owned c1 _ c2 c3
  have h0 : c0.sound := .ite h.latchTempo h
  have hfresh : fresh.sound := by
    refine ⟨sparseWf_filter resetOf _ h0.1, ?_, h0.2.2.2, h0.2.2.2⟩
    show tblWf (if _ then _ else _) = true
    split
    · exact sparseWf_filter (fun _ => 0) _ h0.2.1
    · exact rfl
  have howned : owned.sound := hfresh.ownPages
  have h1 : c1.sound := .ite howned.setBitOf howned
  have h2 : c2.sound := .ite h1.setPower.setFldOf h1
  have h3 : c3.sound := .ite h2.setBitOf h2
  exact .alarmLevel (.stbEdge (.ite h3.emit h3))

theorem Chip.sound.resetCause (h : c.sound) {b} : (c.resetCause b).sound := .ite h.setReg h.setBitOf

theorem Chip.sound.coreRuns (h : c.sound) : c.coreRuns.sound := .ite h.setPower h.setPower.emit

theorem Chip.sound.setBoot (h : c.sound) {n} : (c.setBoot n).sound := h.setFldOf

theorem Chip.sound.lcWipe (h : c.sound) : c.lcWipe.sound := by
  unfold Chip.lcWipe
  refine .ite h ?_
  extract_lets k ret c1 c2 _ c3 c4 c5
  have h1 : c1.sound := ⟨h.1, rfl, h.2.2⟩
  have h3 : c3.sound := .update (show Chip.sound c2 from h1.setCastle)
  exact .scoreClear (.ite (.setGambit h3.setReg) h3.setReg)

theorem Chip.sound.flashProbe (h : c.sound) : c.flashProbe.sound := h.setReg.setReg.setReg.setReg

theorem Chip.sound.fuseMany {n} (h : c.sound) : (c.fuseMany n).sound := by
  induction n generalizing c with
  | zero => exact h
  | succ n ih => exact ih h.fuseResign

theorem Chip.sound.resignMarks (h : c.sound) {clear} : (c.resignMarks clear).sound := by
  unfold Chip.resignMarks
  extract_lets +onlyGivenNames _ c0 c1
  have h0 : c0.sound := h.fuseMany.setCastle
  have h1 : c1.sound := .ite h0 h0.raise.scoreClear
  exact .ite (.setCastle h1.update) h1

theorem Chip.sound.bootRoot (h : c.sound) {env} : (Chip.bootRoot env c).sound := by
  unfold Chip.bootRoot
  extract_lets c1 c2 c3
  have h1 : c1.sound := .ite h.drawChal h.drawChal.setRoot
  have h2 : c2.sound := by
    unfold c2
    split
    · exact h1
    · exact .ite h1 h1.setBitOf.tamperIn
  have h3 : c3.sound := .ite h2.setBitOf.setAlarm h2.regenerate
  exact .ite h3 h3.setBitOf.raise.setAlarm

theorem Chip.sound.bootFirmware (h : c.sound) {env} : Chip.allSound (Chip.bootFirmware env c) :=
  .ite h.chooseFirmware .none

theorem Chip.sound.bootBist (h : c.sound) {bist} : (c.bootBist bist).sound := h.foldl fun _ _ hd => .ite hd.bist hd

theorem Chip.sound.bistOut (h : c.sound) {bist} : (c.bistOut bist).sound := by
  unfold Chip.bistOut
  refine h.foldl fun _ _ hd => ?_
  split
  · exact .ite hd (.ite hd.haltPlanes (.retirePlane (.ite hd.setFldOf.setPlState hd)))
  · split
    · exact hd.requestSquareReset
    · exact hd

theorem Chip.sound.loadTables (h : c.sound) : c.loadTables.sound := by
  unfold Chip.loadTables
  extract_lets code
  have hc {d : Chip} {t} (hd : d.sound) : (code d t).sound := by
    unfold code
    split
    · exact hd
    · exact hd.setGambit
  exact .applyItems (hc (hc h))

theorem Chip.sound.startCanCtrl (h : c.sound) {q v} : (c.startCanCtrl q v).sound := .ite h.setErr h.canCtrl

theorem Chip.sound.startStg (h : c.sound) {q v} : (c.startStg q v).sound := .ite h.setErr h.stgEffect

theorem Chip.sound.startSquare (h : c.sound) {q} : (c.startSquare q).sound :=
  .ite h (.ite (.startStg (.startCanCtrl (h.foldl fun _ _ hd => hd.regEffect)))
    (.startStg (.foldl (.ite h (.plainWrite (.ite h.setErr h.plainWrite))) fun _ _ hd => hd.regEffect)))

theorem Chip.sound.startSquares (h : c.sound) : c.startSquares.sound := h.foldl fun _ _ hd => hd.startSquare

theorem Chip.sound.lockstepStart (h : c.sound) : c.lockstepStart.sound := h.setProofNext.showPartner

theorem Chip.sound.bootTimes (h : c.sound) : c.bootTimes.sound := h.setReg.advanceFree.setReg.advanceFree

theorem Chip.sound.bootStop (h : c.sound) {phase} : (c.bootStop phase).sound := h.setBoot.alarmLevel

theorem Chip.sound.startUp (h : c.sound) {env} : (c.startUp env).sound := by
  unfold Chip.startUp
  extract_lets c1 c2
  have h2 : c2.sound := h.coreRuns.restoreTempo.lcWipe.expressEmpty.flashProbe.resignMarks.bootRoot.autoloadAll
  split
  · exact h2.gambitShow.bootStop
  · rename_i c3 e
    have h3 := h2.bootFirmware _ e
    extract_lets +onlyGivenNames c4
    have h4 : c4.sound := h3.bootBist
    exact .ite h4.bootStop (.alarmLevel (.setBoot
      h4.firmwareStart.loadTables.startSquares.lockstepStart.bistOut.copyAoLog.resumeActivation.gambitShow.bootTimes))

theorem Chip.sound.startIfFree (h : c.sound) {env} : (c.startIfFree env).sound := .ite h.startUp h

theorem Chip.sound.coldReset (h : c.sound) {cause env} : (c.coldReset cause env).sound :=
  h.resetCore.resetCause.startIfFree

theorem Chip.sound.doPowerOnReset (h : c.sound) {env} : (doPowerOnReset env c).sound :=
  h.resetCore.resetCause.startIfFree

theorem Chip.sound.doResetNAssert (h : c.sound) : (doResetNAssert c).sound :=
  .ite h.setPower h.resetCore.resetCause.setPower

theorem Chip.sound.doResetNRelease (h : c.sound) {env} : (doResetNRelease env c).sound :=
  .ite h h.setPower.startIfFree

theorem Chip.sound.doRstCmd (h : c.sound) {w v env} : (doRstCmd w v env c).sound :=
  h.blockWrite fun _ hd => .ite hd.coldReset hd

theorem Chip.sound.doBrownout (h : c.sound) : (doBrownout c).sound := .ite h h.resetCore.resetCause.setPower

theorem Chip.sound.doBrownoutRelease (h : c.sound) {env} : (doBrownoutRelease env c).sound :=
  .ite h h.setPower.startIfFree

theorem Chip.sound.doTestModeHigh (h : c.sound) {high env} : (doTestModeHigh high env c).sound :=
  .ite h.setPower.startIfFree (.ite h.resetCore.setPower h.setPower)

theorem Chip.sound.doVddAoLoss (h : c.sound) : (doVddAoLoss c).sound := h.resetCore.setPower

theorem Chip.sound.doActDone (h : c.sound) {good env} : (doActDone good env c).sound :=
  .ite h (.ite h.actDone.resetCore.startIfFree h.actDone)

/-! ### Sleep and waking up (chapter 21) -/

theorem Chip.sound.pwrResult (h : c.sound) {r} : (c.pwrResult r).sound := h.setFldOf

theorem Chip.sound.pwrCmd (h : c.sound) {v} : (c.pwrCmd v).sound :=
  .ite h.pwrResult (.ite h.pwrResult (.ite h.pwrResult (.ite
    (.ite h.pwrResult h.pwrResult.setPower) h.pwrResult.setPower.setBitOf)))

theorem Chip.sound.pwrWrite (h : c.sound) {w v} : (c.pwrWrite w v).sound := h.blockWrite fun _ hd => hd.pwrCmd

theorem Chip.sound.doPlay (h : c.sound) {w} : (doPlay w c).sound := h.pwrWrite

theorem Chip.sound.doQuiet (h : c.sound) {w} : (doQuiet w c).sound := h.pwrWrite

theorem Chip.sound.doAdjournedWarm (h : c.sound) {w} : (doAdjournedWarm w c).sound := h.pwrWrite

theorem Chip.sound.doAdjournedCold (h : c.sound) {w} : (doAdjournedCold w c).sound := h.pwrWrite

theorem Chip.sound.powerSwitch (h : c.sound) : c.powerSwitch.sound := by
  unfold Chip.powerSwitch
  split
  · exact h
  · exact h.tempoMark.setPower.setFldOf.raise

theorem Chip.sound.stgEmpty (h : c.sound) {q} : (c.stgEmpty q).sound := .ite h h.stgClear.setFldOf

theorem Chip.sound.entryRetire {n} (h : c.sound) : (c.entryRetire n).sound := by
  induction n generalizing c with
  | zero => exact h
  | succ n ih => exact .ite (ih h.retireOld.epochSwitch) h

theorem Chip.sound.entryDrain (h : c.sound) : c.entryDrain.sound :=
  .brgAbort (.setBitOf (.entryRetire (.foldl (.fabDone (.update
    (.foldl (.foldl h.update fun _ _ hd => hd.queueDrop) fun _ _ hd => .ite hd.txnAbort hd)))
    fun _ _ hd => hd.stgEmpty)))

theorem Chip.sound.scoreDrain {n} (h : c.sound) : (c.scoreDrain n).sound := by
  induction n generalizing c with
  | zero => exact h
  | succ n ih => exact ih h.doScoreEntryWrite

theorem Chip.sound.entryStop (h : c.sound) {deep} : (c.entryStop deep).sound := by
  unfold Chip.entryStop
  extract_lets c1 _ c2 c3 c4 c5 _ c6 c7 c8 _ c9
  have h3 : c3.sound := h.zeroize.setRoot.latchTempo.setCastle.scoreDrain
  exact .stbEdge (.alarmLevel (.emit (.setPower (.inc (.setBitOf
    (.foldl (.setArb (.foldl (.ite h3.scoreFlush.setArbState h3) fun _ _ hd => hd.setBitOf))
    fun _ _ hd => hd.linkOff))))))

theorem Chip.sound.doAdjournedEntryDone (h : c.sound) {upTo} : (doAdjournedEntryDone upTo c).sound := by
  unfold Machine.doAdjournedEntryDone
  split
  · exact h
  · exact .ite h (.ite h.entryDrain h.entryDrain.entryStop)

theorem Chip.sound.wakeFire (h : c.sound) {kind idx rule} : (c.wakeFire kind idx rule).sound := by
  unfold Chip.wakeFire
  extract_lets +onlyGivenNames v same
  refine .ite h ?_
  extract_lets +onlyGivenNames old t c1 _ c2
  have h2 : c2.sound := .setPower (.ite h.setReg.setReg h.setReg.setReg.setReg)
  exact .ite (.ite h2 (.ite h2.setPower.inc h2.setPower.inc.emit)) (.ite h2.raise.setPower h2.raise)

theorem Chip.sound.wakeCapture (h : c.sound) {q f} : (c.wakeCapture q f).sound := .ite h (.ite h.setPower h.incRaise)

theorem Chip.sound.doWakeCanRule (h : c.sound) {q f bad} : (doWakeCanRule q f bad c).sound := by
  unfold Machine.doWakeCanRule
  refine .ite h ?_
  extract_lets +onlyGivenNames _ c0
  have h0 : c0.sound := .ite h.setPower h
  refine .ite h0.inc (.ite h0 ?_)
  extract_lets c1
  have h1 : c1.sound := by
    unfold c1
    split
    · exact h0
    · exact h0.wakeFire
  exact h1.wakeCapture

theorem Chip.sound.doWakeT1sRule (h : c.sound) {q b} : (doWakeT1sRule q b c).sound := by
  unfold Machine.doWakeT1sRule
  refine .ite h ?_
  split
  · exact h
  · exact h.wakeFire

theorem Chip.sound.doWakeT1sEnergy (h : c.sound) {q} : (doWakeT1sEnergy q c).sound := .ite h h.wakeFire

theorem Chip.sound.doWakeEthPattern (h : c.sound) {q b} : (doWakeEthPattern q b c).sound := by
  unfold Machine.doWakeEthPattern
  refine .ite h ?_
  split
  · exact h
  · exact h.wakeFire

theorem Chip.sound.doWakeSignalDetect (h : c.sound) {q} : (doWakeSignalDetect q c).sound := .ite h h.wakeFire

theorem Chip.sound.doWakeGpioEdge (h : c.sound) {n rising} : (doWakeGpioEdge n rising c).sound := .ite h h.wakeFire

theorem Chip.sound.doWakeHostSideband (h : c.sound) {k} : (doWakeHostSideband k c).sound := .ite h h.wakeFire

theorem Chip.sound.doRxdWakeEdge (h : c.sound) {q} : (doRxdWakeEdge q c).sound :=
  .ite h.doRxdWake.wakeFire h.doRxdWake

theorem Chip.sound.doWakeRcStart (h : c.sound) : (doWakeRcStart c).sound := .ite h h.setPower

theorem Chip.sound.doWakeRcIdleStop (h : c.sound) : (doWakeRcIdleStop c).sound := .ite h h.setPower

theorem Chip.sound.doTempoAlarmExpiry (h : c.sound) {i} : (doTempoAlarmExpiry i c).sound := by
  unfold Machine.doTempoAlarmExpiry
  refine .ite h ?_
  split
  · exact h
  · exact .ite (.ite h.wakeFire h) (.ite h (.ite h.alarmFires.wakeFire h.alarmFires))

theorem Chip.sound.enterCaptured (h : c.sound) : c.enterCaptured.sound := h.setPower.foldl fun _ _ hd => hd.stgCommit

theorem Chip.sound.wakeTimes (h : c.sound) : c.wakeTimes.sound := h.setReg.advanceFree.setReg.advanceFree

theorem Chip.sound.openBook (h : c.sound) : c.openBook.sound := .setBitOf (h.foldl fun _ _ hd => hd.setTword.setTword)

theorem Chip.sound.wakeBegin (h : c.sound) : c.wakeBegin.sound := h.coreRuns.restoreTempo.setPower.resignMarks

theorem Chip.sound.wakeCold (h : c.sound) {env} : (c.wakeCold env).sound := by
  unfold Chip.wakeCold
  extract_lets +onlyGivenNames c1 c2
  have h2 : c2.sound := h.resetCore.resetCause.wakeBegin.expressEmpty.flashProbe.bootRoot.autoloadAll
  split
  · exact h2.gambitShow.bootStop
  · rename_i c3 e
    have h3 := h2.bootFirmware _ e
    extract_lets +onlyGivenNames ran c4
    have h4 : c4.sound := h3.bootBist
    exact .ite h4.bootStop (.alarmLevel (.raise (.setBoot (.wakeTimes
      h4.firmwareStart.openBook.startSquares.lockstepStart.bistOut.enterCaptured.copyAoLog.resumeActivation.gambitShow))))

theorem Chip.sound.warmCan (h : c.sound) {q} : (c.warmCan q).sound :=
  .setCan (.setStatus (.setStatus (.warnLevels (.setStatus (.setStatus
    (.setStatus (.setReg (h.foldl fun _ _ hd => hd.setMbStatus))))))))

theorem Chip.sound.warmEth (h : c.sound) {q} : (c.warmEth q).sound := by
  unfold Chip.warmEth
  extract_lets c1 c2 c3
  have h1 : c1.sound := h.setFldOf
  have h3 : c3.sound := .gateLoad (.setEth (.ite h1.setReg h1))
  exact .ite h3.t1sLink h3

theorem Chip.sound.warmSignals (h : c.sound) : c.warmSignals.sound := h.foldl fun _ _ hd => .ite hd.setTword hd

theorem Chip.sound.warmTimers (h : c.sound) : c.warmTimers.sound := h.foldl fun _ _ hd => .ite hd.timerRun hd

theorem Chip.sound.refill (h : c.sound) : c.refill.sound := h.update

theorem Chip.sound.warmHosts (h : c.sound) : c.warmHosts.sound :=
  .setHost (.foldl (h.foldl fun _ _ hd => hd.setBitOf) fun _ _ hd => hd.peerReset)

theorem Chip.sound.tourRestart (h : c.sound) : c.tourRestart.sound := h.update

theorem Chip.sound.wakeWarm (h : c.sound) {env} : (c.wakeWarm env).sound := by
  unfold Chip.wakeWarm
  extract_lets c1 c2 c3 c4 good c5 c6 c7
  have h4 : c4.sound := .autoloadAll (.bootRoot (.warmHosts
    (.refill (.warmTimers (.warmSignals (.foldl (h.wakeBegin.tourRestart.stbEdge.resetPage.foldl
    fun _ _ hd => hd.warmCan) fun _ _ hd => hd.warmEth))))))
  have h5 : c5.sound := .ite h4.firmwareStart h4.arbFailed
  have h6 : c6.sound := .ite h5.startReint h5
  exact .alarmLevel (.epochSwitch (.passTargets (.raise (.wakeTimes
    (.ite h6.enterCaptured.copyAoLog h6.enterCaptured)))))

theorem Chip.sound.doWakeEvent (h : c.sound) {env} : (doWakeEvent env c).sound := by
  unfold Machine.doWakeEvent
  refine .ite h (.ite h.setPower.setBitOf.pwrResult.inc.raise ?_)
  split
  · exact h.wakeCold
  · exact h.wakeWarm
  · exact h
  · exact h
  · exact h
  · exact h

/-! ### Reference clocks, life cycle, the test port and time (chapters 22, 23) -/

theorem Chip.sound.refSwitch (h : c.sound) {r} : (c.refSwitch r).sound := .ite h h.setFldOf.incRaise.emit

theorem Chip.sound.bothRefsLost (h : c.sound) : c.bothRefsLost.sound :=
  .tamperEvent (.ite h.setBitOf.setPower.setFldOf.toHoldover h.setBitOf.setPower.setFldOf)

theorem Chip.sound.doRefclkLoss (h : c.sound) {r} : (doRefclkLoss r c).sound := by
  unfold Machine.doRefclkLoss
  refine .ite h ?_
  extract_lets c1 _ c2
  have h1 : c1.sound := h.setBitOf.raise
  have h2 : c2.sound := .ite h1.setPower h1
  exact .ite h2.bothRefsLost (.ite h2.refSwitch h2)

theorem Chip.sound.doRefclkReturn (h : c.sound) {r} : (doRefclkReturn r c).sound := by
  unfold Machine.doRefclkReturn
  refine .ite h ?_
  extract_lets +onlyGivenNames both c1 _ c2
  have h1 : c1.sound := h.setBitOf.setBitOf
  have h2 : c2.sound := .ite h1.setPower h1
  refine .ite h2 ?_
  extract_lets _ c3 c4
  have h3 : c3.sound := h2.setPower
  have h4 : c4.sound := by
    unfold c4
    split
    · exact h3
    · exact h3.setFldOf
  exact h4.refSwitch.tamperEvent

theorem Chip.sound.doRefclkRevert (h : c.sound) : (doRefclkRevert c).sound := by
  unfold Machine.doRefclkRevert
  split
  · exact h
  · exact .ite h.refSwitch h

theorem Chip.sound.doRefCtrlWrite (h : c.sound) {w v be} : (doRefCtrlWrite w v be c).sound :=
  h.blockWrite fun _ hd => .ite hd.plainWrite (.ite hd.setErr hd.plainWrite.refSwitch)

theorem Chip.sound.lcStat (h : c.sound) {r} : (c.lcStat r).sound := h.setReg.raise

theorem Chip.sound.lcAccept (h : c.sound) {t env} : (c.lcAccept t env).sound := by
  unfold Chip.lcAccept
  extract_lets returns _ c1
  have h1 : c1.sound := h
  exact h1.resetCore.resetCause.startIfFree.lcStat

theorem Chip.sound.lcRequest (h : c.sound) {v env} : (c.lcRequest v env).sound :=
  .ite h.lcStat (.ite h.lcStat h.lcAccept)

theorem Chip.sound.lcWrite (h : c.sound) {w v env} : (c.lcWrite w v env).sound :=
  h.blockWrite fun _ hd => hd.lcRequest

theorem Chip.sound.doLcProvisioned (h : c.sound) {w env} : (doLcProvisioned w env c).sound := h.lcWrite

theorem Chip.sound.doLcField (h : c.sound) {w env} : (doLcField w env c).sound := h.lcWrite

theorem Chip.sound.doLcReturn (h : c.sound) {w env} : (doLcReturn w env c).sound := h.lcWrite

theorem Chip.sound.doLcDecommissioned (h : c.sound) {w env} : (doLcDecommissioned w env c).sound := h.lcWrite

theorem Chip.sound.tapInstr (h : c.sound) {n pre o} : (c.tapInstr n pre o).sound := .ite h h.update

theorem Chip.sound.doJtagTrst (h : c.sound) : (doJtagTrst c).sound := .ite h h.update

theorem Chip.sound.doJtagBypass (h : c.sound) : (doJtagBypass c).sound := h.tapInstr

theorem Chip.sound.doJtagSamplePreload (h : c.sound) {bits} : (doJtagSamplePreload bits c).sound := h.tapInstr

theorem Chip.sound.doJtagExtest (h : c.sound) : (doJtagExtest c).sound := h.tapInstr

theorem Chip.sound.doJtagIdcode (h : c.sound) : (doJtagIdcode c).sound := h.tapInstr

theorem Chip.sound.doJtagClamp (h : c.sound) : (doJtagClamp c).sound := h.tapInstr

theorem Chip.sound.doJtagHighz (h : c.sound) : (doJtagHighz c).sound := h.tapInstr

theorem Chip.sound.passTime (h : c.sound) {fs} : (c.passTime fs).sound := h.update

theorem Chip.sound.holdoverGrow (h : c.sound) {fs} : (c.holdoverGrow fs).sound := .ite h (.setReg h.update)

theorem Chip.sound.heartbeat (h : c.sound) {before} : (c.heartbeat before).sound := .ite h.inc h

theorem Chip.sound.mirrorSink {c0 : Chip} (h : c0.sound) : c0.mirrorSink.sound := by
  unfold Chip.mirrorSink
  extract_lets old c rest
  have hc : c.sound := h.foldl fun _ _ hd => hd.resDrop.fabDone
  exact .ite hc hc.setCopies.fabDone

theorem Chip.sound.clockCycle (h : c.sound) : c.clockCycle.sound := .holdoverGrow h.passTime.update

theorem Chip.sound.coreCycle (h : c.sound) : c.coreCycle.sound := by
  unfold Chip.coreCycle
  extract_lets c3 c4
  have h3 : c3.sound := h.sigCycle.txnCycle.clockCycle.heartbeat
  exact .pauseChecks (.dmaRelease (.slotCycle (.mirrorSink (.cxIntake (.ite h3.powerSwitch h3)))))

theorem Chip.sound.sleepTick (h : c.sound) : c.sleepTick.sound := h.passTime.setGambit

theorem Chip.sound.doTick (h : c.sound) : (doTick c).sound := by
  unfold Machine.doTick
  split
  · exact h.update
  · exact h.passTime
  · exact h.sleepTick
  · exact h.sleepTick
  · exact .ite h.clockCycle h.coreCycle
  · exact .ite h.clockCycle h.coreCycle

/-! ### Writes of BAR0 -/

theorem Chip.sound.pageErrWrite (h : c.sound) {k p v mask} : (c.pageErrWrite k p v mask).sound := .ite h.setReg h.deny

theorem Chip.sound.headerWrite (h : c.sound) {k p off v be} : (c.headerWrite k p off v be).sound :=
  .ite h.doPageOwnerWrite (.ite (.ite h.irqStatWrite h.deny)
    (.ite (.ite h.irqMaskWrite h.deny) (.ite h.doPageIrqForceWrite (.ite h.pageErrWrite h))))

theorem Chip.sound.castleWord (h : c.sound) {k j v good} : (c.castleWord k j v good).sound :=
  .ite h.castleBad (.ite h.doLoad (.ite h.doWrap (.ite h.doImport
    (.ite h.doGenerate (.ite h.doUnload (.ite h.doErase (.ite h.doPubkey
    (.ite h.doStore (.ite h.doUnstore (.ite h.doClearResign (.ite h.doRootRetry h.castleBad)))))))))))

theorem Chip.sound.arbWord (h : c.sound) {k j v} : (c.arbWord k j v).sound :=
  .ite h.arbStart (.ite h.gambitStart h.arbStart)

theorem Chip.sound.arbArgWrite (h : c.sound) {k a v mask} : (c.arbArgWrite k a v mask).sound :=
  .ite (.ite h.plainWrite h) (h.blockWrite fun _ hd => hd.plainWrite)

theorem Chip.sound.ownWrite (h : c.sound) {k a v be env} : Chip.allSound (c.ownWrite k a v be env) := by
  unfold Chip.ownWrite
  extract_lets p off w
  split
  · exact .ite (.some h.doRstCmd) (.ite (.some h.doBlkRst) (.ite (.some h.doRefCtrlWrite)
      (.ite (.some h.lcWrite) .none)))
  · exact .ite (.some h.pwrWrite) .none
  · exact .ite (.some h.doSupvXfer) .none
  · exact .ite (.some h.doTempoCtrlWrite) (.ite (.some h.doCapture)
      (.ite (.some h.doRateHiWrite) (.ite (.some h.doHoldCfgWrite)
      (.ite (.some h.doHoldCfgWrite) (.ite (.some h.doSetGo) (.ite (.some h.doAlmCtrlWrite) .none))))))
  · exact .ite (.some h.doTsyncConfigWrite) (.ite (.some h.doTsyncConfigWrite) .none)
  · exact .ite (.some h.txnCmd) .none
  · exact .ite (.some h.doSwap) (.ite (.some h.doReint) .none)
  · exact .ite (.some h.doPlCtrlReset) (.ite (.some h.doSweepNow) .none)
  · exact .ite (.some h.doBufSplitWrite) .none
  · exact .ite (.some h.doQuarantineClear) (.ite (.some h.doQuarantineClear) .none)
  · exact .ite (.some h.doPawnKick) .none
  · exact .ite (.some h.doJrTailWrite) .none
  · exact .ite (.some h.castleWord) .none
  · exact .ite (.some h.doSleepLatchWrite) .none
  · exact .ite (.some h.doRetInit) (.ite (.some h.doBistRun) (.ite (.some h.doRetireGo) .none))
  · exact .ite (.some h.doRestart) (.ite (.some h.arbWord) (.ite (.some h.arbArgWrite) .none))
  · exact .ite (.some h.doSemRelease) .none
  · exact .ite (.some h.doBnlKeyWrite) (.ite (.some h.doBnlKeyWrite)
      (.ite (.some h.doTxSelWrite) (.ite (.some h.doPeerCfgWrite) .none)))
  · exact .ite (.some h.doHdmaTxTailWrite) .none
  · exact .ite (.some h.doCanCtrlWrite) (.ite (.some h.doTxReq)
      (.ite (.some h.doTxCancel) (.ite (.some h.doBoRecover) .none)))
  · exact .ite (.some h.doStgFlush) .none
  · exact .ite (.some h.doSdsModeWrite) (.ite (.some h.doMdioCmd) .none)
  · exact .none

theorem Chip.sound.hostWrite (h : c.sound) {k a v be env} : (c.hostWrite k a v be env).sound := by
  unfold Chip.hostWrite
  refine .ite h (.ite (.ite h.headerWrite h) ?_)
  split
  · rename_i c1 e
    have h1 := h.ownWrite _ e
    exact h1
  · exact h.blockWrite fun _ hd => hd.regEffect

theorem Chip.sound.hostWrites {k a ws env} (h : c.sound) : (c.hostWrites k a ws env).sound := by
  induction ws generalizing c a with
  | nil => exact h
  | cons w rest ih => exact ih h.hostWrite

theorem Chip.sound.arbWrite (h : c.sound) {a x} : (c.arbWrite a x).sound := by
  unfold Chip.arbWrite
  split
  · exact .ite h.regEffect h
  · exact h

theorem Chip.sound.doRegisterWrite (h : c.sound) {k a ws env} : (doRegisterWrite k a ws env c).sound := by
  unfold Machine.doRegisterWrite
  refine .ite h.arbWrite (.ite h (.hostWrites ?_))
  split
  · exact h
  · exact h.msixWrite

/-! ### Reads -/

theorem Chip.sound.hostRead (h : c.sound) {k a} : Chip.sndSound (c.hostRead k a) := by
  unfold Chip.hostRead
  split
  · exact .mk h.deny
  · exact .mk (.ite h.setErr h)

theorem Chip.sound.tableRead (h : c.sound) {k off} : Chip.sndSound (c.tableRead k off) := by
  unfold Chip.tableRead
  refine .ite (.mk h) ?_
  split
  · exact .mk h
  · refine .ite (.mk h) (.ite (.mk h.deny) ?_)
    split
    · exact .ite (.mk h.memUe) (.mk h)
    · exact .mk h

/-! ### The agent's requests on the part itself -/

theorem Chip.sound.doArbCmd (h : c.sound) {eye} : (doArbCmd eye c).sound := by
  unfold Machine.doArbCmd
  refine h.serve fun _ _ hd => ?_
  extract_lets op args x
  have hx : Chip.fstSound x := .ite hd.arbWork (.mk hd)
  exact hx.bnlRespond

theorem Chip.sound.tableBytes (h : c.sound) {k off d ecc} : (c.tableBytes k off d ecc).sound :=
  h.foldl fun _ _ hd => .ite hd hd.tableWrite

theorem Chip.sound.doGambit (h : c.sound) : (doGambit c).sound := by
  unfold Machine.doGambit
  refine h.serve fun _ _ hd => ?_
  extract_lets +onlyGivenNames k
  refine .ite hd ?_
  extract_lets op c1 x
  have h1 : c1.sound := hd.tableBytes
  have hx : Chip.fstSound x := .ite (.mk h1) (.ite h1.gambitExec (.mk h1))
  exact hx.bnlRespond

theorem Chip.sound.sideRead (h : c.sound) {k a seen} : (c.sideRead k a seen).sound := by
  unfold Chip.sideRead
  refine .ite (.ite h.update h) ?_
  split
  · exact .ite h.doDenyPop h
  · exact .ite h.doEnt7Read h
  · exact .ite h.doWerrPop (.ite h.doSemAcquireRead h)
  · exact .ite h.doErrCapRead (.ite (.ite h.doRxMailboxLock (.ite h.doRxMailboxRelease h)) h)
  · exact .ite h.doLastDropRead h
  · exact .ite h.doStgHwmRead (.ite h.doStgLastErrRead h)
  · exact h

theorem Chip.fstSound.readDword {r : Chip × List Byte × Bool} (h : Chip.fstSound r) {k seen a} :
    Chip.fstSound (readDword k seen r a) :=
  .mk (.ite h (.ite h.hostRead h.hostRead.sideRead))

theorem Chip.fstSound.readWord {r : Chip × List Byte × Bool} (h : Chip.fstSound r) {k start off} :
    Chip.fstSound (readWord k start r off) :=
  .mk (.ite h h.tableRead)

theorem Chip.sound.readBar0 (h : c.sound) {k a n seen r} (e : c.readBar0 k a n seen = some r) : Chip.fstSound r := by
  unfold Chip.readBar0 at e
  simp only [Option.ite_none_right_eq_some, Option.some.injEq] at e
  obtain ⟨-, rfl⟩ := e
  exact .mk (Chip.fstSound.foldPair (.mk h) fun _ _ hr => hr.readDword)

theorem Chip.sound.readBar2 (h : c.sound) {k off n ue} : Chip.fstSound (c.readBar2 k off n ue) := by
  unfold Chip.readBar2
  extract_lets start c0 s
  have h0 : c0.sound := by
    refine .ite ?_ h
    split
    · exact h.memUe
    · exact h
  exact .mk (Chip.fstSound.foldPair (.mk h0) fun _ _ hr => hr.readWord)

theorem Chip.sound.doRead (h : c.sound) {seen ue} : (doRead seen ue c).sound := by
  unfold Machine.doRead
  refine h.serve fun _ _ hd => .ite hd.bnlRespond (.ite hd.bnlRespond
    (.ite ?_ (.ite hd.readBar2.bnlRespond hd.readBar2.bnlRespond)))
  split
  next e => exact (hd.readBar0 e).bnlRespond
  next => exact .bnlRespond (.advanceFree (.ite hd.setErr hd))

theorem Chip.sound.doWrite (h : c.sound) {ecc env} : (doWrite ecc env c).sound :=
  h.serve fun _ _ hd => .ite hd.bnlRespond (.ite hd.bnlRespond
    (.ite hd.bnlRespond (.ite hd.bnlRespond (.ite hd.hostWrites.bnlRespond hd.tableBytes.bnlRespond))))

/-! ### The planes as consumers of the staging FIFOs (chapter 6) -/

theorem Chip.sound.stgPointers (h : c.sound) {q ptr} : (c.stgPointers q ptr).sound :=
  .ite h h.stgServe.stgSettle.inc.disagree.flagPlanes

theorem Chip.sound.stgPass (h : c.sound) {q n slot} : (c.stgPass q n slot).sound :=
  .stgSettle (.ite (.stgReleaseBy (.stgMark (.setStgRd (.ite h.setStgRd.stgMark.stgReleaseBy h))))
    (.ite h.setStgRd.stgMark.stgReleaseBy h))

theorem Chip.sound.stgFails (h : c.sound) {src k ue} : (c.stgFails src k ue).sound := by
  unfold Chip.stgFails
  extract_lets reason c0 c1
  have h1 : c1.sound := .scoreLog (.raise (.stgErr (.inc (.ite h.memUe h))))
  exact .ite h1.classify h1

theorem Chip.sound.stgGone (h : c.sound) {q slot} : (c.stgGone q slot).sound := h.setStg

theorem Chip.sound.stgJudge (h : c.sound) {q p bad} : (c.stgJudge q p bad).sound := by
  unfold Chip.stgJudge
  split
  · exact h
  · exact .ite h h.stgGone.stgFails

theorem Chip.sound.stgStep (h : c.sound) {q bad x} : (c.stgStep q bad x).sound := by
  unfold Chip.stgStep
  refine .ite h ?_
  split
  · exact h.stgMark
  · extract_lets p c1
    have h1 : c1.sound := h.stgReadWord
    exact .ite h1 h1.stgJudge
  · exact h.stgBack
  · exact h.stgReleaseBy.stgSettle

theorem Chip.sound.stgHead (h : c.sound) {src} : (c.stgHead src).sound := by
  unfold Chip.stgHead
  split
  · exact h
  · exact .ite h h.setProg

theorem Chip.sound.stgTake (h : c.sound) {src bad} : (c.stgTake src bad).sound := by
  unfold Chip.stgTake
  extract_lets +onlyGivenNames n
  split
  · exact h.setStg.classify
  · exact h.stgHead
  · extract_lets c1 f
    have h1 : c1.sound := h.stgPass
    exact .ite h1 (.ite h1.stgFails h1.classify)

theorem Chip.sound.doClassifyFrame (h : c.sound) {src bad x} : (doClassifyFrame src bad x c).sound := by
  unfold Machine.doClassifyFrame
  refine .ite (.ite h.stgPointers.stgTake h.stgPointers.stgStep) (.ite ?_ h)
  split
  · exact h
  · exact .ite h.resDrop.fabDone h.delCopy.fabDone.classify
--bad 0 of 1010

/-! ### Every command and the tick

Each command's `exec` is `State.onChip` of its part function, so one lemma about `onChip` carries each part lemma to the
command. A Pawn instruction other than END is `Chip.issue` with the function it names. -/

/-- The answer is not a next state, or it is a sound one. -/
def nextSound (o : Host.Outcome State Fault Refusal) : Prop := ∀ t, o = .next t → t.chip.sound

theorem nextSound.next {t : State} (h : t.chip.sound) : nextSound (.next t) := by
  rintro _ ⟨⟩
  exact h

theorem nextSound.onChip {s : State} {g : Gate} {f : Chip → Chip} (h : s.chip.sound) (hf : (f s.chip).sound) :
    nextSound (s.onChip g f) := by
  refine .next ?_
  split
  · exact hf
  · exact h

theorem nextSound.exec {s : State} (h : s.chip.sound) : ∀ i, nextSound (exec i s)
  | .registerWrite .. => .onChip h h.doRegisterWrite
  | .wideReadReject .. => .onChip h h.doWideReadReject
  | .pageOwnerWrite .. => .onChip h h.doPageOwnerWrite
  | .pageIrqForceWrite .. => .onChip h h.doPageIrqForceWrite
  | .supvXfer .. => .onChip h h.doSupvXfer
  | .supvWatchCheck .. => .onChip h h.doSupvWatchCheck
  | .denyPop .. => .onChip h h.doDenyPop
  | .alarmNHoldExpiry .. => .onChip h h.doAlarmNHoldExpiry
  | .rateHiWrite .. => .onChip h h.doRateHiWrite
  | .capture .. => .onChip h h.doCapture
  | .syncReceived .. => .onChip h h.doSyncReceived
  | .syncReceiptTimeout .. => .onChip h h.doSyncReceiptTimeout
  | .holdoverExpiry .. => .onChip h h.doHoldoverExpiry
  | .holdCfgWrite .. => .onChip h h.doHoldCfgWrite
  | .tempoCtrlWrite .. => .onChip h h.doTempoCtrlWrite
  | .setGo .. => .onChip h h.doSetGo
  | .ref10Loss .. => .onChip h h.doRef10Loss
  | .gptpSyncRelay .. => .onChip h h.doGptpSyncRelay
  | .gptpSyncTransmit .. => .onChip h h.doGptpSyncTransmit
  | .almCtrlWrite .. => .onChip h h.doAlmCtrlWrite
  | .tempoAlarmExpiry .. => .onChip h h.doTempoAlarmExpiry
  | .canSyncQueue .. => .onChip h h.doCanSyncQueue
  | .canFollowupQueue .. => .onChip h h.doCanFollowupQueue
  | .tsyncConfigWrite .. => .onChip h h.doTsyncConfigWrite
  | .canFrameReceived .. => .onChip h h.doCanFrameReceived
  | .canErrorFrame .. => .onChip h h.doCanErrorFrame
  | .protocolException .. => .onChip h h.doProtocolException
  | .canCtrlWrite .. => .onChip h h.doCanCtrlWrite
  | .canIntegrationDone .. => .onChip h h.doCanIntegrationDone
  | .rxMailboxLock .. => .onChip h h.doRxMailboxLock
  | .rxMailboxRelease .. => .onChip h h.doRxMailboxRelease
  | .txReq .. => .onChip h h.doTxReq
  | .txCancel .. => .onChip h h.doTxCancel
  | .canTxAttempt .. => .onChip h h.doCanTxAttempt
  | .canArbitrationLost .. => .onChip h h.doCanArbitrationLost
  | .canFrameTransmitted .. => .onChip h h.doCanFrameTransmitted
  | .canDeadlineExpiry .. => .onChip h h.doCanDeadlineExpiry
  | .canClassBufferPull .. => .onChip h h.doCanClassBufferPull
  | .canScheduleEntry .. => .onChip h h.doCanScheduleEntry
  | .boRecover .. => .onChip h h.doBoRecover
  | .canBusoffRecovered .. => .onChip h h.doCanBusoffRecovered
  | .canStuckDominant .. => .onChip h h.doCanStuckDominant
  | .txdDominantLimit .. => .onChip h h.doTxdDominantLimit
  | .canIdleTimeout .. => .onChip h h.doCanIdleTimeout
  | .rxdWake .. => .onChip h h.doRxdWakeEdge
  | .errCapRead .. => .onChip h h.doErrCapRead
  | .canSquareReset .. => .onChip h h.doCanSquareReset
  | .ethFrameReceived .. => .onChip h h.doEthFrameReceived
  | .pauseFrameReceived .. => .onChip h h.doPauseFrameReceived
  | .pauseExpiry .. => .onChip h h.doPauseExpiry
  | .pauseDutyWindow .. => .onChip h h.doPauseDutyWindow
  | .pauseTxRepeat .. => .onChip h h.doPauseTxRepeat
  | .plcaBeaconReceived .. => .onChip h h.doPlcaBeaconReceived
  | .plcaLoss .. => .onChip h h.doPlcaLoss
  | .sdsModeWrite .. => .onChip h h.doSdsModeWrite
  | .linkUp .. => .onChip h h.doLinkUp
  | .linkDown .. => .onChip h h.doLinkDown
  | .linkHoldExpiry .. => .onChip h h.doLinkHoldExpiry
  | .mdioCmd .. => .onChip h h.doMdioCmd
  | .mdioDone .. => .onChip h h.doMdioDone
  | .ethTransmitSelect .. => .onChip h h.doEthTransmitSelect
  | .ethFrameTxDone .. => .onChip h h.doEthFrameTxDone
  | .lpiEnter .. => .onChip h h.doLpiEnter
  | .lpiGateWake .. => .onChip h h.doLpiGateWake
  | .mmVerifyTimer .. => .onChip h h.doMmVerifyTimer
  | .gateListEntry .. => .onChip h h.doGateListEntry
  | .frerRecoveryReset .. => .onChip h h.doFrerRecoveryReset
  | .frerLatentTest .. => .onChip h h.doFrerLatentTest
  | .ethSquareReset .. => .onChip h h.doEthSquareReset
  | .lastDropRead .. => .onChip h h.doLastDropRead
  | .stgFlush .. => .onChip h h.doStgFlush
  | .stgHwmRead .. => .onChip h h.doStgHwmRead
  | .stgLastErrRead .. => .onChip h h.doStgLastErrRead
  | .classifyFrame .. => .onChip h h.doClassifyFrame
  | .tableEntryWrite .. => .onChip h h.doTableEntryWrite
  | .streamGateEntry .. => .onChip h h.doStreamGateEntry
  | .guardWindowEnd .. => .onChip h h.doGuardWindowEnd
  | .quarantineClear .. => .onChip h h.doQuarantineClear
  | .quarantineHoldExpiry .. => .onChip h h.doQuarantineHoldExpiry
  | .unpackPdu .. => .onChip h h.doUnpackPdu
  | .hostSignalWrite .. => .onChip h h.doHostSignalWrite
  | .flagFall .. => .onChip h h.doFlagFall
  | .sweepDone .. => .onChip h h.doSweepDone
  | .pduPeriodEmit .. => .onChip h h.doPduPeriodEmit
  | .emitDeferred .. => .onChip h h.doEmitDeferred
  | .pawnDispatch .. => .onChip h h.doPawnDispatch
  | .pawnKick .. => .onChip h h.doPawnKick
  | .pawnTimerExpiry .. => .onChip h h.doPawnTimerExpiry
  | .budgetExhausted .. => .onChip h h.doBudgetExhausted
  | .illegalInstruction .. => .onChip h h.doIllegalInstruction
  | .pawnNop .. => .onChip h h.issue
  | .pawnEnd .. => .onChip h h.doEnd
  | .pawnAbort .. => .onChip h h.issue
  | .pawnBr .. => .onChip h h.issue
  | .pawnBeq .. => .onChip h h.issue
  | .pawnBne .. => .onChip h h.issue
  | .pawnBlt .. => .onChip h h.issue
  | .pawnBge .. => .onChip h h.issue
  | .pawnBltu .. => .onChip h h.issue
  | .pawnBgeu .. => .onChip h h.issue
  | .pawnLoop .. => .onChip h h.issue
  | .pawnLd .. => .onChip h h.issue
  | .pawnLdw .. => .onChip h h.issue
  | .pawnSt .. => .onChip h h.issue
  | .pawnStw .. => .onChip h h.issue
  | .pawnAdd .. => .onChip h h.issue
  | .pawnSub .. => .onChip h h.issue
  | .pawnAdds .. => .onChip h h.issue
  | .pawnSubs .. => .onChip h h.issue
  | .pawnAddus .. => .onChip h h.issue
  | .pawnSubus .. => .onChip h h.issue
  | .pawnMul .. => .onChip h h.issue
  | .pawnMuls .. => .onChip h h.issue
  | .pawnAnd .. => .onChip h h.issue
  | .pawnOr .. => .onChip h h.issue
  | .pawnXor .. => .onChip h h.issue
  | .pawnShl .. => .onChip h h.issue
  | .pawnShr .. => .onChip h h.issue
  | .pawnSar .. => .onChip h h.issue
  | .pawnMin .. => .onChip h h.issue
  | .pawnMax .. => .onChip h h.issue
  | .pawnAddi .. => .onChip h h.issue
  | .pawnAndi .. => .onChip h h.issue
  | .pawnOri .. => .onChip h h.issue
  | .pawnXori .. => .onChip h h.issue
  | .pawnShli .. => .onChip h h.issue
  | .pawnShri .. => .onChip h h.issue
  | .pawnSari .. => .onChip h h.issue
  | .pawnMovi .. => .onChip h h.issue
  | .pawnMovk .. => .onChip h h.issue
  | .pawnBfx .. => .onChip h h.issue
  | .pawnBfxs .. => .onChip h h.issue
  | .pawnBfi .. => .onChip h h.issue
  | .pawnBsw .. => .onChip h h.issue
  | .pawnSrd .. => .onChip h h.issue
  | .pawnSrs .. => .onChip h h.issue
  | .pawnSrc .. => .onChip h h.issue
  | .pawnExt .. => .onChip h h.issue
  | .pawnExts .. => .onChip h h.issue
  | .pawnIns .. => .onChip h h.issue
  | .pawnScl .. => .onChip h h.issue
  | .pawnRchk .. => .onChip h h.issue
  | .pawnClamp .. => .onChip h h.issue
  | .pawnFtox .. => .onChip h h.issue
  | .pawnXtof .. => .onChip h h.issue
  | .pawnCrc .. => .onChip h h.issue
  | .pawnCrcb .. => .onChip h h.issue
  | .pawnAlv .. => .onChip h h.issue
  | .pawnAlvd .. => .onChip h h.issue
  | .pawnSwr .. => .onChip h h.issue
  | .pawnEmit .. => .onChip h h.issue
  | .pawnSend .. => .onChip h h.issue
  | .pawnTstart .. => .onChip h h.issue
  | .pawnTstop .. => .onChip h h.issue
  | .copyLaunchGrant .. => .onChip h h.doCopyLaunchGrant
  | .cellArriveResequencer .. => .onChip h h.doCellArriveResequencer
  | .reseqTimeout .. => .onChip h h.doReseqTimeout
  | .agerScan .. => .onChip h h.doAgerScan
  | .holdReclaim .. => .onChip h h.doHoldReclaim
  | .bufSplitWrite .. => .onChip h h.doBufSplitWrite
  | .adjItemCompare .. => .onChip h h.doAdjItemCompare
  | .adjDecision .. => .onChip h h.doAdjDecision
  | .switchoverGapEnd .. => .onChip h h.doSwitchoverGapEnd
  | .diagDone .. => .onChip h h.doDiagDone
  | .tableSweep .. => .onChip h h.doTableSweep
  | .sweepNow .. => .onChip h h.doSweepNow
  | .plCtrlReset .. => .onChip h h.doPlCtrlReset
  | .reint .. => .onChip h h.doReint
  | .reintAutoStart .. => .onChip h h.doReintAutoStart
  | .reintWipeDone .. => .onChip h h.doReintWipeDone
  | .reintCopyDone .. => .onChip h h.doReintCopyDone
  | .reintCopyTimeout .. => .onChip h h.doReintCopyTimeout
  | .reintSnapshotDone .. => .onChip h h.doReintSnapshotDone
  | .reintJoinDone .. => .onChip h h.doReintJoinDone
  | .proofSwapDue .. => .onChip h h.doProofSwapDue
  | .swap .. => .onChip h h.doSwap
  | .proofSwapResume .. => .onChip h h.doProofSwapResume
  | .txnBegin .. => .onChip h h.doBegin
  | .txnCommitImmediate .. => .onChip h h.doCommitImmediate
  | .txnCommitNextBoundary .. => .onChip h h.doCommitNextBoundary
  | .txnCommitAtTime .. => .onChip h h.doCommitAtTime
  | .txnRollback .. => .onChip h h.doRollback
  | .txnBadCmd .. => .onChip h h.doTxnBadCmd
  | .txnJournalWrite .. => .onChip h h.doTxnJournalWrite
  | .epochSwitch .. => .onChip h h.doEpochSwitch
  | .oldEpochRetire .. => .onChip h h.doOldEpochRetire
  | .txnAutoAbort .. => .onChip h h.doTxnAutoAbort
  | .castleLoad .. => .onChip h h.doLoad
  | .castleWrap .. => .onChip h h.doWrap
  | .castleImport .. => .onChip h h.doImport
  | .castleGenerate .. => .onChip h h.doGenerate
  | .castleUnload .. => .onChip h h.doUnload
  | .castleErase .. => .onChip h h.doErase
  | .castlePubkey .. => .onChip h h.doPubkey
  | .castleStore .. => .onChip h h.doStore
  | .castleUnstore .. => .onChip h h.doUnstore
  | .castleClearResign .. => .onChip h h.doClearResign
  | .castleRootRetry .. => .onChip h h.doRootRetry
  | .castleCommandDone .. => .onChip h h.doCastleCommandDone
  | .slotRemask .. => .onChip h h.doSlotRemask
  | .rngFail .. => .onChip h h.doRngFail
  | .tamperSensorFire .. => .onChip h h.doTamperSensorFire
  | .sleepLatchWrite .. => .onChip h h.doSleepLatchWrite
  | .autoloadDeferred .. => .onChip h h.doAutoloadDeferred
  | .cxDescriptorFetch .. => .onChip h h.doCxDescriptorFetch
  | .jrTailWrite .. => .onChip h h.doJrTailWrite
  | .gcmEncrypt .. => .onChip h h.doGcmEncrypt
  | .gcmDecrypt .. => .onChip h h.doGcmDecrypt
  | .gmacGenerate .. => .onChip h h.doGmacGenerate
  | .gmacVerify .. => .onChip h h.doGmacVerify
  | .ccmEncrypt .. => .onChip h h.doCcmEncrypt
  | .ccmDecrypt .. => .onChip h h.doCcmDecrypt
  | .cmacGenerate .. => .onChip h h.doCmacGenerate
  | .cmacVerify .. => .onChip h h.doCmacVerify
  | .shake256 .. => .onChip h h.doShake256
  | .ed448Sign .. => .onChip h h.doEd448Sign
  | .ed448Verify .. => .onChip h h.doEd448Verify
  | .attest .. => .onChip h h.doAttest
  | .sealJob .. => .onChip h h.doSealJob
  | .verifyJob .. => .onChip h h.doVerifyJob
  | .cxJobDone .. => .onChip h h.doCxJobDone
  | .scrubRead .. => .onChip h h.doScrubRead
  | .bucketLeak .. => .onChip h h.doBucketLeak
  | .retireGo .. => .onChip h h.doRetireGo
  | .allocRetireComplete .. => .onChip h h.doAllocRetireComplete
  | .bistRun .. => .onChip h h.doBistRun
  | .retInit .. => .onChip h h.doRetInit
  | .arbCoreMismatch .. => .onChip h h.doArbCoreMismatch
  | .arbWatchdogExpiry .. => .onChip h h.doArbWatchdogExpiry
  | .restart .. => .onChip h h.doRestart
  | .arbRestartDone .. => .onChip h h.doArbRestartDone
  | .arbPing .. => .onChip h h.doPing
  | .arbFlush .. => .onChip h h.doFlush
  | .arbArchRead .. => .onChip h h.doArchRead
  | .arbEyeScan .. => .onChip h h.doEyeScan
  | .arbMka .. => .onChip h h.doMka
  | .arbCommandDone .. => .onChip h h.doArbCommandDone
  | .sensSample .. => .onChip h h.doSensSample
  | .eyeScanPeriodic .. => .onChip h h.doEyeScanPeriodic
  | .scoreEntryWrite .. => .onChip h h.doScoreEntryWrite
  | .scoreFlush .. => .onChip h h.doScoreFlush
  | .ent7Read .. => .onChip h h.doEnt7Read
  | .functionLevelReset .. => .onChip h h.doFunctionLevelReset
  | .perstAssert .. => .onChip h h.doPerstAssert
  | .hdmaTxTailWrite .. => .onChip h h.doHdmaTxTailWrite
  | .hdmaTxFetch .. => .onChip h h.doHdmaTxFetch
  | .hdmaRxDeliver .. => .onChip h h.doHdmaRxDeliver
  | .rxIrqTimer .. => .onChip h h.doRxIrqTimer
  | .bar4Read .. => .onChip h h.doBar4Read
  | .bar4Write .. => .onChip h h.doBar4Write
  | .bar4AtomicOp .. => .onChip h h.doBar4AtomicOp
  | .bnlResponseReceived .. => .onChip h h.doBnlResponseReceived
  | .bridgeTagTimeout .. => .onChip h h.doBridgeTagTimeout
  | .bridgeBusyRetry .. => .onChip h h.doBridgeBusyRetry
  | .semAcquireRead .. => .onChip h h.doSemAcquireRead
  | .semRelease .. => .onChip h h.doSemRelease
  | .semLeaseRenew .. => .onChip h h.doSemLeaseRenew
  | .semHoldTimeout .. => .onChip h h.doSemHoldTimeout
  | .werrPop .. => .onChip h h.doWerrPop
  | .bnlMessageReceived .. => .onChip h h.doBnlMessageReceived
  | .bnlArbCmd .. => .onChip h h.doArbCmd
  | .bnlCxJob .. => .onChip h h.doCxJob
  | .bnlGambit .. => .onChip h h.doGambit
  | .bnlScoreRead .. => .onChip h h.doScoreRead
  | .bnlRead .. => .onChip h h.doRead
  | .bnlWrite .. => .onChip h h.doWrite
  | .bnlLock .. => .onChip h h.doLock
  | .bnlUnlock .. => .onChip h h.doUnlock
  | .leaseExpiry .. => .onChip h h.doLeaseExpiry
  | .bnlKeyWrite .. => .onChip h h.doBnlKeyWrite
  | .txSelWrite .. => .onChip h h.doTxSelWrite
  | .peerCfgWrite .. => .onChip h h.doPeerCfgWrite
  | .gambitStage .. => .onChip h h.doStage
  | .gambitChunk .. => .onChip h h.doChunk
  | .gambitActivate .. => .onChip h h.doActivate
  | .gambitConfirm .. => .onChip h h.doConfirm
  | .gambitAbandon .. => .onChip h h.doAbandon
  | .gambitApplyRetry .. => .onChip h h.doGambitApplyRetry
  | .trialWindowExpiry .. => .onChip h h.doTrialWindowExpiry
  | .flashDeviceFail .. => .onChip h h.doFlashDeviceFail
  | .pwrPlay .. => .onChip h h.doPlay
  | .pwrQuiet .. => .onChip h h.doQuiet
  | .pwrAdjournedWarm .. => .onChip h h.doAdjournedWarm
  | .pwrAdjournedCold .. => .onChip h h.doAdjournedCold
  | .adjournedEntryDone .. => .onChip h h.doAdjournedEntryDone
  | .wakeEvent .. => .onChip h h.doWakeEvent
  | .wakeCanRule .. => .onChip h h.doWakeCanRule
  | .wakeT1sRule .. => .onChip h h.doWakeT1sRule
  | .wakeT1sEnergy .. => .onChip h h.doWakeT1sEnergy
  | .wakeEthPattern .. => .onChip h h.doWakeEthPattern
  | .wakeSignalDetect .. => .onChip h h.doWakeSignalDetect
  | .wakeGpioEdge .. => .onChip h h.doWakeGpioEdge
  | .wakeHostSideband .. => .onChip h h.doWakeHostSideband
  | .wakeRcStart .. => .onChip h h.doWakeRcStart
  | .wakeRcIdleStop .. => .onChip h h.doWakeRcIdleStop
  | .bookHandover .. => .onChip h h.doBookHandover
  | .bookLate .. => .onChip h h.doBookLate
  | .powerOnReset .. => .onChip h h.doPowerOnReset
  | .resetNAssert .. => .onChip h h.doResetNAssert
  | .rstCmd .. => .onChip h h.doRstCmd
  | .brownout .. => .onChip h h.doBrownout
  | .brownoutRelease .. => .onChip h h.doBrownoutRelease
  | .blkRst .. => .onChip h h.doBlkRst
  | .refclkLoss .. => .onChip h h.doRefclkLoss
  | .refclkRevert .. => .onChip h h.doRefclkRevert
  | .refCtrlWrite .. => .onChip h h.doRefCtrlWrite
  | .lcProvisioned .. => .onChip h h.doLcProvisioned
  | .lcField .. => .onChip h h.doLcField
  | .lcReturn .. => .onChip h h.doLcReturn
  | .lcDecommissioned .. => .onChip h h.doLcDecommissioned
  | .testModeHigh .. => .onChip h h.doTestModeHigh
  | .jtagTrst .. => .onChip h h.doJtagTrst
  | .jtagBypass .. => .onChip h h.doJtagBypass
  | .jtagSamplePreload .. => .onChip h h.doJtagSamplePreload
  | .jtagExtest .. => .onChip h h.doJtagExtest
  | .jtagIdcode .. => .onChip h h.doJtagIdcode
  | .jtagClamp .. => .onChip h h.doJtagClamp
  | .jtagHighz .. => .onChip h h.doJtagHighz
  | .pcieLinkUp .. => .onChip h h.doPcieLinkUp
  | .dlDown .. => .onChip h h.doDlDown
  | .stuckClear .. => .onChip h h.doStuckClear
  | .resetNRelease .. => .onChip h h.doResetNRelease
  | .perstNRelease .. => .onChip h h.doPerstNRelease
  | .vddAoLoss .. => .onChip h h.doVddAoLoss
  | .refclkReturn .. => .onChip h h.doRefclkReturn
  | .actDone .. => .onChip h h.doActDone

theorem nextSound.step {s : State} (h : s.chip.sound) : nextSound (step s) := by
  unfold Machine.step
  split
  · exact .next h.doTick
  · next i rest _ => exact nextSound.exec (s := { s with pending := rest }) h i

/-- Settles O49: a step is the tick or the command at the queue's front, and the part function of each keeps the part sound. -/
theorem stepKeepsTheStateSound : Obligations.StepKeepsTheStateSound := by
  intro s t h hst
  exact nextSound.step h t hst

/-- Settles O48: at reset no register and no table word is listed, and partition 0 is both supervisors. -/
theorem resetStateIsSound : Obligations.ResetStateIsSound := by
  unfold Obligations.ResetStateIsSound Chip.sound
  decide

end Sys2Proof.Machine

namespace Sys2Proof.Machine

/-! ## The idle step (R81, R547) -/

/-- With no command waiting, a step is one tick. -/
theorem step_of_pending_nil {s : State} (h : s.pending = []) : step s = .next { s with chip := doTick s.chip } := by
  simp only [step, h]

/-- A held part counts a tick of the always-on clock. -/
theorem doTick_of_held {c : Chip} (h : c.power.mode = .held) : doTick c = c.passTime aoTickFs := by
  simp only [doTick, h]

/-- While the part is off, only elapsed time passes. -/
theorem doTick_of_off {c : Chip} (h : c.power.mode = .off) : doTick c = { c with now := c.now + aoTickFs } := by
  simp only [doTick, h]

/-- Settles O45: the tick of each of the two power modes, at the front of an empty queue. -/
theorem idleStepIsOneTick : Obligations.IdleStepIsOneTick := by
  refine ⟨fun _ hidle => step_of_pending_nil hidle, ?_, ?_⟩
  · rintro s ⟨hidle, hheld⟩
    exact ⟨_, by rw [step_of_pending_nil hidle, doTick_of_held hheld], rfl, rfl, rfl⟩
  · rintro s ⟨hidle, hoff⟩
    rw [step_of_pending_nil hidle, doTick_of_off hoff]
    rfl

/-! ## Tempo's rate in RECOVERY (R71, R576) -/

/-- In RECOVERY a command that acts only on a running part changes nothing, although the part passes the gate `.recovery`. -/
theorem State.onChip_running_of_recovery {s : State} (h : s.chip.fldOf Reg.GLB.BOOT_STAT 3 0 = 0xF) (f : Chip → Chip) :
    s.onChip .running f = .next s :=
  s.onChip_block .running f (by simp [Chip.passes, h])

/-- A part in RECOVERY (BOOT_STAT.PHASE 0xF) whose ARB.STATUS reads RUNNING and whose TEMPO.CTRL has SERVO_EN set. -/
def servoInRecovery : State :=
  { chip := { regs := [(Reg.GLB.BOOT_STAT, 0xF), (Reg.TEMPO.CTRL, 1), (Reg.ARB.STATUS, 1)] } }

/-- The servo's commit of increment 0 there: the gate `.recovery` and the servo's premises hold, and yet no next state has the
increment that R71 clamps 0 to, because the rate stays at nominal. -/
theorem servoInRecovery_keeps_rate :
    servoInRecovery.chip.passes .recovery = true ∧
    (servoInRecovery.chip.servoOn = true ∧ servoInRecovery.chip.arbRunning = true) ∧
    ∀ d, exec (.rateHiWrite 4 0 0 0xF) servoInRecovery = .next { servoInRecovery with chip := d } →
      d.rate ≠ min (0xA00000000000 + 0xA00000000000 * servoInRecovery.chip.slewMax / 1000000)
        (max (0xA00000000000 - 0xA00000000000 * servoInRecovery.chip.slewMax / 1000000) 0) := by
  refine ⟨by decide, by decide, fun d hd => ?_⟩
  have hstay : exec (.rateHiWrite 4 0 0 0xF) servoInRecovery = .next servoInRecovery :=
    State.onChip_running_of_recovery (by decide) _
  have hchip : servoInRecovery.chip = d := by
    rw [hstay] at hd
    exact congrArg State.chip (Host.Outcome.next.inj hd)
  rw [← hchip]
  decide

/-- Refutes O2: its clause on the servo's RATE_HI_WRITE admits a part in RECOVERY, where the command does not act. -/
theorem not_tempoRateAndTimeCommands : ¬ Obligations.TempoRateAndTimeCommands := by
  rintro ⟨-, servo, -⟩
  obtain ⟨hpass, hservo, hrate⟩ := servoInRecovery_keeps_rate
  obtain ⟨d, hd, hclamped, -⟩ := servo servoInRecovery 0 0 0xF 0 _ hpass hservo ⟨by decide, rfl⟩
  exact hrate d hd hclamped

/-- Refutes O3: its clause on the servo's RATE_HI_WRITE, the twelfth, admits a part in RECOVERY, where the command does not act. -/
theorem not_tempoSyncCommands : ¬ Obligations.TempoSyncCommands := by
  rintro ⟨-, -, -, -, -, -, -, -, -, -, -, servo, -⟩
  obtain ⟨hpass, hservo, hrate⟩ := servoInRecovery_keeps_rate
  obtain ⟨d, hd, hclamped⟩ := servo servoInRecovery 0 0 0xF 0 _ hpass hservo ⟨by decide, rfl⟩
  exact hrate d hd hclamped

/-! ## Word L of a receive buffer with more data than the buffer has words (R98, R99) -/

/-- A side-effecting read of a page whose block is in reset has no effect. -/
theorem Chip.volatileRead_of_held {c : Chip} {a : Nat} (h : c.held (a / 0x1000) = true) (k : Nat) (seen : Bool) (data : Word)
    (act : Chip → Chip) : c.volatileRead k a seen data act = c := by
  simp [Chip.volatileRead, h]

/-- The release of a LOCKED buffer is the read of its word L. -/
theorem doRxMailboxRelease_of_locked {c : Chip} {q n : Nat} (hq : q < 40) (hn : n < 20) (h : (c.rxBuf q n).state = 2)
    (k : Nat) (seen : Bool) :
    doRxMailboxRelease k q n seen c =
      c.volatileRead k (rxAddr q n (c.rxBuf q n).lastWord) seen ((c.rxBuf q n).word (c.rxBuf q n).lastWord)
        fun c => c.rxRelease q n := by
  simp [doRxMailboxRelease, isCan, hq, h, Nat.not_le.mpr hn]

theorem RxBuf.lastWord_of_held {b : RxBuf} {r : RxFrame} (h : b.held = some r) :
    b.lastWord = 3 + ceilDiv r.frame.data.length 4 := by
  simp only [RxBuf.lastWord, h]

/-- A received frame of 516 data bytes. -/
def overlongFrame : RxFrame := { frame := { data := List.replicate 516 0 }, stamp := 0, tstate := 0 }

/-- Priority buffer 3 of square 0 is LOCKED and holds that frame, so that its word L has the address of the next square's page,
and that square is in reset. -/
def overlongInBuffer : State :=
  { chip := {
      can := [(0, { rx := [(19, { state := 2, held := some overlongFrame })] })]
      inReset := [(0x101, 0)] } }

theorem overlongInBuffer_lastWord : (overlongInBuffer.chip.rxBuf 0 19).lastWord = 132 := by
  have hlen : overlongFrame.frame.data.length = 516 := List.length_replicate
  have hheld : (overlongInBuffer.chip.rxBuf 0 19).held = some overlongFrame := rfl
  rw [RxBuf.lastWord_of_held hheld, hlen]
  decide

/-- The release of that buffer changes nothing. -/
theorem exec_rxMailboxRelease_overlong (k : Nat) (seen : Bool) :
    exec (.rxMailboxRelease k 0 19 seen) overlongInBuffer = .next overlongInBuffer := by
  have hrelease : doRxMailboxRelease k 0 19 seen overlongInBuffer.chip = overlongInBuffer.chip := by
    rw [doRxMailboxRelease_of_locked (by decide) (by decide) (by decide)]
    rw [overlongInBuffer_lastWord]
    exact Chip.volatileRead_of_held (by decide) ..
  refine (overlongInBuffer.onChip_pass .running _ (by decide)).trans ?_
  rw [hrelease]

/-- Refutes O6: its clause on RX_MAILBOX_RELEASE does not bound the held frame's length, and where word L lies in the next square's
page, in reset, the buffer stays LOCKED. -/
theorem not_canReceiveAndTimeCommands : ¬ Obligations.CanReceiveAndTimeCommands := by
  rintro ⟨-, -, -, -, release, -⟩
  obtain ⟨d, hd, hbuf, -⟩ := release overlongInBuffer 0 19 false (by decide) (by decide) (by decide)
  have hchip : overlongInBuffer.chip = d := by
    rw [exec_rxMailboxRelease_overlong] at hd
    exact congrArg State.chip (Host.Outcome.next.inj hd)
  have hlocked : (d.rxBuf 0 19).state = 2 := by
    rw [← hchip]
    decide
  rw [hbuf] at hlocked
  exact absurd hlocked (by decide)

end Sys2Proof.Machine

namespace Sys2Proof.Machine

/-! ## The status code of an own mailbox whose number is above 31 (R106)

TX_STAT[n/8] holds the status codes of mailboxes 0 to 31. The state's own frame on the bus names its mailbox by an unbounded number,
and for a number above 31 the word in which the code would stand is another register of the same page. -/

theorem Chip.mbStatus_144 (c : Chip) (q : Nat) : c.mbStatus q 144 = c.fldOf (Reg.CAN.ERR_FRAMES q) 3 0 := by
  have hplace : Reg.CAN.TX_STAT q (144 / 8) = Reg.CAN.ERR_FRAMES q := by simp only [Reg.CAN.TX_STAT, Reg.CAN.ERR_FRAMES]; omega
  rw [Chip.mbStatus, hplace]

theorem Chip.mbStatus_200 (c : Chip) (q : Nat) : c.mbStatus q 200 = c.fldOf (Reg.CAN.ARB_LOST_CNT q) 3 0 := by
  have hplace : Reg.CAN.TX_STAT q (200 / 8) = Reg.CAN.ARB_LOST_CNT q := by simp only [Reg.CAN.TX_STAT, Reg.CAN.ARB_LOST_CNT]; omega
  rw [Chip.mbStatus, hplace]

/-- Square 0 in NORMAL with a retry limit of 1 (CTRL[15:12]); its mailbox n, with a cancel latched, is on the bus. -/
def ownMailboxOnBus (n : Nat) : State :=
  { chip := {
      regs := [(Reg.CAN.CTRL 0, 0x1001), (Reg.CAN.STATUS 0, 0x10)]
      can := [(0, { tx := [(n, { cancel := true })], onBus := some (.mailbox n) })] } }

/-- An error frame ends the attempt of mailbox 144 with RETRY_EXHAUSTED, so that ERR_FRAMES, in which that code stands, loses its count. -/
theorem mbStatus_144_of_errorFrame :
    (doCanErrorFrame 0 1 {} 0 false false (ownMailboxOnBus 144).chip).mbStatus 0 144 = 6 := by decide

/-- A lost arbitration ends the attempt of mailbox 200 with CANCELLED, so that ARB_LOST_CNT, in which that code stands, loses its
count. -/
theorem mbStatus_200_of_arbitrationLost :
    (doCanArbitrationLost 0 (ownMailboxOnBus 200).chip).mbStatus 0 200 = 3 := by decide

/-- The part that a command which acts leaves is its effect's. -/
theorem State.chip_of_onChip_eq_next {s : State} {g : Gate} {f : Chip → Chip} {d : Chip} (hpass : s.chip.passes g = true)
    (hd : s.onChip g f = .next { s with chip := d }) : f s.chip = d := by
  rw [s.onChip_pass g f hpass] at hd
  exact congrArg State.chip (Host.Outcome.next.inj hd)

/-- Refutes O4: its clause on CAN_ERROR_FRAME, the sixth, does not bound the number of the own mailbox on the bus, and the status
code of mailbox 144 overwrites the count in ERR_FRAMES: 6 where the clause says 1. -/
theorem not_canControllerCommands : ¬ Obligations.CanControllerCommands := by
  rintro ⟨-, -, -, -, -, errorFrame, -⟩
  have hpass : (ownMailboxOnBus 144).chip.passes .running = true := by decide
  obtain ⟨d, hd, -, hcount, -⟩ := errorFrame (ownMailboxOnBus 144) 0 1 0 {} false false hpass (by decide) (by decide) (by decide)
  have hone : d.mbStatus 0 144 = 1 := by
    rw [Chip.mbStatus_144, Chip.fldOf, hcount]
    decide
  rw [← State.chip_of_onChip_eq_next (f := doCanErrorFrame 0 1 {} 0 false false) hpass hd, mbStatus_144_of_errorFrame] at hone
  exact absurd hone (by decide)

/-- Refutes O5: its clause on CAN_ARBITRATION_LOST, the fourth, does not bound the number of the own mailbox on the bus, and the
status code of mailbox 200 overwrites the count in ARB_LOST_CNT: 3 where the clause says 1. -/
theorem not_canTransmitCommands : ¬ Obligations.CanTransmitCommands := by
  rintro ⟨-, -, -, arbitrationLost, -⟩
  have hpass : (ownMailboxOnBus 200).chip.passes .running = true := by decide
  obtain ⟨d, hd, -, -, hcount, -⟩ := arbitrationLost (ownMailboxOnBus 200) 0 (.mailbox 200) hpass (by decide)
  have hone : d.mbStatus 0 200 = 1 := by
    rw [Chip.mbStatus_200, Chip.fldOf, hcount]
    decide
  rw [← State.chip_of_onChip_eq_next (f := doCanArbitrationLost 0) hpass hd, mbStatus_200_of_arbitrationLost] at hone
  exact absurd hone (by decide)

end Sys2Proof.Machine

namespace Sys2Proof.Machine

/-! ## The masked tables answer the lowest entry that matches (R202)

The model searches only the table words that are listed. The idea of the proof: an entry that matches holds VALID, so its
word that holds VALID is not zero and hence listed; the entries the search finds are thus all that match. -/

/-! ### The least of a list -/

theorem leastOf_eq_min? (l : List Nat) : leastOf l = l.min? := by
  induction l with
  | nil => rfl
  | cons n rest ih =>
    rw [leastOf, ih, List.min?_cons]
    cases rest.min? <;> rfl

/-- The least of a list that holds exactly the numbers with a property. -/
theorem leastOf_eq_some_iff_of_mem_iff {l : List Nat} {p : Nat → Prop} (hl : ∀ n, n ∈ l ↔ p n) (n : Nat) :
    leastOf l = some n ↔ p n ∧ ∀ m, m < n → ¬ p m := by
  simp only [leastOf_eq_min?, List.min?_eq_some_iff, hl]
  exact and_congr_right fun _ => forall_congr' fun m =>
    ⟨fun hle hm hp => Nat.not_lt.mpr (hle hp) hm, fun hnot hp => Nat.not_lt.mp fun hm => hnot hm hp⟩

/-! ### Which table words are listed -/

theorem mem_keys_of_lookupKey_ne_none {α : Type} {m : Sparse α} {k : Nat} (h : lookupKey m k ≠ none) : k ∈ m.map (·.1) := by
  induction m with
  | nil => exact absurd rfl h
  | cons entry rest ih =>
    obtain ⟨a, v⟩ := entry
    by_cases hk : k = a
    · simp [hk]
    · simp only [lookupKey, if_neg hk] at h
      exact List.mem_cons_of_mem _ (ih h)

/-- A word that is not zero in the current tables is listed there. -/
theorem Chip.mem_tbl_keys_of_tword_ne_zero {c : Chip} {off : Nat} (h : c.tword off ≠ 0) : off / 8 ∈ c.tbl.map (·.1) := by
  refine mem_keys_of_lookupKey_ne_none fun hnone => h ?_
  simp [Chip.tword, sget, hnone]

/-- A word that is not zero in the tables of some epoch is listed in the current or in the old tables. -/
theorem Chip.mem_keys_of_twordAt_ne_zero {c : Chip} {e off : Nat} (h : c.twordAt e off ≠ 0) :
    off / 8 ∈ c.tbl.map (·.1) ++ c.ep.oldTbl.map (·.1) := by
  rw [List.mem_append]
  cases hold : c.ep.oldTbl.lookup (off / 8) with
  | none =>
    refine .inl (c.mem_tbl_keys_of_tword_ne_zero ?_)
    simpa [Chip.twordAt, hold] using h
  | some v =>
    obtain ⟨_, _, hsplit, -⟩ := List.lookup_eq_some_iff.mp hold
    exact .inr (by simp [hsplit])

theorem Chip.mem_listedWords {c : Chip} {lo hi off : Nat} :
    off ∈ c.listedWords lo hi ↔
      8 ∣ off ∧ lo ≤ off ∧ off < hi ∧ off / 8 ∈ c.tbl.map (·.1) ++ c.ep.oldTbl.map (·.1) := by
  simp only [Chip.listedWords, List.mem_filterMap, Option.ite_none_right_eq_some, Bool.and_eq_true, decide_eq_true_eq,
    Option.some.injEq]
  constructor
  · rintro ⟨k, hk, ⟨hlo, hhi⟩, rfl⟩
    exact ⟨⟨k, rfl⟩, hlo, hhi, by rwa [Nat.mul_div_cancel_left k (by decide)]⟩
  · rintro ⟨⟨k, rfl⟩, hlo, hhi, hk⟩
    rw [Nat.mul_div_cancel_left k (by decide)] at hk
    exact ⟨k, hk, ⟨hlo, hhi⟩, rfl⟩

theorem ne_zero_of_bit {w : Nat} {v : BitVec w} {n : Nat} (h : bit v n = true) : v ≠ 0 := by
  rintro rfl
  simp [bit] at h

/-! ### The entries of a masked table that match -/

/-- The entry that the word at an offset makes a candidate, in a table of entries of `stride` bytes at `base` whose VALID is
bit 63 of the word at `valid`: its number, if it matches. -/
def Chip.maskedEntry (c : Chip) (e base stride valid : Nat) (agrees : Nat → Bool) (off : Nat) : Option Nat :=
  if (off - base) % stride = valid && bit (c.twordAt e off) 63 then
    if agrees ((off - base) / stride) then some ((off - base) / stride) else none
  else none

theorem Chip.maskedEntry_eq_some_iff {c : Chip} {e base stride valid : Nat} {agrees : Nat → Bool} {off n : Nat}
    (hvalid : valid < stride) (hbase : base ≤ off) :
    c.maskedEntry e base stride valid agrees off = some n ↔
      off = base + stride * n + valid ∧ bit (c.twordAt e off) 63 = true ∧ agrees n = true := by
  have hplace : (off - base) % stride = valid ∧ (off - base) / stride = n ↔ off = base + stride * n + valid := by
    rw [and_comm, Nat.div_mod_unique (by omega)]
    omega
  simp only [Chip.maskedEntry, Option.ite_none_right_eq_some, Bool.and_eq_true, decide_eq_true_eq, Option.some.injEq, ← hplace]
  constructor
  · rintro ⟨⟨hmod, hbit⟩, hagrees, hdiv⟩
    exact ⟨⟨hmod, hdiv⟩, hbit, hdiv ▸ hagrees⟩
  · rintro ⟨⟨hmod, hdiv⟩, hbit, hagrees⟩
    exact ⟨⟨hmod, hbit⟩, hdiv ▸ hagrees, hdiv⟩

/-- The search through the listed words of a masked table of `count` entries finds exactly the entries that match. -/
theorem Chip.mem_maskedEntries {c : Chip} {e base stride valid count : Nat} {agrees : Nat → Bool} (hvalid : valid < stride)
    (hbase8 : 8 ∣ base) (hstride8 : 8 ∣ stride) (hvalid8 : 8 ∣ valid) (n : Nat) :
    n ∈ (c.listedWords base (base + stride * count)).filterMap (c.maskedEntry e base stride valid agrees) ↔
      n < count ∧ bit (c.twordAt e (base + stride * n + valid)) 63 = true ∧ agrees n = true := by
  rw [List.mem_filterMap]
  constructor
  · rintro ⟨off, hoff, hentry⟩
    obtain ⟨-, hlo, hhi, -⟩ := Chip.mem_listedWords.mp hoff
    obtain ⟨rfl, hbit, hagrees⟩ := (Chip.maskedEntry_eq_some_iff hvalid hlo).mp hentry
    have hlt : stride * n < stride * count := by omega
    exact ⟨Nat.lt_of_mul_lt_mul_left hlt, hbit, hagrees⟩
  · rintro ⟨hn, hbit, hagrees⟩
    have hlo : base ≤ base + stride * n + valid := by omega
    have hend : stride * n + stride ≤ stride * count := Nat.mul_le_mul_left stride hn
    have h8 : 8 ∣ base + stride * n + valid :=
      Nat.dvd_add (Nat.dvd_add hbase8 (Nat.dvd_mul_right_of_dvd hstride8 n)) hvalid8
    exact ⟨_, Chip.mem_listedWords.mpr ⟨h8, hlo, by omega, Chip.mem_keys_of_twordAt_ne_zero (ne_zero_of_bit hbit)⟩,
      (Chip.maskedEntry_eq_some_iff hvalid hlo).mpr ⟨rfl, hbit, hagrees⟩⟩

/-- (key XOR VALUE) AND MASK is zero for an entry of the TCAM (R202). -/
def Chip.tcamAgrees (c : Chip) (e : Nat) (key : BitVec 256) (n : Nat) : Bool :=
  (List.range 4).all fun j =>
    ((BitVec.ofNat 64 (fld key (64 * j + 63) (64 * j)) ^^^ c.twordAt e (clsBase + 0x10_0000 + 128 * n + 8 * j)) &&&
      c.twordAt e (clsBase + 0x10_0000 + 128 * n + 32 + 8 * j)) == 0

/-- (K XOR VALUE) AND MASK is zero for a CAN masked entry (R202). -/
def Chip.canMaskAgrees (c : Chip) (e : Nat) (k : Word64) (n : Nat) : Bool :=
  ((k ^^^ c.twordAt e (clsBase + 0x2_0000 + 32 * n)) &&& c.twordAt e (clsBase + 0x2_0000 + 32 * n + 8)) == 0

theorem Chip.tcamHit_eq_leastOf (c : Chip) (e : Nat) (key : BitVec 256) :
    c.tcamHit e key = leastOf ((c.listedWords (clsBase + 0x10_0000) (clsBase + 0x10_0000 + 128 * 4096)).filterMap
      (c.maskedEntry e (clsBase + 0x10_0000) 128 64 (c.tcamAgrees e key))) := rfl

theorem Chip.maskedHit_eq_leastOf (c : Chip) (e : Nat) (k : Word64) :
    c.maskedHit e k = leastOf ((c.listedWords (clsBase + 0x2_0000) (clsBase + 0x2_0000 + 32 * 2048)).filterMap
      (c.maskedEntry e (clsBase + 0x2_0000) 32 16 (c.canMaskAgrees e k))) := rfl

theorem Chip.canMaskAgrees_iff {c : Chip} {e : Nat} {k : Word64} {n : Nat} :
    c.canMaskAgrees e k n = true ↔
      (k ^^^ c.twordAt e (clsBase + 0x2_0000 + 32 * n)) &&& c.twordAt e (clsBase + 0x2_0000 + 32 * n + 8) = 0 :=
  beq_iff_eq

/-- Settles O60: both tables are masked tables, and the answer is the least of the entries found to match. -/
theorem maskedLookupTakesTheLowestMatch : Obligations.MaskedLookupTakesTheLowestMatch := by
  refine ⟨fun c e n key => ?_, fun c e n k => ?_⟩
  · rw [c.tcamHit_eq_leastOf e key]
    exact leastOf_eq_some_iff_of_mem_iff
      (Chip.mem_maskedEntries (by decide) (by decide) (by decide) (by decide)) n
  · rw [c.maskedHit_eq_leastOf e k]
    simp only [← Chip.canMaskAgrees_iff]
    exact leastOf_eq_some_iff_of_mem_iff
      (Chip.mem_maskedEntries (by decide) (by decide) (by decide) (by decide)) n

end Sys2Proof.Machine
